-- ==== Sys2Proof/Word.lean ====
section
/-! DEFINITION. The word and byte types of the device's bus (R67, R68). -/
namespace Sys2Proof

/-- A 32-bit bus word. -/
abbrev Word := BitVec 32

/-- A byte of memory. -/
abbrev Byte := BitVec 8

end Sys2Proof
end

