-- ==== Sys2Proof/Syntax.lean ====
section
/-! DEFINITION. The commands of the block (one constructor per row of the opcode table) and the types of their
operands. -/
namespace Sys2Proof

/-- R107: the castes of a Stag pair. -/
inductive Caste where
  | queen | worker | drone
  deriving DecidableEq, Repr

/-- R86: the bus masters, in the order of their codes 0 to 7. -/
inductive Master where
  | internal | stagA | stagB | mantis | dma | eth | debug | lsp
  deriving DecidableEq, Repr

/-- Who makes a bus access. The caste counts for the Stag pairs only (R122). -/
structure Access where
  master : Master
  caste  : Caste
  deriving DecidableEq, Repr

/-- The two Stag pairs (R105). -/
inductive PairId where
  | a | b
  deriving DecidableEq, Repr


/-- R420: a CAN frame. `id` holds a base identifier in bits 28:18. -/
structure CanFrame where
  ide  : Bool
  id   : BitVec 29
  fdf  : Bool
  brs  : Bool
  rtr  : Bool
  esi  : Bool
  dlc  : Fin 16
  data : List (BitVec 8)
  deriving DecidableEq, Repr

/-- R434: what a transceiver in low power sees: a dominant level, with its length in 0.1 µs, or a frame received without error at
the rate of a code of `WRATE`. -/
inductive CanWake where
  | dominant (len : Nat)
  | frame (f : CanFrame) (rate : Fin 4)
  deriving DecidableEq, Repr

/-- R203: what the pulses of a SENT frame show: whether the nibble pulses are good, whether the CRC is right by the legacy and by
the recommended method, and the length of the calibration pulse in ns. -/
structure SentPulses where
  nib  : Bool
  pause : Bool
  crcL : Bool
  crcR : Bool
  cal  : Nat
  deriving DecidableEq, Repr

/-- R430, R431: the error in which an attempt ends: its code, whether it is of the data phase, and whether ISO 11898-1 excepts it from the
count of TEC. -/
structure CanErr where
  code  : Fin 7
  data  : Bool
  quiet : Bool
  deriving DecidableEq, Repr

/-- R314: the positive or negative rail of a channel, which has stood at `v` (0.1 V, its magnitude) for `held` ticks. -/
structure Rail where
  neg  : Bool
  v    : Fin 256
  held : Nat
  deriving DecidableEq, Repr

/-- R523: what a fabric port carried in a window: bytes read and written, and the largest counts of a 1 µs sub-window. -/
structure BwCount where
  rd    : BitVec 48
  wr    : BitVec 48
  peakR : BitVec 16
  peakW : BitVec 16
  deriving DecidableEq, Repr

/-- R109: the operations of class 0; `lui` takes its immediate alone. -/
inductive AluOp where
  | add | sub | and_ | or_ | xor_ | sll | srl | sra | slt | mov | lui
  deriving DecidableEq, Repr

/-- R112: the second source of a class 0 operation: a register (A format), or the immediate of the I format, sign- or
zero-extended. -/
inductive AluSrc where
  | reg (b : Fin 32)
  | imm (v : BitVec 16) (signed : Bool)
  deriving DecidableEq, Repr

/-- R109: the divisions of class 1. -/
inductive DivOp where
  | div | divu | rem
  deriving DecidableEq, Repr

/-- R109: the loads of class 2. -/
inductive LoadOp where
  | ldw | ldh | ldhu | ldb | ldbu | fld
  deriving DecidableEq, Repr

/-- R109: the stores of class 3. -/
inductive StoreOp where
  | stw | sth | stb | fst
  deriving DecidableEq, Repr

/-- R109, R112: the branches of class 4, with their word offsets. -/
inductive BranchOp where
  | beq (a b : Fin 32) (off : BitVec 16)
  | bne (a b : Fin 32) (off : BitVec 16)
  | blt (a b : Fin 32) (off : BitVec 16)
  | bge (a b : Fin 32) (off : BitVec 16)
  | j (off : BitVec 26)
  | jal (off : BitVec 26)
  | jr (a : Fin 32)
  | jalr (a : Fin 32)
  deriving DecidableEq, Repr

/-- R109: the FPU operations; `fcvt` converts a binary32 value to a signed integer or back, `fcmp` compares for equal, less, or
less or equal. -/
inductive FpuOp where
  | fadd | fsub | fmul | fma
  | fcvt (toInt : Bool)
  | feq | flt | fle
  | fmov
  deriving DecidableEq, Repr

/-- R143: what the check bits of the word accessed show, with the syndrome. -/
inductive Ecc where
  | good
  | corrected (syn : BitVec 8)
  | uncorrectable (syn : BitVec 8)
  deriving DecidableEq, Repr

/-- A Mantis instruction's issue: the engine, and what the check bits of the word fetched show (R143, R239). -/
structure MtFetch where
  engine : Fin 4
  ecc    : Ecc
  deriving DecidableEq, Repr

/-- The issue of a Mantis instruction that reads its engine's memories, with what the check bits of the first word it reads show. -/
structure MtAccess where
  engine : Fin 4
  ecc    : Ecc
  read   : Ecc
  deriving DecidableEq, Repr

/-- R143: what the check bits show a DMA channel of a word that it reads, and of the place it writes it to. -/
structure WordEcc where
  rd : Ecc := .good
  wr : Ecc := .good
  deriving DecidableEq, Repr

/-- R134: what one segment of a comparator meets in a cycle: the slices of the two cores' outputs, and the dual-rail code it delivers. -/
structure CmpSeg where
  main : BitVec 64 := 0
  chk  : BitVec 64 := 0
  rail : BitVec 2 := 1
  deriving DecidableEq, Repr

/-- R135: a group of a delay register: its bytes and their parity bits. -/
structure DelayGroup where
  data : BitVec 32 := 0
  par  : BitVec 4 := 0
  deriving DecidableEq, Repr

/-- R137: what a comparator and its delay registers show in the cycle of an injection. -/
structure CmpCycle where
  segs   : List CmpSeg
  groups : List DelayGroup
  deriving DecidableEq, Repr

/-- A Stag instruction's issue: the pair, and what the check bits of the word fetched show (R113, R143). -/
structure Fetch where
  pair : PairId
  ecc  : Ecc
  deriving DecidableEq, Repr


/-- The commands the block takes: one constructor per row of the opcode table. A row that a bus access issues carries the
access's master and caste (R86, R107); an event row carries what the event brings from outside (a measured value, a
converter's code, an outcome). -/
inductive Instr where
  /-- `REGISTER_WRITE` (R85): a 32-bit write at address `a`. -/
  | registerWrite (acc : Access) (a : BitVec 32) (v : BitVec 32)
  /-- `EVT_FLAGS_CLEAR` (R129): a W1C write of `EVT_FLAGS` of page `p`. -/
  | evtFlagsClear (acc : Access) (p : Fin 256) (v : BitVec 32)
  /-- `EVT_SET` (R76): a write of `EVT_SET` of page `p`. -/
  | evtSet (acc : Access) (p : Fin 256) (v : BitVec 32)
  /-- `REJECT_CLEAR` (R86): a write of 1 to bit 31 of `REJECT` of page `p`. -/
  | rejectClear (acc : Access) (p : Fin 256)
  /-- `LOCK_SET` (R78): a write of 1 to `LOCK.LCK` of page `p`. -/
  | lockSet (acc : Access) (p : Fin 256)
  /-- `LOCK_CLEAR` (R78): a write of 0 to `LOCK.LCK` of page `p`, with `key` in bits 31:16. -/
  | lockClear (acc : Access) (p : Fin 256) (key : BitVec 16)
  /-- `ARM` (R81): `EPOCH.ARM` of page `p`. -/
  | arm (acc : Access) (p : Fin 256)
  /-- `DISARM` (R81): `EPOCH.DISARM` of page `p`. -/
  | disarm (acc : Access) (p : Fin 256)
  /-- `CHECK_UPDATE` (R79): the check value of page `p` has been recomputed. -/
  | checkUpdate (p : Fin 256)
  /-- `PROFILE_WRITE` (R15): a write of `SYS:PROFILE`. -/
  | profileWrite (acc : Access) (v : BitVec 32)
  /-- `WAKE_START` (R55): `vin` at or above 11.5 V (in 10 mV) with an enabled wake source active starts BOOT; `src` holds the active sources in the order of `WAKE_SRC`, `svcen` the level of `SVCEN`. -/
  | wakeStart (vin : Nat) (src : Nat) (svcen : Bool)
  /-- `KEY_INACTIVE` (R55): KEY changing from active to inactive raises E006 without shutting the module down. -/
  | keyInactive
  /-- `VIN_FULL` (R53): `VIN`, measured in 10 mV, has stayed past the FULL threshold for the filter time. -/
  | vinFull (vin : Nat)
  /-- `VIN_REDUCED` (R53): `VIN` has stayed past the REDUCED threshold for the filter time. -/
  | vinReduced (vin : Nat)
  /-- `VIN_CRITICAL` (R53): `VIN` has stayed below the CRITICAL threshold for the filter time. -/
  | vinCritical (vin : Nat)
  /-- `BROWN_OUT` (R57): `VIN` has stayed below 10.5 V for 20 µs. -/
  | brownOut (vin : Nat)
  /-- `BROWN_OUT_SAVE_DONE` (R58): the save that runs through a brown-out ends, in success or failure, and the device enters OFF. -/
  | brownOutSaveDone (ok : Bool)
  /-- `VIN_OVER` (R53): `VIN` has stayed above 36.0 V for the filter time. -/
  | vinOver (vin : Nat)
  /-- `SHUTDOWN` (R59): a write of `SUPPLY:SHUTDOWN`. -/
  | shutdown (acc : Access) (v : BitVec 32)
  /-- `SHUTDOWN_COMPLETE` (R59): the save of an orderly shutdown ends. -/
  | shutdownComplete (ok : Bool)
  /-- `TILE_RAIL_WRITE` (R65): a write of `SUPPLY:TILE_RAIL`. -/
  | tileRailWrite (acc : Access) (v : BitVec 32)
  /-- `TILE_EN_WRITE` (R66): a masked write of `SUPPLY:TILE_EN`. -/
  | tileEnWrite (acc : Access) (v : BitVec 32)
  /-- `TILE_POWER_GOOD` (R66): converter `t` (0 to 7 tiles, 8 and 9 brake drives) reaches power good. -/
  | tilePowerGood (t : Fin 10)
  /-- `TILE_POWER_LIMIT` (R62): tile converter `t` reaches its power limit. -/
  | tilePowerLimit (t : Fin 8)
  /-- `SENSOR_SUPPLY_FAULT` (R34): a short on `VS5A`, `VS5B` or `VS12`. -/
  | sensorSupplyFault (i : Fin 3)
  /-- `VSAFE_LOW` (R29): VSAFE below 16 V makes Scarab hold every SOUT switch open. -/
  | vsafeLow
  /-- `BASEPLATE_WARN` (R63): the baseplate is measured at or above 85.0 °C (Q8.8). -/
  | baseplateWarn (temp : Nat)
  /-- `BASEPLATE_SS1` (R63): the baseplate is measured at or above 100.0 °C (Q8.8). -/
  | baseplateSs1 (temp : Nat)
  /-- `CLOCK_LOST` (R301): The clock monitor's report of a lost clock puts every leg in its safe state within 5 ns and raises E000. -/
  | clockLost
  /-- `IMAGE_VERIFIED` (R95): the boot ROM tries the banks, one of which is to verify; what it meets in each bank (1 header, 2 key hash, 3 signature, 5 ECC; 0 none) and the header versions. -/
  | imageVerified (resA : Fin 6) (resB : Fin 6) (verA : Nat) (verB : Nat)
  /-- `BOOT_NO_IMAGE` (R96): neither bank verifies. -/
  | bootNoImage (resA : Fin 6) (resB : Fin 6) (verA : Nat) (verB : Nat)
  /-- `SERVICE_IMAGE_LOAD` (R96): the ROM takes an image over the local service path into bank A, with its verification outcome and version. -/
  | serviceImageLoad (image : List (BitVec 8)) (res : Fin 6) (ver : Nat)
  /-- `SELFTEST_PASS` (R93): When every self-test has passed, the device enters RESTORE. -/
  | selftestPass
  /-- `SELFTEST_FAIL` (R92): the tests named by `tests` fail; `inj` gives what the comparator shows in the cycle of each injection that is not detected as it should be, by the injection's bit of `INJ_STAT`. -/
  | selftestFail (tests : Fin 128) (inj : List (Fin 32 × CmpCycle))
  /-- `RESTORE_COMPLETE` (R99): the restore of class K is complete; `bad` names the pages whose record fails. -/
  | restoreComplete (bad : List (Fin 256))
  /-- `GO_READY` (R89): `STATE_CMD` GO_READY. -/
  | goReady (acc : Access)
  /-- `AUTO_ZERO_DONE` (R230): the transition from HELD to READY ends; `ok` is the outcome of the plan's slot write, if one is needed. -/
  | autoZeroDone (ok : Bool)
  /-- `RUN` (R89): `STATE_CMD` RUN. -/
  | run (acc : Access)
  /-- `STOP` (R89): `STATE_CMD` STOP. -/
  | stop (acc : Access)
  /-- `STOP_DONE` (R554): `STATE_CMD` STOP_DONE. -/
  | stopDone (acc : Access)
  /-- `STOP_TIMEOUT` (R554): STOP_TMO elapsing since the entry to STOPPING completes the stop. -/
  | stopTimeout
  /-- `ACK` (R537): `STATE_CMD` ACK. -/
  | ack (acc : Access)
  /-- `RESET` (R89): `STATE_CMD` RESET. -/
  | reset (acc : Access)
  /-- `SCARAB_RESET_REQUEST` (R453): Scarab's reset request restarts the main die through BOOT from any powered state. -/
  | scarabResetRequest
  /-- `DBGNRST_LOW` (R529): On EX-6416-H12-D, DBGNRST held low for 1 us or more restarts the main die while Scarab keeps its state. -/
  | dbgnrstLow
  /-- `DEG_CONDITION_RISE` (R355): a degraded condition has risen; `event` is the event number that reported it, 0 for none. -/
  | degConditionRise (event : Fin 256)
  /-- `DEG_CONDITION_CLEAR` (R355): All DEG_COND bits clearing with DEG_LATCH at 0 takes DEGRADED back to RUN. -/
  | degConditionClear
  /-- `DEG_SET_WRITE` (R356): A masked write by Stag-A declares or clears software degraded conditions, and with LATCH sets DEG_LATCH. -/
  | degSetWrite (acc : Access) (v : BitVec 32)
  /-- `CONFIRM` (R97): `BOOT:CMD` CONFIRM. -/
  | confirm (acc : Access)
  /-- `ADVANCE` (R97): `BOOT:CMD` ADVANCE. -/
  | advance (acc : Access)
  /-- `BANK_SEL_WRITE` (R104): a write of `BOOT:BANK_SEL`. -/
  | bankSelWrite (acc : Access) (v : BitVec 32)
  /-- `SAVE` (R101): `COCOON:PAGE_CTRL.SAVE`. -/
  | save (acc : Access)
  /-- `SAVE_COMPLETE` (R101): a commanded save ends, in success or failure. -/
  | saveComplete (ok : Bool)
  /-- `PRIME` (R552): the `PRIME` command. -/
  | prime (acc : Access)
  /-- `DET_STAT_CLEAR` (R164): a W1C write of `SYS:DET_STAT`. -/
  | detStatClear (acc : Access) (v : BitVec 32)
  /-- `STAG_ALU` (R109): a class 0 instruction. -/
  | stagAlu (f : Fetch) (op : AluOp) (d a : Fin 32) (b : AluSrc)
  /-- `STAG_MUL` (R109): `MUL`, or `MULH` with `high`. -/
  | stagMul (f : Fetch) (high : Bool) (d a b : Fin 32)
  /-- `STAG_DIV` (R109): `DIV`, `DIVU` or `REM`. -/
  | stagDiv (f : Fetch) (op : DivOp) (d a b : Fin 32)
  /-- `STAG_LOAD` (R110): a load; whether the D-cache answers it where it can, and what the check bits of the word show. -/
  | stagLoad (f : Fetch) (k : LoadOp) (t a : Fin 32) (off : BitVec 16) (hit : Bool) (ecc : Ecc)
  /-- `STAG_STORE` (R110): a store; what the check bits of the word it changes show. -/
  | stagStore (f : Fetch) (k : StoreOp) (t a : Fin 32) (off : BitVec 16) (ecc : Ecc)
  /-- `STAG_BRANCH` (R108): a branch or jump. -/
  | stagBranch (f : Fetch) (op : BranchOp)
  /-- `STAG_FPU` (R109): an FPU operation. -/
  | stagFpu (f : Fetch) (op : FpuOp) (d a b : Fin 32)
  /-- `STAG_FDIV` (R109): `FDIV`, or `FSQRT` with `sqrt`. -/
  | stagFdiv (f : Fetch) (sqrt : Bool) (d a b : Fin 32)
  /-- `MFS` (R106): `MFS`. -/
  | mfs (f : Fetch) (d : Fin 32) (sreg : BitVec 12)
  /-- `MTS` (R106): `MTS`. -/
  | mts (f : Fetch) (a : Fin 32) (sreg : BitVec 12)
  /-- `TRAP` (R107): `TRAP`. -/
  | trap (f : Fetch)
  /-- `RETX` (R114): `RETX`. -/
  | retx (f : Fetch)
  /-- `BAR` (R118): `BAR`. -/
  | bar (f : Fetch)
  /-- `WFE` (R109): `WFE`. -/
  | wfe (f : Fetch)
  /-- `CINV` (R118): `CINV`. -/
  | cinv (f : Fetch)
  /-- `CFLUSH` (R118): `CFLUSH`. -/
  | cflush (f : Fetch)
  /-- `NOP` (R109): `NOP`. -/
  | nop (f : Fetch)
  /-- `STORE_BUS_ERROR` (R113): the bus error of a store that has left the buffer returns. -/
  | storeBusError (x : PairId)
  /-- `INTERRUPT_ENTRY` (R116): a pending interrupt is taken. -/
  | interruptEntry (x : PairId)
  /-- `PACT_ENTRY_WRITE` (R123): a write of `PACT:ENTRY_p`. -/
  | pactEntryWrite (acc : Access) (p : Fin 256) (v : BitVec 32)
  /-- `HIVE_EVENT_EDGE` (R128): Hive samples the line of event `n` as page `p` drives it, and finds a rising edge. -/
  | hiveEventEdge (n : Fin 256) (p : Fin 256)
  /-- `DMA_START` (R132): the `START` command of channel `c`. -/
  | dmaStart (acc : Access) (c : Fin 8)
  /-- `DMA_ABORT` (R132): the `ABORT` command of channel `c`. -/
  | dmaAbort (acc : Access) (c : Fin 8)
  /-- `DMA_COMPLETE` (R131): channel `c` moves its next `n` words, the last of the transfer among them where no more remain; what the check bits show of each, in their order (good where the list ends). -/
  | dmaComplete (c : Fin 8) (n : Nat) (ecc : List WordEcc)
  /-- `LOCKSTEP_DETECTION` (R139): a cycle of the comparator of pair `x`: what its segments 0 to 7 meet, the groups of the input and output delay registers; a difference in segment 7 is one the sweep found. -/
  | lockstepDetection (x : PairId) (segs : List CmpSeg) (groups : List DelayGroup) (sweep : Bool)
  /-- `FAST_REBOOT_START` (R139): the pair starts at its fast-reboot entry. -/
  | fastRebootStart (x : PairId)
  /-- `RESUMED` (R145): a write of `RESUMED_A` or `RESUMED_B`. -/
  | resumed (acc : Access) (x : PairId)
  /-- `RECOVERY_COAST_START` (R140): the pair is not back 5 ms after its detection. -/
  | recoveryCoastStart (x : PairId)
  /-- `RECOVERY_TIMEOUT` (R140): the pair is not back 50 ms after its detection. -/
  | recoveryTimeout (x : PairId)
  /-- `SCRUB_WORD` (R144): the scrubber reads a word of memory `r` (the regions of `ERR_LOG`), with what its check bits show. -/
  | scrubWord (r : Fin 6) (addr : BitVec 32) (ecc : Ecc)
  /-- `TRACK_ENABLE` (R183): Setting AT.n EN starts a track in ACQUIRE, or in VALID for a time track. -/
  | trackEnable (acc : Access) (n : Fin 8)
  /-- `TRACK_DISABLE` (R171): Clearing EN takes a track to DISABLED from every state. -/
  | trackDisable (acc : Access) (n : Fin 8)
  /-- `REACQ` (R171): The REACQ command takes an INVALID track to ACQUIRE. -/
  | reacq (acc : Access) (n : Fin 8)
  /-- `TRACK_CORRECTION` (R170): The correction delivered to track `n` is taken in the present tick. -/
  | trackCorrection (n : Fin 8)
  /-- `TRACK_SOURCE_TIMEOUT` (R172): SRC_TIME.TO elapsing without a correction takes a VALID track to COAST. -/
  | trackSourceTimeout (n : Fin 8)
  /-- `TRACK_COAST_EXPIRE` (R171): COAST.T elapsing since entry to COAST takes the track to INVALID. -/
  | trackCoastExpire (n : Fin 8)
  /-- `HALL_STANDSTILL` (R167): No Hall edge within SRC_TIME.TO sets omega to 0 and sets STILL. -/
  | hallStandstill (n : Fin 8)
  /-- `SLOT_FIRE` (R176): Slot `i` is evaluated in the present tick and takes the event that its lattice gives. -/
  | slotFire (i : Fin 64)
  /-- `SLOT_RESEAT_DONE` (R178): A re-seat scan ends after PTS ticks and sets the slot's k and r. -/
  | slotReseatDone (i : Fin 64)
  /-- `SLOT_ACTIONS` (R179): In the tick after a slot fires, its boundary, set, resync, Mantis and Hive actions take effect. -/
  | slotActions
  /-- `LOCK_EVENT` (R556): The lock lattice of track `n` takes the event that the present tick gives it. -/
  | lockEvent (n : Fin 8)
  /-- `SET_COMPLETE` (R206): Set `k` completes; `ws` holds the bit windows of its sigma-delta channels in list order. -/
  | setComplete (k : Fin 8) (ws : List (List Bool))
  /-- `SD_RAW_RESULT` (R190): A free-running window of input `n` ends; `w` holds its bits. -/
  | sdRawResult (n : Fin 48) (w : List Bool)
  /-- `SD_STUCK` (R191): STUCK consecutive equal bits on an input set its FAULT bit. -/
  | sdStuck (n : Fin 48)
  /-- `SD_CLOCK_FAULT` (R191): A modulator clock that does not toggle for two periods sets FAULT.CLK. -/
  | sdClockFault (g : Fin 6)
  /-- `SAR_SCAN_START` (R193): At each multiple of SCAN_PER a scan conversion starts, or is skipped and counted. -/
  | sarScanStart (n : Fin 4)
  /-- `SAR_CONVERSION_DONE` (R193): The conversion of converter `n` ends; `uv` is the voltage held, in µV. -/
  | sarConversionDone (n : Fin 4) (uv : Int)
  /-- `HVS_RESULT` (R195): A conversion of `HVS.i` is ready; `mv` is the voltage held, in mV. -/
  | hvsResult (i : Fin 8) (mv : Int) (fault : Bool)
  /-- `RESOLVER_SAMPLE` (R198): A raw sine and cosine pair; `ph` is the excitation's phase (U32), which counts in the first sample after the excitation's start. -/
  | resolverSample (r : Fin 2) (sn : BitVec 16) (cs : BitVec 16) (ph : BitVec 32)
  /-- `RESOLVER_ANGLE_DELIVERY` (R198): The resolver angle is delivered to Cicada 40 ticks after sampling. -/
  | resolverAngleDelivery (r : Fin 2)
  /-- `RESOLVER_FAULT` (R199): Fault `b` of R199. -/
  | resolverFault (r : Fin 2) (b : Fin 4)
  /-- `ENCODER_EDGE` (R200): New filtered levels of A and B of encoder `i`, with a pulse of Z. -/
  | encoderEdge (i : Fin 4) (a : Bool) (b : Bool) (z : Bool)
  /-- `ENCODER_DELIVERY` (R166): The encoder count is delivered to track `n`. -/
  | encoderDelivery (n : Fin 8)
  /-- `HALL_EDGE` (R201): A filtered Hall edge changes the sector and delivers a correction. -/
  | hallEdge (i : Fin 4) (code : Fin 8)
  /-- `TW_EDGE` (R202): A rising edge of tooth wheel `j`: Scarab's period since the last one in 48 MHz clocks, and the width of the tooth pulse in 0.1 µs. -/
  | twEdge (j : Fin 2) (p : Nat) (w : Nat)
  /-- `SENT_FRAME` (R203): A frame of SENT input `i`: what its pulses show, its status nibble, its data nibbles, and a slow-channel message it completes. -/
  | sentFrame (i : Fin 4) (p : SentPulses) (st : Fin 16) (ns : List (Fin 16)) (slow : Option (Nat × Nat))
  /-- `ZERO` (R229): CAL ZERO starts the averaging of 2^N results of the selected channel. -/
  | zero (acc : Access)
  /-- `ZERO_DONE` (R229): The average is written to ZERO_RES and to the pending OFS. -/
  | zeroDone
  /-- `STORE` (R226): CAL STORE captures the active values and writes a calibration record copy. -/
  | calStore (acc : Access)
  /-- `CAL_STORE_DONE` (R225): Completion of STORE loads REF_CHECK and compares CHECK with it. -/
  | calStoreDone
  /-- `RECALL` (R226): CAL RECALL loads the newer valid record into both banks. -/
  | recall (acc : Access)
  /-- `SCR_K_COMPUTE` (R222): Every 1 ms each HV channel's sense-cell ratio k is recomputed, and tracking OVLD codes follow. -/
  | scrKCompute
  /-- `ENGINE_ENABLE` (R238): Setting MT.e EN takes the engine from OFF to IDLE. -/
  | engineEnable (acc : Access) (e : Fin 4)
  /-- `ENGINE_DISABLE` (R238): Clearing EN aborts a run and takes the engine to OFF. -/
  | engineDisable (acc : Access) (e : Fin 4)
  /-- `MT_START` (R261): The START command of engine `e` with `SENT` = `x`. -/
  | mtStart (acc : Access) (e : Fin 4) (x : Fin 8)
  /-- `MT_CLEAR` (R261): CLEAR takes an engine in ERROR to IDLE and zeroes its counts. -/
  | mtClear (acc : Access) (e : Fin 4)
  /-- `ENGINE_START` (R236): A start from a set, slot, Hive or command takes the engine to RUN at its entry address. -/
  | engineStart (e : Fin 4)
  /-- `ENGINE_HELD_START` (R238): A start held behind an aborted run takes effect in the first tick after its instructions retire. -/
  | engineHeldStart (e : Fin 4)
  /-- `LDS` (R245): LDS latches a sample-set record into a vector and an angle register. -/
  | lds (f : MtFetch)
  /-- `LDX` (R246): `LDX`, with what the check bits of the word it reads show. -/
  | ldx (f : MtFetch) (ecc : Ecc)
  /-- `STS` (R246): STS stores elements to state memory, the mailbox, the track output or accumulator slots. -/
  | sts (f : MtAccess)
  /-- `MVM` (R249): MVM adds a matrix-vector product to the accumulators. -/
  | mvm (f : MtAccess)
  /-- `MVMZ` (R249): MVMZ clears the accumulators and then adds a matrix-vector product. -/
  | mvmz (f : MtAccess)
  /-- `VADD` (R250): VADD adds two vectors element-wise with saturation. -/
  | vadd (f : MtFetch)
  /-- `VSUB` (R250): VSUB subtracts two vectors element-wise with saturation. -/
  | vsub (f : MtFetch)
  /-- `VMUL` (R250): VMUL multiplies two vectors element-wise and converts the products. -/
  | vmul (f : MtFetch)
  /-- `ACV` (R250): ACV shifts accumulators and converts them to Q1.15 elements. -/
  | acv (f : MtFetch)
  /-- `SCS` (R251): SCS computes the cosine and sine of angles from the table. -/
  | scs (f : MtFetch)
  /-- `ROT` (R252): ROT rotates element pairs by a cosine and sine. -/
  | rot (f : MtFetch)
  /-- `LIM` (R253): LIM limits elements or accumulators symmetrically and sets LF. -/
  | lim (f : MtFetch)
  /-- `CLAMP` (R253): CLAMP bounds elements between two vectors and sets LF. -/
  | clamp (f : MtFetch)
  /-- `DUTY` (R254): DUTY divides voltage references by the link voltage and forms compare values. -/
  | duty (f : MtFetch)
  /-- `COMMIT` (R255): COMMIT sends duty registers to leg compare registers, optionally as one group. -/
  | commit (f : MtFetch)
  /-- `INJ` (R256): INJ adds the injection channel's value for this run to an element. -/
  | inj (f : MtFetch)
  /-- `CAP` (R276): CAP writes selected elements as a record to a capture channel. -/
  | cap (f : MtFetch)
  /-- `WAITE` (R257): WAITE holds issue until a new record of a set is written. -/
  | waite (f : MtFetch)
  /-- `WAITE_TIMEOUT` (R257): A WAITE timeout sets WTO and records an overrun of kind 3. -/
  | waiteTimeout (f : MtFetch)
  /-- `BR` (R257): BR sets the program counter to its target. -/
  | br (f : MtFetch)
  /-- `BRF` (R258): BRF branches on a run flag or an element test. -/
  | brf (f : MtFetch)
  /-- `LOOP` (R257): LOOP repeats a body of instructions count times. -/
  | loop (f : MtFetch)
  /-- `HALT` (R257): HALT ends the run, sets DONE and returns the engine to IDLE, or to ERROR at the overrun limit. -/
  | halt (f : MtFetch)
  /-- `PROF_WINDOW_END` (R279): At the end of each profiling window the counts are copied and PROF_SEQ advances. -/
  | profWindowEnd
  /-- `COMMIT_ARRIVAL` (R292): Committed compare values reach a leg and are applied, held or reloaded under its update mode. -/
  | commitArrival (e : Fin 4)
  /-- `CARRIER_ENABLE` (R285): a write of 0x0001_0001 to `CAR.n:PAGE_CTRL`. -/
  | carrierEnable (acc : Access) (n : Fin 16)
  /-- `CARRIER_ZERO_EVENT` (R281): the zero event of carrier `n` falls in the present tick. -/
  | carrierZeroEvent (n : Fin 16)
  /-- `CARRIER_PERIOD_EVENT` (R281): the period event of carrier `n` falls in the present tick. -/
  | carrierPeriodEvent (n : Fin 16)
  /-- `CHAIN_RESYNC` (R283): carrier `n` is resynced in the tick after the zero event of its chain source. -/
  | chainResync (n : Fin 16)
  /-- `GCOMMIT` (R291): a write of 0x0002_0002 to `CAR.n:PAGE_CTRL`. -/
  | gcommit (acc : Access) (n : Fin 16)
  /-- `LEG_ENABLE` (R304): a write of 0x0001_0001 to `FFLEG.m:PAGE_CTRL`. -/
  | legEnable (acc : Access) (m : Fin 32)
  /-- `DEBTCLR` (R297): a write of 0x0004_0004 to `FFLEG.m:PAGE_CTRL`. -/
  | debtclr (acc : Access) (m : Fin 32)
  /-- `FORCE` (R299): a write of `v` to `FFLEG.m:FORCE`. -/
  | force (acc : Access) (m : Fin 32) (v : BitVec 32)
  /-- `FORCE_APPLY` (R299): the waiting force of leg `m` takes effect. -/
  | forceApply (m : Fin 32)
  /-- `BOOTSTRAP_REFRESH` (R298): the refresh timer of leg `m` has reached 9 920 ticks. -/
  | bootstrapRefresh (m : Fin 32)
  /-- `GENP_SET` (R309): a write of 0x0001_0001 to `IC.t:PAGE_CTRL`. -/
  | genpSet (acc : Access) (t : Fin 8)
  /-- `GATE_ENABLE_WITHDRAWN` (R310): `GEN_S` (`bySafety`) or `GEN_P` is withdrawn at tile `t`. -/
  | gateEnableWithdrawn (t : Fin 8) (bySafety : Bool)
  /-- `CHANNEL_UVLO` (R315): a rail of channel `c`, which may be below its threshold. -/
  | channelUvlo (c : Fin 64) (r : Rail)
  /-- `CHANNEL_UVLO_RECOVER` (R315): a rail of channel `c`, which may be above its rising threshold again. -/
  | channelUvloRecover (c : Fin 64) (r : Rail)
  /-- `BOOTSTRAP_LOW` (R317): the bootstrap voltage of pair 24 + `j` is measured, in 0.1 V. -/
  | bootstrapLow (j : Fin 8) (v : Fin 256)
  /-- `HARD_TRIP` (R321): the sense current of channel `c` crosses HARD, OVLD detecting with it where `ovld` says so. -/
  | hardTrip (c : Fin 48) (ovld : Bool)
  /-- `OVLD_TRIP` (R321): the sense current of channel `c` is above OVLD after blanking. -/
  | ovldTrip (c : Fin 48)
  /-- `SOFT_TURNOFF_END` (R321): the soft turn-off of channel `c` ends. -/
  | softTurnoffEnd (c : Fin 48)
  /-- `HICCUP_RESTART` (R322): `HIC_OFF` has elapsed since the last trip of pair `k`. -/
  | hiccupRestart (k : Fin 24)
  /-- `PAIR_RESUME` (R324): a pair whose off condition has ended finds Firefly's high output off. -/
  | pairResume (k : Fin 32)
  /-- `FAULT_WINDOW_CLOSE` (R325): the collection window of fault group `g` closes. -/
  | faultWindowClose (g : Fin 8)
  /-- `CHANNEL_MEASUREMENT` (R329): the measurement point of an on-interval of channel `c`, with the sampled codes. -/
  | channelMeasurement (c : Fin 48) (isns : Nat) (vds : Nat)
  /-- `NTC_CONVERSION` (R330): NTC pair `n` is converted: its resistance in mΩ, none for an open or shorted NTC. -/
  | ntcConversion (n : Fin 14) (ohms : Option Nat)
  /-- `BRAKE_ENABLE` (R332): a write of `EN_n`. -/
  | brakeEnable (acc : Access) (n : Fin 2) (on : Bool)
  /-- `BRAKE_ON_CROSSING` (R332): the link rises to `BRK_TH_n.ON`. -/
  | brakeOnCrossing (n : Fin 2)
  /-- `BRAKE_OFF_CROSSING` (R332): the link falls to `BRK_TH_n.OFF`. -/
  | brakeOffCrossing (n : Fin 2)
  /-- `BRAKE_ENERGY_UPDATE` (R334): a microsecond has passed: both resistor estimates are updated. -/
  | brakeEnergyUpdate
  /-- `DC_LINK_OV_TRIP` (R335): The link reaching OV_TRIP names OV_LEGS in a class B reaction and turns both brakes on. -/
  | dcLinkOvTrip
  /-- `DC_LINK_OV_RELEASE` (R335): The link falling below OV_REL ends the overvoltage reaction. -/
  | dcLinkOvRelease
  /-- `DC_LINK_UV` (R335): A crossing below UV sets EVT_FLAGS.UV and raises E203. -/
  | dcLinkUv
  /-- `DF_ENABLE` (R365): Setting DF.i EN takes the instance to IDLE with its overrides OFF. -/
  | dfEnable (acc : Access) (i : Fin 2)
  /-- `DF_DISABLE` (R365): Clearing EN takes the instance to OFF and removes the overrides, except in FAULT. -/
  | dfDisable (acc : Access) (i : Fin 2)
  /-- `DF_START` (R366): START takes the instance from IDLE to RUN and starts slewing. -/
  | dfStart (acc : Access) (i : Fin 2)
  /-- `DF_STOP` (R367): STOP takes the instance to STOPPING toward the stop value. -/
  | dfStop (acc : Access) (i : Fin 2)
  /-- `DF_CLEAR` (R366): CLEAR returns failed phases to available and zeroes the fast-trip counts. -/
  | dfClear (acc : Access) (i : Fin 2)
  /-- `DF_CYCLE` (R361): A completion of `SRC.SET` in the previous tick. -/
  | dfCycle (i : Fin 2)
  /-- `DF_SLOT_DRAW` (R360): Tick z + 2 of a zero event of the master carrier. -/
  | dfSlotDraw (i : Fin 2)
  /-- `DF_TARGET_REACHED` (R368): r reaching the target in force sets TGT, or the stop value takes the instance to IDLE. -/
  | dfTargetReached (i : Fin 2)
  /-- `DF_HICCUP_RESTART` (R365): HIC_OFF elapsing returns a HICCUP instance to RUN. -/
  | dfHiccupRestart (i : Fin 2)
  /-- `HB_ENABLE` (R383): Setting HB EN takes Honeybee to IDLE with overrides on the source legs. -/
  | hbEnable (acc : Access)
  /-- `HB_CYCLE` (R380): A completion of the mains set in the previous tick. -/
  | hbCycle
  /-- `CHG_START` (R402): CHG_START starts a charge in SOURCE at its first applicable phase. -/
  | chgStart (acc : Access)
  /-- `CHG_STOP` (R401): CHG_STOP ends a running charge with cause 1. -/
  | chgStop (acc : Access)
  /-- `CHG_ACK` (R401): CHG_ACK clears BLOCK. -/
  | chgAck (acc : Access)
  /-- `PILOT_PERIOD` (R392): A pilot period: levels in 10 mV, duty in 0.1 %, period in µs. -/
  | pilotPeriod (hi : Int) (lo : Int) (d : Fin 1001) (per : Nat)
  /-- `PILOT_STATE_CHANGE` (R392): A pilot state held for CP_FILT is accepted and the state-C switch follows. -/
  | pilotStateChange
  /-- `PP_CHANGE` (R394): The resistance of `PP` to `PE` in Ω. -/
  | ppChange (ohms : Nat)
  /-- `ADU_ENABLE` (R411): Setting ADU.u EN takes the unit to IDLE with its overrides OFF. -/
  | aduEnable (acc : Access) (u : Fin 3)
  /-- `ADU_START` (R412): START runs the unit, which on ADU.2 means release. -/
  | aduStart (acc : Access) (u : Fin 3)
  /-- `ADU_STOP` (R412): STOP stops the unit, which on ADU.2 means engage. -/
  | aduStop (acc : Access) (u : Fin 3)
  /-- `ADU_CYCLE` (R408): A completion of `SRC.SET` in the previous tick. -/
  | aduCycle (u : Fin 3)
  /-- `ADU_HICCUP_RESTART` (R411): HIC_OFF elapsing returns a HICCUP unit to RUN. -/
  | aduHiccupRestart (u : Fin 3)
  /-- `PEAK_TIMEOUT` (R415): T_PEAK elapsing before a confirmed release is handled as an overcurrent. -/
  | peakTimeout
  /-- `ENGAGE_TIMEOUT` (R416): T_ENG elapsing without a confirmed engagement sets PLF and enters FAULT. -/
  | engageTimeout
  /-- `RELEASE_PERMISSION_WITHDRAWN` (R416): Scarab withdrawing park-lock release permission makes ADU.2 act as on STOP. -/
  | releasePermissionWithdrawn
  /-- `KD_ENABLE` (R424): a write that sets `KD.k:PAGE_CTRL.EN`. -/
  | kdEnable (acc : Access) (k : Fin 4)
  /-- `KD_DISABLE` (R424): a write that clears `EN`. -/
  | kdDisable (acc : Access) (k : Fin 4)
  /-- `CAN_INTEGRATION_DONE` (R424): eleven consecutive recessive bits have been seen. -/
  | canIntegrationDone (k : Fin 4)
  /-- `TX_REQ` (R429): `REQ` of the buffers in the mask `m`. -/
  | txReq (acc : Access) (k : Fin 4) (m : Fin 8)
  /-- `TX_CANCEL` (R428): `CANCEL` of the buffers in the mask `m`. -/
  | txCancel (acc : Access) (k : Fin 4) (m : Fin 8)
  /-- `TX_FRAME_START` (R426): a point where a frame may start. -/
  | txFrameStart (k : Fin 4)
  /-- `TX_ATTEMPT_END` (R427): an attempt ends (0 done, 1 arbitration lost, 2 error, which is `err`); its flags and the dominant bits after them count `eights` times eight; the loop delay where one was measured, and the ticks since its SOF sample point. -/
  | txAttemptEnd (k : Fin 4) (out : Fin 3) (err : CanErr) (eights : Nat) (tdc : Option (Fin 128)) (age : Nat)
  /-- `CAN_FRAME_RECEIVED` (R432): a frame is received without error; a REC above 127 becomes 119 + `low`; with the ticks since its SOF sample point. -/
  | canFrameReceived (k : Fin 4) (f : CanFrame) (low : Fin 9) (age : Nat)
  /-- `CAN_ERROR` (R431): a protocol error of code `code` in the arbitration or data phase, or a protocol exception, outside an attempt's end; `quiet`: it adds no one to a counter; its flags and the dominant bits after them count `eights` times eight. -/
  | canError (k : Fin 4) (px : Bool) (data : Bool) (code : Fin 7) (quiet : Bool) (eights : Nat)
  /-- `CAN_RECOVERY_DONE` (R424): 128 occurrences of eleven recessive bits. -/
  | canRecoveryDone (k : Fin 4)
  /-- `CAN_RECOVER` (R430): the `RECOVER` command. -/
  | canRecover (acc : Access) (k : Fin 4)
  /-- `RXF_POP` (R433): the `POP_f` command. -/
  | rxfPop (acc : Access) (k : Fin 4) (f : Fin 2)
  /-- `CLRCNT` (R438): the `CLRCNT` command. -/
  | clrcnt (acc : Access) (k : Fin 4)
  /-- `CAN_SLEEP` (R434): the `SLEEP` command. -/
  | canSleep (acc : Access) (k : Fin 4)
  /-- `CAN_SLEEP_ENTRY` (R434): the bus is idle. -/
  | canSleepEntry (k : Fin 4)
  /-- `CAN_WAKE_COMMAND` (R434): the `WAKE` command. -/
  | canWakeCommand (acc : Access) (k : Fin 4)
  /-- `CAN_WAKE_DETECTED` (R434): what the transceiver of bus `k` sees in low power; `vin` (10 mV) and `svcen` count from STANDBY. -/
  | canWakeDetected (k : Fin 4) (w : CanWake) (vin : Nat) (svcen : Bool)
  /-- `PHY_LINK_CHANGE` (R439): the PHY reports its link: 0 down, 1 at 100, 2 at 1000 Mbit/s, with its signal quality. -/
  | phyLinkChange (link : Fin 3) (sqi : Fin 8)
  /-- `PHY_MODE_SWITCH` (R439): In fallback mode the PHY switches between 1000BASE-T1 and 100BASE-T1 every 500 ms. -/
  | phyModeSwitch
  /-- `ETH_FRAME_RECEIVED` (R440): a frame (from the destination address, without FCS) is received; `fcs`: its FCS is good; its SFD ended `ago` ns before, as measured. -/
  | ethFrameReceived (frame : List (BitVec 8)) (fcs : Bool) (ago : Nat)
  /-- `ETH_TX_DONE` (R441): A software frame completes transmission and sets TXD. -/
  | ethTxDone
  /-- `REMOTE_REQUEST` (R445): a remote register service request from the permitted peer. -/
  | remoteRequest (payload : List (BitVec 8))
  /-- `SL_DATAGRAM` (R448): a datagram to `PORTS.SL` from the permitted peer. -/
  | slDatagram (payload : List (BitVec 8))
  /-- `STREAM_DATAGRAM_SEND` (R444): A streaming datagram is sent when full or 100 us after its first record. -/
  | streamDatagramSend
  /-- `PTP_STEP` (R442): a write of `PTP:STEP`. -/
  | ptpStep (acc : Access) (v : BitVec 32)
  /-- `TIME_NS_READ` (R442): a read of `PTP:TIME_NS`. -/
  | timeNsRead (acc : Access)
  /-- `PTP_TIMESTAMP` (R443): a frame of EtherType 0x88F7 is sent, with its sequenceId; its SFD ended `ago` ns before, as measured. -/
  | ptpTimestamp (ago : Nat) (id : BitVec 16)
  /-- `TS_POP` (R450): the `POP` command. -/
  | tsPop (acc : Access)
  /-- `FW_PROG` (R447): the `FW_PROG` command. -/
  | fwProg (acc : Access)
  /-- `FW_PROG_DONE` (R447): the programming run ends. -/
  | fwProgDone (ok : Bool)
  /-- `SCARAB_SELFTEST_DONE` (R453): Scarab's self-test ends, passed or failed. -/
  | scarabSelftestDone (ok : Bool)
  /-- `SCARAB_CHECK_DONE` (R496): Scarab's check of the commissioned set ends. -/
  | scarabCheckDone
  /-- `SCARAB_SUPPLY_FAULT` (R52): Scarab's supply outside its limits withdraws every GEN_S. -/
  | scarabSupplyFault
  /-- `SCARAB_SUPPLY_RECOVER` (R453): Recovery after 1 ms or more out of limits restarts Scarab from INIT and requests a reset. -/
  | scarabSupplyRecover
  /-- `SCARAB_CYCLE` (R451): a Scarab cycle ends; `a0`, `a1` are the 48 MHz clocks since the last rising edge of each tooth wheel. -/
  | scarabCycle (a0 : Nat) (a1 : Nat)
  /-- `SS1_TIMEOUT` (R467): `T_SS1` of zone `z` has elapsed. -/
  | ss1Timeout (z : Fin 4)
  /-- `SAFETY_INPUT_SAMPLE` (R455): the levels of channels A and B of the 16 safety inputs. -/
  | safetyInputSample (a : BitVec 16) (b : BitVec 16)
  /-- `TEST_PULSE` (R456): output `TP.n` begins its pulse; `ok`: its readback passes. -/
  | testPulse (n : Fin 8) (ok : Bool)
  /-- `SOUT_SWITCH_TEST` (R461): the switch test of an output, with the fault found (0 none) and the load current in 10 mA. -/
  | soutSwitchTest (n : Fin 4) (fault : Fin 5) (load : Fin 4096)
  /-- `SPEED_CROSSCHECK` (R463): the cross-check of a millisecond; `a0`, `a1` as in `SCARAB_CYCLE`. -/
  | speedCrosscheck (a0 : Nat) (a1 : Nat)
  /-- `SCARAB_CONTINUOUS_CHECK` (R496): the continuous check of the set; `workOk`: the working copy is intact. -/
  | scarabContinuousCheck (workOk : Bool)
  /-- `SAFETY_PDU_RECEIVED` (R486): a PDU arrives on port 0–3 (CAN, with its padding), 4 (UDP) or 5 (service path). -/
  | safetyPduReceived (port : Fin 6) (pdu : List (BitVec 8))
  /-- `VERDICT` (R487): a write of `SAFELINK:VERDICT`. -/
  | verdict (acc : Access) (v : BitVec 32)
  /-- `VERDICT_TIMEOUT` (R486): 1.0 ms has passed since a delivery without a verdict. -/
  | verdictTimeout
  /-- `CONNECTION_EXPIRY` (R489): the time expectation of connection `c` has elapsed. -/
  | connectionExpiry (c : Fin 128)
  /-- `OUT_PDU_PRODUCE` (R485): the period of OUT connection `c` has elapsed. -/
  | outPduProduce (c : Fin 128)
  /-- `LOAD` (R494): `SAFELINK:PAGE_CTRL.LOAD` is written. -/
  | load (acc : Access)
  /-- `CANDIDATE_CHECKED` (R494): Scarab's check of the candidate ends. -/
  | candidateChecked
  /-- `COMMISSION_STORE_DONE` (R495): the store of a confirmed set ends. -/
  | commissionStoreDone
  /-- `VTH_MEASUREMENT` (R500): the sample of a turn-on of channel `c`, in 10 mV, towards the median of `VTH_N`. -/
  | vthMeasurement (c : Fin 48) (v : Fin 65536)
  /-- `RON_WINDOW` (R501): a 1 s window of the high or low (`lo`) channel of pair `j` of tile `t` ends; a mean that is no whole number of µΩ is taken up or down. -/
  | ronWindow (t : Fin 6) (j : Fin 4) (lo : Bool) (up : Bool)
  /-- `ZTH_RECORD` (R502): one second has passed since STOPPING to READY. -/
  | zthRecord (t : Fin 6)
  /-- `CAP_MEASUREMENT` (R503): a pre-charge is complete; the crossings of 0.2 V_s and 0.6 V_s lie `d20` and `d60` ticks before the results that show them. -/
  | capMeasurement (d20 : Fin 200) (d60 : Fin 200)
  /-- `SCR_DRIFT_WINDOW` (R504): a 1 s window of the high or low (`lo`) channel of pair `j` of tile `t` ends. -/
  | scrDriftWindow (t : Fin 6) (j : Fin 4) (lo : Bool)
  /-- `XTAL_READING` (R505): a second has passed. -/
  | xtalReading
  /-- `PREVIEW` (R511): the `PREVIEW` command. -/
  | preview (acc : Access)
  /-- `LEDGER_RESET` (R506): the ledger's `RESET` command. -/
  | ledgerReset (acc : Access)
  /-- `SPARE_GO` (R512): the `GO` command of `SPARE`. -/
  | spareGo (acc : Access)
  /-- `SPARE_WAIT_DONE` (R512): `SP_WAIT` has elapsed. -/
  | spareWaitDone
  /-- `TAGCLR` (R521): the `TAGCLR` command of a pair's Antline page. -/
  | tagclr (acc : Access) (x : PairId)
  /-- `PMC_OVERFLOW` (R517): counter `n` of a pair, counting an event of the pipeline's timing, passes 2^48 − 1. -/
  | pmcOverflow (x : PairId) (n : Fin 8)
  /-- `CYCLE_LO_READ` (R517): a read of `CYCLE_LO` (`n` = 0) or of `PMC_LO` n − 1. -/
  | cycleLoRead (acc : Access) (x : PairId) (n : Fin 9)
  /-- `BW_WINDOW_END` (R523): a bandwidth window ends, with the counts of ports 0 to 15. -/
  | bwWindowEnd (counts : List BwCount)
  /-- `BW_THRESHOLD` (R524): the running count of port `p` exceeds its threshold. -/
  | bwThreshold (p : Fin 16)
  /-- `AUTH` (R525): the `AUTH` command. -/
  | auth (acc : Access)
  /-- `DEBUG_HALT` (R526): a halt command of `HALT_CTL` with its target. -/
  | debugHalt (acc : Access) (t : Fin 8)
  /-- `DEBUG_RESUME` (R526): a resume command. -/
  | debugResume (acc : Access) (t : Fin 8)
  /-- `DEBUG_STEP` (R527): a step command. -/
  | debugStep (acc : Access) (t : Fin 8)
  /-- `DBG_RVAL_WRITE` (R527): a write of `DBG_RVAL`. -/
  | dbgRvalWrite (acc : Access) (v : BitVec 32)
  /-- `POS_READ` (R183): A read of AT.n POS latches POS_FRAC and the velocity of the same tick. -/
  | posRead (acc : Access) (n : Fin 8)
  /-- `ANGLE_READ` (R216): A read of RSV.n ANGLE latches the velocity and CAP of the same pair. -/
  | angleRead (acc : Access) (r : Fin 2)
  /-- `SENT_DATA_READ` (R217): A read of SENT_DATA clears NEW. -/
  | sentDataRead (acc : Access) (i : Fin 4)
  /-- `VIN_MEAS_READ` (R64): a read of `SUPPLY:VIN_MEAS`. -/
  | vinMeasRead (acc : Access)
  /-- `CLOCK_RESTORED` (R301): The clock monitor stops reporting PCLK or MCLK lost, ending safe-state cause 3 and allowing ACK. -/
  | clockRestored
  /-- `VSAFE_RECOVERED` (R29): VSAFE rising back to 16 V or more lets Scarab close the SOUT switches again as their zones command. -/
  | vsafeRecovered
  /-- `BASEPLATE_LEVEL_CLEAR` (R63): the baseplate has cooled to `temp` (16-bit Q8.8 word). -/
  | baseplateLevelClear (temp : Nat)
  /-- `COMPARE_CROSSING` (R286): an edge of S of leg `m`, rising or falling, at `frac`/64 of the present tick. -/
  | compareCrossing (m : Fin 32) (rise : Bool) (frac : Fin 64)
  /-- `CARRIER_DISABLE` (R285): a write of 0x0001_0000 to `CAR.n:PAGE_CTRL`. -/
  | carrierDisable (acc : Access) (n : Fin 16)
  /-- `LEG_DISABLE` (R303): a write of 0x0001_0000 to `FFLEG.m:PAGE_CTRL`. -/
  | legDisable (acc : Access) (m : Fin 32)
  /-- `HB_DISABLE` (R383): Clearing HB EN takes Honeybee to OFF from any state and removes the overrides on the source legs. -/
  | hbDisable (acc : Access)
  /-- `ADU_DISABLE` (R411): Clearing ADU.u EN takes the unit to OFF and removes its overrides, and is refused in FAULT. -/
  | aduDisable (acc : Access) (u : Fin 3)
  /-- `ILLEGAL_INSTRUCTION` (R112): a word of class 7, of an unassigned opcode or with a reserved field that is not 0. -/
  | illegalInstruction (f : Fetch)
  deriving DecidableEq, Repr

end Sys2Proof
end

