-- ==== Sys2Proof/Machine/Operands.lean ====
section
/-! DEFINITION. Number formats, rounding, conversion and saturation (R7, R146 to R160), and the bit-field helpers every
block uses. Values are exact integers (in units of the format's LSB) until the one rounding the rule names. -/
namespace Sys2Proof.Machine

/-- Bits `lo + w - 1 : lo` of a word. -/
def bits (v lo w : Nat) : Nat := v / 2 ^ lo % 2 ^ w

/-- Bit `i` of a word. -/
def bit (v i : Nat) : Bool := v / 2 ^ i % 2 == 1

/-- The word with bits `lo + w - 1 : lo` replaced by `x`. -/
def putBits (v lo w x : Nat) : Nat := v - bits v lo w * 2 ^ lo + x % 2 ^ w * 2 ^ lo

/-- A Bool as a bit. -/
def b2n (b : Bool) : Nat := if b then 1 else 0

/-- The two's-complement reading of a `w`-bit word (R7). -/
def sgn (w v : Nat) : Int := if v % 2 ^ w < 2 ^ (w - 1) then ((v % 2 ^ w : Nat) : Int) else ((v % 2 ^ w : Nat) : Int) - 2 ^ w

/-- The `w`-bit two's-complement word of an integer, modulo 2^w. -/
def uns (w : Nat) (x : Int) : Nat := (x % (2 ^ w : Int)).toNat

/-- An integer bounded to `lo … hi`. -/
def clampI (lo hi x : Int) : Int := if x < lo then lo else if hi < x then hi else x

/-- A natural bounded above: the saturating counters of the register tables. -/
def satN (hi x : Nat) : Nat := if hi < x then hi else x

/-- The rounding modes of R154. -/
inductive Rnd where
  | rne | rna | trn
  deriving DecidableEq, Repr

/-- R154: the code of a `RND` field; 0b11 is refused on write and read here as TRN. -/
def Rnd.ofCode (n : Nat) : Rnd := if n = 0 then .rne else if n = 1 then .rna else .trn

/-- R154: the integer a mode gives for the exact quotient `n / d`, `d` positive. -/
def rdiv (m : Rnd) (n : Int) (d : Nat) : Int :=
  let q := n / (d : Int)
  let r2 := 2 * (n % (d : Int))
  match m with
  | .trn => q
  | .rne => if r2 < d then q else if (d : Int) < r2 then q + 1 else if q % 2 = 0 then q else q + 1
  | .rna => if r2 < d then q else if (d : Int) < r2 then q + 1 else if 0 ≤ n then q + 1 else q

/-- R154: round away `k` fractional bits. -/
def rshift (m : Rnd) (x : Int) (k : Nat) : Int := rdiv m x (2 ^ k)

/-- RNE of a quotient. -/
def rneDiv (n : Int) (d : Nat) : Int := rdiv .rne n d

/-- Saturation to `w` bits of two's complement; the flag says that it acted (R153). -/
def satS (w : Nat) (x : Int) : Int × Bool :=
  if x < -(2 ^ (w - 1)) then (-(2 ^ (w - 1)), true)
  else if 2 ^ (w - 1) - 1 < x then (2 ^ (w - 1) - 1, true) else (x, false)

/-- R153: conversion of a value with `k` surplus fractional bits to a 16-bit format: round, then saturate. -/
def convQ15 (m : Rnd) (x : Int) (k : Nat) : Int × Bool := satS 16 (rshift m x k)

/-- R152: a saturating accumulator addition in Q10.30; the flag is `AOV`. -/
def accAdd (a b : Int) : Int × Bool := satS 40 (a + b)

/-- R156: the difference of two U32 angles read as S32. -/
def angDiff (a b : Nat) : Int := sgn 32 (uns 32 ((a : Int) - (b : Int)))

/-- R158: the position of the leading one of the 16-bit word `v`, counted from bit 15 (the `k` of V = m × 2^-k). -/
def normShift (v : Nat) : Nat :=
  if 2 ^ 15 ≤ 2 * v then 0 else if 2 ^ 15 ≤ 4 * v then 1 else if 2 ^ 15 ≤ 8 * v then 2 else if 2 ^ 15 ≤ 16 * v then 3
  else if 2 ^ 15 ≤ 32 * v then 4 else if 2 ^ 15 ≤ 64 * v then 5 else 6

/-- R158: the seed table, 512 / (256 + i + 0.5) rounded to nearest in U2.16. -/
def rcpSeed (i : Nat) : Nat := (2 * 2 ^ 26 + (2 * i + 513)) / (2 * (2 * i + 513))

/-- R158: one Newton step r ← r × (2 − m × r), `m` in U0.16, `r` in U2.30, each intermediate truncated to U2.30. -/
def newtonStep (m r : Nat) : Nat := r * (2 ^ 31 - m * r / 2 ^ 16) / 2 ^ 30

/-- R158: the reciprocal of the normalised link voltage `m` (U0.16, leading one at bit 15), in U2.30. -/
def rcp (m : Nat) : Nat := newtonStep m (newtonStep m (rcpSeed (m / 2 ^ 7 % 2 ^ 8) * 2 ^ 14))

/-- R158, R159: the quotient q of a voltage reference `v` by the link voltage `vl` (both Q1.15), with the flags SAT and
RCP. -/
def dutyQuot (v vl : Int) : Int × Bool × Bool :=
  if vl < 0x200 then ((if 0 < v then 32767 else if v < 0 then -32768 else 0), false, true)
  else
    let n := vl.toNat
    let k := normShift n
    let m := n * 2 ^ (k + 1)
    let q := satS 16 (rneDiv (v * (rcp m : Int) * 2 ^ k) (2 ^ 30))
    (q.1, q.2, false)

/-- R160: the compare value of a quotient `q` on the compare range `p` (U24.6). -/
def dutyCompare (m : Rnd) (p : Nat) (q : Int) : Nat :=
  (clampI 0 p (rdiv m ((p : Int) * (32768 + q)) 65536)).toNat

end Sys2Proof.Machine
end

