-- ==== Sys2Proof/Machine/Compare.lean ====
section
/-! DEFINITION. The comparator of a Stag pair and its start-up injections (R134 to R137). The two-cycle delay of the checker core is
timing: a `LOCKSTEP_DETECTION` stands before the instruction whose outputs differ, as no differing output leaves the pair. -/
namespace Sys2Proof.Machine

/-- R134: a segment delivers 0b00 or 0b11. -/
def segAlarm (g : CmpSeg) : Bool := g.rail == 0 || g.rail == 3

/-- R134: a segment with a valid code finds its two slices different. -/
def segDiffers (g : CmpSeg) : Bool := ! segAlarm g && g.main != g.chk

/-- R135: a byte of a delay-register group and its parity bit do not agree; the parity is even (DESIGN CHOICE, log entry 136). -/
def groupBad (g : DelayGroup) : Bool :=
  (List.range 4).any (fun b => (List.range 8).foldl (fun p i => p ^^ g.data.getLsbD (8 * b + i)) (g.par.getLsbD b))

/-- R135: the detections of one cycle of a pair, as cause codes with their segments: of each cause the lowest segment (R136). -/
def cycleDets (c : CmpCycle) : List (Nat × Nat) :=
  let at_ := fun (cause : Nat) (p : CmpSeg → Bool) => match (c.segs.take 8).findIdx? p with
    | some i => [(cause, i)]
    | none => []
  at_ 1 segDiffers ++ at_ 2 segAlarm ++ if (c.groups.take 8).any groupBad then [(3, 0)] else []

/-- R137: what the comparator and the delay registers show in the cycle of injection `i`: a difference at segment `i`, or an inverted
parity bit in input delay group `i` − 8 or output delay group `i` − 12. -/
def injCycle (i : Nat) : CmpCycle :=
  { segs := (List.range 8).map (fun k => if k = i then { chk := 1 } else {})
    groups := (List.range 8).map (fun k => if k + 8 = i then { par := 1 } else {}) }

/-- R136, R137: injection `i` is detected with the expected cause and segment. -/
def injSeen (i : Nat) (c : CmpCycle) : Bool :=
  match cycleDets c with
  | [] => false
  | (cause, seg) :: l =>
    if i < 8 then cause == 1 && l.foldl (fun m d => if d.1 = 2 then min m d.2 else m) seg == i else cause == 3

/-- R137: what the comparator shows in the cycle of the injection of bit `b` of `INJ_STAT`, where `faults` lists the cycles that do
not go as they should. -/
def injAt (faults : List (Fin 32 × CmpCycle)) (b : Nat) : CmpCycle :=
  match faults.find? (fun x => x.1.val == b) with
  | some x => x.2
  | none => injCycle (b % 16)

/-- R137: `INJ_STAT` after the 32 injections, bit by bit. -/
def injStat (faults : List (Fin 32 × CmpCycle)) : Nat :=
  (List.range 32).foldl (fun w b => w + 2 ^ b * b2n (injSeen (b % 16) (injAt faults b))) 0

/-- R137: a dual-rail code 0b00 or 0b11 appears during the injections. -/
def injAlarm (faults : List (Fin 32 × CmpCycle)) : Bool :=
  (List.range 32).any (fun b => (injAt faults b).segs.any segAlarm)

theorem injStat_nil : injStat [] = 0xFFFFFFFF := by decide

end Sys2Proof.Machine
end

