-- ==== Sys2Proof/Config.lean ====
section
/-! DEFINITION. What one part fixes and the manual leaves open: constants and free values, none with a body. -/
namespace Sys2Proof

/-- Free values (the manual leaves the value open and the machine goes on): the n-th value drawn. The state's counter
`freeCtr` is advanced by each draw, so nothing relates two draws. Log entry 7. -/
opaque Config.freeWord : Nat → BitVec 32

/-- R449: the module's Ethernet MAC address, held in OTP and different on every part. Log entry 10. -/
opaque Config.otpMac : BitVec 48

/-- R498: the serial number of the Scarab die, held in OTP. Log entry 10. -/
opaque Config.otpSerial : BitVec 32

/-- R198: is the angle of a sine and a cosine, where it lies between two 16-bit angles, taken up or down? The manual gives no
rounding: a free function of the operands. Log entry 23. -/
opaque Config.angleUp : Int → Int → Bool

/-- R198: the angle of a zero pair, for which atan2 has no value: free. Log entry 23. -/
opaque Config.angleZero : BitVec 16

/-- R316: how many ticks after the full sink of a channel, begun in a given tick, its gate falls below `KSc` + 2.0 V. The board sets
it: a free function of both. Log entry 108. -/
opaque Config.gateFall : Nat → Nat → Nat

/-- R63: at a baseplate temperature (the Q8.8 word) of 85 °C and over the margin limits derate; the manual does not say to what. A
free function of the temperature and of the limit before it, times 256. Log entry 115. -/
opaque Config.derate : Nat → Int → Int

/-- R504: the current, in 0.1 A, at which a sigma-delta input is at full scale. The board sets it: a free function of the input. Log
entry 116. -/
opaque Config.phaseFs : Nat → Nat

/-- R525: does a signature (16 words, r then s) verify over SHA-256 of the serial number and the nonce (4 words), against the
service public key held in OTP? The manual does not give the key: a free function of what is signed. Log entry 29. -/
opaque Config.authOk : BitVec 32 → List (BitVec 32) → List (BitVec 32) → Bool

/-- R95: does an image, given by its bytes that are not 0, each with its place in the bank, have a well-formed header, carry the public
key whose hash is in OTP, and hold a signature that verifies under it? The manual gives neither the header's layout nor the key: a free
function of the bytes. Log entry 127. -/
opaque Config.imageOk : List (Nat × BitVec 8) → Bool

/-- R109: what a shift (0 left, 1 right, 2 arithmetic right) by 32 or more leaves, which the manual does not state. Log entry 30. -/
opaque Config.shiftOver : Nat → BitVec 32 → BitVec 32 → BitVec 32

/-- R109: what a division (0 `DIV`, 1 `DIVU`, 2 `REM`) leaves for a divisor of 0 and for a quotient outside the format, which the
manual does not state. Log entry 30. -/
opaque Config.divCorner : Nat → BitVec 32 → BitVec 32 → BitVec 32

/-- R109: the word that `FCMP` writes for a relation that holds or not; the manual does not give it. Log entry 30. -/
opaque Config.fcmpWord : Bool → BitVec 32

/-- R105: does the FPU detect tininess before rounding? IEEE 754 leaves it open. Log entry 30. -/
opaque Config.tinyBefore : Bool

/-- R105: does `FMA` raise NV for 0 × ∞ plus a quiet NaN? IEEE 754 leaves it open. Log entry 30. -/
opaque Config.fmaInvalid : Bool

end Sys2Proof
end

