-- ==== Sys2Proof/Machine/RegTable.lean ====
section
/-! DEFINITION. The register map: page allocation (R69), the common header (R72, R73), and each block's register table
with access type (R5), restore class (R6), epoch buffering, factory value and writable bits. -/
namespace Sys2Proof.Machine

/-- Access types of R5 (the suffix E is a flag of its own). -/
inductive RegAcc where
  | ro | rw | m | w1c | wo
  deriving DecidableEq, Repr

/-- Restore classes of R6. -/
inductive RegCls where
  | k | f | c | x
  deriving DecidableEq, Repr

/-- One line of a register table: first offset, stride and count of the instances it names, access, restore class,
epoch buffering, factory value and the bits a write can change (reserved and read-only bits excluded, R70). -/
structure RegRow where
  off    : Nat
  stride : Nat
  count  : Nat
  acc    : RegAcc
  cls    : RegCls
  epoch  : Bool
  fac    : Nat
  mask   : Nat
  deriving DecidableEq, Repr

/-- The block types of R69. -/
inductive PageKind where
  | sys | clk | supply | boot | cocoon | pact | hive | debug | antline | bwmon | ledger | spare
  | stag | checker | memctl | at | slots | sdg | sar | rsv | enc | hvs | sets | cal | mt | mtshared
  | car | ffleg | ic | brake | df | hb | pilot | adu | kd | eth | ptp | scarab | safelink
  deriving DecidableEq, Repr

/-- R69: the block type and instance of a page number; none for a page absent from the table. -/
def pageOf (p : Nat) : Option (PageKind × Nat) :=
  if p = 0x00 then some (.sys, 0) else if p = 0x01 then some (.clk, 0) else if p = 0x02 then some (.supply, 0)
  else if p = 0x03 then some (.boot, 0) else if p = 0x04 then some (.cocoon, 0) else if p = 0x05 then some (.pact, 0)
  else if p = 0x06 then some (.hive, 0) else if p = 0x07 then some (.debug, 0)
  else if p < 0x0A then some (.antline, p - 0x08) else if p = 0x0A then some (.bwmon, 0)
  else if p = 0x0B then some (.ledger, 0) else if p = 0x0C then some (.spare, 0) else if p < 0x10 then none
  else if p < 0x12 then some (.stag, p - 0x10) else if p = 0x12 then some (.checker, 0)
  else if p = 0x13 then some (.memctl, 0) else if p < 0x20 then none
  else if p < 0x28 then some (.at, p - 0x20) else if p < 0x2A then some (.slots, p - 0x28) else if p < 0x30 then none
  else if p < 0x36 then some (.sdg, p - 0x30) else if p < 0x3A then some (.sar, p - 0x36)
  else if p < 0x3C then some (.rsv, p - 0x3A) else if p = 0x3C then some (.enc, 0) else if p = 0x3D then some (.hvs, 0)
  else if p = 0x3E then some (.sets, 0) else if p = 0x3F then some (.cal, 0)
  else if p < 0x44 then some (.mt, p - 0x40) else if p = 0x44 then some (.mtshared, 0) else if p < 0x50 then none
  else if p < 0x60 then some (.car, p - 0x50) else if p < 0x80 then some (.ffleg, p - 0x60)
  else if p < 0x88 then some (.ic, p - 0x80) else if p = 0x88 then some (.brake, 0) else if p < 0x90 then none
  else if p < 0x92 then some (.df, p - 0x90) else if p < 0x98 then none else if p = 0x98 then some (.hb, 0)
  else if p = 0x99 then some (.pilot, 0) else if p < 0xA0 then none else if p < 0xA3 then some (.adu, p - 0xA0)
  else if p < 0xB0 then none else if p < 0xB4 then some (.kd, p - 0xB0) else if p < 0xB8 then none
  else if p = 0xB8 then some (.eth, 0) else if p = 0xB9 then some (.ptp, 0) else if p < 0xC0 then none
  else if p < 0xC8 then some (.scarab, p - 0xC0) else if p = 0xC8 then some (.safelink, 0) else none

/-- R69: the `TYPE` field of a block type. -/
def PageKind.typeCode : PageKind → Nat
  | .sys => 0x01 | .clk => 0x02 | .supply => 0x03 | .boot => 0x04 | .cocoon => 0x05 | .pact => 0x06 | .hive => 0x07
  | .debug => 0x08 | .antline => 0x09 | .bwmon => 0x0A | .ledger => 0x0B | .spare => 0x0C | .stag => 0x10
  | .checker => 0x11 | .memctl => 0x12 | .at => 0x20 | .slots => 0x21 | .sdg => 0x30 | .sar => 0x31 | .rsv => 0x32
  | .enc => 0x33 | .hvs => 0x34 | .sets => 0x35 | .cal => 0x36 | .mt => 0x40 | .mtshared => 0x41 | .car => 0x50
  | .ffleg => 0x51 | .ic => 0x58 | .brake => 0x59 | .df => 0x60 | .hb => 0x68 | .pilot => 0x69 | .adu => 0x70
  | .kd => 0x78 | .eth => 0x80 | .ptp => 0x81 | .scarab => 0x90 | .safelink => 0x91

/-- `PAGE_CAPS.LINES` (R73), as each block's chapter gives it (R553 and the register rules of the chapters). -/
def PageKind.lines (inst : Nat) : PageKind → Nat
  | .sys => 2 | .clk => 1 | .supply => 8 | .boot => 0 | .cocoon => 2 | .pact => 1 | .hive => 2 | .debug => 2
  | .antline => 2 | .bwmon => 2 | .ledger => 2 | .spare => 0 | .stag => 1 | .checker => 4 | .memctl => 2 | .at => 0
  | .slots => 32 | .sdg => 1 | .sar => 1 | .rsv => 1 | .enc => 2 | .hvs => 1 | .sets => 16 | .cal => 1 | .mt => 4
  | .mtshared => 0 | .car => 1 | .ffleg => 1 | .ic => 2 | .brake => 4 | .df => 4 | .hb => 5 | .pilot => 3 | .adu => 2
  | .kd => 4 | .eth => 3 | .ptp => 1 | .scarab => if inst = 0 then 5 else 0 | .safelink => 3

/-- R81: the factory `EPOCH.DOM` of a page; 0 where the block's chapter states none (DESIGN CHOICE, log entry 9). -/
def PageKind.epochDom (inst : Nat) : PageKind → Nat
  | .at => inst | .mt => inst | .df => 4 + inst | .hb => 6 | .adu => 7
  | .sys | .clk | .supply | .boot | .cocoon | .pact | .hive | .debug | .antline | .bwmon | .ledger | .spare | .stag
  | .checker | .memctl | .slots | .sdg | .sar | .rsv | .enc | .hvs | .sets | .cal | .mtshared | .car | .ffleg | .ic
  | .brake | .pilot | .kd | .eth | .ptp | .scarab | .safelink => 0

/-- The header registers of R72 that software or the restore machinery can write, beside `PAGE_CTRL`, which each
block's table below gives. `EPOCH` stands for its field `DOM` (R79, R81). -/
def rowsHeader : List RegRow :=
  [ ⟨0x010, 4, 1, .w1c, .x, false, 0, 0xFFFFFFFF⟩,
    ⟨0x014, 4, 1, .rw, .k, false, 0, 0xFFFFFFFF⟩,
    ⟨0x018, 4, 1, .wo, .f, false, 0, 0⟩,
    ⟨0x01C, 4, 1, .rw, .k, false, 0, 0x37F⟩,
    ⟨0x020, 4, 1, .w1c, .x, false, 0, 0x80000000⟩,
    ⟨0x024, 4, 1, .rw, .f, false, 0, 1⟩,
    ⟨0x028, 4, 1, .rw, .k, false, 0, 0x07000000⟩ ]

/-- Registers of the page kind `sys` after the header, and its `PAGE_CTRL`. -/
def rowsSys : List RegRow :=
  [ ⟨0x8, 4, 1, .m, .f, false, 0x0, 0x0⟩,  -- PAGE_CTRL
    ⟨0x40, 4, 1, .rw, .k, false, 0x0, 0x3⟩,  -- PROFILE
    ⟨0x44, 4, 1, .ro, .x, false, 0x0, 0x0⟩,  -- DEV_STATE
    ⟨0x48, 4, 1, .wo, .f, false, 0x0, 0x0⟩,  -- STATE_CMD
    ⟨0x4C, 4, 1, .w1c, .x, false, 0x0, 0x7F3F⟩,  -- RESET_CAUSE
    ⟨0x50, 4, 1, .w1c, .x, false, 0x0, 0xFFFFFFFF⟩,  -- RESTORE_PARTIAL
    ⟨0x54, 4, 1, .ro, .x, false, 0x0, 0x0⟩,  -- SELFTEST
    ⟨0x58, 4, 1, .w1c, .x, false, 0x0, 0xFF000F⟩,  -- DET_STAT
    ⟨0x5C, 4, 1, .ro, .x, false, 0x0, 0x0⟩,  -- DEG_COND
    ⟨0x60, 4, 1, .m, .f, false, 0x0, 0xFF⟩,  -- DEG_SET
    ⟨0x64, 4, 1, .rw, .k, false, 0x8B, 0xFF⟩,  -- DEG_TRK
    ⟨0x68, 4, 1, .rw, .k, false, 0x1388, 0xFFFF⟩ ]  -- STOP_TMO

/-- Registers of the page kind `clk` after the header, and its `PAGE_CTRL`. -/
def rowsClk : List RegRow :=
  []

/-- Registers of the page kind `supply` after the header, and its `PAGE_CTRL`. -/
def rowsSupply : List RegRow :=
  [ ⟨0x40, 4, 1, .ro, .x, false, 0x0, 0x0⟩,  -- VIN_MEAS
    ⟨0x44, 4, 1, .ro, .x, false, 0x0, 0x0⟩,  -- BAND
    ⟨0x48, 4, 1, .m, .f, false, 0x0, 0x3FF⟩,  -- TILE_EN
    ⟨0x4C, 4, 1, .rw, .k, false, 0x555555, 0xFFFFFF⟩,  -- TILE_RAIL
    ⟨0x50, 4, 1, .ro, .x, false, 0x0, 0x0⟩,  -- TILE_STAT
    ⟨0x54, 4, 1, .w1c, .x, false, 0x0, 0x7⟩,  -- SNSR_STAT
    ⟨0x58, 4, 1, .rw, .k, false, 0x3, 0x7F⟩,  -- WAKE_SRC
    ⟨0x5C, 4, 1, .ro, .x, false, 0x0, 0x0⟩,  -- PWR_MEAS
    ⟨0x60, 4, 1, .wo, .f, false, 0x0, 0x0⟩,  -- SHUTDOWN
    ⟨0x64, 4, 1, .ro, .x, false, 0x0, 0x0⟩ ]  -- T_BASE

/-- Registers of the page kind `boot` after the header, and its `PAGE_CTRL`. -/
def rowsBoot : List RegRow :=
  [ ⟨0x40, 4, 1, .rw, .x, false, 0x0, 0x101⟩,  -- BANK_SEL
    ⟨0x44, 4, 1, .ro, .x, false, 0x0, 0x0⟩,  -- STATUS
    ⟨0x48, 4, 1, .ro, .x, false, 0x0, 0x0⟩,  -- ROLLBACK
    ⟨0x4C, 4, 1, .ro, .x, false, 0x0, 0x0⟩,  -- VER_A
    ⟨0x50, 4, 1, .ro, .x, false, 0x0, 0x0⟩,  -- VER_B
    ⟨0x54, 4, 1, .wo, .f, false, 0x0, 0x0⟩ ]  -- CMD

/-- Registers of the page kind `cocoon` after the header, and its `PAGE_CTRL`. -/
def rowsCocoon : List RegRow :=
  [ ⟨0x8, 4, 1, .m, .f, false, 0x0, 0x0⟩,  -- PAGE_CTRL
    ⟨0x40, 4, 1, .ro, .x, false, 0x0, 0x0⟩,  -- SAVE_STAT
    ⟨0x44, 4, 1, .ro, .x, false, 0x0, 0x0⟩,  -- SEQ
    ⟨0x48, 4, 1, .ro, .x, false, 0x0, 0x0⟩ ]  -- SAVE_TIME

/-- Registers of the page kind `pact` after the header, and its `PAGE_CTRL`. -/
def rowsPact : List RegRow :=
  [ ⟨0x40, 4, 1, .w1c, .x, false, 0x0, 0xFFFFFFFF⟩,  -- VIOL
    ⟨0x44, 4, 1, .ro, .x, false, 0x0, 0x0⟩,  -- VIOL_CNT
    ⟨0x400, 4, 256, .rw, .k, false, 0xB0B, 0x3FF3F3F⟩ ]  -- ENTRY

/-- Registers of the page kind `hive` after the header, and its `PAGE_CTRL`. -/
def rowsHive : List RegRow :=
  [ ⟨0x40, 4, 8, .w1c, .x, false, 0x0, 0xFFFFFFFF⟩,  -- PEND_A
    ⟨0x60, 4, 8, .w1c, .x, false, 0x0, 0xFFFFFFFF⟩,  -- PEND_B
    ⟨0x80, 4, 8, .w1c, .x, false, 0x0, 0xFFFFFFFF⟩,  -- MERGE
    ⟨0xA0, 4, 1, .ro, .x, false, 0x0, 0x0⟩,  -- LATCH_TICK_A
    ⟨0xA4, 4, 1, .ro, .x, false, 0x0, 0x0⟩,  -- LATCH_TICK_B
    ⟨0x400, 4, 256, .rw, .k, false, 0x0, 0x8000737F⟩,  -- ROUTE
    ⟨0x800, 32, 8, .rw, .k, false, 0x0, 0xFFFFFFFC⟩,  -- DMA_SRC
    ⟨0x804, 32, 8, .rw, .k, false, 0x0, 0xFFFFFFFC⟩,  -- DMA_DST
    ⟨0x808, 32, 8, .rw, .k, false, 0x0, 0xFFFF⟩,  -- DMA_CNT
    ⟨0x80C, 32, 8, .m, .k, false, 0x0, 0x33C⟩,  -- DMA_CTRL
    ⟨0x810, 32, 8, .ro, .x, false, 0x0, 0x0⟩ ]  -- DMA_STAT

/-- Registers of the page kind `debug` after the header, and its `PAGE_CTRL`. -/
def rowsDebug : List RegRow :=
  [ ⟨0x8, 4, 1, .m, .f, false, 0x0, 0x0⟩,  -- PAGE_CTRL
    ⟨0x40, 4, 1, .ro, .x, false, 0x0, 0x0⟩,  -- DBG_STAT
    ⟨0x44, 4, 1, .wo, .f, false, 0x0, 0x0⟩,  -- HALT_CTL
    ⟨0x48, 4, 4, .ro, .x, false, 0x0, 0x0⟩,  -- AUTH_NONCE
    ⟨0x58, 4, 1, .rw, .f, false, 0x0, 0x17F⟩,  -- DBG_RSEL
    ⟨0x5C, 4, 1, .rw, .x, false, 0x0, 0xFFFFFFFF⟩,  -- DBG_RVAL
    ⟨0x100, 4, 16, .rw, .f, false, 0x0, 0xFFFFFFFF⟩ ]  -- AUTH_RESP

/-- Registers of the page kind `antline` after the header, and its `PAGE_CTRL`. -/
def rowsAntline : List RegRow :=
  [ ⟨0x8, 4, 1, .m, .f, false, 0x0, 0x0⟩,  -- PAGE_CTRL
    ⟨0x40, 4, 1, .rw, .k, false, 0x0, 0xFF⟩,  -- CTL
    ⟨0x44, 4, 1, .ro, .x, false, 0x0, 0x0⟩,  -- CYCLE_LO
    ⟨0x48, 4, 1, .ro, .x, false, 0x0, 0x0⟩,  -- CYCLE_HI
    ⟨0x50, 16, 8, .rw, .k, false, 0x700, 0x7FF⟩,  -- PMC_SEL
    ⟨0x54, 16, 8, .rw, .x, false, 0x0, 0xFFFFFFFF⟩,  -- PMC_LO
    ⟨0x58, 16, 8, .rw, .x, false, 0x0, 0xFFFF⟩,  -- PMC_HI
    ⟨0xD0, 4, 1, .w1c, .x, false, 0x0, 0xFF⟩,  -- PMC_OVF
    ⟨0xE0, 4, 1, .rw, .k, false, 0xACE10C70, 0xFFFF1F73⟩,  -- TAG_CTL
    ⟨0xE4, 4, 1, .ro, .x, false, 0x0, 0x0⟩,  -- TAG_STAT
    ⟨0x100, 4, 64, .ro, .x, false, 0x0, 0x0⟩ ]  -- TAG_REC

/-- Registers of the page kind `bwmon` after the header, and its `PAGE_CTRL`. -/
def rowsBwmon : List RegRow :=
  [ ⟨0x8, 4, 1, .m, .k, false, 0x0, 0x1⟩,  -- PAGE_CTRL
    ⟨0x40, 4, 1, .rw, .k, false, 0x3E8, 0xFFFFF⟩,  -- BW_CTL
    ⟨0x44, 4, 1, .ro, .x, false, 0x0, 0x0⟩,  -- BW_SEQ
    ⟨0x48, 4, 1, .w1c, .x, false, 0x0, 0xFFFF⟩,  -- THR_STAT
    ⟨0x100, 32, 16, .ro, .x, false, 0x0, 0x0⟩,  -- RD_LO
    ⟨0x104, 32, 16, .ro, .x, false, 0x0, 0x0⟩,  -- RD_HI
    ⟨0x108, 32, 16, .ro, .x, false, 0x0, 0x0⟩,  -- WR_LO
    ⟨0x10C, 32, 16, .ro, .x, false, 0x0, 0x0⟩,  -- WR_HI
    ⟨0x110, 32, 16, .ro, .x, false, 0x0, 0x0⟩,  -- PEAK
    ⟨0x114, 32, 16, .rw, .k, false, 0x0, 0xFFFFFFFF⟩,  -- THR
    ⟨0x118, 32, 16, .rw, .k, false, 0x0, 0x3⟩ ]  -- THR_CFG

/-- Registers of the page kind `ledger` after the header, and its `PAGE_CTRL`. -/
def rowsLedger : List RegRow :=
  [ ⟨0x8, 4, 1, .m, .k, false, 0x1, 0x9⟩,  -- PAGE_CTRL
    ⟨0x40, 4, 1, .rw, .k, false, 0x4000C8, 0xFFFFFF⟩,  -- VTH_CFG
    ⟨0x44, 4, 1, .rw, .k, false, 0x50000FA0, 0xFFFFFFFF⟩,  -- RON_CFG
    ⟨0x48, 4, 1, .rw, .k, false, 0xC8, 0x3FF⟩,  -- VDS_OFS
    ⟨0x4C, 4, 1, .rw, .k, false, 0x1F4, 0xFFFF⟩,  -- PRE_R
    ⟨0x50, 4, 1, .rw, .k, false, 0x1000180, 0xFFFFFFFF⟩,  -- PLAN_G
    ⟨0x54, 4, 1, .rw, .k, false, 0xF0A4000, 0xFFFFFFFF⟩,  -- PLAN_LIM
    ⟨0x58, 4, 1, .rw, .k, false, 0xC8, 0xFFFF⟩,  -- FC_NOM
    ⟨0x5C, 4, 1, .rw, .k, false, 0x66665333, 0xFFFFFFFF⟩,  -- MAINT_TH
    ⟨0x60, 4, 1, .rw, .k, false, 0x320666, 0xFFFFFF⟩,  -- MAINT_TH2
    ⟨0x64, 4, 1, .rw, .k, false, 0x5333, 0xFFFF⟩,  -- ZTH_MAINT
    ⟨0x68, 4, 6, .rw, .k, false, 0x0, 0xFFFF⟩,  -- OVLD_BASE
    ⟨0x80, 4, 2, .rw, .k, false, 0x0, 0xFFFF⟩,  -- DFTH_BASE
    ⟨0x88, 4, 1, .rw, .f, false, 0x0, 0x1⟩,  -- XTAL_CTL
    ⟨0x90, 4, 12, .rw, .k, false, 0x0, 0xFFFFFFFF⟩,  -- SCR_MAP
    ⟨0x100, 4, 48, .ro, .x, false, 0x40004000, 0x0⟩,  -- AGE
    ⟨0x1C0, 4, 48, .ro, .x, false, 0x0, 0x0⟩,  -- VTH
    ⟨0x280, 4, 6, .ro, .x, false, 0x4000, 0x0⟩,  -- ZTH
    ⟨0x2A0, 4, 1, .ro, .x, false, 0x7FFF0000, 0x0⟩,  -- CAP
    ⟨0x2A4, 4, 1, .ro, .x, false, 0x0, 0x0⟩,  -- XTAL
    ⟨0x2A8, 4, 1, .ro, .x, false, 0x0, 0x0⟩,  -- MAINT
    ⟨0x2AC, 4, 1, .ro, .x, false, 0x0, 0x0⟩,  -- PLAN_STAT
    ⟨0x2B0, 4, 6, .ro, .x, false, 0xC87FFF, 0x0⟩,  -- PLAN_F
    ⟨0x2C8, 4, 1, .ro, .x, false, 0x0, 0x0⟩,  -- PLAN_DLY
    ⟨0x2CC, 4, 1, .ro, .x, false, 0x0, 0x0⟩ ]  -- MCNT

/-- Registers of the page kind `spare` after the header, and its `PAGE_CTRL`. -/
def rowsSpare : List RegRow :=
  [ ⟨0x8, 4, 1, .m, .f, false, 0x0, 0x0⟩,  -- PAGE_CTRL
    ⟨0x40, 4, 1, .rw, .k, false, 0x0, 0x1⟩,  -- SP_MODE
    ⟨0x44, 4, 1, .rw, .f, false, 0x0, 0x1F⟩,  -- SP_SEL
    ⟨0x48, 4, 1, .rw, .k, false, 0x32, 0xFFFF⟩,  -- SP_WAIT
    ⟨0x4C, 4, 1, .ro, .x, false, 0x0, 0x0⟩ ]  -- SP_STAT

/-- Registers of the page kind `stag` after the header, and its `PAGE_CTRL`. -/
def rowsStag : List RegRow :=
  [ ⟨0x40, 4, 1, .ro, .x, false, 0x0, 0x0⟩,  -- PAIR_STAT
    ⟨0x48, 4, 1, .rw, .k, false, 0x2, 0x3⟩,  -- MPU_CTRL
    ⟨0x100, 8, 32, .rw, .k, false, 0x0, 0xFFFFFF00⟩,  -- MPU_BASE
    ⟨0x104, 8, 32, .rw, .k, false, 0x0, 0x80373F1F⟩ ]  -- MPU_ATTR

/-- Registers of the page kind `checker` after the header, and its `PAGE_CTRL`. -/
def rowsChecker : List RegRow :=
  [ ⟨0x8, 4, 1, .m, .f, false, 0x0, 0x0⟩,  -- PAGE_CTRL
    ⟨0x40, 4, 1, .ro, .x, false, 0x0, 0x0⟩,  -- STAT_A
    ⟨0x44, 4, 1, .ro, .x, false, 0x0, 0x0⟩,  -- STAT_B
    ⟨0x48, 4, 1, .ro, .x, false, 0x0, 0x0⟩,  -- CNT_A
    ⟨0x4C, 4, 1, .ro, .x, false, 0x0, 0x0⟩,  -- CNT_B
    ⟨0x50, 4, 1, .rw, .k, false, 0xFA0, 0xFFFF⟩,  -- SWEEP
    ⟨0x54, 4, 1, .rw, .k, false, 0x7D0, 0xFFFF⟩,  -- COAST
    ⟨0x58, 4, 1, .ro, .x, false, 0x0, 0x0⟩ ]  -- INJ_STAT

/-- Registers of the page kind `memctl` after the header, and its `PAGE_CTRL`. -/
def rowsMemctl : List RegRow :=
  [ ⟨0x40, 4, 1, .m, .k, false, 0x3F, 0x3F⟩,  -- ECC_CTRL
    ⟨0x44, 4, 1, .rw, .k, false, 0x64, 0xFFFF⟩,  -- SCRUB_RATE
    ⟨0x48, 4, 1, .ro, .x, false, 0x0, 0x0⟩,  -- CE_CNT
    ⟨0x4C, 4, 1, .ro, .x, false, 0x0, 0x0⟩,  -- UE_CNT
    ⟨0x50, 4, 1, .w1c, .x, false, 0x0, 0xFFFFFFFF⟩,  -- ERR_LOG
    ⟨0x54, 4, 1, .ro, .x, false, 0x0, 0x0⟩ ]  -- ERR_ADDR

/-- Registers of the page kind `at` after the header, and its `PAGE_CTRL`. -/
def rowsAt : List RegRow :=
  [ ⟨0x8, 4, 1, .m, .k, false, 0x0, 0x3⟩,  -- PAGE_CTRL
    ⟨0x40, 4, 1, .rw, .k, false, 0x0, 0xF7F⟩,  -- SRC
    ⟨0x44, 4, 1, .rw, .k, false, 0x1, 0xFFFFFFFF⟩,  -- SCALE
    ⟨0x48, 4, 1, .rw, .k, false, 0x0, 0xFFFFFFFF⟩,  -- OFFSET
    ⟨0x4C, 4, 1, .rw, .k, false, 0x14000A, 0xFFFFFF⟩,  -- SRC_TIME
    ⟨0x50, 4, 1, .rw, .k, false, 0x3E8, 0xFFFF⟩,  -- COAST
    ⟨0x54, 4, 1, .rw, .k, false, 0x10, 0xFF⟩,  -- ACQ
    ⟨0x58, 4, 1, .rw, .k, false, 0x1000000, 0xFFFFFFFF⟩,  -- ERR_MAX
    ⟨0x5C, 4, 1, .rw, .k, true, 0x0, 0xFFFF⟩,  -- LOCK_MAP
    ⟨0x60, 4, 1, .rw, .k, false, 0x800, 0xFFFFFFFF⟩,  -- LOCK_MIN
    ⟨0x64, 4, 1, .rw, .k, false, 0x0, 0xFFFFFFFF⟩,  -- HALL_ANG_0
    ⟨0x68, 4, 1, .rw, .k, false, 0x2AAAAAAB, 0xFFFFFFFF⟩,  -- HALL_ANG_1
    ⟨0x6C, 4, 1, .rw, .k, false, 0x55555555, 0xFFFFFFFF⟩,  -- HALL_ANG_2
    ⟨0x70, 4, 1, .rw, .k, false, 0x80000000, 0xFFFFFFFF⟩,  -- HALL_ANG_3
    ⟨0x74, 4, 1, .rw, .k, false, 0xAAAAAAAB, 0xFFFFFFFF⟩,  -- HALL_ANG_4
    ⟨0x78, 4, 1, .rw, .k, false, 0xD5555555, 0xFFFFFFFF⟩,  -- HALL_ANG_5
    ⟨0x7C, 4, 1, .rw, .k, false, 0x28BE60DC, 0xFFFFFFFF⟩,  -- MAINS_K
    ⟨0x80, 4, 1, .rw, .k, false, 0x1000, 0xFFFF⟩,  -- MAINS_MIN
    ⟨0x100, 4, 1, .rw, .k, true, 0x2000, 0xFFFF⟩,  -- FILT_P
    ⟨0x104, 4, 1, .rw, .k, true, 0x11A3D7, 0x3FFFFF⟩,  -- FILT_I
    ⟨0x108, 4, 1, .rw, .k, true, 0x0, 0xFFFFFFFF⟩,  -- VSET_LO
    ⟨0x10C, 4, 1, .rw, .k, true, 0x0, 0xFFFF⟩,  -- VSET_HI
    ⟨0x110, 4, 1, .rw, .k, true, 0x10000000, 0xFFFFFFFF⟩,  -- LOCK_STEP
    ⟨0x114, 4, 1, .rw, .k, true, 0x10, 0x1FF⟩,  -- LOCK_CFG
    ⟨0x118, 4, 1, .rw, .k, true, 0x0, 0xFFFFFFFF⟩,  -- LOCK_PH
    ⟨0x200, 4, 4, .ro, .x, false, 0x0, 0x0⟩,  -- POS, POS_FRAC, VEL_LO, VEL_HI
    ⟨0x210, 4, 3, .ro, .x, false, 0x0, 0x0⟩,  -- ERR, TSTAT, CNT
    ⟨0x21C, 4, 1, .w1c, .x, false, 0x0, 0x7⟩,  -- ARITH
    ⟨0x220, 4, 2, .ro, .x, false, 0x0, 0x0⟩ ]  -- LOCK_D, LOCK_D2

/-- Registers of the page kind `slots` after the header, and its `PAGE_CTRL`. -/
def rowsSlots : List RegRow :=
  [ ⟨0x100, 32, 32, .rw, .k, true, 0x0, 0x1FF0377⟩,  -- SLOT_CFG
    ⟨0x104, 32, 32, .rw, .k, true, 0x0, 0xFFFFFFFF⟩,  -- SLOT_BASE
    ⟨0x108, 32, 32, .rw, .k, true, 0x0, 0xFFFFFFFF⟩,  -- SLOT_STEP
    ⟨0x10C, 32, 32, .rw, .k, true, 0x0, 0xFFFFFFFF⟩,  -- SLOT_WIN
    ⟨0x110, 32, 32, .rw, .k, true, 0x0, 0x3FF7F⟩,  -- SLOT_ACT
    ⟨0x114, 32, 32, .ro, .x, false, 0x0, 0x0⟩,  -- SLOT_POS
    ⟨0x118, 32, 32, .ro, .x, false, 0x0, 0x0⟩ ]  -- SLOT_CNT

/-- Registers of the page kind `sdg` after the header, and its `PAGE_CTRL`. -/
def rowsSdg : List RegRow :=
  [ ⟨0x8, 4, 1, .m, .k, false, 0x0, 0x1⟩,  -- PAGE_CTRL
    ⟨0x40, 4, 1, .rw, .k, false, 0xA, 0x7001F⟩,  -- CLK_CFG
    ⟨0x44, 4, 1, .rw, .k, false, 0xFF, 0xFF⟩,  -- IN_EN
    ⟨0x48, 4, 1, .rw, .k, true, 0x102, 0x307⟩,  -- FILT
    ⟨0x4C, 4, 1, .rw, .k, false, 0x100, 0xFFFF⟩,  -- STUCK
    ⟨0x50, 4, 1, .w1c, .x, false, 0x0, 0x1FF⟩,  -- FAULT
    ⟨0x60, 4, 8, .ro, .x, false, 0x0, 0x0⟩ ]  -- RAW

/-- Registers of the page kind `sar` after the header, and its `PAGE_CTRL`. -/
def rowsSar : List RegRow :=
  [ ⟨0x8, 4, 1, .m, .k, false, 0x0, 0x3⟩,  -- PAGE_CTRL
    ⟨0x40, 4, 1, .rw, .k, false, 0x0, 0x7FFFFFF⟩,  -- SCAN_CFG
    ⟨0x44, 4, 1, .rw, .k, false, 0xC8, 0xFFFF⟩,  -- SCAN_PER
    ⟨0x60, 4, 8, .ro, .x, false, 0x0, 0x0⟩,  -- RES
    ⟨0x80, 4, 1, .w1c, .x, false, 0x0, 0xFF03⟩ ]  -- SAR_STAT

/-- Registers of the page kind `hvs` after the header, and its `PAGE_CTRL`. -/
def rowsHvs : List RegRow :=
  [ ⟨0x8, 4, 1, .m, .k, false, 0x1, 0xFF⟩,  -- PAGE_CTRL
    ⟨0x40, 4, 8, .rw, .k, false, 0x7FFF8000, 0xFFFFFFFF⟩,  -- TH
    ⟨0x60, 4, 8, .ro, .x, false, 0x0, 0x0⟩,  -- RES
    ⟨0x80, 4, 1, .w1c, .x, false, 0x0, 0xFFFFFF⟩ ]  -- HVS_STAT

/-- Registers of the page kind `rsv` after the header, and its `PAGE_CTRL`. -/
def rowsRsv : List RegRow :=
  [ ⟨0x8, 4, 1, .m, .k, false, 0x0, 0x1⟩,  -- PAGE_CTRL
    ⟨0x40, 4, 1, .rw, .k, false, 0x12710, 0x7FFFF⟩,  -- EXC
    ⟨0x44, 4, 1, .rw, .k, false, 0x10000000, 0xFFFFFFFF⟩,  -- DEMOD
    ⟨0x48, 4, 1, .rw, .k, false, 0x70002000, 0xFFFFFFFF⟩,  -- MAG
    ⟨0x4C, 4, 1, .w1c, .x, false, 0x0, 0xF⟩,  -- RSV_STAT
    ⟨0x50, 4, 5, .ro, .x, false, 0x0, 0x0⟩ ]  -- ANGLE, VEL_LO, VEL_HI, SC_RAW, CAP

/-- Registers of the page kind `enc` after the header, and its `PAGE_CTRL`. -/
def rowsEnc : List RegRow :=
  [ ⟨0x8, 4, 1, .m, .k, false, 0x0, 0x3FFF⟩,  -- PAGE_CTRL
    ⟨0x40, 4, 4, .rw, .k, false, 0x0, 0xFF37⟩,  -- ENC_CFG
    ⟨0x50, 4, 4, .ro, .x, false, 0x0, 0x0⟩,  -- ENC_CNT
    ⟨0x60, 4, 4, .ro, .x, false, 0x0, 0x0⟩,  -- ENC_ZLAT
    ⟨0x70, 4, 4, .rw, .k, false, 0x1402CC99, 0xFF03FFFF⟩,  -- HALL_CFG
    ⟨0x80, 4, 4, .ro, .x, false, 0x0, 0x0⟩,  -- HALL_STAT
    ⟨0x90, 4, 2, .rw, .k, false, 0x14, 0xFF⟩,  -- TW_CFG
    ⟨0x98, 4, 2, .ro, .x, false, 0x0, 0x0⟩,  -- TW_PER
    ⟨0xA0, 4, 4, .rw, .k, false, 0x7601E, 0x773FF⟩,  -- SENT_CFG
    ⟨0xB0, 4, 4, .ro, .x, false, 0x0, 0x0⟩,  -- SENT_DATA
    ⟨0xC0, 4, 4, .ro, .x, false, 0x0, 0x0⟩,  -- SENT_SLOW
    ⟨0xD0, 4, 1, .w1c, .x, false, 0x0, 0xF3FF⟩ ]  -- ENC_ERR

/-- Registers of the page kind `sets` after the header, and its `PAGE_CTRL`. -/
def rowsSets : List RegRow :=
  [ ⟨0x8, 4, 1, .m, .k, false, 0x0, 0x0⟩,  -- PAGE_CTRL
    ⟨0x100, 32, 8, .rw, .k, true, 0x0, 0x1F0F71⟩,  -- SS_CFG
    ⟨0x104, 32, 8, .rw, .k, true, 0x0, 0xFFFFFFFF⟩,  -- SS_LIST_0
    ⟨0x108, 32, 8, .rw, .k, true, 0x0, 0xFFFFFFFF⟩,  -- SS_LIST_1
    ⟨0x10C, 32, 8, .rw, .k, true, 0x0, 0xFFFFFFFF⟩,  -- SS_LIST_2
    ⟨0x110, 32, 8, .rw, .k, true, 0x0, 0xFFFFFFFF⟩,  -- SS_LIST_3
    ⟨0x114, 32, 8, .ro, .x, false, 0x0, 0x0⟩,  -- SS_STAT
    ⟨0x400, 4, 128, .ro, .x, false, 0x0, 0x0⟩ ]  -- SS_REC

/-- Registers of the page kind `cal` after the header, and its `PAGE_CTRL`. -/
def rowsCal : List RegRow :=
  [ ⟨0x8, 4, 1, .m, .k, false, 0x0, 0x0⟩,  -- PAGE_CTRL
    ⟨0x40, 4, 1, .rw, .f, false, 0xA00, 0xFFF⟩,  -- ZERO_CFG
    ⟨0x44, 4, 3, .ro, .x, false, 0x0, 0x0⟩,  -- ZERO_RES, CAL_STAT, REF_CHECK
    ⟨0x50, 4, 1, .rw, .k, false, 0x1900, 0xFFFF⟩,  -- SCR_TREF
    ⟨0x54, 4, 1, .w1c, .x, false, 0x0, 0x3F⟩,  -- CAL_SATF
    ⟨0x58, 4, 1, .rw, .k, false, 0x0, 0xFFFFFFFF⟩,  -- AUTOZ
    ⟨0x5C, 4, 1, .rw, .k, false, 0x0, 0xFFFF⟩,  -- AUTOZ_H
    ⟨0x60, 4, 1, .rw, .k, false, 0x40, 0xFFFF⟩,  -- AUTOZ_LIM
    ⟨0x100, 4, 48, .rw, .k, true, 0x40000000, 0xFFFFFFFF⟩,  -- SD_CAL
    ⟨0x1C0, 4, 32, .rw, .k, true, 0x40000000, 0xFFFFFFFF⟩,  -- AIN_CAL
    ⟨0x240, 4, 8, .rw, .k, true, 0x40000000, 0xFFFFFFFF⟩,  -- HVS_CAL
    ⟨0x260, 4, 4, .rw, .k, true, 0x40000000, 0xFFFFFFFF⟩,  -- SENT_CAL
    ⟨0x270, 16, 2, .rw, .k, true, 0x0, 0xFFFFFFFF⟩,  -- RSV_OFS
    ⟨0x274, 16, 2, .rw, .k, true, 0x4000, 0xFFFFFFFF⟩,  -- RSV_AQ
    ⟨0x300, 4, 32, .rw, .k, true, 0x0, 0xFFFFFFFF⟩,  -- RSV_H_0
    ⟨0x380, 4, 32, .rw, .k, true, 0x0, 0xFFFFFFFF⟩,  -- RSV_H_1
    ⟨0x400, 8, 48, .rw, .k, false, 0x0, 0xFFFFFFFF⟩,  -- SCR_K0
    ⟨0x404, 8, 48, .rw, .k, false, 0x0, 0xFFFFFFFF⟩,  -- SCR_A
    ⟨0x580, 4, 48, .ro, .x, false, 0x0, 0x0⟩ ]  -- SCR_K

/-- Registers of the page kind `mt` after the header, and its `PAGE_CTRL`. -/
def rowsMt : List RegRow :=
  [ ⟨0x8, 4, 1, .m, .k, false, 0x0, 0x1D⟩,  -- PAGE_CTRL
    ⟨0x40, 4, 1, .rw, .k, true, 0x410, 0xFF13⟩,  -- CFG
    ⟨0x44, 4, 1, .rw, .k, true, 0x0, 0xFFFFFF⟩,  -- ENT_SET
    ⟨0x48, 4, 1, .rw, .k, true, 0x0, 0x77⟩,  -- ENT_OTH
    ⟨0x4C, 4, 1, .rw, .k, true, 0x0, 0xFFFFFFFF⟩,  -- LEG_MASK
    ⟨0x50, 4, 1, .rw, .k, false, 0x0, 0x3⟩,  -- BIND
    ⟨0x60, 4, 8, .rw, .k, true, 0x0, 0xFFF⟩,  -- ENTRY
    ⟨0x80, 4, 1, .w1c, .x, false, 0x0, 0x7⟩,  -- ARITH
    ⟨0x84, 4, 7, .ro, .x, false, 0x0, 0x0⟩,  -- RUNF, PC, RUN_CYC, OVR_REC, OVR_TICK, CNT, ERR_STAT
    ⟨0xA0, 4, 1, .ro, .x, false, 0x8000, 0x0⟩,  -- KAPPA
    ⟨0xA4, 4, 2, .ro, .x, false, 0x0, 0x0⟩,  -- REJ_WADDR, MBOX_SEQ
    ⟨0x200, 4, 32, .ro, .x, false, 0x0, 0x0⟩,  -- MBOX
    ⟨0x400, 4, 128, .ro, .x, false, 0x0, 0x0⟩,  -- VVIEW
    ⟨0x600, 4, 32, .ro, .x, false, 0x0, 0x0⟩,  -- AVIEW
    ⟨0x680, 4, 16, .ro, .x, false, 0x0, 0x0⟩ ]  -- DVIEW

/-- Registers of the page kind `mtshared` after the header, and its `PAGE_CTRL`. -/
def rowsMtshared : List RegRow :=
  [ ⟨0x8, 4, 1, .m, .k, false, 0x0, 0x1⟩,  -- PAGE_CTRL
    ⟨0x40, 32, 4, .rw, .k, true, 0x0, 0xFFFF0737⟩,  -- INJ_CFG
    ⟨0x44, 32, 4, .rw, .k, true, 0x0, 0xFFFF⟩,  -- INJ_AMP
    ⟨0x48, 32, 4, .rw, .k, true, 0x0, 0xFFFFFFFF⟩,  -- INJ_F0
    ⟨0x4C, 32, 4, .rw, .k, true, 0x0, 0xFFFFFFFF⟩,  -- INJ_FSTEP
    ⟨0x50, 32, 4, .rw, .k, true, 0x0, 0xFFFFFFFF⟩,  -- INJ_FSTOP
    ⟨0x54, 32, 4, .rw, .k, true, 0x0, 0xFFFFFFFF⟩,  -- INJ_RUNS
    ⟨0xC0, 4, 4, .ro, .x, false, 0x0, 0x0⟩,  -- INJ_STAT
    ⟨0x100, 16, 4, .rw, .k, true, 0x0, 0xFFF1⟩,  -- CAP_CFG
    ⟨0x104, 16, 4, .rw, .k, true, 0x0, 0x3FFFF⟩,  -- CAP_BASE
    ⟨0x108, 16, 4, .rw, .k, true, 0x0, 0x7FFFF⟩,  -- CAP_SIZE
    ⟨0x10C, 16, 4, .ro, .x, false, 0x0, 0x0⟩,  -- CAP_PTR
    ⟨0x140, 4, 4, .ro, .x, false, 0x0, 0x0⟩,  -- CAP_STAT
    ⟨0x180, 16, 4, .ro, .x, false, 0x0, 0x0⟩,  -- PROF_BUSY
    ⟨0x184, 16, 4, .ro, .x, false, 0x0, 0x0⟩,  -- PROF_STARTS
    ⟨0x188, 16, 4, .ro, .x, false, 0xFFFFFF, 0x0⟩,  -- PROF_SLACK
    ⟨0x1C0, 4, 1, .rw, .k, false, 0x30D40, 0xFFFFFFFF⟩,  -- PROF_WIN
    ⟨0x1C4, 4, 1, .ro, .x, false, 0x0, 0x0⟩ ]  -- PROF_SEQ

/-- Registers of the page kind `car` after the header, and its `PAGE_CTRL`. -/
def rowsCar : List RegRow :=
  [ ⟨0x8, 4, 1, .m, .f, false, 0x0, 0x1⟩,  -- PAGE_CTRL
    ⟨0x40, 4, 1, .rw, .k, false, 0x100001, 0xFF0F11⟩,  -- CCFG
    ⟨0x44, 4, 1, .rw, .k, false, 0x138800, 0x3FFFFFFF⟩,  -- PER
    ⟨0x48, 4, 1, .rw, .k, false, 0x0, 0xBFFFFFFF⟩,  -- PHASE
    ⟨0x4C, 4, 1, .rw, .k, false, 0x0, 0xF3⟩,  -- CEVT
    ⟨0x50, 4, 1, .ro, .x, false, 0x138800, 0x0⟩,  -- PER_ACT (log entry 16)
    ⟨0x54, 4, 2, .ro, .x, false, 0x0, 0x0⟩ ]  -- CNT, CSTAT

/-- Registers of the page kind `ffleg` after the header, and its `PAGE_CTRL`. -/
def rowsFfleg : List RegRow :=
  [ ⟨0x8, 4, 1, .m, .f, false, 0x0, 0x3⟩,  -- PAGE_CTRL
    ⟨0x40, 4, 1, .rw, .k, false, 0x0, 0x7FF⟩,  -- CFG
    ⟨0x44, 4, 1, .rw, .k, false, 0x0, 0x3F⟩,  -- XBAR
    ⟨0x48, 4, 1, .rw, .k, false, 0x0, 0x71F⟩,  -- SAFE_CFG
    ⟨0x4C, 4, 1, .rw, .k, false, 0x1000, 0xFFFFFFFF⟩,  -- ASC_MIN
    ⟨0x50, 4, 1, .rw, .k, false, 0x0, 0x7⟩,  -- BIND
    ⟨0x54, 4, 1, .rw, .k, false, 0x0, 0xFFF0FFF⟩,  -- DLY_H
    ⟨0x58, 4, 1, .rw, .k, false, 0x0, 0xFFF0FFF⟩,  -- DLY_L
    ⟨0x5C, 4, 1, .rw, .k, false, 0x50, 0x33FF⟩,  -- MINPW
    ⟨0x60, 4, 1, .rw, .f, false, 0x0, 0x1F⟩,  -- FORCE
    ⟨0x64, 4, 1, .rw, .k, false, 0x0, 0xF3⟩,  -- EVT_CFG
    ⟨0x80, 4, 1, .rw, .f, false, 0x0, 0x3FFFFFFF⟩,  -- CMP_A
    ⟨0x84, 4, 1, .rw, .f, false, 0x0, 0x3FFFFFFF⟩,  -- CMP_B
    ⟨0x88, 4, 5, .ro, .x, false, 0x0, 0x0⟩ ]  -- CMP_A_ACT, CMP_B_ACT, DEBT, LEG_STAT, PCNT

/-- Registers of the page kind `icHv` after the header, and its `PAGE_CTRL`. -/
def rowsIcHv : List RegRow :=
  [ ⟨0x8, 4, 1, .m, .f, false, 0x0, 0x1⟩,  -- PAGE_CTRL
    ⟨0x40, 4, 1, .ro, .x, false, 0x0, 0x0⟩,  -- GEN_STAT
    ⟨0x44, 4, 1, .rw, .k, false, 0x3E80A03, 0xFFFFFFFF⟩,  -- HIC_CFG
    ⟨0x48, 4, 1, .rw, .k, false, 0x28, 0xFF03FF⟩,  -- MEAS_CFG
    ⟨0x4C, 4, 1, .rw, .k, false, 0xD7A03E8, 0xFFFFFFFF⟩,  -- TEMP_CFG
    ⟨0x50, 4, 1, .rw, .k, false, 0x7D006E00, 0xFFFFFFFF⟩,  -- TEMP_LIM
    ⟨0x54, 4, 3, .ro, .x, false, 0x0, 0x0⟩,  -- TEMP_0, TEMP_1, TSTAT
    ⟨0x60, 4, 1, .w1c, .x, false, 0x0, 0xFFFFF⟩,  -- TRIP
    ⟨0x64, 4, 1, .ro, .x, false, 0x0, 0x0⟩,  -- HIC_CNT
    ⟨0x68, 4, 1, .rw, .k, false, 0x0, 0xFFFF⟩,  -- FGRP
    ⟨0x6C, 4, 1, .ro, .x, false, 0x0, 0x0⟩,  -- MSKIP
    ⟨0x100, 16, 8, .rw, .k, false, 0xA00100, 0x3FF01FF⟩,  -- PROT
    ⟨0x104, 16, 8, .rw, .k, false, 0xA14, 0x1F7F⟩,  -- BLANK
    ⟨0x108, 16, 8, .rw, .k, false, 0x3E8, 0xFFFF⟩,  -- OVLD_A
    ⟨0x10C, 16, 8, .ro, .x, false, 0x0, 0x0⟩,  -- MEAS
    ⟨0x180, 4, 8, .ro, .x, false, 0x0, 0x0⟩ ]  -- IMAIN

/-- Registers of the page kind `icFg` after the header, and its `PAGE_CTRL`. -/
def rowsIcFg : List RegRow :=
  [ ⟨0x200, 4, 8, .rw, .k, false, 0x0, 0x1F⟩,  -- FG_CFG
    ⟨0x220, 4, 8, .rw, .k, false, 0x1000, 0xFFFFFFFF⟩,  -- FG_ASC
    ⟨0x240, 4, 8, .ro, .x, false, 0x0, 0x0⟩ ]  -- FG_STAT

/-- Registers of the page kind `icLv` after the header, and its `PAGE_CTRL`. -/
def rowsIcLv : List RegRow :=
  [ ⟨0x8, 4, 1, .m, .f, false, 0x0, 0x1⟩,  -- PAGE_CTRL
    ⟨0x40, 4, 1, .ro, .x, false, 0x0, 0x0⟩,  -- GEN_STAT
    ⟨0x4C, 4, 1, .rw, .k, false, 0xD7A03E8, 0xFFFFFFFF⟩,  -- TEMP_CFG
    ⟨0x50, 4, 1, .rw, .k, false, 0x7D006E00, 0xFFFFFFFF⟩,  -- TEMP_LIM
    ⟨0x54, 4, 1, .ro, .x, false, 0x0, 0x0⟩,  -- TEMP_0
    ⟨0x5C, 4, 1, .ro, .x, false, 0x0, 0x0⟩,  -- TSTAT
    ⟨0x70, 4, 1, .rw, .k, false, 0x0, 0xF⟩,  -- BST_CFG
    ⟨0x74, 4, 1, .ro, .x, false, 0x0, 0x0⟩ ]  -- BST_MEAS

/-- Registers of the page kind `brake` after the header, and its `PAGE_CTRL`. -/
def rowsBrake : List RegRow :=
  [ ⟨0x8, 4, 1, .m, .f, false, 0x0, 0x3⟩,  -- PAGE_CTRL
    ⟨0x40, 4, 2, .rw, .k, false, 0x519A5400, 0xFFFFFFFF⟩,  -- BRK_TH
    ⟨0x48, 4, 1, .rw, .k, false, 0x5000599A, 0xFFFFFFFF⟩,  -- OV_TH
    ⟨0x4C, 4, 1, .rw, .k, false, 0x2000, 0xFFFF⟩,  -- UV_TH
    ⟨0x50, 4, 1, .rw, .k, false, 0xA0A, 0xFFFF⟩,  -- BRK_TIME
    ⟨0x54, 4, 2, .rw, .k, false, 0x1F40, 0xFFFF⟩,  -- BRK_RES
    ⟨0x5C, 4, 1, .rw, .k, false, 0x18, 0x1F⟩,  -- EMOD
    ⟨0x60, 4, 2, .rw, .k, false, 0x9C40, 0xFFFF⟩,  -- EMAX
    ⟨0x68, 4, 1, .rw, .k, false, 0xFFF, 0xFFFFFFFF⟩,  -- OV_LEGS
    ⟨0x6C, 4, 1, .rw, .k, false, 0x3E80003, 0xFFFF000F⟩,  -- OV_HIC
    ⟨0x70, 4, 3, .ro, .x, false, 0x0, 0x0⟩ ]  -- BRK_STAT, E_0, E_1

/-- Registers of the page kind `df` after the header, and its `PAGE_CTRL`. -/
def rowsDf : List RegRow :=
  [ ⟨0x8, 4, 1, .m, .f, false, 0x0, 0x1⟩,  -- PAGE_CTRL
    ⟨0x40, 4, 1, .rw, .k, true, 0x71240, 0xF777F⟩,  -- CFG
    ⟨0x44, 4, 1, .rw, .k, false, 0x46502, 0xFFF07⟩,  -- SRC
    ⟨0x48, 4, 6, .rw, .k, false, 0x0, 0x8F1F⟩,  -- PH
    ⟨0x60, 4, 1, .rw, .k, false, 0xACE1000E, 0xFFFF000F⟩,  -- ILV
    ⟨0x100, 4, 1, .rw, .k, true, 0x0, 0xFFFF⟩,  -- TGT
    ⟨0x104, 4, 1, .rw, .k, true, 0x1AD7F2A, 0xFFFFFFFF⟩,  -- SLEW
    ⟨0x108, 4, 1, .rw, .k, true, 0x4000, 0xFFFF⟩,  -- DFF
    ⟨0x10C, 4, 1, .rw, .k, true, 0x4000, 0xFFFF⟩,  -- ILIM
    ⟨0x110, 4, 3, .rw, .k, true, 0x0, 0xFFFFFFFF⟩,  -- CV_B01, CV_B23, CV_A12
    ⟨0x11C, 4, 1, .rw, .k, true, 0x0, 0x7FFFF⟩,  -- CV_A3
    ⟨0x120, 4, 3, .rw, .k, true, 0x0, 0xFFFFFFFF⟩,  -- CI_B01, CI_B23, CI_A12
    ⟨0x12C, 4, 1, .rw, .k, true, 0x0, 0x7FFFF⟩,  -- CI_A3
    ⟨0x130, 4, 1, .rw, .k, true, 0x20C5, 0xFFFFFF⟩,  -- OL_ALPHA
    ⟨0x134, 4, 1, .rw, .k, true, 0x73336000, 0xFFFFFFFF⟩,  -- OL_TH
    ⟨0x138, 4, 1, .rw, .k, true, 0x20000008, 0xFFFFFFFF⟩,  -- OL_STEP
    ⟨0x13C, 4, 1, .rw, .k, true, 0x1000200, 0xFFFFFFFF⟩,  -- SW_CFG
    ⟨0x140, 4, 1, .rw, .k, true, 0x140064, 0xFFFF01FF⟩,  -- SW_TIME
    ⟨0x144, 4, 1, .rw, .k, true, 0x7D000C8, 0xFFFFFFFF⟩,  -- SHED_CFG
    ⟨0x148, 4, 1, .rw, .k, true, 0x100, 0xFFFF⟩,  -- SHED_STEP
    ⟨0x150, 4, 5, .rw, .k, true, 0x0, 0xFFFFFFFF⟩,  -- SHED_TH
    ⟨0x164, 4, 1, .rw, .k, true, 0xA, 0x1F⟩,  -- I2T_SH
    ⟨0x168, 4, 1, .rw, .k, true, 0x1000000, 0xFFFFFFFF⟩,  -- I2T_TH
    ⟨0x16C, 4, 1, .rw, .k, true, 0xC1400, 0x1FFFFF⟩,  -- TH_CFG
    ⟨0x170, 4, 1, .rw, .k, true, 0x73006400, 0xFFFFFFFF⟩,  -- TH_LIM
    ⟨0x174, 4, 1, .rw, .k, true, 0x6000, 0xFFFF⟩,  -- TH_DER
    ⟨0x178, 4, 1, .rw, .k, true, 0xA0007, 0xFFFF000F⟩,  -- FAST_CFG
    ⟨0x17C, 4, 1, .rw, .k, true, 0x3C6403, 0xFFFFFF0F⟩,  -- HIC_CFG
    ⟨0x200, 4, 4, .ro, .x, false, 0x0, 0x0⟩,  -- DSTAT, REF, ISUM, OLF
    ⟨0x210, 4, 6, .ro, .x, false, 0x0, 0x0⟩,  -- PH_STAT
    ⟨0x228, 4, 6, .ro, .x, false, 0x0, 0x0⟩,  -- I2T
    ⟨0x240, 4, 2, .ro, .x, false, 0x0, 0x0⟩,  -- PERM, CNT
    ⟨0x248, 4, 1, .w1c, .x, false, 0x0, 0x7⟩,  -- ARITH
    ⟨0x24C, 4, 1, .ro, .x, false, 0x0, 0x0⟩ ]  -- CAUSE

/-- Registers of the page kind `hb` after the header, and its `PAGE_CTRL`. -/
def rowsHb : List RegRow :=
  [ ⟨0x8, 4, 1, .m, .f, false, 0x0, 0x1⟩,  -- PAGE_CTRL
    ⟨0x40, 4, 1, .rw, .k, false, 0x4663224, 0xFFFF377⟩,  -- SRC
    ⟨0x44, 4, 1, .rw, .k, false, 0x7F0000, 0xFFFFFFFF⟩,  -- SRC_LEGS
    ⟨0x48, 4, 1, .rw, .k, false, 0x83127, 0xFFFFFFFF⟩,  -- IIN_K
    ⟨0x100, 4, 1, .rw, .k, true, 0x78, 0x7F⟩,  -- CFG
    ⟨0x104, 4, 1, .rw, .k, true, 0x2C251AC2, 0xFFFFFFFF⟩,  -- VD_WIN
    ⟨0x108, 4, 1, .rw, .k, true, 0x57403C6, 0xFFFFFFFF⟩,  -- F_WIN
    ⟨0x10C, 4, 1, .rw, .k, true, 0x10000002, 0xFFFF00FF⟩,  -- LOSS
    ⟨0x110, 4, 1, .rw, .k, true, 0x27109C40, 0xFFFFFFFF⟩,  -- REQ
    ⟨0x114, 4, 1, .rw, .k, true, 0x4FDF51EC, 0xFFFFFFFF⟩,  -- VLINK
    ⟨0x118, 4, 1, .rw, .k, true, 0x8000106, 0xFFFFFFFF⟩,  -- SHARE
    ⟨0x11C, 4, 1, .rw, .k, true, 0x7FFF, 0xFFFF⟩,  -- ISUP
    ⟨0x120, 4, 1, .rw, .k, true, 0x5000051F, 0xFFFFFFFF⟩,  -- FG_LIM
    ⟨0x124, 4, 1, .rw, .k, true, 0x333019A, 0xFFFFFFFF⟩,  -- FG_STEP
    ⟨0x128, 4, 1, .rw, .k, true, 0x1501AC, 0xFFFFFFFF⟩,  -- FG_COND
    ⟨0x12C, 4, 1, .rw, .k, true, 0x2EE00FA0, 0xFFFFFFFF⟩,  -- FG_TIME
    ⟨0x130, 4, 1, .rw, .k, true, 0xA4, 0xFFFF⟩,  -- FG_BAND
    ⟨0x180, 4, 1, .rw, .k, true, 0x0, 0xFFFF⟩,  -- CHG_I_0
    ⟨0x190, 4, 1, .rw, .k, true, 0x0, 0xFFFF⟩,  -- CHG_I_1
    ⟨0x1A0, 4, 1, .rw, .k, true, 0x0, 0xFFFF⟩,  -- CHG_I_2
    ⟨0x1B0, 4, 1, .rw, .k, true, 0x0, 0xFFFFFFFF⟩,  -- CHG_I_3
    ⟨0x1C0, 4, 1, .rw, .k, true, 0x0, 0xFFFF⟩,  -- CHG_I_4
    ⟨0x184, 4, 1, .rw, .k, true, 0x0, 0xFFFF⟩,  -- CHG_V_0
    ⟨0x194, 4, 1, .rw, .k, true, 0x0, 0xFFFF⟩,  -- CHG_V_1
    ⟨0x1B4, 4, 1, .rw, .k, true, 0x0, 0xFFFF⟩,  -- CHG_V_3
    ⟨0x188, 4, 1, .rw, .k, true, 0x0, 0xFFFF⟩,  -- CHG_T_0
    ⟨0x198, 4, 1, .rw, .k, true, 0x0, 0xFFFF⟩,  -- CHG_T_1
    ⟨0x1A8, 4, 1, .rw, .k, true, 0x0, 0xFFFF⟩,  -- CHG_T_2
    ⟨0x1B8, 4, 1, .rw, .k, true, 0x0, 0xFFFF⟩,  -- CHG_T_3
    ⟨0x1C8, 4, 1, .rw, .k, true, 0x0, 0xFFFF⟩,  -- CHG_T_4
    ⟨0x1D0, 4, 1, .rw, .k, true, 0x7FFF, 0xFFFF⟩,  -- CHG_VABS
    ⟨0x1D4, 4, 1, .rw, .k, true, 0x4B00400, 0xFFFFFFFF⟩,  -- CHG_CV
    ⟨0x1D8, 4, 1, .rw, .k, true, 0x10, 0xFFFF⟩,  -- CHG_RAMP
    ⟨0x1DC, 4, 1, .rw, .k, true, 0x0, 0xFFFFFFFF⟩,  -- BMS_LIM
    ⟨0x1E0, 4, 1, .rw, .k, true, 0x0, 0x3FFFF⟩,  -- BMS_CTL
    ⟨0x1E4, 4, 1, .rw, .k, true, 0x2710, 0xFFFF⟩,  -- BMS_TO
    ⟨0x200, 4, 9, .ro, .x, false, 0x0, 0x0⟩,  -- CHG_STAT, CHG_Q_LO, CHG_Q_HI, CHG_CYC, FG_STAT, FG_FOUND, MEAS, IBAT_CMD, QUAL
    ⟨0x224, 4, 1, .w1c, .x, false, 0x0, 0x7⟩,  -- ARITH
    ⟨0x228, 4, 1, .ro, .x, false, 0x0, 0x0⟩ ]  -- HB_CNT

/-- Registers of the page kind `pilot` after the header, and its `PAGE_CTRL`. -/
def rowsPilot : List RegRow :=
  [ ⟨0x8, 4, 1, .m, .k, false, 0x0, 0x3⟩,  -- PAGE_CTRL
    ⟨0x40, 4, 5, .ro, .x, false, 0x0, 0x0⟩,  -- CP_MEAS, CP_DUTY, CP_STATE, CP_LIM, PP_MEAS
    ⟨0x54, 4, 1, .rw, .k, false, 0xA, 0xFF⟩,  -- CP_FILT
    ⟨0x58, 4, 1, .rw, .k, false, 0x276, 0xFFFF⟩,  -- GRID_MAX
    ⟨0x5C, 4, 1, .ro, .x, false, 0x0, 0x0⟩ ]  -- GRID_LIM

/-- Registers of the page kind `adu` after the header, and its `PAGE_CTRL`. -/
def rowsAdu : List RegRow :=
  [ ⟨0x8, 4, 1, .m, .f, false, 0x0, 0x1⟩,  -- PAGE_CTRL
    ⟨0x40, 4, 1, .rw, .k, false, 0x0, 0x3F77FF⟩,  -- SRC
    ⟨0x44, 4, 1, .rw, .k, true, 0x401000, 0xFFFFFF03⟩,  -- CFG
    ⟨0x4C, 4, 1, .rw, .k, true, 0x100, 0xFFFF⟩,  -- SLEW
    ⟨0x54, 4, 1, .rw, .k, true, 0x0, 0xFFFFFFFF⟩,  -- CGAIN
    ⟨0x58, 4, 1, .rw, .k, true, 0x60004000, 0xFFFFFFFF⟩,  -- ILIM
    ⟨0x60, 4, 1, .rw, .k, true, 0x53203, 0xFFFFFF0F⟩,  -- HIC_CFG
    ⟨0x200, 4, 5, .ro, .x, false, 0x0, 0x0⟩ ]  -- POS, IREF, PL_STAT, CNT, CAUSE

/-- Registers of the page kind `aduPos` after the header, and its `PAGE_CTRL`. -/
def rowsAduPos : List RegRow :=
  [ ⟨0x48, 4, 1, .rw, .k, true, 0x0, 0xFFFF⟩,  -- TGT
    ⟨0x50, 4, 1, .rw, .k, true, 0x0, 0xFFFFFFFF⟩,  -- PGAIN
    ⟨0x5C, 4, 1, .rw, .k, true, 0x0, 0xFFFFFFFF⟩ ]  -- XCHK

/-- Registers of the page kind `aduPl` after the header, and its `PAGE_CTRL`. -/
def rowsAduPl : List RegRow :=
  [ ⟨0x64, 4, 1, .rw, .k, true, 0x10004000, 0xFFFFFFFF⟩,  -- PL_CUR
    ⟨0x68, 4, 1, .rw, .k, true, 0x12C0096, 0xFFFFFFFF⟩,  -- PL_TIME
    ⟨0x6C, 4, 1, .rw, .k, true, 0x6000E000, 0xFFFFFFFF⟩,  -- PL_POS
    ⟨0x70, 4, 1, .rw, .k, true, 0x10, 0xFFFFFFFF⟩ ]  -- ENG_MAX

/-- Registers of the page kind `kd` after the header, and its `PAGE_CTRL`. -/
def rowsKd : List RegRow :=
  [ ⟨0x8, 4, 1, .m, .f, false, 0x0, 0x1⟩,  -- PAGE_CTRL
    ⟨0x40, 4, 1, .rw, .k, false, 0x1E3CF800, 0xFFFFFFFF⟩,  -- NBT
    ⟨0x44, 4, 1, .rw, .k, false, 0x3030E00, 0xF0F1F1F⟩,  -- DBT
    ⟨0x48, 4, 1, .rw, .k, false, 0x1001, 0x7F01⟩,  -- TDC
    ⟨0x4C, 4, 1, .rw, .k, false, 0x3043, 0xFFFF⟩,  -- MODE
    ⟨0x50, 4, 1, .rw, .k, false, 0x9, 0x1FF⟩,  -- WAKE_CFG
    ⟨0x54, 4, 1, .rw, .k, false, 0x0, 0x1FFFFFFF⟩,  -- WAKE_ID
    ⟨0x58, 4, 1, .rw, .k, false, 0x0, 0x1FFFFFFF⟩,  -- WAKE_MSK
    ⟨0x5C, 4, 1, .rw, .k, false, 0x0, 0xFFFFFFFF⟩,  -- WAKE_DATA_LO
    ⟨0x60, 4, 1, .rw, .k, false, 0x0, 0xFFFFFFFF⟩,  -- WAKE_DATA_HI
    ⟨0x64, 4, 1, .rw, .k, false, 0x101, 0x7F7F⟩,  -- RXF_CFG
    ⟨0x70, 4, 3, .ro, .x, false, 0x0, 0x0⟩,  -- PROT_STAT, ERR_CNT, TDC_MEAS
    ⟨0x80, 4, 1, .m, .f, false, 0x0, 0x0⟩,  -- TX_CMD
    ⟨0x84, 4, 1, .ro, .x, false, 0x0, 0x0⟩,  -- TX_STAT
    ⟨0x100, 96, 3, .rw, .f, false, 0x0, 0x3FFFFFFF⟩,  -- TXB_ID
    ⟨0x104, 96, 3, .rw, .f, false, 0x0, 0x7F⟩,  -- TXB_CTL
    ⟨0x108, 96, 3, .ro, .x, false, 0x0, 0x0⟩,  -- TXB_TS
    ⟨0x110, 4, 16, .rw, .f, false, 0x0, 0xFFFFFFFF⟩,  -- TXB_DATA_0
    ⟨0x170, 4, 16, .rw, .f, false, 0x0, 0xFFFFFFFF⟩,  -- TXB_DATA_1
    ⟨0x1D0, 4, 16, .rw, .f, false, 0x0, 0xFFFFFFFF⟩,  -- TXB_DATA_2
    ⟨0x300, 96, 2, .ro, .x, false, 0x0, 0x0⟩,  -- RXF_ID
    ⟨0x304, 96, 2, .ro, .x, false, 0x0, 0x0⟩,  -- RXF_CTL
    ⟨0x308, 96, 2, .ro, .x, false, 0x0, 0x0⟩,  -- RXF_TS
    ⟨0x310, 4, 16, .ro, .x, false, 0x0, 0x0⟩,  -- RXF_DATA_0
    ⟨0x370, 4, 16, .ro, .x, false, 0x0, 0x0⟩,  -- RXF_DATA_1
    ⟨0x3C0, 4, 2, .ro, .x, false, 0x0, 0x0⟩,  -- RXF_STAT
    ⟨0x400, 8, 64, .rw, .k, false, 0x0, 0x7FFFFFFF⟩,  -- FLT_ID
    ⟨0x404, 8, 64, .rw, .k, false, 0x0, 0xDFFFFFFF⟩,  -- FLT_MSK
    ⟨0x600, 4, 1, .ro, .x, false, 0x0, 0x0⟩,  -- STR_CNT
    ⟨0x604, 4, 8, .ro, .x, false, 0x0, 0x0⟩ ]  -- STR_ID

/-- Registers of the page kind `eth` after the header, and its `PAGE_CTRL`. -/
def rowsEth : List RegRow :=
  [ ⟨0x8, 4, 1, .m, .f, false, 0x0, 0xF⟩,  -- PAGE_CTRL
    ⟨0x40, 4, 1, .rw, .k, false, 0x3, 0x7⟩,  -- PHY_CFG
    ⟨0x44, 4, 2, .ro, .x, false, 0x0, 0x0⟩,  -- MAC_LO, MAC_HI
    ⟨0x4C, 4, 1, .rw, .k, false, 0x0, 0xFFFFFFFF⟩,  -- IP_ADDR
    ⟨0x50, 4, 1, .rw, .k, false, 0xD7A1D7A0, 0xFFFFFFFF⟩,  -- PORTS
    ⟨0x54, 4, 1, .rw, .k, false, 0x0, 0xFFFFFFFF⟩,  -- RS_PEER
    ⟨0x58, 4, 1, .rw, .k, false, 0x0, 0xFFFFFFFF⟩,  -- STREAM_DST
    ⟨0x5C, 4, 1, .rw, .k, false, 0xD7A2, 0xFFFF⟩,  -- STREAM_PORT
    ⟨0x60, 4, 1, .rw, .k, false, 0x0, 0xFFFFFFFF⟩,  -- STREAM_MAC_LO
    ⟨0x64, 4, 1, .rw, .k, false, 0x0, 0xFFFF⟩,  -- STREAM_MAC_HI
    ⟨0x68, 4, 1, .rw, .k, false, 0x0, 0xFFFFFFFF⟩,  -- RING_TX
    ⟨0x6C, 4, 1, .rw, .k, false, 0x0, 0xFFFFFFFF⟩,  -- RING_RX
    ⟨0x70, 4, 1, .rw, .x, false, 0x0, 0x1F1F⟩,  -- RING_IDX
    ⟨0x74, 4, 1, .ro, .x, false, 0x0, 0x0⟩,  -- PHY_STAT
    ⟨0x78, 4, 1, .rw, .f, false, 0x0, 0xFFFFFFFF⟩,  -- FW_SRC
    ⟨0x7C, 4, 1, .rw, .f, false, 0x0, 0xFFFFFFFF⟩,  -- FW_LEN
    ⟨0x80, 4, 1, .rw, .f, false, 0x0, 0x1⟩,  -- FW_CFG
    ⟨0x84, 4, 1, .ro, .x, false, 0x0, 0x0⟩ ]  -- ETH_CNT

/-- Registers of the page kind `ptp` after the header, and its `PAGE_CTRL`. -/
def rowsPtp : List RegRow :=
  [ ⟨0x8, 4, 1, .m, .f, false, 0x0, 0x0⟩,  -- PAGE_CTRL
    ⟨0x40, 4, 1, .rw, .k, false, 0x0, 0xFFFFFFFF⟩,  -- RATE
    ⟨0x44, 4, 1, .wo, .f, false, 0x0, 0x0⟩,  -- STEP
    ⟨0x48, 4, 8, .ro, .x, false, 0x0, 0x0⟩ ]  -- TIME_NS, TIME_S_LO, TIME_S_HI, TICK_LO, TICK_HI, TXTS_NS, TXTS_S, TXTS_ID

/-- Registers of the page kind `scarab0` after the header, and its `PAGE_CTRL`. -/
def rowsScarab0 : List RegRow :=
  [ ⟨0x40, 4, 5, .ro, .x, false, 0x0, 0x0⟩ ]  -- SC_STATE, GEN, EVT_CNT, EVT_CNT_H, LAST

/-- Registers of the page kind `scarab1` after the header, and its `PAGE_CTRL`. -/
def rowsScarab1 : List RegRow :=
  [ ⟨0x40, 4, 5, .ro, .x, false, 0x0, 0x0⟩,  -- SIN_REL, SIN_FLT, SIN_STUT, SIN_FILT, TP_STAT
    ⟨0x60, 4, 16, .ro, .x, false, 0x0, 0x0⟩ ]  -- SIN_DIAG

/-- Registers of the page kind `scarab2` after the header, and its `PAGE_CTRL`. -/
def rowsScarab2 : List RegRow :=
  [ ⟨0x40, 4, 5, .ro, .x, false, 0x0, 0x0⟩ ]  -- SOUT_ST, SOUT_DIAG

/-- Registers of the page kind `scarab3` after the header, and its `PAGE_CTRL`. -/
def rowsScarab3 : List RegRow :=
  [ ⟨0x40, 4, 3, .ro, .x, false, 0x0, 0x0⟩ ]  -- TW_0, TW_1, XC

/-- Registers of the page kind `scarab4` after the header, and its `PAGE_CTRL`. -/
def rowsScarab4 : List RegRow :=
  [ ⟨0x40, 4, 1, .ro, .x, false, 0xF, 0x0⟩,  -- FN_STO
    ⟨0x44, 4, 3, .ro, .x, false, 0x0, 0x0⟩,  -- FN_SS1, FN_SPEED, FN_SPL
    ⟨0x50, 4, 4, .ro, .x, false, 0x0, 0x0⟩ ]  -- ZONE_CAUSE

/-- Registers of the page kind `scarab5` after the header, and its `PAGE_CTRL`. -/
def rowsScarab5 : List RegRow :=
  [ ⟨0x40, 4, 8, .ro, .x, false, 0x0, 0x0⟩,  -- CONN_ST
    ⟨0x60, 4, 2, .ro, .x, false, 0x0, 0x0⟩,  -- LINK_CNT, LINK_LAST
    ⟨0x80, 4, 128, .ro, .x, false, 0x0, 0x0⟩,  -- CONN_SEQ
    ⟨0x280, 4, 128, .ro, .x, false, 0x0, 0x0⟩ ]  -- CONN_DATA

/-- Registers of the page kind `scarab6` after the header, and its `PAGE_CTRL`. -/
def rowsScarab6 : List RegRow :=
  [ ⟨0x40, 4, 1, .ro, .x, false, 0x0, 0x0⟩,  -- TX_HEAD
    ⟨0x100, 4, 128, .ro, .x, false, 0x0, 0x0⟩ ]  -- TX

/-- Registers of the page kind `scarab7` after the header, and its `PAGE_CTRL`. -/
def rowsScarab7 : List RegRow :=
  [ ⟨0x40, 4, 7, .ro, .x, false, 0x0, 0x0⟩ ]  -- SERIAL, COMM_CRC, CAND_CRC, CAND_STAT, COMM_NUM, COMM_CNT, CHK_PASS

/-- Registers of the page kind `safelink` after the header, and its `PAGE_CTRL`. -/
def rowsSafelink : List RegRow :=
  [ ⟨0x8, 4, 1, .m, .f, false, 0x0, 0x0⟩,  -- PAGE_CTRL
    ⟨0x40, 4, 1, .rw, .f, false, 0x0, 0xFFFFFFFF⟩,  -- CAND_ADDR
    ⟨0x44, 4, 1, .rw, .f, false, 0x0, 0xFFFF⟩,  -- CAND_LEN
    ⟨0x48, 4, 1, .ro, .x, false, 0x0, 0x0⟩,  -- RX_HEAD
    ⟨0x4C, 4, 1, .wo, .f, false, 0x0, 0x0⟩,  -- VERDICT
    ⟨0x100, 4, 256, .ro, .x, false, 0x0, 0x0⟩ ]  -- RX

/-- R308: the factory `FFLEG.m:CFG` of the Axle-Standard profile. -/
def legCfgAxle (m : Nat) : Nat :=
  if m < 6 then 0x130 else if m < 12 then 0x131 else if m < 16 then 0x222 + (m - 12) else if m < 19 then 0x136
  else if m < 21 then 0x137 else if m < 23 then 0x138 else if m < 24 then 0x130 else if m < 27 then 0x139
  else if m < 30 then 0x13A else 0x13B

/-- R308: the factory `FFLEG.m:SAFE_CFG` of the Axle-Standard profile. -/
def legSafeAxle (m : Nat) : Nat := if m < 6 then 0x14 else if m < 12 then 0x114 else 0

/-- R308: the factory `FFLEG.m:BIND`. -/
def legBind (m : Nat) : Nat :=
  if m < 6 then 4 else if m < 12 then 5 else if m < 16 then 2 else if m < 23 then 6 else if m < 24 then 1 else 7


/-- The block registers of a page, `PAGE_CTRL` among them where the block gives it fields. -/
def rowsOf (k : PageKind) (inst : Nat) : List RegRow :=
  match k with
  | .sys => rowsSys | .clk => rowsClk | .supply => rowsSupply | .boot => rowsBoot | .cocoon => rowsCocoon
  | .pact => rowsPact | .hive => rowsHive | .debug => rowsDebug | .antline => rowsAntline | .bwmon => rowsBwmon
  | .ledger => rowsLedger | .spare => rowsSpare | .stag => rowsStag | .checker => rowsChecker | .memctl => rowsMemctl
  | .at => rowsAt | .slots => rowsSlots | .sdg => rowsSdg | .sar => rowsSar | .rsv => rowsRsv | .enc => rowsEnc
  | .hvs => rowsHvs | .sets => rowsSets | .cal => rowsCal | .mt => rowsMt | .mtshared => rowsMtshared | .car => rowsCar
  | .ffleg => rowsFfleg
  | .ic => if inst = 0 then rowsIcHv ++ rowsIcFg else if inst < 6 then rowsIcHv else rowsIcLv
  | .brake => rowsBrake | .df => rowsDf | .hb => rowsHb | .pilot => rowsPilot
  | .adu => if inst = 2 then rowsAdu ++ rowsAduPl else rowsAdu ++ rowsAduPos
  | .kd => rowsKd | .eth => rowsEth | .ptp => rowsPtp
  | .scarab => if inst = 0 then rowsScarab0 else if inst = 1 then rowsScarab1 else if inst = 2 then rowsScarab2
      else if inst = 3 then rowsScarab3 else if inst = 4 then rowsScarab4 else if inst = 5 then rowsScarab5
      else if inst = 6 then rowsScarab6 else rowsScarab7
  | .safelink => rowsSafelink

/-- Does a table line name the register at this offset? -/
def RegRow.covers (r : RegRow) (o : Nat) : Bool :=
  r.off ≤ o && (o - r.off) % r.stride == 0 && (o - r.off) / r.stride < r.count

/-- The table line of a register offset of a page. -/
def rowAt (k : PageKind) (inst o : Nat) : Option RegRow :=
  if 0x010 ≤ o ∧ o < 0x030 then rowsHeader.find? (·.covers o) else (rowsOf k inst).find? (·.covers o)

/-- Register factory values that depend on the instance or the ordering code: R184, R262, R308, R333, R337, R339,
R340, R378, R407, R122/R124, R515, R532. -/
def factorySpecial (h17 h12d : Bool) (k : PageKind) (i o : Nat) : Option Nat :=
  match k with
  | .at => if o = 0x40 then [1, 0x11, 0x45, 6, 3, 0x13, 2, 0][i]? else none
  | .mt =>
    if o = 0x4C then [0x3F, 0xFC0, 0x7F0000, 0xFF000000][i]? else if o = 0x50 then some (if i < 2 then 1 else 2) else none
  | .ffleg =>
    if o = 0x40 then some (legCfgAxle i) else if o = 0x44 then some i else if o = 0x48 then some (legSafeAxle i)
    else if o = 0x50 then some (legBind i) else none
  | .ic =>
    if o = 0x44 ∧ i = 3 then some 0x03E80AF3
    else if o = 0x68 then [0, 0x1100, 0x1111, 0xFFFF, 0xFFFF, 0xFFFF][i]?
    else if o = 0x200 ∧ i = 0 then some 0x18 else if o = 0x204 ∧ i = 0 then some 0x19 else none
  | .brake =>
    if h17 then
      (if o = 0x40 ∨ o = 0x44 then some 0x51485333 else if o = 0x48 then some 0x50005852 else none)
    else none
  | .df =>
    if i = 1 then (if o = 0x40 then some 0x1100 else if o = 0x44 then some 0 else if o = 0x60 then some 0xACE1000F else none)
    else if 0x48 ≤ o ∧ o ≤ 0x54 then some (0x800C + 0x101 * ((o - 0x48) / 4)) else none
  | .adu => if o = 0x40 then [0x5698, 0x1356BB, 0x2656DE][i]? else none
  | .pact =>
    if 0x400 ≤ o ∧ o < 0x800 then
      (let p := (o - 0x400) / 4
       if p = 0x05 then some 0x80000909 else if 0xC0 ≤ p ∧ p < 0xC8 then some 0x80000303
       else some (if h12d then 0x00C00B0B else 0x00000B0B))
    else none
  | .ledger =>
    if 0x90 ≤ o ∧ o < 0xC0 then
      [0x01010000, 0x03030202, 0x05050404, 0x09090808, 0x0B0B0A0A, 0x0D0D0C0C, 0x11111010, 0x13131212][(o - 0x90) / 4]?.or
        (some 0xFFFFFFFF)
    else none
  | .debug => if o = 0x40 ∧ h12d then some 1 else none
  | .eth => if o = 0x44 then some (Config.otpMac.toNat % 2 ^ 32) else if o = 0x48 then some (Config.otpMac.toNat / 2 ^ 32) else none
  | .scarab => if i = 7 ∧ o = 0x40 then some Config.otpSerial.toNat else none
  | .hvs => if o = 0x0C then some 1 else none
  | .sys | .clk | .supply | .boot | .cocoon | .hive | .antline | .bwmon | .spare | .stag | .checker | .memctl | .slots
  | .sdg | .sar | .rsv | .enc | .sets | .cal | .mtshared | .car | .hb | .pilot | .kd | .ptp | .safelink => none

/-- The factory value of a register of a page (R4), by table line and exception; `PAGE_ID` and `PAGE_CAPS` by R73.
`CHECK` is left out here: `factoryAt` below gives it. -/
def factoryReg (variant : Nat) (k : PageKind) (i o : Nat) : Nat :=
  if o = 0x000 then k.typeCode * 2 ^ 24 + i * 2 ^ 16 + 0x01B0
  else if o = 0x004 then k.lines i * 2 ^ 4 + variant
  else if o = 0x028 then k.epochDom i * 2 ^ 24
  else match factorySpecial (variant == 2) (variant == 9) k i o with
    | some v => v
    | none => match (rowsOf k i).find? (·.covers o) with
      | some r => r.fac
      | none => 0

/-- R81: the offset whose factory value stands at offset `o`: an active view at `o + 0x800` starts as its E register. -/
def factoryOffset (k : PageKind) (i o : Nat) : Nat :=
  if 0x840 ≤ o ∧ (((rowsOf k i).find? (·.covers (o - 0x800))).any (·.epoch)) then o - 0x800 else o

/-- R79: one bit of the CRC-32C, reflected. -/
def crcBit (c : Nat) : Nat := if c % 2 = 1 then (c / 2) ^^^ 0x82F63B78 else c / 2

/-- R79: the CRC-32C register after one more byte. -/
def crcByte (c b : Nat) : Nat := crcBit (crcBit (crcBit (crcBit (crcBit (crcBit (crcBit (crcBit (c ^^^ b))))))))

/-- R79: the CRC-32C of a list of bytes; the register is complemented at the end. -/
def crc32c (bs : List Nat) : Nat := 0xFFFFFFFF - bs.foldl crcByte 0xFFFFFFFF

/-- R68: the four bytes of a word, least significant first. -/
def bytesLE (w : Nat) : List Nat := [w % 256, w / 256 % 256, w / 65536 % 256, w / 16777216 % 256]

/-- The register offsets a table line names. -/
def RegRow.offsets (r : RegRow) : List Nat := (List.range r.count).map (fun j => r.off + j * r.stride)

/-- Insertion of an offset into an ascending list. -/
def insertOff (o : Nat) : List Nat → List Nat
  | [] => [o]
  | a :: l => if o ≤ a then o :: a :: l else a :: insertOff o l

/-- R79: the class K and C registers of a page in ascending offset, each with its epoch buffering. -/
def kcOffsets (k : PageKind) (i : Nat) : List Nat :=
  let hdr := if k = .scarab then [] else [0x014, 0x01C, 0x028]
  ((((rowsOf k i).filter (fun r => r.cls = .k ∨ r.cls = .c)).flatMap RegRow.offsets)).foldr insertOff hdr

/-- R79: is the register at this offset epoch-buffered? -/
def isEpochReg (k : PageKind) (i o : Nat) : Bool := ((rowsOf k i).find? (·.covers o)).any (·.epoch)

/-- R79: the words the check value of a page is computed over, from a reader of the page's offsets. -/
def checkWords (k : PageKind) (i : Nat) (rd : Nat → Nat) : List Nat :=
  (kcOffsets k i).map (fun o =>
    if o = 0x028 then (rd o / 2 ^ 24 % 8) * 2 ^ 24 else if isEpochReg k i o then rd (o + 0x800) else rd o)

/-- R79: the check value of a page, from a reader of its offsets. -/
def checkValue (k : PageKind) (i : Nat) (rd : Nat → Nat) : Nat := crc32c ((checkWords k i rd).flatMap bytesLE)

/-- The factory value at register-space key `a` = page × 0x1000 + offset (R4); a page absent from R69 reads 0. -/
def factoryAt (variant : Nat) (a : Nat) : Nat :=
  match pageOf (a / 4096) with
  | none => 0
  | some (k, i) =>
    if a % 4096 = 0x02C then checkValue k i (fun o => factoryReg variant k i (factoryOffset k i o))
    else factoryReg variant k i (factoryOffset k i (a % 4096))

end Sys2Proof.Machine
end

