-- ==== Sys2Proof/Machine/State.lean ====
section
/-! DEFINITION. The machine's state as plain data: registers, memories, and the hidden state each block keeps beside its
registers; why a step can stop; and the state after reset. -/
namespace Sys2Proof.Machine

/-- R1, R18: the ordering codes. -/
inductive Variant where
  | h12 | h17 | h12d
  deriving DecidableEq, Repr

/-- R18: the value of `PAGE_CAPS.VARIANT`. -/
def Variant.code : Variant → Nat
  | .h12 => 1 | .h17 => 2 | .h12d => 9

/-- The response of the last bus access (R67, R70, R122): the value read, and whether it ended in a bus error. -/
structure Reply where
  value    : Nat := 0
  busError : Bool := false
  deriving DecidableEq, Repr

/-- What has happened in the present tick, for the rules that say how events of one tick meet. -/
structure NowHid where
  flags : List (Nat × Nat) := []   -- event flags that hardware has set: page, flag (R76)
  arith : List (Nat × Nat × Nat) := []  -- arithmetic flags that hardware has set: page, flags, `FIRST` (R155)
  rej   : List Nat := []           -- pages that have recorded a refusal (R86)
  sat   : Option (Nat × Bool) := none  -- `CAL_SATF` and the flag `SAT` before the first record of the tick (R221)
  rearm : List Nat := []           -- armed pages armed once more (R83)
  trans : Option (Nat × Option (Access × Nat)) := none  -- code of the state in which the first transition began, and its command (R90)
  deriving DecidableEq, Repr

/-- R163, R164: a W1C write of `DET_STAT` that waits for epoch boundaries: page bits still to clear, kind bits to clear
when the last of them does. -/
structure DetWait where
  pages : Nat
  kinds : Nat
  deriving DecidableEq, Repr

/-- A page's record in a last-known-good image (R99): the page, its `PAGE_ID`, its class K values that differ from their factory
values (by page × 0x1000 + offset), and its check value at capture. -/
structure PageRec where
  page    : Nat
  id      : Nat
  values  : List (Nat × Word)
  check   : Nat
  deriving DecidableEq, Repr

/-- A last-known-good image (R99): the header's sequence number, record count and CRC, and the page records. -/
structure Image where
  seq     : Nat
  count   : Nat
  crc     : Nat
  recs    : List PageRec
  deriving DecidableEq, Repr

/-- R506, R507: what the ledger's records hold for the next plan: the latest result of each kind (the ratios ρ, δ, θ, γ in the
formats of R514), the channels whose δ a plan has taken up, rejected auto-zero results newest first, and the record count that
gives the next place in the ring. Baselines, delay additions and plans lie in the Cocoon memory. -/
structure LedNv where
  rho    : List Nat := List.replicate 48 0x4000
  delta  : List Nat := List.replicate 48 0x4000
  dUsed  : List Bool := List.replicate 48 true
  vth    : List Nat := List.replicate 48 0
  theta  : List Nat := List.replicate 6 0x4000
  z      : List Int := List.replicate 6 0
  cap    : Nat := 0
  gamma  : Nat := 0x7FFF
  drift  : Int := 0
  az     : List (Nat × List Int) := []
  azRej  : Bool := false
  pos    : Nat := 0
  deriving DecidableEq, Repr

/-- The non-volatile parts beside the memories (R97 to R99, R495): the two image slots, what the ROM knows of a trial, the OTP
rollback counter, and Scarab's stored check value with the number of commissionings. The boot record, the calibration record and
the commissioned sets lie in the Cocoon memory (R98). -/
structure NonVol where
  slot0    : Option Image := none
  slot1    : Option Image := none
  trialRun : Bool := false
  trialTo  : Nat := 0
  rollback : Nat := 0
  commCrc  : Nat := 0
  commCnt  : Nat := 0
  bankBad  : List Nat := []   -- flash banks a programming run has left invalid (R447)
  led      : LedNv := {}
  deriving DecidableEq, Repr

/-- R88 to R103, R554: what the device state machine holds beside `SYS:DEV_STATE`. -/
structure DevHid where
  goReady    : Bool := false   -- HELD to READY is being carried out (R90)
  stopC      : Bool := false   -- the stop was started by, or met, a class C fault (R89)
  heldOnce   : Bool := false   -- HELD was reached since power-up (R101)
  shutPend   : Bool := false   -- an orderly shutdown is executing (R59)
  shutQueued : Bool := false   -- its save waits for a running save (R101)
  brownOut   : Bool := false   -- the save running is followed by OFF (R57, R58)
  wasBrown   : Bool := false   -- the last power cycle ended in BROWN-OUT (R102)
  armedWake  : Nat := 3        -- wake sources armed in OFF or STANDBY (R55, R103)
  canArm     : List (Option (List Nat)) := [none, none, none, none]  -- per bus the wake registers armed in STANDBY (R435)
  svc        : Bool := false   -- the local service path is enabled (R30)
  clockLost  : Bool := false   -- the clock monitor reports PCLK or MCLK lost (R301)
  base85     : Bool := false   -- baseplate level at 85 °C (R63)
  base100    : Bool := false   -- baseplate level at 100 °C (R63)
  vsafeLow   : Bool := false   -- VSAFE below 16 V (R29)
  imgVer     : Nat := 0        -- security version of the running image (R97)
  saveImg    : Option (List PageRec) := none  -- the capture of the save in progress (R101)
  saveStart  : Nat := 0
  stopTick   : Nat := 0        -- tick of entry to STOPPING (R554)
  deriving DecidableEq, Repr

/-- R128, R129: the lines Hive has seen asserted (event, driving page), the rising edges of one-tick line pulses it has yet to
latch, and the tick in which each such line was last driven. -/
structure HiveHid where
  seen   : List (Nat × Nat) := []
  pulses : List (Nat × Nat × Nat) := []        -- event, page, tick of the edge
  driven : List (Nat × Nat × Nat) := []        -- event, page, last tick
  edges  : List (Nat × Nat × Nat × Nat) := []  -- of each pending bit: pair, event, TICK of the edge, priority
  deriving DecidableEq, Repr

/-- R131: a DMA channel's pointers in the transfer under way. -/
structure DmaCh where
  src  : Nat := 0
  dst  : Nat := 0
  deriving DecidableEq, Repr

/-- R139 to R141: per pair the tick of the first detection of the recovery under way, and per pair and cause (pair × 4 +
cause − 1) the ticks of the last three detections, newest first. -/
structure ChkHid where
  recAt  : List (Option Nat) := [none, none]
  coast  : List Bool := [false, false]      -- the recovery-coast ramp is running
  detAt  : List (Option Nat) := [none, none]  -- tick of the last detection (R136)
  last   : List (List Nat) := List.replicate 8 []
  lateArm : List (List Nat) := [[], []]  -- per pair, the pages armed while it is in recovery: no boundary transfers them until it is back (R140)
  sweepAt : List Nat := [0, 0]  -- tick at which the present pass of a pair's sweep began (R138)
  deriving DecidableEq, Repr

/-- A lattice follower (R176, R556): present point, residual (as at the end of the previous tick), the tick at which a
re-seat scan under way ends, and the tick of the last event. -/
structure Lattice where
  k    : Nat := 0
  r    : Int := 0
  scan : Option Nat := none
  evAt : Option Nat := none
  deriving DecidableEq, Repr

/-- A correction on its way to a track (R166, R168): capture tick, measured angle, the velocity of a resolver, and for a mains
source the pair α, β in place of the angle. -/
structure Corr where
  cap : Nat
  m   : Nat
  due : Nat := 0           -- tick before which it is not taken (R248)
  vel : Int := 0
  ab  : Option (Int × Int) := none
  deriving DecidableEq, Repr

/-- What a Cicada track holds beside its registers (R156, R165 to R174, R181, R556). -/
structure Track where
  theta  : Nat := 0          -- U32.16
  omega  : Int := 0          -- S32.16, raw
  hist   : List Nat := []    -- exposed angles of the last 256 ticks, newest first (R169)
  wait   : List Corr := []   -- corrections handed over and not yet taken, oldest first
  corrAt : Nat := 0          -- tick of the last correction delivered
  tookAt : Option Nat := none -- tick of the last correction taken (R165)
  coastAt : Nat := 0         -- tick of entry to COAST
  good   : Nat := 0          -- consecutive corrections within ERR_MAX (R171)
  bad    : Nat := 0          -- consecutive corrections beyond ERR_MAX (R172)
  first  : Bool := false     -- ACQUIRE waits for its first correction
  changed : Bool := false    -- the state changed in this tick (R179, MODE 1)
  lat    : Lattice := {}
  lAt    : Nat := 0          -- tick of the last lock event, or of the end of the last re-seat
  lDir   : Int := 0          -- direction of the last counted lock event
  lCount : Nat := 0          -- lock events in that direction since the conditions hold
  lGoes  : Bool := false     -- deliveries have begun (R556)
  lOut   : Option Nat := none -- a period to deliver in the next tick (R182)
  deriving DecidableEq, Repr

/-- What an event slot holds beside its registers (R176 to R179). -/
structure SlotHid where
  lat   : Lattice := {}
  fired : Bool := false      -- fired; its actions are due (R179)
  deriving DecidableEq, Repr

/-- One channel of a set being assembled (R205, R208): its code, its ready tick where that is known, its raw value where it has
one, and the ticks of its first and last sample (sigma-delta). -/
structure SetChan where
  code  : Nat
  ready : Option Nat := none
  raw   : Option Int := none
  osr   : Nat := 0        -- sigma-delta: N3 or N2 in T
  first : Nat := 0
  last  : Nat := 0
  deriving DecidableEq, Repr

/-- One assembly of a sample set (R204 to R208). -/
structure SetAsm where
  trig   : Nat               -- TICK of T
  ang    : Nat               -- A(T)
  trkSt  : Nat               -- state of the track in T
  cfg    : Nat               -- SS_CFG in T
  chans  : List SetChan := []
  cause  : Nat := 0          -- lowest loss cause found so far; 0 none
  cal    : Option (List Nat) := none  -- calibration words of its channels in tick C, where that has passed (R221)
  deriving DecidableEq, Repr

/-- A sample set: its assembly, those that reached their tick C when it was triggered again and wait for `SET_COMPLETE`, and its last
complete elements (R204 to R209). -/
structure SetHid where
  cur    : Option SetAsm := none
  late   : List SetAsm := []
  elems  : List Int := []    -- elements of the last complete record
  codes  : List Nat := []    -- the channels they are of
  raws   : List (Nat × Int) := []  -- codes and raw values of a record that has been written in its tick C (R221)
  doneAt : Option Nat := none -- tick C of the last record, complete or lost
  deriving DecidableEq, Repr

/-- A SAR conversion (R193): its input, the set it is for, its start tick, and whether the scan started it. -/
structure SarConv where
  ch    : Nat
  set   : Option Nat
  start : Nat
  scan  : Bool := false
  deriving DecidableEq, Repr

/-- R193, R194: a SAR converter: the conversions started or queued, in the order of their starts; the results of ended ones with
their ready ticks; and the scan position. -/
structure SarHid where
  conv : List SarConv := []
  res  : List (Nat × SarConv × Int) := []
  scan : Nat := 0
  deriving DecidableEq, Repr

/-- R197 to R199: a resolver's excitation: the tick of its first sample and its phase there; the counts of consecutive amplitude faults, its pair waiting for delivery, the last delivered, and
what a read of `ANGLE` latches. -/
structure RsvHid where
  exc     : Option (Nat × Nat) := none
  low     : Nat := 0
  high    : Nat := 0
  wait    : Option (Nat × Nat) := none  -- 16-bit angle, sampling tick
  last    : Option (Nat × Nat) := none
  vel     : Int := 0
  cap     : Nat := 0
  deriving DecidableEq, Repr

/-- R226 to R230: the calibration operation under way. -/
structure CalHid where
  zero   : Option (Nat × Nat) := none   -- code and N of a running `ZERO`
  sum    : Int := 0
  count  : Nat := 0
  store  : Option (List Nat) := none    -- the capture of a running `STORE`: the class K words in the order of R79
  storeCheck : Nat := 0
  origin : Nat := 0
  az     : List (Nat × Int × Nat) := []  -- auto-zero: input, sum, results taken (R230)
  azN    : Nat := 0                      -- its N
  deriving DecidableEq, Repr

/-- A loop register (R236, R257). -/
structure LoopHid where
  active : Bool := false
  left   : Nat := 0      -- iterations still to run after the present one
  done   : Nat := 0      -- iterations completed
  start  : Nat := 0
  stop   : Nat := 0
  deriving DecidableEq, Repr

/-- R255: values on their way from a `COMMIT` to Firefly: the tick in which they arrive, the group bit, and leg, register B or
A, value. -/
structure CommitOut where
  due   : Nat
  group : Bool
  vals  : List (Nat × Bool × Nat)
  deriving DecidableEq, Repr

/-- A result of an issued instruction, which takes effect when the instruction retires (R243): a vector element, an
accumulator, an angle or duty register, a state-memory word or accumulator slot, check bits of a 64-bit word written whole (R142), a mailbox element, the track output, a
commit, run flags set or cleared, sticky arithmetic flags with the program address, a capture record. -/
inductive MtEff where
  | vec (r i : Nat) (x : Int)
  | acc (r : Nat) (x : Int)
  | ang (r x : Nat)
  | duty (r x : Nat)
  | word (w : Nat) (x : Int)
  | slot (k : Nat) (x : Int)
  | fresh (q : Nat)
  | mbox (i : Nat) (x : Int)
  | track (els : List Int)
  | commit (group : Bool) (vals : List (Nat × Bool × Nat))
  | flags (set clear : Nat)
  | arith (fl pc : Nat)
  | capture (ch mask : Nat) (els : List Int)
  deriving DecidableEq, Repr

/-- An injection channel (R275): its run index, generator register or phase, frequency, and value of the present run. -/
structure InjHid where
  n     : Nat := 0
  reg   : Nat := 0
  phase : Nat := 0
  f     : Nat := 0
  val   : Int := 0
  deriving DecidableEq, Repr

/-- R238, R241, R257: the end of a run whose `HALT` has issued, or that is aborted: the cycle in which its last instruction retires,
the program address, and whether `HALT` ends it; or the cause of an engine error detected in cycle `ret` (R239; 0 none). -/
structure MtEnd where
  ret    : Nat
  addr   : Nat
  byHalt : Bool
  err    : Nat := 0
  deriving DecidableEq, Repr

/-- R241, R249: what an instruction that reads coefficients in every cycle of its issue works on: its word, the address of the first
coefficient, the coefficients, the source vector and the accumulators before it. -/
structure MtSpread where
  w   : Nat
  at_ : Nat
  ks  : List Int
  va  : List Int
  acc : List Int
  deriving DecidableEq, Repr

/-- An instruction that has been accepted (R238, R243): its first issue cycle, its retire cycle, its address, its results, the loop
registers before it, and the coefficients it reads. -/
structure MtPend where
  first  : Nat
  ret    : Nat
  addr   : Nat
  effs   : List MtEff := []
  loops  : List LoopHid := []
  spread : Option MtSpread := none
  deriving DecidableEq, Repr

/-- What a Mantis engine holds beside its registers and memories (R232 to R259). -/
structure MtHid where
  vr     : List (List Int) := List.replicate 16 (List.replicate 16 0)
  acc    : List Int := List.replicate 16 0
  ang    : List Nat := List.replicate 4 0
  duty   : List Nat := List.replicate 16 0
  loops  : List LoopHid := [{}, {}]
  mbox   : List Int := List.replicate 64 0      -- working mailbox
  noted  : List (Option Nat) := List.replicate 8 none  -- `SEQ` noted by `LDS` in this run
  recs   : List Nat := List.replicate 8 0       -- `SEQ` of each set at the start
  carP   : List Nat := List.replicate 16 0      -- compare ranges latched at the start
  start  : Nat := 0                             -- start tick of the run
  runFrom : Nat := 0                            -- tick of the last entry to RUN (R279, R528)
  cycle  : Nat := 0                             -- first cycle in which the next instruction could issue
  ret    : List (Nat × Nat) := []               -- resources written and the cycle they are retired in (R243)
  firstSet : Bool := false                      -- `ARITH.FIRST` is recorded since the last clear (R155)
  firstAt : Option Nat := none                  -- retire cycle of the instruction in `ARITH.FIRST`, of this run
  lastRet : Nat := 0                            -- the cycle after the latest retire cycle so far
  pend   : List MtPend := []                    -- instructions not yet retired, in program order
  isAt   : Nat × Nat := (0, 0)                  -- address of the instruction in issue, and the cycle after its last issue cycle (R260)
  src    : Nat := 0                             -- source of the run's start (R237)
  injWas : List (InjHid × Nat) := []            -- injection channels and their `INJ_STAT` before the start (R275)
  leftAt : Option Nat := none                   -- tick in which, after its first cycle, the engine last left RUN (R240)
  waitAt : Option Nat := none                   -- cycle in which a `WAITE` began to hold
  reqs   : List (Nat × Nat) := []               -- starts requested: source order (R237) and tick
  heldEnd : Option Nat := none                  -- tick before which a start is held behind an aborted run (R238)
  held   : Option Nat := none                   -- a held start, by its source
  ovr    : Bool := false                        -- the run has recorded an overrun
  ovrAt  : Option (Nat × Nat) := none           -- tick of the last overrun, and its kind
  out    : List CommitOut := []
  starts : Nat := 0                             -- starts since power-up
  kappa  : Nat := 0x8000                        -- κ that the next start latches while no ramp runs
  ending : Option MtEnd := none                 -- the run is about to end (R238, R257)
  wasRun : Bool := false                        -- HALTED was entered from RUN (R528)
  idleAt : Option Nat := none                   -- tick from which the engine is IDLE, for the slack of R279
  pBusy  : Nat := 0
  pStarts : Nat := 0
  pDisc  : Nat := 0
  pSlack : Nat := 0xFFFFFF
  deriving DecidableEq, Repr

/-- A capture channel (R276): `CAP`s since its enabling, and records made. -/
structure CapHid where
  ptr  : Nat := 0      -- offset of the next record, 262144 where the buffer is full to its end
  caps : Nat := 0
  recs : Nat := 0
  deriving DecidableEq, Repr

/-- What a carrier holds beside its registers (R281 to R285, R305). -/
structure CarHid where
  perOld   : List (Nat × Nat) := [] -- writes of `PER`, newest first: the tick and the value before it (R282)
  hold     : Bool := false          -- starts in the next tick (R285)
  lastZero : Option Nat := none     -- tick of the last zero event (R283)
  prevZero : Option Nat := none     -- tick of the zero event before it (R283)
  lastPer  : Option Nat := none     -- tick of the last period event
  wrapT    : Option Nat := none     -- the period under which this tick still counts (R282)
  pre      : Nat := 0               -- counted events since the last line pulse (R305)
  resyncAt : Option Nat := none     -- tick of the last resync (R283: several in one tick act once)
  hit      : Bool := false          -- the counter came to its wrap or reflection exactly at the start of this tick (R281)
  deriving DecidableEq, Repr

/-- One leg output (R287, R295): its level after the pulse rules, the delayed edges of S that wait (instant in 1/64 tick, turn-on
or not, in their order), the start of the pulse under way, the instant its turn-off edge is moved to, whether it has been counted
as stretched, and the debt added to its width (R295 to R297). -/
structure OutHid where
  on    : Bool := false
  sched : List (Nat × Bool) := []
  since : Nat := 0
  offAt : Option Nat := none
  long  : Bool := false
  skipAt  : Option Nat := none  -- the turn-on edge, in 1/64 tick, of the pulse last skipped (R297)
  closed  : Bool := false  -- on across an off-gap of the reference that R297 closes
  extra : Int := 0
  deriving DecidableEq, Repr

/-- What a leg holds beside its registers (R286 to R305). -/
structure LegHid where
  ref     : Bool := false              -- the reference signal S
  began   : Bool := false              -- started at a zero event since `EN` was set (R304)
  followed : Nat := 0                  -- instant, in 1/64 tick, up to which the edges of S have acted
  before  : Option (Nat × Nat) := none -- CMP_A and CMP_B up to the half boundary of this tick that applied held values (R292)
  offA    : Option Nat := none         -- shadow writes taken with `EN` 0, which transfer in the next tick (R294)
  offB    : Option Nat := none
  holdWr  : Bool := false              -- the shadow was written while `HOLD` is 1 (R291)
  inbox   : List (Nat × Nat × Bool × Nat) := []  -- values under way on dedicated paths: arrival tick, owner, CMP_B, value
  wrA     : List (Nat × Nat) := []     -- writes of the shadow CMP_A not yet transferred: (tick, value), newest first
  wrB     : List (Nat × Nat) := []
  heldA   : Option Nat := none         -- COMMIT value held for the next half boundary (R292)
  heldB   : Option Nat := none
  force   : Nat := 0                   -- forces in effect: H in bits 1:0, L in bits 3:2
  fwait   : List (Nat × Nat) := []     -- FORCE values waiting, newest first, each with the tick of its write
  resume  : Bool := false              -- every cause has cleared; waits for the zero event (R302)
  pre     : Nat := 0                   -- counted edges since the last line pulse (R305)
  hi      : OutHid := {}
  lo      : OutHid := {}
  offEnd  : Nat := 0                   -- tick at which the last off-interval of 80 ticks or more ended (R298)
  offFrom : Nat := 0                   -- tick at which the high output last turned off
  refresh : Option Nat := none         -- tick at which the refresh ends
  ovr     : Nat := 0                   -- override: 0 none, 1 OFF, 2 LOW (R358, R382, R409)
  swarm   : List (Nat × Nat) := []     -- swarm pulses: the tick from which override SWARM acts, and that at which it ends (R371)
  deriving DecidableEq, Repr

/-- One gate channel (R313): commanded on, conducting, the instant its turn-on is due, the instant of full sink. -/
structure ChanHid where
  cmd   : Bool := false
  on    : Bool := false
  cmdAt : Nat := 0
  onAt  : Nat := 0                    -- tick at which it last began to conduct
  sink  : Nat := 0                    -- tick at which full sink began
  soft  : Option Nat := none          -- tick at which its soft turn-off ends (R321)
  clamp : Bool := false               -- the Miller clamp holds the gate (R316)
  taken : Bool := false               -- this on-interval has been measured or passed over (R329)
  code  : Option Nat := none          -- effective OVLD code that waits for the next turn-on (R320)
  deriving DecidableEq, Repr

/-- A channel pair's off conditions (R315, R321 to R324) and the ticks of its trips. -/
structure PairHid where
  tripOff : Bool := false             -- off after a trip (R321)
  cycab   : Bool := false             -- that trip was handled in cycle-abort mode (R323)
  resume  : Bool := false             -- the off condition has ended; waits for the high output to be off (R324)
  tripAt  : Nat := 0                  -- tick of the last trip
  trips   : List Nat := []            -- ticks of the trips counted, newest first (R322)
  bstCut  : Bool := false             -- the high side was cut by its bootstrap (R317)
  bstNew  : Bool := false             -- its bootstrap has recovered since
  hi      : ChanHid := {}
  lo      : ChanHid := {}
  meas    : Nat := 0                  -- on-intervals since the last measured one (R329)
  measLo  : Nat := 0
  deriving DecidableEq, Repr

/-- A fault group's collection window and decision (R325 to R327). -/
structure GroupHid where
  opened : Option Nat := none         -- tick at which the window opened
  trips  : List Nat := []             -- channels collected
  deriving DecidableEq, Repr

/-- R332 to R336: the brake chopper's comparators, its estimates in µJ and the ticks of its overvoltage trips. -/
structure BrakeHid where
  above0 : Bool := false
  above1 : Bool := false
  onAt   : List Nat := [0, 0]
  offAt  : List Nat := [0, 0]
  e0     : Nat := 0
  e1     : Nat := 0
  h0     : Nat := 0      -- ticks on since the last energy update
  h1     : Nat := 0
  ovTrips : List Nat := []
  ovLatched : Bool := false
  limAt  : List (Option Nat) := [none, none]  -- tick in which each output last reached its energy limit (R336)
  deriving DecidableEq, Repr

/-- One phase of a Dragonfly instance (R362, R369, R375, R376): its weight, thermal state in Q8.8, current-loop histories
newest first, and the ticks of its trips. -/
structure DfPhase where
  w     : Int := 32767
  lp    : Int := 0
  ei    : List Int := [0, 0, 0]
  yi    : List Int := [0, 0, 0]
  trips : List Nat := []
  deriving DecidableEq, Repr

/-- What a Dragonfly instance holds beside its registers (R361 to R376). -/
structure DfHid where
  r      : Int := 0              -- reference, Q1.47
  tgt    : Int := 0              -- target in force, Q1.15
  slew   : Bool := false         -- the target in force has not been reached
  need   : Bool := false         -- r takes `E_VOUT` of the next record (R367, R387)
  ev     : List Int := [0, 0, 0]
  yv     : List Int := [0, 0, 0]
  vPrev  : Option Int := none
  ilOl   : Option Int := none    -- overload limit; none: `ILIM`
  low    : Nat := 0              -- consecutive cycles below `SHED_TH_n.DN`
  ho     : Nat := 0              -- shedding hold-off cycles left
  sw     : Option Nat := none    -- cycles since the last swarm pulse
  lfsr   : Nat := 0
  order  : List Nat := []        -- phase of each slot
  hics   : List Nat := []        -- ticks of HICCUP entries
  hicAt  : Nat := 0
  last   : Option Nat := none    -- completion tick of the last cycle
  hbBat  : Bool := false         -- Honeybee gives mode IBAT (R382)
  hbTgt  : Int := 0              -- Honeybee's target
  hbSet  : Bool := false         -- Honeybee has given a mode and target
  hbVal  : Bool := false         -- VLINK compare values are awaited (R387)
  stop   : Option (Nat × Access × Nat × Int) := none  -- the last executed `STOP`: its tick, writer and word, and the target before (R377)
  ph     : List DfPhase := List.replicate 6 {}
  deriving DecidableEq, Repr

/-- R380: what Honeybee latches in tick C + 1 for the decisions of tick C + 8: that tick, its state, the words of the records of the
mains and of the battery set, |ω| of `AT.2`, the pilot state and limit, I* of `DF.0`, and the active bank of its page. -/
structure HbLatch where
  due   : Nat
  mrec  : List Nat
  brec  : List Nat
  omega : Nat
  cp    : Nat
  lim   : Nat
  istar : Int
  der   : Bool
  bank  : List Nat
  deriving DecidableEq, Repr

/-- What Honeybee holds beside its registers (R380 to R400). -/
structure HbHid where
  lat    : Option HbLatch := none  -- a cycle whose tick C + 8 has not come
  use    : Option HbLatch := none  -- the cycle being decided
  sup    : Option Nat := none      -- tick in which `DF.0` first delivers compare values under VLINK (R387)
  since  : Option Nat := none    -- cycles since the last issued `START` (R384); none: none since entry to IDLE
  loss   : Nat := 0              -- consecutive loss cycles (R386)
  iChg   : Int := 0              -- charge current
  iCv    : Int := 0
  term   : Nat := 0              -- consecutive cycles at or below `I_TERM`
  therm  : Bool := false         -- the thermal limit was in force in the phase (R400)
  dwell  : Nat := 0              -- cycles of the forage state
  vdRef  : Int := 0
  fRef   : Nat := 0
  mode   : Option Bool := none   -- mode in force at the last cycle in SOURCE: true for grid (R396)
  last   : Option Nat := none    -- completion tick of the last cycle
  out    : List Nat := List.replicate 8 0   -- words 1008 to 1015 (R381)
  outPrev : List Nat := List.replicate 8 0
  outAt  : Nat := 0              -- the tick from which `out` counts
  cpNew  : Option Nat := none    -- pilot state being filtered (R392)
  cpAt   : Nat := 0              -- the tick since which it holds
  deriving DecidableEq, Repr

/-- R408: what a unit latches in tick C + 1 for its outputs in tick C + 6: that tick, its state, the words of the record, p, the track's
state, angle and |ω|, and the Hall sector. -/
structure AduLatch where
  due    : Nat
  st     : Nat
  rec_   : List Nat
  pos    : Int
  good   : Bool
  ang    : Nat
  omega  : Nat                   -- bits 47:16; R412 compares those of the tick of a `STOP`
  sector : Nat
  deriving DecidableEq, Repr

/-- What an actuator drive unit holds beside its registers (R408 to R416). -/
structure AduHid where
  lat    : Option AduLatch := none  -- a cycle whose tick C + 6 has not come
  use    : Option AduLatch := none  -- the cycle being decided
  pr     : Int := 0              -- reference, Q1.15 with 8 more fractional bits
  pPrev  : Int := 0
  x      : Int := 0              -- current-loop integrator
  sector : Nat := 7
  xcN    : Nat := 0              -- cycles of the cross-check interval
  xcP    : Int := 0
  xcA    : Nat := 0              -- track angle at the last cycle
  xcSum  : Int := 0
  trN    : Nat := 0              -- consecutive cycles within the window
  told   : Bool := false         -- `TGT` was raised since the window was entered
  tgt    : Int := 0              -- the target `told` speaks of
  eng    : Option Nat := none    -- tick of the `STOP` whose engagement is watched (R416)
  startAt : Nat := 0
  hics   : List Nat := []
  hicAt  : Nat := 0
  last   : Option Nat := none
  out    : List Nat := List.replicate 8 0
  outPrev : List Nat := List.replicate 8 0
  outAt  : Nat := 0
  deriving DecidableEq, Repr

/-- A frame in a receive FIFO (R433): the words of `RXF_ID`, `RXF_CTL`, `RXF_TS` and `RXF_DATA`. -/
structure KdRx where
  id   : Nat
  ctl  : Nat
  ts   : Nat
  data : List Nat
  deriving DecidableEq, Repr

/-- What a Katydid controller holds beside its registers (R424 to R434). -/
structure KdHid where
  offPend   : Bool := false        -- `EN` was cleared during a frame, whose end takes the controller to OFF
  sleepPend : Bool := false        -- SLEEP is entered at the next bus idle
  integ     : Bool := false        -- a protocol exception has taken it through bus integration, which is not over (R431)
  recCnt    : Nat := 0             -- recoveries started since the first of the window
  recFirst  : Nat := 0             -- its tick
  rty       : List Nat := [0, 0, 0]
  tx        : Option (Nat × Nat) := none  -- the buffer IN_TX and the tick of its SOF
  wait      : Option (Nat × KdRx) := none -- a FIFO that was full when this frame ended in the present tick (R433)
  fifo0     : List KdRx := []      -- oldest first
  fifo1     : List KdRx := []
  deriving DecidableEq, Repr

/-- R444: what a streaming datagram is sent to and from: `STREAM_MAC`, `STREAM_DST`, `STREAM_PORT`, and its source port. -/
structure UdpTo where
  mac   : Nat
  ip    : Nat
  port  : Nat
  sport : Nat
  deriving DecidableEq, Repr

/-- What the Ethernet port and its services hold beside their registers (R439 to R450). A frame is held as its payload. -/
structure EthHid where
  fw      : Bool := false               -- a programming run is in progress (R447)
  fwSrc   : Nat := 0
  fwLen   : Nat := 0
  fwBank  : Nat := 0
  q0      : List (List Nat) := []       -- queues 0, 1 and 3 (R441)
  q1      : List (List Nat) := []
  q3      : List (UdpTo × List Nat) := []
  tx      : Option (Nat × Option UdpTo × List Nat) := none  -- the frame in transmission, with its queue
  seq     : Option Nat := none          -- `SEQ` of the last executed remote request (R446)
  reply   : List Nat := []              -- its reply
  strSeq  : Nat := 0                    -- the next datagram's sequence (R444)
  strRecs : List (List Nat) := []       -- records of the datagram being collected
  strAt   : Nat := 0                    -- tick of its first record
  phy100  : Bool := false               -- the PHY tries 100BASE-T1 (R439)
  phyAt   : Nat := 0                    -- tick since which it tries it
  ptpS    : Nat := 0                    -- PTP seconds (R442)
  ptpN    : Nat := 0                    -- PTP nanoseconds × 2^32
  ts      : List (Nat × Nat × Nat) := []  -- transmit timestamps: ns, seconds, sequenceId; oldest first (R443)
  tsLost  : Nat := 0
  deriving DecidableEq, Repr

/-- One safety input (R454 to R459), counted in samples of 50 µs. -/
structure SinHid where
  na    : Nat := 0        -- consecutive samples of channel A that differ from its filtered level
  nb    : Nat := 0
  ha    : Nat := 0        -- consecutive samples that gave or confirmed the filtered level of channel A, until it is established
  hb    : Nat := 0
  disc  : Nat := 0        -- consecutive samples with one channel in demand
  dem   : Nat := 0        -- consecutive samples with both channels at their demand levels
  dOk   : Bool := false   -- so for `FILT` since the recorded fault
  sOk   : Bool := false   -- so since the start-up test became pending
  crossA : Nat := 0       -- outputs in whose last pulse channel A read low without naming them
  crossB : Nat := 0
  high  : Nat := 0        -- samples of the high phase of a reset input
  lowA  : Bool := false   -- channel A has read low in the present pulse of an output it does not name
  lowB  : Bool := false
  deriving DecidableEq, Repr

/-- A PDU that has passed Scarab's checks 1 to 4 and waits for Stag-A's verdict (R486, R487): delivery number, connection (128:
the commissioning connection), sequence, kind, data, and the tick of its delivery. -/
structure SlWait where
  num  : Nat
  conn : Nat
  seq  : Nat
  kind : Nat
  data : List Nat
  at_  : Nat
  late : Nat := 0         -- demands of DATA received on the connection since (R488)
  deriving DecidableEq, Repr

/-- What Scarab holds beside its windows (R451 to R496). Its times are counted in its own cycles of 250 µs. -/
structure ScHid where
  work   : List Nat := []              -- the working copy of the commissioned set; empty: none
  slot   : Nat := 0                    -- the Cocoon slot in use
  cyc    : Nat := 0                    -- Scarab cycles since power-up
  bad    : Option Nat := none          -- tick since which its own supply is out of limits
  sin    : List SinHid := List.replicate 16 {}
  tp     : List (Option Nat) := List.replicate 8 none  -- tick at which the last pulse of an output began
  seen   : Nat := 0                    -- inputs seen in demand since the last cycle (R473)
  left   : Nat := 0                    -- inputs seen released since the last cycle
  link   : Nat := 0                    -- what connections have demanded since the last cycle: zones in STO, then in SS1 (R473, R488)
  tpLvl  : Nat := 0                    -- `SIN_FILT` when the last test pulse began
  resets : Nat := 0                    -- reset inputs that gave a reset since the last cycle
  twP    : List Nat := [0, 0]          -- last tooth period in 48 MHz clocks; 0: no tooth
  sdiOn  : Bool := false
  sdi    : Nat := 0                    -- teeth in the forbidden direction
  slsN   : Nat := 0
  ss1At  : List Nat := [0, 0, 0, 0]
  ss1N   : List Nat := [0, 0, 0, 0]
  splT   : Nat := 0
  splC   : Nat := 0
  splKeep : Bool := false              -- permission is kept while SS1 of `SPL_ZONE` is demanded
  discN  : List Nat := List.replicate 8 0
  discZ  : Nat := 0                    -- zones latched by a discrepancy
  xcOk   : Nat := 0
  xcSus  : Nat := 0
  dem    : List (Nat × Nat) := []      -- demands of IN connections: bit 0 STO, bit 1 SS1
  accAt  : List (Nat × Nat) := []      -- cycle of a connection's last acceptance
  prodAt : List (Nat × Nat) := []      -- cycle of an OUT connection's next production
  wait   : List SlWait := []
  commS  : Option Nat := none          -- s of the commissioning connection, while it runs
  cand   : List Nat := []              -- the candidate set
  deriving DecidableEq, Repr
/-- What the ledger has gathered of a channel (R500, R501, R504): its Vth samples and the on-intervals last measured and last sampled,
by their first tick; and the present windows: their first tick, the sum of resistances in µΩ, of tile temperatures in Q8.8, and of
mapped currents and sense currents, with the numbers of samples. -/
structure LedChan where
  vs    : List Nat := []
  mAt   : Option Nat := none
  vAt   : Option Nat := none
  ronAt : Nat := 0
  ronN  : Nat := 0
  ron   : Int := 0
  tN    : Nat := 0
  t     : Int := 0
  scrAt : Nat := 0
  scrN  : Nat := 0
  scrI  : Nat := 0
  scrS  : Nat := 0
  deriving DecidableEq, Repr

/-- A pre-charge under way (R503): `HVS.1` at its beginning, t20, and t60 − t20 once it is known, in ticks. -/
structure PreCharge where
  vs  : Int
  t20 : Option Nat := none
  dt  : Option Nat := none
  deriving DecidableEq, Repr

/-- What the lifetime ledger holds beside its registers (R500 to R509). -/
structure LedHid where
  zAt   : Option Nat := none            -- tick of the last STOPPING to READY (R502)
  zT    : List Nat := []                -- `TEMP_0` of tiles 0 to 5 at that tick
  zB    : Nat := 0                      -- `SUPPLY:T_BASE` at that tick
  zDone : List Nat := []                -- tiles recorded since
  vDone : List Nat := []                -- channels whose Vth is recorded since the last entry to RUN (R500)
  chans : List LedChan := List.replicate 48 {}
  low   : Bool := false                 -- `HVS.0` was last below 10 % of `HVS.1` (R503)
  pre   : Option PreCharge := none
  xAt   : Nat := 0                      -- tick from which the next second of R505 counts
  xSum  : Int := 0                      -- `PTP:RATE` readings summed (R505)
  xN    : Nat := 0
  spAt  : Nat := 0                      -- tick at which the wait of a substitution began (R512)
  deriving DecidableEq, Repr

/-- What a Stag pair holds (R105, R106), its MPU as loaded into the cores (R123), and what it waits for. -/
structure StagHid where
  g       : List Word := List.replicate 32 0
  f       : List Word := List.replicate 32 0
  pc      : Nat := 0
  status  : Nat := 0
  estatus : Nat := 0
  epc     : Nat := 0
  ecause  : Nat := 0
  eaddr   : Nat := 0
  vbase   : Nat := 0
  fcsr    : Nat := 0
  tickHi  : Nat := 0
  mpuCtrl : Nat := 2
  mpu     : List (Nat × Nat) := List.replicate 32 (0, 0)  -- BASE and ATTR words
  errs    : List (Nat × Nat × Bool) := []  -- stores whose bus error is to return: next pc, address, PACT (R113)
  dc      : List Host.Cell := []           -- bytes the D-cache holds (R118)
  step    : Bool := false                  -- halted, one instruction may execute (R527)
  deriving DecidableEq, Repr

/-- What an Antline page holds beside its registers (R517 to R521). -/
structure AntHid where
  cyc  : Nat := 0
  pmc  : List Nat := List.replicate 8 0
  ctr  : Nat := 0
  lfsr : Nat := 0
  issued : Nat := 0            -- instructions issued in the present tick (R518)
  owed : Nat := 0              -- stalled cycles of cause 0xA still to pass (R143, R518)
  dev  : Nat := 0              -- device accesses issued in the present tick
  den  : Nat := 0              -- PACT denials in the present tick
  wrote : List Nat := []       -- counters that software has written in the present tick
  recAt : Option (Nat × Nat) := none  -- tick and slot of the last record (R521)
  deriving DecidableEq, Repr

/-- R523: what a fabric port has carried in a window: bytes read and written, those of the present 1 µs sub-window, and the peaks. -/
structure BwPort where
  rd    : Nat := 0
  wr    : Nat := 0
  sub   : Nat := 0
  subR  : Nat := 0
  subW  : Nat := 0
  peakR : Nat := 0
  peakW : Nat := 0
  deriving DecidableEq, Repr

/-- What `BWMON` holds beside its registers (R523, R524): the tick at which the window began, the thresholds in force, the
ports that have crossed them, and the counts of the window and of the one that follows it. -/
structure BwHid where
  at_  : Nat := 0
  cur  : List BwPort := List.replicate 16 {}
  nxt  : List BwPort := List.replicate 16 {}
  thr  : List Nat := List.replicate 16 0
  done : Nat := 0
  deriving DecidableEq, Repr

/-- The state of the block. Registers and memories are sparse maps in one canonical form (ascending keys, nothing listed
that equals what an unlisted key reads as); `regs` is keyed by page × 0x1000 + offset. -/
structure State where
  pending : List Instr := []
  variant : Variant := .h12
  tick    : Nat := 0
  freeCtr : Nat := 0
  reply   : Reply := {}
  regs    : List (Nat × Word) := []
  mem     : List Host.Cell := []
  now     : NowHid := {}
  upset   : List (Nat × Ecc) := []  -- 64-bit words (address / 8) whose check bits show an error that no write has removed (R142)
  dev     : DevHid := {}
  nv      : NonVol := {}
  det     : List DetWait := []
  hive    : HiveHid := {}
  dma     : List DmaCh := List.replicate 8 {}
  dmaTurn : Nat := 0          -- the channel whose turn comes next (R131)
  chk     : ChkHid := {}
  armNow  : List Nat := []    -- pages armed in the present tick (R83)
  disNow  : List Nat := []    -- armed pages disarmed in the present tick (R83)
  tracks  : List Track := List.replicate 8 {}
  slots   : List SlotHid := List.replicate 64 {}
  sets    : List SetHid := List.replicate 8 {}
  sdOn    : List (Option Nat) := List.replicate 48 none  -- tick since which an input and its group are enabled (R208)
  hvsOn   : List (Option Nat) := some 0 :: List.replicate 7 none  -- tick since which an `HVS` channel is enabled (R208)
  sdOsr   : List (List (Nat × Nat)) := List.replicate 6 []  -- transfers of `FILT`, newest first: tick and value (R190)
  sdGot   : List (Nat × Nat × Int) := []  -- sigma-delta results of pending sets: tick T, channel code, raw value (R211)
  sar     : List SarHid := List.replicate 4 {}
  rsv     : List RsvHid := List.replicate 2 {}
  enc     : List (Bool × Bool) := List.replicate 4 (false, false)
  encAt   : List (Option Nat) := List.replicate 8 none  -- tick of an encoder track's last delivery (R166)
  twLast  : List (Option Nat) := [none, none]
  sentErr : List (Option Nat) := List.replicate 4 none  -- tick of a SENT input's last discarded frame (R208)
  sentWas : List (Option (Nat × Int)) := List.replicate 4 none  -- tick of a SENT input's last valid frame, and the raw value before it (R203)
  cal     : CalHid := {}
  mt      : List MtHid := List.replicate 4 {}
  inj     : List InjHid := List.replicate 4 {}
  capt    : List CapHid := List.replicate 4 {}
  profAt  : Nat := 0          -- tick at which the profiling window began (R279)
  cars    : List CarHid := List.replicate 16 {}
  legs    : List LegHid := List.replicate 32 {}
  pairs   : List PairHid := List.replicate 32 {}
  groups  : List GroupHid := List.replicate 8 {}
  brake   : BrakeHid := {}
  genS    : Nat := 0          -- Scarab's GEN_S: bits 7:0 per tile, bit 8 the brake drive (R451)
  ntcWarn : Nat := 0          -- NTC pairs whose temperature is at the level `TEMP_LIM.WARN` (R331)
  ntcShut : Nat := 0          -- NTC pairs whose temperature is at the level `TEMP_LIM.SHUT` (R331)
  df      : List DfHid := List.replicate 2 {}
  hb      : HbHid := {}
  adu     : List AduHid := List.replicate 3 {}
  kd      : List KdHid := List.replicate 4 {}
  eth     : EthHid := {}
  sc      : ScHid := {}
  led     : LedHid := {}
  stag    : List StagHid := List.replicate 2 {}
  ant     : List AntHid := List.replicate 2 {}
  bw      : BwHid := {}
  deriving DecidableEq, Repr

/-- Why the machine stops with a fault: for no reason. The spec answers an access to an address that does not exist with
a bus error (R67, R70), which is a reply of the block, and gives every command an effect. -/
inductive Fault where
  deriving DecidableEq, Repr

/-- Why the machine refuses a command. -/
inductive Refusal where
  /-- A command that has no meaning in this model yet; raised by the dispatch alone. Safe: nothing is claimed of it. -/
  | notModelled (mnemonic : String)
  deriving DecidableEq, Repr

/-- The device before power is applied: every register at its factory value, both non-volatile memories blank. -/
def State.reset : State := {}

end Sys2Proof.Machine
end

