-- ==== Sys2Proof/Machine/Ops.lean ====
section
/-! DEFINITION. The named operations over registers, memory and the device state: sparse maps, register reads and writes,
refusals (R85 to R87), PACT (R122), epoch transfers (R82) and the device's transitions (R88 to R91). -/
namespace Sys2Proof.Machine

/-! ## Sparse maps -/

/-- The value a sparse map gives a key: the listed one, else the default of that key. -/
def sget {α : Type} (dflt : Nat → α) : List (Nat × α) → Nat → α
  | [], k => dflt k
  | (a, v) :: l, k => if a = k then v else sget dflt l k

/-- Insertion into an ascending list of pairs, replacing an entry of the same key. -/
def sins {α : Type} (k : Nat) (v : α) : List (Nat × α) → List (Nat × α)
  | [] => [(k, v)]
  | (a, w) :: l => if k < a then (k, v) :: (a, w) :: l else if k = a then (k, v) :: l else (a, w) :: sins k v l

/-- Removal of a key. -/
def sdel {α : Type} (k : Nat) : List (Nat × α) → List (Nat × α)
  | [] => []
  | (a, w) :: l => if a = k then sdel k l else (a, w) :: sdel k l

/-- A write to a sparse map in canonical form: the default value is not listed. -/
def sset {α : Type} [DecidableEq α] (dflt : Nat → α) (m : List (Nat × α)) (k : Nat) (v : α) : List (Nat × α) :=
  match m with
  | [] => if v = dflt k then [] else [(k, v)]
  | e :: l => if v = dflt k then sdel k (e :: l) else sins k v (e :: l)

/-- The canonical form: keys strictly rise and no entry equals the default. -/
def swf {α : Type} [DecidableEq α] (dflt : Nat → α) (m : List (Nat × α)) : Bool :=
  (m.map Prod.fst).Pairwise (· < ·) && m.all (fun e => e.2 ≠ dflt e.1)

/-- The element of a list of block instances, or the given default. -/
def nth {α : Type} (l : List α) (i : Nat) (d : α) : α := l.getD i d

/-- The fold of an operation over instance numbers 0 to n − 1, in ascending order. -/
def forRange {σ : Type} (n : Nat) (f : Nat → σ → σ) (s : σ) : σ := (List.range n).foldl (fun s i => f i s) s

/-! ## Registers -/

/-- What an unlisted register reads as: its factory value (R4). -/
def regDefault (v : Variant) (a : Nat) : Word := BitVec.ofNat 32 (factoryAt v.code a)

/-- The stored word of the register at offset `o` of page `p`. -/
def rg (s : State) (p o : Nat) : Nat := (sget (regDefault s.variant) s.regs (p * 4096 + o)).toNat

/-- Store a register word. -/
def setRg (p o v : Nat) (s : State) : State :=
  { s with regs := sset (regDefault s.variant) s.regs (p * 4096 + o) (BitVec.ofNat 32 v) }

/-- A field of a register. -/
def fld (s : State) (p o lo w : Nat) : Nat := bits (rg s p o) lo w

/-- Store a field of a register. -/
def setFld (p o lo w x : Nat) (s : State) : State := setRg p o (putBits (rg s p o) lo w x) s

/-- One bit of a register. -/
def rbit (s : State) (p o i : Nat) : Bool := bit (rg s p o) i

/-- Store one bit of a register. -/
def setBit (p o i : Nat) (b : Bool) (s : State) : State := setFld p o i 1 (b2n b) s

/-- The active copy of an epoch-buffered register (R5, R81). -/
def act (s : State) (p o : Nat) : Nat := rg s p (o + 0x800)

/-- A field of the active copy of an epoch-buffered register. -/
def actFld (s : State) (p o lo w : Nat) : Nat := bits (act s p o) lo w

/-- Add to a field, saturating at its largest value. -/
def incSat (p o lo w n : Nat) (s : State) : State := setFld p o lo w (satN (2 ^ w - 1) (fld s p o lo w + n)) s

/-- Add to a field modulo its width. -/
def incWrap (p o lo w n : Nat) (s : State) : State := setFld p o lo w ((fld s p o lo w + n) % 2 ^ w) s

/-! ## Pages (R69) -/

def pSYS : Nat := 0x00
def pCLK : Nat := 0x01
def pSUPPLY : Nat := 0x02
def pBOOT : Nat := 0x03
def pCOCOON : Nat := 0x04
def pPACT : Nat := 0x05
def pHIVE : Nat := 0x06
def pDEBUG : Nat := 0x07
def pANT (a : Nat) : Nat := 0x08 + a
def pBWMON : Nat := 0x0A
def pLEDGER : Nat := 0x0B
def pSPARE : Nat := 0x0C
def pSTAG (a : Nat) : Nat := 0x10 + a
def pCHECKER : Nat := 0x12
def pMEMCTL : Nat := 0x13
def pAT (n : Nat) : Nat := 0x20 + n
def pSLOTS (i : Nat) : Nat := 0x28 + i
def pSDG (g : Nat) : Nat := 0x30 + g
def pSAR (n : Nat) : Nat := 0x36 + n
def pRSV (n : Nat) : Nat := 0x3A + n
def pENC : Nat := 0x3C
def pHVS : Nat := 0x3D
def pSETS : Nat := 0x3E
def pCAL : Nat := 0x3F
def pMT (e : Nat) : Nat := 0x40 + e
def pMTS : Nat := 0x44
def pCAR (n : Nat) : Nat := 0x50 + n
def pLEG (m : Nat) : Nat := 0x60 + m
def pIC (t : Nat) : Nat := 0x80 + t
def pBRAKE : Nat := 0x88
def pDF (i : Nat) : Nat := 0x90 + i
def pHB : Nat := 0x98
def pPILOT : Nat := 0x99
def pADU (u : Nat) : Nat := 0xA0 + u
def pKD (k : Nat) : Nat := 0xB0 + k
def pETH : Nat := 0xB8
def pPTP : Nat := 0xB9
def pSC (i : Nat) : Nat := 0xC0 + i
def pSL : Nat := 0xC8

/-- The page numbers of R69. -/
def allPages : List Nat := (List.range 256).filter (fun p => (pageOf p).isSome)

/-- R79: the check value of a page's registers as they stand. -/
def checkNow (s : State) (p : Nat) : Nat :=
  match pageOf p with | some (k, i) => checkValue k i (rg s p) | none => 0

/-- `PAGE_STATE.STATE` (R74). -/
def blockState (s : State) (p : Nat) : Nat := fld s p 0x0C 0 8

/-- Store `PAGE_STATE.STATE`. -/
def setBlockState (p c : Nat) (s : State) : State := setFld p 0x0C 0 8 c s

/-! ## Device state (R88) -/

/-- The device states of R88, in the order of their codes. -/
inductive DevState where
  | off | standby | boot | selftest | restore | held | ready | run | degraded | stopping | safe | latched
  deriving DecidableEq, Repr

/-- R88: the code of a state. -/
def DevState.code : DevState → Nat
  | .off => 0 | .standby => 1 | .boot => 2 | .selftest => 3 | .restore => 4 | .held => 5 | .ready => 6 | .run => 7
  | .degraded => 8 | .stopping => 9 | .safe => 10 | .latched => 11

/-- R88: the state of a code. -/
def DevState.ofCode (n : Nat) : DevState :=
  match n with
  | 1 => .standby | 2 => .boot | 3 => .selftest | 4 => .restore | 5 => .held | 6 => .ready | 7 => .run
  | 8 => .degraded | 9 => .stopping | 10 => .safe | 11 => .latched | _ => .off

/-- `SYS:DEV_STATE.STATE`. -/
def devState (s : State) : DevState := .ofCode (fld s pSYS 0x44 0 4)

/-- R88: is the logic powered? -/
def powered (s : State) : Bool := devState s ≠ .off ∧ devState s ≠ .standby

/-- `DEG_LATCH` (R91). -/
def degLatch (s : State) : Bool := rbit s pSYS 0x44 17

/-- The lowest bit-counting parity of a natural number below 2^n. -/
def popCount (n v : Nat) : Nat := ((List.range n).filter (bit v)).length

/-! ## Event flags (R75, R76) -/

/-- The low 16 bits of two words, combined bitwise; the high bits are combined alike. -/
def orN (a b : Nat) : Nat := a ||| b

/-- The bits of `a` that are 0 in `b`. -/
def clrN (a b : Nat) : Nat := a - (a &&& b)

/-- R76: flag `i` of a page counts as set by hardware in the present tick. -/
def noteFlag (p i : Nat) (n : NowHid) : NowHid := if n.flags.contains (p, i) then n else { n with flags := (p, i) :: n.flags }

/-- Hardware sets event flag `i` of a page. -/
def flag (p i : Nat) (s : State) : State :=
  setRg p 0x10 (orN (rg s p 0x10) (2 ^ i)) { s with now := noteFlag p i s.now }

/-- R76: the flags of a page that hardware has set in the present tick. -/
def flagsNow (s : State) (p : Nat) : Nat := (List.range 32).foldl (fun a i => a + b2n (s.now.flags.contains (p, i)) * 2 ^ i) 0

/-- Hardware sets a flag when the condition holds. -/
def flagIf (c : Bool) (p i : Nat) (s : State) : State := if c then flag p i s else s

/-! ## Refusals (R85 to R87) -/

/-- The reasons of R87. -/
inductive Reason where
  | state | devstate | resource | conflict | value | locked | armed | view | safety
  deriving DecidableEq, Repr

/-- R87: the code of a reason. -/
def Reason.code : Reason → Nat
  | .state => 1 | .devstate => 2 | .resource => 3 | .conflict => 4 | .value => 5 | .locked => 6 | .armed => 7
  | .view => 8 | .safety => 9

/-- R86: the code of a master. -/
def masterCode : Master → Nat
  | .internal => 0 | .stagA => 1 | .stagB => 2 | .mantis => 3 | .dma => 4 | .eth => 5 | .debug => 6 | .lsp => 7

/-- An access the hardware makes itself (master 0). -/
def internalAcc : Access := ⟨.internal, .queen⟩

/-- R85, R86: a refused write records `REJECT`, sets `REJ`, and changes nothing else. -/
def refuse (acc : Access) (p o v : Nat) (r : Reason) (s : State) : State :=
  flag p 31 (setRg p 0x20
    (2 ^ 31 + masterCode acc.master * 2 ^ 28 + r.code * 2 ^ 24 + v % 256 * 2 ^ 16
      + b2n (rbit s p 0x20 31) * 2 ^ 12 + o % 4096) { s with now := { s.now with rej := p :: s.now.rej } })

/-! ## What the monitors see of an access (R518, R522, R523) -/

/-- R523: a port carries `n` bytes, `t` ticks after the window's start. -/
def bwPortAdd (t n : Nat) (wr : Bool) (x : BwPort) : BwPort :=
  let y := if x.sub = t / 200 then x else { x with sub := t / 200, subR := 0, subW := 0 }
  if wr then { y with wr := y.wr + n, subW := y.subW + n, peakW := max y.peakW (y.subW + n) }
  else { y with rd := y.rd + n, subR := y.subR + n, peakR := max y.peakR (y.subR + n) }

/-- R523: the length of a window in ticks. -/
def bwLen (s : State) : Nat := fld s 0x00A 0x40 0 20 * 200

/-- R523: the ports `ps` carry `n` bytes in the present tick. -/
def bwSeen (ps : List Nat) (n : Nat) (wr : Bool) (s : State) : State :=
  let b := s.bw
  let put := fun (t0 : Nat) (l : List BwPort) => ps.foldl (fun l p => l.set p (bwPortAdd (s.tick - t0) n wr (nth l p {}))) l
  if ¬ rbit s 0x00A 0x08 0 ∨ s.tick < b.at_ then s
  else if s.tick < b.at_ + bwLen s then { s with bw := { b with cur := put b.at_ b.cur } }
  else { s with bw := { b with nxt := put (b.at_ + bwLen s) b.nxt } }

/-- R522: the port of a bus master. -/
def masterPort : Master → List Nat
  | .stagA => [0] | .stagB => [1] | .dma => [2] | .eth => [3] | .debug => [4] | .lsp => [4] | .internal => [5] | .mantis => []

/-- R518: the pair of an access has issued a device access, or met a PACT denial. -/
def stagSeen (acc : Access) (dev den : Bool) (s : State) : State :=
  let add := fun (x : Nat) =>
    let h := nth s.ant x {}
    { s with ant := s.ant.set x { h with dev := h.dev + (if dev then 1 else 0), den := h.den + (if den then 1 else 0) } }
  match acc.master with
  | .stagA => add 0
  | .stagB => add 1
  | .internal | .mantis | .dma | .eth | .debug | .lsp => s

/-- What the monitors see of a transfer of `n` bytes at the ports `ps` of its target. -/
def tally (acc : Access) (ps : List Nat) (n : Nat) (wr dev : Bool) (s : State) : State :=
  stagSeen acc dev false (bwSeen (masterPort acc.master ++ ps) n wr s)

/-! ## PACT (R122 to R125) -/

/-- R122: the bit of a PACT entry that grants an access; none for the device's own writes. -/
def pactBit (acc : Access) (wr : Bool) : Option Nat :=
  let c := match acc.caste with | .queen => 0 | .worker => 1 | .drone => 2
  match acc.master with
  | .internal => none
  | .stagA => some ((if wr then 3 else 0) + c)
  | .stagB => some ((if wr then 11 else 8) + c)
  | .mantis => some (if wr then 17 else 16)
  | .dma => some (if wr then 19 else 18)
  | .eth => some (if wr then 21 else 20)
  | .debug => some (if wr then 23 else 22)
  | .lsp => some (if wr then 25 else 24)

/-- R122: does PACT grant the access to page `p`? A write to a `SCARAB` window is ignored, not denied (R70, R124). -/
def pactAllows (s : State) (acc : Access) (p : Nat) (wr : Bool) : Bool :=
  if wr ∧ 0xC0 ≤ p ∧ p < 0xC8 then true
  else match pactBit acc wr with
    | none => true
    | some i => rbit s pPACT (0x400 + 4 * p) i

/-- R125: the caste code of `VIOL`. -/
def violCaste (acc : Access) : Nat :=
  match acc.master with
  | .stagA | .stagB => (match acc.caste with | .queen => 0 | .worker => 1 | .drone => 2)
  | .internal | .mantis | .dma | .eth | .debug | .lsp => 3

/-- R122, R125: a denied access records `VIOL`, counts, raises E023 and ends in a bus error that returns 0. -/
def pactDeny (acc : Access) (p o : Nat) (wr : Bool) (s : State) : State :=
  let s1 := setRg pPACT 0x40
    (2 ^ 31 + masterCode acc.master * 2 ^ 28 + violCaste acc * 2 ^ 26 + b2n wr * 2 ^ 25
      + b2n (rbit s pPACT 0x40 31) * 2 ^ 24 + p % 256 * 2 ^ 12 + o % 4096) s
  { stagSeen acc true true (flag pPACT 0 (incSat pPACT 0x44 0 16 1 s1)) with reply := ⟨0, true⟩ }

/-- The response of an access that completes with a bus error and has no effect. -/
def busErr (s : State) : State := { s with reply := ⟨0, true⟩ }

/-- R31, R525: the debug port gives no access while it is locked; a write of `HALT_CTL` is answered with a refusal (R526). R30: the
local service path gives none in a power cycle that began with `SVCEN` low. -/
def portShut (s : State) (acc : Access) (p o : Nat) : Bool :=
  (acc.master == .debug && ! rbit s pDEBUG 0x40 0 && ! (p == 7 && o == 0x44)) || (acc.master == .lsp && ! s.dev.svc)

/-- R67, R70, R122: a write to page `p` reaches its page check only when the logic is powered, the page exists and PACT
grants it; the access then completes without a bus error, whether executed or refused (R85). -/
def onBus (acc : Access) (p o : Nat) (f : State → State) (s : State) : State :=
  if ¬ powered s ∨ portShut s acc p o then busErr s
  else if pageOf p = none then busErr s
  else if ¬ pactAllows s acc p true then pactDeny acc p o true s
  else { tally acc [10] 4 true true (f s) with reply := ⟨0, false⟩ }

/-- The read of a register page: the same gate, the value from `rd`, and the side effects of the read (R122). -/
def onBusRead (acc : Access) (p o : Nat) (rd : State → Nat) (eff : State → State) (s : State) : State :=
  if ¬ powered s ∨ portShut s acc p o then busErr s
  else if pageOf p = none then busErr s
  else if ¬ pactAllows s acc p false then pactDeny acc p o false s
  else { tally acc [10] 4 false true (eff s) with reply := ⟨rd s, false⟩ }

/-! ## The checks of a page write (R74, R78, R80, R83, R87) -/

/-- `LOCK.LCK` of a page (R78). -/
def locked (s : State) (p : Nat) : Bool := rbit s p 0x24 0

/-- `EPOCH.ARMED` of a page (R81). -/
def armed (s : State) (p : Nat) : Bool := rbit s p 0x28 18

/-- R5, R74: the bits a masked write enables. -/
def mEnable (v : Nat) : Nat := bits v 16 16

/-- R74: is command bit `i` of a masked write issued? -/
def cmdBit (v i : Nat) : Bool := bit v (16 + i) && bit v i

/-- R5, R70: the stored value a write of `v` would leave in a register that holds `old`. -/
def RegRow.merge (r : RegRow) (old v : Nat) : Nat :=
  match r.acc with
  | .ro => old
  | .wo => old
  | .rw => orN (clrN old r.mask) (v &&& r.mask)
  | .m => orN (clrN old (mEnable v &&& r.mask)) (v &&& mEnable v &&& r.mask)
  | .w1c => clrN old (v &&& r.mask)

/-- R163: the page bit of `DET_STAT` a breach on page `p` sets, for the pages of the covered blocks. -/
def detBit (p : Nat) : Option Nat :=
  if 0x40 ≤ p ∧ p < 0x44 then some (16 + (p - 0x40)) else if p = 0x90 ∨ p = 0x91 then some (20 + (p - 0x90))
  else if p = 0x98 then some 22 else if 0x20 ≤ p ∧ p < 0x2A then some 23 else none

/-- R163, R164: record a breach of kind `kind` (0 `PARAM`, 1 `OVERRUN`, 2 `LIVE`, 3 `LOST`) on page `p`. A breach
recorded while a clear waits cancels the clear of its page bit, and with it the kind bits of that write, and the clear
of its own kind bit. Log entry 11. -/
def detBreach (kind p : Nat) (s : State) : State :=
  let pb := if kind = 3 then 0 else match detBit p with | some b => 2 ^ b | none => 0
  let s1 := setRg pSYS 0x58 (orN (rg s pSYS 0x58) (2 ^ kind + pb)) s
  { s1 with det := s1.det.map (fun w =>
      if w.pages &&& pb ≠ 0 then ⟨clrN w.pages pb, 0⟩ else ⟨w.pages, clrN w.kinds (2 ^ kind)⟩) }

/-- R163: is the guarantee's parameter condition in force? -/
def detActive (s : State) : Bool :=
  match devState s with
  | .run | .degraded | .stopping => true
  | .off | .standby | .boot | .selftest | .restore | .held | .ready | .safe | .latched => false

/-- R101: a class K value that changes while a save runs is not in the image: the save is stale. -/
def saveStale (s : State) : State := if rbit s pCOCOON 0x40 0 then setBit pCOCOON 0x40 3 true s else s

/-- What a stored change of a class K or C register brings: `CHKB` (R79), a stale save (R101), a breach of R163. -/
def afterConfigChange (p : Nat) (epoch : Bool) (s : State) : State :=
  let s1 := if epoch then s else setBit p 0x0C 11 true s
  let s2 := saveStale s1
  if ¬ epoch ∧ detActive s2 ∧ (detBit p).isSome then detBreach 0 p s2 else s2

/-- A block itself writes a class K register that is not epoch-buffered. -/
def blockConfig (p o v : Nat) (s : State) : State :=
  let s1 := setRg p o v s
  if rg s1 p o = rg s p o then s1 else afterConfigChange p false s1

/-- Store the merged value of a software write and its consequences: `PEND` for an epoch-buffered register (R74),
the configuration-change consequences for classes K and C. -/
def storeReg (r : RegRow) (p o new : Nat) (s : State) : State :=
  let old := rg s p o
  let s1 := setRg p o new s
  let s2 := if r.epoch then setBit p 0x0C 8 true s1 else s1
  if new = old then s2
  else if r.cls = .k ∨ r.cls = .c then afterConfigChange p r.epoch s2 else s2

/-- R81, R83: is the offset an active view of an epoch-buffered register? -/
def isView (k : PageKind) (i o : Nat) : Bool := decide (0x840 ≤ o) && isEpochReg k i (o - 0x800)

/-- R87: a write to a block register: the page's checks in their order (`chk` gives VALUE to SAFETY on the old and the
new stored value), then the store, then the block's own effect. Reserved offsets and read-only registers ignore it. -/
def busStore (acc : Access) (p o v : Nat) (chk : Nat → Nat → Option Reason) (eff : State → State) (s : State) : State :=
  match pageOf p with
  | none => s
  | some (k, i) =>
    if isView k i o then refuse acc p o v .view s
    else match rowAt k i o with
      | none => s
      | some r =>
        if r.acc = .ro then s
        else
          let old := rg s p o
          let new := r.merge old v
          if locked s p ∧ (r.cls = .k ∨ r.cls = .c) ∧ new ≠ old then refuse acc p o v .locked s
          else if r.epoch ∧ armed s p then refuse acc p o v .armed s
          else match chk old new with
            | some rs => refuse acc p o v rs s
            | none => eff (storeReg r p o new s)

/-- No check. -/
def noChk : Nat → Nat → Option Reason := fun _ _ => none

/-- The first reason of a list of (condition, reason) pairs whose condition holds (R87). -/
def firstReason : List (Bool × Reason) → Option Reason
  | [] => none
  | (c, r) :: l => if c then some r else firstReason l

/-! ## Epoch transfers (R82, R84) -/

/-- The epoch-buffered register offsets of a page. -/
def epochOffsets (k : PageKind) (i : Nat) : List Nat :=
  ((rowsOf k i).filter (·.epoch)).flatMap RegRow.offsets

/-- Copy every epoch-buffered register of a page from pending to active. -/
def copyEpochRegs (k : PageKind) (i p : Nat) (s : State) : State :=
  (epochOffsets k i).foldl (fun s o => setRg p (o + 0x800) (rg s p o) s) s

/-! ## Memory (R67, R68) -/

/-- What a byte of memory that nothing has written reads as. Log entry 6 (DESIGN CHOICE). -/
def memDefault : Nat → Byte := fun _ => 0

/-- A memory in its canonical form: addresses strictly rise, and no byte is listed that equals what an unlisted address reads as. -/
def Memory.wf (m : List Host.Cell) : Bool := swf memDefault m

/-- One byte of a memory. -/
def mget (m : List Host.Cell) (a : Nat) : Nat := (sget memDefault m a).toNat

/-- Write one byte of a memory. -/
def mset (m : List Host.Cell) (a b : Nat) : List Host.Cell := sset memDefault m a (BitVec.ofNat 8 b)

/-- A little-endian read of `n` bytes (R68). -/
def mread (m : List Host.Cell) (a : Nat) : Nat → Nat
  | 0 => 0
  | n + 1 => mget m a + 256 * mread m (a + 1) n

/-- A little-endian write of `n` bytes (R68). -/
def mwrite (m : List Host.Cell) (a : Nat) (v : Nat) : Nat → List Host.Cell
  | 0 => m
  | n + 1 => mwrite (mset m a (v % 256)) (a + 1) (v / 256) n

/-- The next `n` bytes from address `a` on, of an ascending list of cells none of which lies below `a`. -/
def fillBytes : List Host.Cell → Nat → Nat → List Nat
  | _, _, 0 => []
  | [], a, n + 1 => (memDefault a).toNat :: fillBytes [] (a + 1) n
  | (k, v) :: l, a, n + 1 =>
    if k = a then v.toNat :: fillBytes l (a + 1) n else (memDefault a).toNat :: fillBytes ((k, v) :: l) (a + 1) n

/-- The `n` bytes of a memory from address `a` on. -/
def mbytes (m : List Host.Cell) (a n : Nat) : List Nat := fillBytes (m.dropWhile (fun c => decide (c.1 < a))) a n

/-- Bytes written to a memory from address `a` on. -/
def mputs (m : List Host.Cell) (a : Nat) (bs : List Nat) : List Host.Cell :=
  (bs.foldl (fun (x : Nat × List Host.Cell) b => (x.1 + 1, mset x.2 x.1 b)) (a, m)).2

/-- The base of the memory window of engine `e` (R68). -/
def mtBase (e : Nat) : Nat := 0x30000000 + e * 0x20000

/-- R82: the coefficient bank of an engine, copied from pending to active. -/
def copyCoeffs (e : Nat) (s : State) : State :=
  let b := mtBase e
  let pendingBank := s.mem.filter (fun c => b + 0x8000 ≤ c.1 ∧ c.1 < b + 0xC000)
  let others := s.mem.filter (fun c => ¬ (b + 0xC000 ≤ c.1 ∧ c.1 < b + 0x10000))
  { s with mem := pendingBank.foldl (fun m c => sset memDefault m (c.1 + 0x4000) c.2) others }

/-- R82: the transfer of one armed page: every epoch-buffered register, the coefficient bank on an `MT.e` page, `ACTIVE`
plus one, `ARMED` and `PEND` cleared, and a new check value due (R79). -/
def transferPage (p : Nat) (s : State) : State :=
  match pageOf p with
  | none => s
  | some (k, i) =>
    let s1 := copyEpochRegs k i p s
    let s2 := if k = .mt then copyCoeffs i s1 else s1
    let s3 := setBit p 0x28 18 false (incWrap p 0x28 0 16 1 s2)
    saveStale (setBit p 0x0C 11 true (setBit p 0x0C 8 false s3))

/-- R82, R552: transfer every page that a condition names. -/
def transferWhere (m : Nat → Bool) (s : State) : State := (allPages.filter m).foldl (fun s p => transferPage p s) s

/-! ## Free values -/

/-- Draw the next free value: it is any word, and nothing relates it to another. Log entry 7. -/
def freeNow (s : State) : Nat := (Config.freeWord s.freeCtr).toNat

/-- Advance past the free value just drawn. -/
def freeStep (s : State) : State := { s with freeCtr := s.freeCtr + 1 }

/-! ## Constants of time -/

/-- PCLK ticks in a microsecond (R8). -/
def usT : Nat := 200

/-- PCLK ticks in a millisecond. -/
def msT : Nat := 200000

/-- TICK is a 64-bit count (R128, R442). -/
def tick32 (s : State) : Nat := s.tick % 2 ^ 32

end Sys2Proof.Machine
end

