-- ==== Sys2Proof/Machine/Flags.lean ====
section
/-! DEFINITION. Event flags and the Hive lines they drive (R75, R126, R553), sticky arithmetic flags (R155), the W1C
clears of `DET_STAT` (R164) and the sampled-edge bookkeeping of Hive (R128, R129). -/
namespace Sys2Proof.Machine

/-- R126, R553 and the register rules of the chapters: the Hive event that flag `b` of a page drives, where it drives one. -/
def lineOf (k : PageKind) (i b : Nat) : Option Nat :=
  match k with
  | .sys => if b = 0 then some 9 else if b = 1 then some 12 else none
  | .clk => if b = 0 then some 0 else none
  | .supply => if b < 7 then some (b + 1) else if b = 7 then some 15 else none
  | .cocoon => if b < 2 then some (10 + b) else none
  | .pact => if b = 0 then some 23 else none
  | .hive => if b < 2 then some (13 + b) else none
  | .debug => if b < 2 then some (30 + b) else none
  | .antline => if b < 2 then some (24 + 2 * i + b) else none
  | .bwmon => if b < 2 then some (28 + b) else none
  | .ledger => if b = 0 then some 254 else if b < 3 then some 255 else none
  | .stag => if b = 0 then some 22 else none
  | .checker => if b < 4 then some (16 + b) else none
  | .memctl => if b < 2 then some (20 + b) else none
  | .sdg => if b < 2 then some 112 else none
  | .sar => if b = 0 then some 113 else none
  | .rsv => if b = 0 then some (114 + i) else none
  | .enc => if b < 2 then some 116 else if b < 4 then some 117 else none
  | .hvs => if b < 8 then some 118 else none
  | .cal => if b = 0 then some 119 else none
  | .mt => if b < 4 then some (120 + 4 * i + b) else none
  | .ic => if b < 2 then some (184 + 2 * i) else if b < 7 then some (185 + 2 * i) else none
  | .brake => if b < 4 then some (200 + b) else none
  | .df => if b < 2 ∨ b = 8 then some (204 + 4 * i) else if b < 4 then some (205 + 4 * i)
      else if b = 4 then some (206 + 4 * i) else if b < 8 then some (207 + 4 * i) else none
  | .hb => if b = 0 ∨ b = 5 then some 212 else if b < 5 then some (212 + b) else none
  | .pilot => if b = 0 ∨ b = 3 then some 217 else if b < 3 then some (217 + b) else none
  | .adu => if b < 2 then some (220 + 2 * i) else if b < 6 then some (221 + 2 * i) else none
  | .kd => if b < 3 then some (226 + 4 * i) else if b < 6 then some (227 + 4 * i) else if b < 11 then some (228 + 4 * i)
      else if b < 13 then some (229 + 4 * i) else none
  | .eth => if b = 0 then some 242 else if b < 4 then some 243 else if b = 4 then some 244 else none
  | .ptp => if b = 0 then some 245 else none
  | .safelink => if b < 3 then some (251 + b) else none
  | .boot | .spare | .at | .slots | .sets | .mtshared | .car | .ffleg | .scarab => none

/-- The flags of a page that exist beside `REJ` (R553 and the chapters); reserved flags read 0 (R70). -/
def flagMask (k : PageKind) : Nat :=
  match k with
  | .sys | .cocoon | .hive | .debug | .antline | .bwmon | .memctl | .sdg | .sets => 3
  | .clk | .pact | .stag | .sar | .rsv | .ptp => 1
  | .supply | .hvs | .ffleg => 0xFF
  | .ledger | .slots | .cal | .safelink => 7
  | .checker | .at | .enc | .mt | .brake | .pilot => 0xF
  | .ic => 0x7F | .df => 0x1FF | .hb | .adu => 0x3F | .kd => 0x1FFF | .eth => 0x1F
  | .boot | .spare | .mtshared | .car | .scarab => 0

/-- R75: the flags of a page that `EVT_MASK` forwards. -/
def forwarded (s : State) (p : Nat) : Nat := rg s p 0x10 &&& rg s p 0x14

/-- R75: is the line of event `n` asserted by page `p`? A line is asserted while any of its flags is 1 with its mask 1. -/
def lineAsserted (s : State) (n p : Nat) : Bool :=
  match pageOf p with
  | none => false
  | some (k, i) => (List.range 31).any (fun b => lineOf k i b == some n && bit (forwarded s p) b)

/-- R75: event `E008`, the OR over all pages of `REJ` with its mask. -/
def e008Asserted (s : State) : Bool := allPages.any (fun p => bit (forwarded s p) 31)

/-- Hive forgets a page's lines and `E008`: each that is still asserted counts as a new rising edge (R129). -/
def forgetLines (p : Nat) (s : State) : State :=
  { s with hive := { s.hive with seen := s.hive.seen.filter (fun e => e.2 ≠ p ∧ e.1 ≠ 8) } }

/-- Hive forgets the lines of a page that are no longer asserted (R128): the next assertion is a rising edge. -/
def dropFallen (p : Nat) (s : State) : State :=
  { s with hive := { s.hive with seen := s.hive.seen.filter (fun e =>
      if e.1 = 8 then e008Asserted s else e.2 ≠ p ∨ lineAsserted s e.1 p) } }

/-- A line driven for the tick `t`, directly by its block (R179, R206, R305). One driven in the tick before too, or twice in one
tick, gives no further rising edge. -/
def pulseAt (t n p : Nat) (s : State) : State :=
  let h := s.hive
  let last := h.driven.find? (fun e => e.1 == n && e.2.1 == p)
  let edge := match last with | some e => decide (e.2.2 + 1 < t) | none => true
  { s with hive := { h with
      pulses := if edge then h.pulses ++ [(n, p, t)] else h.pulses
      driven := (n, p, t) :: h.driven.filter (fun e => ! (e.1 == n && e.2.1 == p)) } }

/-- A line driven for the present tick. -/
def pulse (n p : Nat) (s : State) : State := pulseAt s.tick n p s

/-- R155: set sticky arithmetic flags of a page; the rising of any sets the page's arithmetic event flag. `at_` is the program
address of the instruction that sets them in the present tick, none where it retired before. -/
def setArith (p o : Nat) (evt : Option Nat) (at_ : Option Nat) (flags : Nat) (s : State) : State :=
  if flags = 0 then s
  else
    let old := rg s p o
    let s1 : State := { s with now := match at_ with
      | some pc => { s.now with arith := s.now.arith ++ [(p, flags, pc)] }
      | none => s.now }
    let s2 := setRg p o (orN old flags) s1
    if clrN flags (bits old 0 3) = 0 then s2
    else match evt, at_ with
      | some b, some _ => flag p b s2
      | some b, none => setBit p 0x10 b true s2
      | none, _ => s2

/-- R155: a W1C write of `ARITH`: the flags written clear, but for those hardware has set in the same tick, and writing 1 to any flag
also clears `FIRST`, which then holds the first instruction of that tick. -/
def clearArith (p o v : Nat) (s : State) : State :=
  let here := s.now.arith.filter (fun x => x.1 == p)
  let kept := here.foldl (fun a x => orN a x.2.1) 0
  let s1 := setRg p o (clrN (rg s p o) (clrN (v &&& 7) kept)) s
  if v &&& 7 = 0 then s1 else setFld p o 16 12 (match here with | x :: _ => x.2.2 | [] => 0) s1

/-- R164: a boundary of a page whose `DET_STAT` bit a write waits to clear: the page bit clears, and the write's kind
bits with its last page bit. -/
def detBoundary (b : Nat) (s : State) : State :=
  let hit := fun (w : DetWait) => bit w.pages b
  let v := s.det.foldl (fun v w =>
    if hit w then (let v1 := clrN v (2 ^ b); if clrN w.pages (2 ^ b) = 0 then clrN v1 w.kinds else v1) else v) (rg s pSYS 0x58)
  let s1 := setRg pSYS 0x58 v s
  { s1 with det := (s1.det.map (fun w => (⟨clrN w.pages (2 ^ b), w.kinds⟩ : DetWait))).filter (fun w => w.pages ≠ 0) }

/-- R164: a W1C write of `DET_STAT`: one that clears no page bit clears its kind bits at once; the others wait. -/
def detClear (v : Nat) (s : State) : State :=
  let v' := v &&& rg s pSYS 0x58
  let pages := v' &&& 0xFF0000
  if pages = 0 then setRg pSYS 0x58 (clrN (rg s pSYS 0x58) (v' &&& 0xF)) s
  else { s with det := s.det ++ [⟨pages, v' &&& 0xF⟩] }

/-! ## ECC errors (R143, R145) -/

/-- R145: an error of the 64-bit word at `addr` is counted and logged: a correctable error leaves a logged uncorrectable one, with
`OVR`; any other replaces the log, `OVR` telling that one stood there. -/
def eccLog (region finder addr : Nat) (ue : Bool) (syn : Nat) (s : State) : State :=
  let s1 := incSat pMEMCTL (if ue then 0x4C else 0x48) 0 16 1 s
  let log := rg s pMEMCTL 0x50
  if bit log 31 ∧ bit log 30 ∧ ¬ ue then setBit pMEMCTL 0x50 29 true s1
  else setRg pMEMCTL 0x54 (addr / 8 * 8) (setRg pMEMCTL 0x50
    (2 ^ 31 + 2 ^ 30 * b2n ue + 2 ^ 29 * b2n (bit log 31) + 2 ^ 26 * region + 2 ^ 23 * finder + syn % 256) s1)

/-- R143: what an access finds: logged, with `E020` for a corrected error where `told`, `E021` for an uncorrectable
one. -/
def eccFound (told : Bool) (region finder addr : Nat) (e : Ecc) (s : State) : State :=
  match e with
  | .good => s
  | .corrected syn => flagIf told pMEMCTL 0 (eccLog region finder addr false syn.toNat s)
  | .uncorrectable syn => flag pMEMCTL 1 (eccLog region finder addr true syn.toNat s)

/-- Is the error uncorrectable? -/
def eccBad : Ecc → Bool
  | .uncorrectable _ => true
  | .good | .corrected _ => false

/-- R142: what the check bits of the 64-bit word at place `a` show an access: what the access brings with it, else what an earlier
access has found and no write has removed. -/
def eccMeet (s : State) (a : Nat) (e : Ecc) : Ecc :=
  match e with
  | .good => (s.upset.lookup (a / 8)).getD .good
  | .corrected _ | .uncorrectable _ => e

/-- R142: what the check bits of the word at place `a` show from now on. -/
def setUpset (a : Nat) (e : Ecc) (s : State) : State :=
  let rest := s.upset.filter (fun x => x.1 != a / 8)
  { s with upset := if e = .good then rest else (a / 8, e) :: rest }

/-- R143: a read of the word at place `a` of a memory: an error is logged at address `addr` and stays in the word. -/
def eccRead (region finder addr a : Nat) (e : Ecc) (s : State) : State :=
  let x := eccMeet s a e
  if x = .good then s else eccFound (finder ≤ 2) region finder addr x (setUpset a x s)

/-- R142, R143: a write smaller than 64 bits to the word at place `a`: a correctable error is logged, corrected and written; an
uncorrectable one is logged and the word left as it is. -/
def eccWrite (region finder addr a : Nat) (e : Ecc) (s : State) : State :=
  let x := eccMeet s a e
  if x = .good then s else eccFound (finder = 0) region finder addr x (setUpset a (if eccBad x then x else .good) s)

end Sys2Proof.Machine
end

