-- ==== Sys2Proof/Machine/Tracks.lean ====
section
/-! DEFINITION. What the other blocks see of a Cicada track: its state, exposed angle and speed (R156, R165, R171). -/
namespace Sys2Proof.Machine

/-- The hidden part of track `n`. -/
def trk (s : State) (n : Nat) : Track := nth s.tracks n {}

/-- Store the hidden part of track `n`. -/
def setTrk (n : Nat) (t : Track) (s : State) : State := { s with tracks := s.tracks.set n t }

/-- R171: the track states. -/
def trDISABLED : Nat := 0
def trACQUIRE : Nat := 1
def trVALID : Nat := 2
def trCOAST : Nat := 3
def trINVALID : Nat := 4

/-- R171: `AT.n:PAGE_STATE.STATE`. -/
def trackState (s : State) (n : Nat) : Nat := blockState s (pAT n)

/-- R171, R172: is the track VALID or COAST? -/
def trackGood (s : State) (n : Nat) : Bool := trackState s n == trVALID || trackState s n == trCOAST

/-- R166: `AT.n:SRC.TYPE`. -/
def trackType (s : State) (n : Nat) : Nat := fld s (pAT n) 0x40 0 4

/-- R156: the exposed angle of a position. -/
def exposed (theta : Nat) : Nat := theta / 2 ^ 16 % 2 ^ 32

/-- R167: the boundary of the next Hall edge expected in the direction of ω, for a Hall track whose sector is known. -/
def hallBound (s : State) (n : Nat) : Option Nat :=
  if trackType s n ≠ 3 then none
  else
    let sec := fld s pENC (0x80 + 4 * fld s (pAT n) 0x40 4 3) 4 3
    if 6 ≤ sec ∨ 4 ≤ fld s (pAT n) 0x40 4 3 then none
    else
      let k := if 0 ≤ (trk s n).omega then (sec + 1) % 6 else sec
      some ((rg s (pAT n) (0x64 + 4 * k) + rg s (pAT n) 0x48) % 2 ^ 32)

/-- R167: the position held at a Hall boundary that the advance would pass. -/
def hallHold (bound : Option Nat) (t : Track) (theta' : Nat) : Nat :=
  match bound with
  | none => theta'
  | some b =>
    let before := angDiff b (exposed t.theta)
    let after := angDiff b (exposed theta')
    if (0 ≤ t.omega ∧ 0 ≤ before ∧ after < 0) ∨ (t.omega < 0 ∧ before ≤ 0 ∧ 0 < after) then b * 2 ^ 16 else theta'

/-- R156, R165, R171: the position after the advance of the present tick. -/
def nextTheta (s : State) (n : Nat) : Nat :=
  let t := trk s n
  let st := trackState s n
  if st = trACQUIRE ∨ st = trVALID ∨ st = trCOAST then
    hallHold (hallBound s n) t (uns 48 ((t.theta : Int) + t.omega)) else t.theta

/-- R165: the exposed angle A(t) of the present tick, as a register read shows it. -/
def angleNow (s : State) (n : Nat) : Nat := exposed (nextTheta s n)

/-- R169: the exposed angle A(c) of the tick `age` ticks before the present one. -/
def angleAt (s : State) (n age : Nat) : Nat :=
  match age with
  | 0 => angleNow s n
  | a + 1 => nth (trk s n).hist a (exposed (trk s n).theta)

/-- Bits 47:16 of |ω| (R181, R302, R326). -/
def speedOf (s : State) (n : Nat) : Nat := (trk s n).omega.natAbs / 2 ^ 16

/-- R302, R326: a track at or above a speed, or neither VALID nor COAST, counts as fast. -/
def trackFast (s : State) (n thr : Nat) : Bool := decide (thr ≤ speedOf s n) || ! trackGood s n

end Sys2Proof.Machine
end

