-- ==== Sys2Proof/Machine/Nic.lean ====
section
/-! DEFINITION. Transmission on the Ethernet port (R441): the four queues, the frame being sent, and capture streaming (R444),
which the blocks that make records use. -/
namespace Sys2Proof.Machine

/-- Store what the Ethernet port holds beside its registers. -/
def setEth (h : EthHid) (s : State) : State := { s with eth := h }

/-- R449: the bits of `ETH:PAGE_CTRL`: `EN`, `RS_EN`, `STREAM_EN`, `SL_EN`. -/
def ethEn (s : State) (i : Nat) : Bool := rbit s pETH 0x08 0 && rbit s pETH 0x08 i

/-- R449: `PHY_STAT.LINK`. -/
def ethLink (s : State) : Nat := fld s pETH 0x74 0 2

/-- R449: a byte of `ETH_CNT`: 0 `RXERR`, 1 queue drops, 2 `STR_LOST`, 3 `SL_ERR`. -/
def ethCount (i : Nat) (s : State) : State := incSat pETH 0x84 (8 * i) 8 1 s

/-- R449: the address of the ring entry whose index stands at bit `lo` of `RING_IDX`; `o` is 0x68 for transmission, 0x6C for
reception. -/
def ringEntry (s : State) (o lo : Nat) : Nat := rg s pETH o / 2048 * 2048 + 2048 * fld s pETH 0x70 lo 5

/-- R449: is a software frame ready: an entry between head and tail that the hardware owns? -/
def softReady (s : State) : Bool :=
  fld s pETH 0x70 16 5 != fld s pETH 0x70 0 5 && decide (0x80 ≤ mget s.mem (ringEntry s 0x68 16 + 3))

/-- R441: the next frame starts when the port is free: strict priority, each queue in order. -/
def ethKick (s : State) : State :=
  let h := s.eth
  if ¬ rbit s pETH 0x08 0 ∨ ethLink s = 0 ∨ h.tx.isSome then s
  else match h.q0, h.q1, h.q3 with
    | f :: l, _, _ => setEth { h with q0 := l, tx := some (0, none, f) } s
    | [], f :: l, _ => setEth { h with q1 := l, tx := some (1, none, f) } s
    | [], [], q3 =>
      if softReady s then
        let a := ringEntry s 0x68 16
        let n := mread s.mem a 2
        setEth { h with tx := some (2, none, mbytes s.mem (a + 16) n) } (bwSeen [3, 6] (16 + n) false s)
      else match q3 with
        | f :: l => setEth { h with q3 := l, tx := some (3, some f.1, f.2) } s
        | [] => s

/-- R441: a frame is offered to queue 0 or 1, each of which holds 8. -/
def ethOffer (q : Nat) (f : List Nat) (s : State) : State :=
  let h := s.eth
  let old := if q = 0 then h.q0 else h.q1
  if 8 ≤ old.length then ethCount 1 s
  else ethKick (setEth (if q = 0 then { h with q0 := old ++ [f] } else { h with q1 := old ++ [f] }) s)

/-- R441: a streaming datagram is offered to queue 3, which holds 8. -/
def ethStream (d : UdpTo) (f : List Nat) (s : State) : State :=
  if 8 ≤ s.eth.q3.length then ethCount 1 s else ethKick (setEth { s.eth with q3 := s.eth.q3 ++ [(d, f)] } s)

/-- R444: where streaming goes, and from which port. -/
def streamTo (s : State) : UdpTo :=
  { mac := rg s pETH 0x60 + 2 ^ 32 * fld s pETH 0x64 0 16, ip := rg s pETH 0x58, port := fld s pETH 0x5C 0 16,
    sport := (fld s pETH 0x50 0 16 + 2) % 2 ^ 16 }

/-- R444: the datagram being collected is sent. -/
def streamSend (s : State) : State :=
  let h := s.eth
  if h.strRecs.isEmpty then s
  else
    let ws := [h.strSeq + 2 ^ 16 * h.strRecs.length, tick32 s] ++ h.strRecs.flatten
    ethStream (streamTo s) (ws.flatMap bytesLE) (setEth { h with strRecs := [], strSeq := (h.strSeq + 1) % 2 ^ 16 } s)

/-- R444: a capture or event record for streaming: dropped while queue 3 is full or the link is down; a datagram that it would not
fit is sent first. -/
def streamRecord (r : List Nat) (s : State) : State :=
  if ¬ ethEn s 2 then s
  else if ethLink s = 0 ∨ 8 ≤ s.eth.q3.length then ethCount 2 s
  else
    let words := (s.eth.strRecs.map List.length).foldl (· + ·) 2
    let s1 := if 350 < words + r.length then streamSend s else s
    let h := s1.eth
    setEth { h with strRecs := h.strRecs ++ [r], strAt := if h.strRecs.isEmpty then s.tick else h.strAt } s1

end Sys2Proof.Machine
end

