-- ==== Sys2Proof/Machine/Legs.lean ====
section
/-! DEFINITION. Firefly's legs and Ironclad's channels as the rest of the device meets them: leg outputs (R303), safe
states (R300 to R302), gate enables (R309), the interlock (R313) and the off conditions of pairs (R315 to R327). -/
namespace Sys2Proof.Machine

/-! ## Access to the hidden parts -/

def legH (s : State) (m : Nat) : LegHid := nth s.legs m {}
def setLegH (m : Nat) (l : LegHid) (s : State) : State := { s with legs := s.legs.set m l }
def carH (s : State) (n : Nat) : CarHid := nth s.cars n {}
def setCarH (n : Nat) (c : CarHid) (s : State) : State := { s with cars := s.cars.set n c }
def pairH (s : State) (k : Nat) : PairHid := nth s.pairs k {}
def setPairH (k : Nat) (p : PairHid) (s : State) : State := { s with pairs := s.pairs.set k p }
def groupH (s : State) (g : Nat) : GroupHid := nth s.groups g {}
def setGroupH (g : Nat) (x : GroupHid) (s : State) : State := { s with groups := s.groups.set g x }

/-- The pair `XBAR` maps a leg to; 0x3F for none (R288). -/
def legPair (s : State) (m : Nat) : Nat := rg s (pLEG m) 0x44

/-- The leg that maps to a pair, if any (R288). -/
def pairLeg (s : State) (k : Nat) : Option Nat := (List.range 32).find? (fun m => legPair s m == k)

/-- `CFG.CAR`. -/
def legCar (s : State) (m : Nat) : Nat := fld s (pLEG m) 0x40 0 4

/-- `CFG.OWNER` (R289). -/
def legOwner (s : State) (m : Nat) : Nat := fld s (pLEG m) 0x40 8 3

/-- `PAGE_CTRL.EN` of a page whose bit 0 it is. -/
def pageEn (s : State) (p : Nat) : Bool := rbit s p 0x08 0

/-- R295: the fixed interlock gap of a pair, in ticks. -/
def pairGap (s : State) (k : Nat) : Nat := if 24 ≤ k then 60 else match s.variant with | .h17 => 36 | .h12 | .h12d => 20

/-- R337: a pair's tile and position in it. -/
def pairTile (k : Nat) : Nat := k / 4

/-! ## Gate enables (R309) -/

/-- R309, R57: is `GEN_P` of tile `t` asserted? -/
def genP (s : State) (t : Nat) : Bool :=
  pageEn s (pIC t) &&
  (match devState s with
    | .ready | .run | .degraded | .stopping | .safe | .latched => true
    | .off | .standby | .boot | .selftest | .restore | .held => false) &&
  decide (fld s (pSTAG 0) 0x40 0 3 ≠ 4) && decide (fld s pSUPPLY 0x44 0 3 ≠ 3)

/-- R451: is `GEN_S` of tile `t` (8: the brake drive) asserted? -/
def genSOf (s : State) (t : Nat) : Bool := bit s.genS t

/-- R10: the AND of both gate enables of a tile, as `GEN_STAT.BOTH` reports it. -/
def genBoth (s : State) (t : Nat) : Bool := rbit s (pIC t) 0x40 2

/-! ## Off conditions of a pair -/

/-- R322: is a pair exhausted? -/
def pairExhausted (s : State) (k : Nat) : Bool := decide (k < 24) && rbit s (pIC (pairTile k)) 0x60 (20 + k % 4)

/-- R315: is a rail of either channel of the pair below its threshold? -/
def pairUvlo (s : State) (k : Nat) : Bool :=
  let p := pIC (pairTile k)
  let j := k % 4
  if k < 24 then bits (rg s p 0x5C) (2 * j) 2 ≠ 0 || bits (rg s p 0x5C) (8 + 2 * j) 2 ≠ 0 else rbit s p 0x5C 0

/-- R323: is the pair in cycle-abort mode: its `CYCAB` bit set and its leg owned by Dragonfly? -/
def pairCycab (s : State) (k : Nat) : Bool :=
  decide (k < 24) && rbit s (pIC (pairTile k)) 0x44 (4 + k % 4) &&
  (match pairLeg s k with | some m => legOwner s m == 2 || legOwner s m == 3 | none => false)

/-- The fault group of a pair, if it is in one; a pair in cycle-abort mode is in none (R325, R328). -/
def pairGroup (s : State) (k : Nat) : Option Nat :=
  if 24 ≤ k ∨ pairCycab s k then none
  else (let g := fld s (pIC (pairTile k)) 0x68 (4 * (k % 4)) 4; if g < 8 then some g else none)

/-- R326: the decision in force on a group: 0 none, 1 ASC high side, 2 ASC low side, 3 all off. -/
def groupDecision (s : State) (g : Nat) : Nat :=
  if rbit s (pIC 0) (0x240 + 4 * g) 4 then fld s (pIC 0) (0x240 + 4 * g) 0 2 else 0

/-- The decision in force on a pair's group. -/
def pairDecision (s : State) (k : Nat) : Nat := match pairGroup s k with | some g => groupDecision s g | none => 0

/-- The pairs of a group (R325). -/
def groupPairs (s : State) (g : Nat) : List Nat := (List.range 24).filter (fun k => pairGroup s k == some g)

/-- R326, third row: did both channels of the pair trip into the decision in force? -/
def pairBoth (s : State) (k : Nat) : Bool :=
  match pairGroup s k with
  | some g => groupDecision s g != 0 && (groupH s g).trips.contains (2 * k) && (groupH s g).trips.contains (2 * k + 1)
  | none => false

/-- R315, R321, R322, R324, R326: what holds a pair off, through every decision too (R535). A decision releases the pairs whose
trips were collected into it (R321), but for one whose two channels both tripped. -/
def pairHeld (s : State) (k : Nat) : Bool :=
  let p := pairH s k
  pairUvlo s k || p.tripOff || p.resume || pairExhausted s k || pairBoth s k

/-- The outputs Firefly commands on a pair: those of the leg mapped to it, else both off (R288). -/
def pairCmd (s : State) (k : Nat) : Bool × Bool :=
  match pairLeg s k with
  | none => (false, false)
  | some m => (rbit s (pLEG m) 0x94 0, rbit s (pLEG m) 0x94 1)

/-- R352: is pair `k` an unused pair 23: one that no leg's `XBAR` names, or the spare leg 23's own while that is disabled? Log entry 143. -/
def pairUnused (s : State) (k : Nat) : Bool :=
  match pairLeg s k with
  | none => true
  | some m => k == 23 && m == 23 && ! rbit s (pLEG 23) 0x08 0

/-- R310, R313 to R327: the channels of a pair commanded on after every rule above the interlock: the gate enables, the
off conditions, the multi-leg decision, and the bootstrap of an LV high side (R317). A pair that no leg's `XBAR` names, and an unused
pair 23, never turns on (R352, R354). -/
def pairWanted (s : State) (k : Nat) : Bool × Bool :=
  if ¬ genBoth s (pairTile k) ∨ pairHeld s k ∨ pairUnused s k then (false, false)
  else match pairDecision s k with
    | 0 =>
      let c := pairCmd s k
      if 24 ≤ k ∧ (pairH s k).bstCut then (false, c.2 && ! rbit s (pIC (pairTile k)) 0x70 (k % 4)) else c
    | 1 => (true, false)
    | 2 => (false, true)
    | _ => (false, false)

/-- One channel after its command: turning off starts full sink at once, unless a soft turn-off is under way (R310,
R321). -/
def chanCmd (now : Nat) (want : Bool) (c : ChanHid) : ChanHid :=
  if want then { c with cmd := true, cmdAt := if c.cmd then c.cmdAt else now }
  else { c with cmd := false, on := false, sink := if c.on then now else c.sink }

/-- R321: is a channel's soft turn-off over? -/
def softOver (now : Nat) (c : ChanHid) : Bool := match c.soft with | some e => decide (e ≤ now) | none => true

/-- R313: a channel has been in full sink for the gap, soft turn-off included. -/
def sunkFor (now gap : Nat) (c : ChanHid) : Bool := ! c.on && softOver now c && decide (c.sink + gap ≤ now)

/-- R313: a channel turns on only after its partner has been in full sink for the fixed gap, and after its own soft turn-off
(R321). Of two channels commanded on, the one commanded first stays; commanded in the same tick, both stay off. Turn-on releases
the Miller clamp (R316). -/
def turnOn (now gap : Nat) (c partner : ChanHid) : ChanHid :=
  if c.cmd ∧ ¬ c.on ∧ softOver now c ∧ sunkFor now gap partner ∧ (¬ partner.cmd ∨ c.cmdAt < partner.cmdAt) then
    { c with on := true, onAt := now, clamp := false, taken := false }
  else c

/-- R48, R316: do the secondary rails hold the gate of HV channel `c`: its tile's converter reports power good and its negative rail
is above its threshold? -/
def clampRail (s : State) (c : Nat) : Bool := rbit s pSUPPLY 0x50 (c / 8) && ! rbit s (pIC (c / 8)) 0x5C (8 + c % 8)

/-- R48, R316: the Miller clamp of HV channel `c`: it connects once the gate of a channel in full sink has fallen below 2.0 V, and
holds while its rails are up. LV channels have none (R311). -/
def clampStep (s : State) (c : Nat) (x : ChanHid) : ChanHid :=
  if 48 ≤ c then x
  else if ¬ clampRail s c then { x with clamp := false }
  else if ¬ x.on ∧ softOver s.tick x ∧ x.sink + Config.gateFall c x.sink ≤ s.tick then { x with clamp := true }
  else x

/-- R320: the effective OVLD code that waits takes effect at the channel's turn-on. -/
def codeStep (c : Nat) (was now : ChanHid) (s : State) : State :=
  match now.code with
  | some v => if ¬ was.on ∧ now.on then setFld (pIC (c / 8)) (0x108 + 16 * (c % 8)) 16 8 v s else s
  | none => s

/-- R329: does the end of an on-interval of a channel of HV pair `k` now come before its measurement point? -/
def endsShort (s : State) (k : Nat) (c : ChanHid) : Bool :=
  decide (k < 24) && c.on && decide (s.tick < c.onAt + 5 * fld s (pIC (pairTile k)) 0x48 0 10)

/-- R313: Ironclad drives a pair: new commands, then turn-on under the interlock, the clamps and codes that follow; `TSTAT.ILK`
counts each new wait, `MSKIP` each on-interval that ends before its measurement point (R329). -/
def drivePair (k : Nat) (s : State) : State :=
  let p := pairH s k
  let w := pairWanted s k
  let gap := pairGap s k
  let hi := chanCmd s.tick w.1 p.hi
  let lo := chanCmd s.tick w.2 p.lo
  let hi' := turnOn s.tick gap hi lo
  let lo' := turnOn s.tick gap lo hi'
  let newWait := (w.1 && ! p.hi.cmd && ! hi'.on) || (w.2 && ! p.lo.cmd && ! lo'.on)
  let short := fun (a b : ChanHid) => endsShort s k a && ! b.on
  let cold := fun (a b : ChanHid) => if ¬ a.on ∧ b.on then { b with code := none } else b
  let hi'' := clampStep s (2 * k) (cold p.hi hi')
  let lo'' := clampStep s (2 * k + 1) (cold p.lo lo')
  let s0 := if p.hi = hi'' ∧ p.lo = lo'' then s else setPairH k { p with hi := hi'', lo := lo'' } s
  let s1 := incWrap (pIC (pairTile k)) 0x6C 0 16 (b2n (short p.hi hi') + b2n (short p.lo lo')) s0
  let s2 := codeStep (2 * k + 1) p.lo lo' (codeStep (2 * k) p.hi hi' s1)
  if newWait then incSat (pIC (pairTile k)) 0x5C 24 8 1 s2 else s2

/-- Drive every pair of a group. -/
def driveGroup (g : Nat) (s : State) : State := (groupPairs s g).foldl (fun s k => drivePair k s) s

/-- Drive every pair of a tile. -/
def driveTile (t : Nat) (s : State) : State := forRange 4 (fun j => drivePair (4 * t + j)) s

/-- R339: `IC.t:PAGE_STATE.STATE`: 0 not powered, 1 powered, 2 both enables asserted, 3 a pair exhausted. -/
def icStateCode (s : State) (t : Nat) : Nat :=
  if ¬ rbit s pSUPPLY 0x50 t then 0
  else if t < 6 ∧ bits (rg s (pIC t) 0x60) 20 4 ≠ 0 then 3 else if genBoth s t then 2 else 1

/-- R309, R310, R327: re-evaluate a tile's gate enables. When the AND falls, a decision on a group that holds a pair of
the tile ends. -/
def refreshTile (t : Nat) (s : State) : State :=
  let p := genP s t
  let q := genSOf s t
  let was := genBoth s t
  let s1 := setFld (pIC t) 0x40 0 3 (b2n p + 2 * b2n q + 4 * b2n (p && q)) s
  let s2 := if was ∧ ¬ (p && q) ∧ t < 6 then
      forRange 4 (fun j s => match pairGroup s (4 * t + j) with
        | some g => if groupDecision s g ≠ 0 then driveGroup g (setGroupH g {} (setRg (pIC 0) (0x240 + 4 * g) 0 s)) else s
        | none => s) s1
    else s1
  setBlockState (pIC t) (icStateCode s2 t) (driveTile t s2)

/-- Re-evaluate every tile's gate enables. -/
def refreshTiles (s : State) : State := forRange 8 refreshTile s

/-! ## Outputs of a leg (R303) -/

/-- R324: the first tick in which the high output is off after the off condition ended releases the pair. -/
def pairRelease (k : Nat) (s : State) : State :=
  let p := pairH s k
  if p.resume ∧ ¬ (pairCmd s k).1 then setPairH k { p with resume := false } s else s

/-- Set a leg's two outputs, with what a change brings: the off-interval of the high output (R298), a bootstrap cut
ended by a new on-interval (R317), a pair released (R324), and the channels. -/
def setOutputs (m : Nat) (hi lo : Bool) (s : State) : State :=
  let p := pLEG m
  let was := rbit s p 0x94 0
  if was = hi ∧ rbit s p 0x94 1 = lo then s
  else
    let s1 := setFld p 0x94 0 2 (b2n hi + 2 * b2n lo) s
    let l := legH s1 m
    let l1 := if was ∧ ¬ hi then { l with offFrom := s.tick }
      else if ¬ was ∧ hi ∧ l.offFrom + 80 ≤ s.tick then { l with offEnd := s.tick } else l
    let s2 := setLegH m l1 s1
    let k := legPair s2 m
    if k < 32 then
      let ph := pairH s2 k
      let s3 := if ¬ was ∧ hi ∧ ph.bstCut ∧ ph.bstNew then setPairH k { ph with bstCut := false, bstNew := false } s2 else s2
      drivePair k (pairRelease k s3)
    else s2

/-- R300: the outputs of a safe state. -/
def safeOutputs (code : Nat) : Bool × Bool := if code = 1 then (false, true) else if code = 2 then (true, false) else (false, false)

/-- R302: the safe state chosen at entry: `SAFE_FAST` where `LEG_STAT.FASTSEL` says so, else `SAFE`. -/
def legSafeCode (s : State) (m : Nat) : Nat :=
  if rbit s (pLEG m) 0x94 6 then fld s (pLEG m) 0x48 2 2 else fld s (pLEG m) 0x48 0 2

/-- R299, R303: an output under a force field: 0 none, 1 off, 2 on. -/
def forced (f : Nat) (normal : Bool) : Bool := if f = 1 then false else if f = 2 then true else normal

/-- R371: is override SWARM in effect on the leg at tick `now`? -/
def swarmOn (now : Nat) (l : LegHid) : Bool := l.swarm.any (fun w => decide (w.1 ≤ now ∧ now < w.2))

/-- R303: the outputs of a leg by the first rule that applies. In READY, SAFE and LATCHED no leg switches (R88): in the tick in which
such a state is entered the outputs stand as they are until the safe state begins with the next tick (R301). A leg that has not begun
(R304) has no output on but by a force or an override. -/
def legRule (s : State) (m : Nat) : Bool × Bool :=
  let p := pLEG m
  let l := legH s m
  if ¬ pageEn s p ∨ legPair s m = 0x3F then (false, false)
  else match devState s with
    | .off | .standby | .boot | .selftest | .restore | .held => (false, false)
    | .ready | .safe | .latched =>
      if rbit s p 0x94 2 then safeOutputs (legSafeCode s m) else (rbit s p 0x94 0, rbit s p 0x94 1)
    | .run | .degraded | .stopping =>
      if rbit s p 0x94 2 then safeOutputs (legSafeCode s m)
      else
        let n := (l.began && l.hi.on, l.began && l.lo.on)
        let o := if l.ovr = 1 then (false, false) else if l.ovr = 2 ∨ swarmOn s.tick l then (false, true)
          else (forced (bits l.force 0 2) n.1, forced (bits l.force 2 2) n.2)
        if l.refresh.isSome then (false, false) else o

/-- Bring a leg's outputs to what R303 gives, and show whether a force is in effect (R299). -/
def refreshOut (m : Nat) (s : State) : State :=
  let o := legRule s m
  let l := legH s m
  setOutputs m o.1 o.2 (setBit (pLEG m) 0x94 7 (l.force ≠ 0 || l.ovr ≠ 0 || swarmOn s.tick l) s)

/-! ## Safe states (R301, R302) -/

/-- R301, cause 2: is the master named in `BIND` halted? -/
def bindHalted (s : State) (m : Nat) : Bool :=
  let b := rg s (pLEG m) 0x50
  if b = 1 then fld s (pSTAG 0) 0x40 0 3 ≠ 0
  else if b = 2 then fld s (pSTAG 1) 0x40 0 3 ≠ 0
  else if 4 ≤ b then (let st := blockState s (pMT (b - 4)); st == 3 || st == 4)
  else false

/-- R331: is a temperature register of tile `t` at its `SHUT` level? -/
def tileShut (s : State) (t : Nat) : Bool := if t < 6 then bits s.ntcShut (2 * t) 2 != 0 else bit s.ntcShut (6 + t)

/-- R301, cause 5: does a class B reaction name the leg? Bands CRITICAL and OVER name every leg (R53), a DC-link
overvoltage those of `OV_LEGS` (R335), a decision those of its group (R327), a tile at `SHUT` those of its pairs (R331). -/
def classB (s : State) (m : Nat) : Bool :=
  let band := fld s pSUPPLY 0x44 0 3
  let k := legPair s m
  band == 2 || band == 4 || (rbit s pBRAKE 0x70 2 && rbit s pBRAKE 0x68 m) ||
    (decide (k < 32) && (pairDecision s k ≠ 0 || tileShut s (pairTile k)))

/-- R301: the lowest cause that holds on a leg. -/
def legCause (s : State) (m : Nat) : Option Nat :=
  let d := devState s
  if d = .ready ∨ d = .safe ∨ d = .latched then some 1
  else if bindHalted s m then some 2
  else if s.dev.clockLost then some 3
  else if ¬ pageEn s (pCAR (legCar s m)) then some 4
  else if classB s m then some 5
  else none

/-- R297, R301: what safe-state entry and a cleared `EN` discard: pulses, debt and held values. -/
def clearPulses (m : Nat) (s : State) : State :=
  let l := legH s m
  setRg (pLEG m) 0x90 0 (setBit (pLEG m) 0x94 9 false
    (setLegH m { l with heldA := none, heldB := none, hi := {}, lo := {}, refresh := none } s))

/-- R301, R302: entry into the safe state, the choice made once. -/
def enterSafe (m cause : Nat) (s : State) : State :=
  let p := pLEG m
  let fast := rbit s p 0x48 4 && trackFast s (fld s p 0x48 8 3) (rg s p 0x4C)
  let s1 := clearPulses m s
  let s2 := setFld p 0x94 2 5 (1 + 2 * cause + 16 * b2n fast) s1
  flag p 7 (setLegH m { legH s2 m with resume := false } s2)

/-- R302: a leg in its safe state whose causes have all cleared waits for its carrier's next zero event. -/
def safeClear (m : Nat) (s : State) : State :=
  if rbit s (pLEG m) 0x94 2 ∧ pageEn s (pLEG m) ∧ legCause s m = none then
    setFld (pLEG m) 0x94 3 3 0 (setLegH m { legH s m with resume := true } s)
  else s

/-- R301, R302: re-evaluate a leg's safe state, at the start of the tick after the one in which a cause arises: enter it, hold it with the lowest cause present, or wait for the next zero
event when every cause has cleared. A leg whose `EN` is 0 is not in a safe state: rule 1 of R303 holds it (log entry 12). -/
def safeCheck (m : Nat) (s : State) : State :=
  let p := pLEG m
  let inSafe := rbit s p 0x94 2
  if ¬ pageEn s p then s
  else match legCause s m with
    | some c => if inSafe then setFld p 0x94 3 3 c (setLegH m { legH s m with resume := false } s) else enterSafe m c s
    | none => safeClear m s

end Sys2Proof.Machine
end

