-- ==== Sys2Proof/Machine/Units.lean ====
section
/-! DEFINITION. The states of Dragonfly (R365), Honeybee (R383) and the actuator drive units (R411), the overrides they
hold on their legs (R358, R382, R409), and how they react when a leg enters its safe state or the device changes state. -/
namespace Sys2Proof.Machine

/-! ## Overrides -/

/-- Give a leg an override: 0 none, 1 OFF, 2 low side on. It ends the leg's swarm pulses. -/
def setOvr (m code : Nat) (s : State) : State := refreshOut m (setLegH m { legH s m with ovr := code, swarm := [] } s)

/-! ## Dragonfly -/

def dfH (s : State) (i : Nat) : DfHid := nth s.df i {}
def setDfH (i : Nat) (h : DfHid) (s : State) : State := { s with df := s.df.set i h }

/-- The states of R365. -/
def dfOFF : Nat := 0
def dfIDLE : Nat := 1
def dfRUN : Nat := 2
def dfSTOPPING : Nat := 3
def dfHICCUP : Nat := 4
def dfTHERMAL : Nat := 5
def dfFAULT : Nat := 6

def dfState (s : State) (i : Nat) : Nat := blockState s (pDF i)

/-- R358: the leg of phase `p`, and whether the phase is configured. -/
def dfLeg (s : State) (i p : Nat) : Nat := fld s (pDF i) (0x48 + 4 * p) 0 5
def dfConf (s : State) (i p : Nat) : Bool := rbit s (pDF i) (0x48 + 4 * p) 15

/-- `PH_STAT_p` bits 2:0: 0 unconfigured, 1 active, 2 shedding, 3 shed, 4 thermally dropped, 5 failed. -/
def dfPhSt (s : State) (i p : Nat) : Nat := fld s (pDF i) (0x210 + 4 * p) 0 3
def setDfPhSt (i p st : Nat) (s : State) : State := setFld (pDF i) (0x210 + 4 * p) 0 3 st s

/-- Is the phase active or being shed? -/
def dfOn (s : State) (i p : Nat) : Bool := dfPhSt s i p == 1 || dfPhSt s i p == 2

/-- R366: is the phase available: configured and neither failed nor thermally dropped? -/
def dfAvail (s : State) (i p : Nat) : Bool := dfConf s i p && dfPhSt s i p != 4 && dfPhSt s i p != 5

/-- The number of phases that satisfy a condition. -/
def dfCount (f : Nat → Bool) : Nat := ((List.range 6).filter f).length

/-- The running part of a phase's hidden state. -/
def dfPhase (h : DfHid) (p : Nat) : DfPhase := nth h.ph p {}
def setDfPhase (i p : Nat) (x : DfPhase) (s : State) : State :=
  let h := dfH s i
  setDfH i { h with ph := h.ph.set p x } s

/-- R358, R365: bring the overrides of an instance's configured legs to what its state and its phases' states give. A
running swarm pulse is kept. -/
def dfOverrides (i : Nat) (s : State) : State :=
  let st := dfState s i
  forRange 6 (fun p s =>
    if ¬ dfConf s i p then s
    else
      let m := dfLeg s i p
      let l := legH s m
      if st = dfOFF then (if l.ovr = 0 ∧ l.swarm = [] then s else setOvr m 0 s)
      else if (st = dfRUN ∨ st = dfSTOPPING) ∧ dfOn s i p then
        (if l.ovr = 1 then setOvr m 0 s else s)
      else if l.ovr = 1 then s else setOvr m 1 s) s

/-- R378: `DSTAT` bits 10:8 and 16 from the phase states. -/
def dfShowPhases (i : Nat) (s : State) : State :=
  setBit (pDF i) 0x200 16 (dfCount (fun p => dfPhSt s i p == 2) ≠ 0)
    (setFld (pDF i) 0x200 8 3 (dfCount (fun p => dfPhSt s i p == 1)) s)

/-- R367, R378: `REF` and `DSTAT.SLEW` from the reference and the target in force. -/
def dfShowRef (i : Nat) (s : State) : State :=
  let h := dfH s i
  setBit (pDF i) 0x200 3 ((dfState s i == dfRUN || dfState s i == dfSTOPPING) && ! h.need && decide (h.r ≠ h.tgt * 2 ^ 32))
    (setRg (pDF i) 0x204 (uns 16 (h.r / 2 ^ 32) + 2 ^ 16 * uns 16 h.tgt) s)

/-- R370, R376: is an active phase at or above `TH_LIM.WARN`? -/
def dfHot (s : State) (i : Nat) : Bool :=
  (List.range 6).any (fun p => dfPhSt s i p == 1 &&
    decide (sgn 16 (actFld s (pDF i) 0x170 0 16) ≤ sgn 16 (fld s (pDF i) (0x210 + 4 * p) 16 16)))

/-- R370: `DSTAT.DER_TH`, whose change sets `OL`. -/
def dfShowHot (i : Nat) (s : State) : State :=
  if dfHot s i = rbit s (pDF i) 0x200 18 then s else flag (pDF i) 3 (setBit (pDF i) 0x200 18 (dfHot s i) s)

/-- R365: a transition of an instance: `STATE` is set, `CAUSE` names the last stop, and outside RUN and STOPPING no phase is active.
A transition that is no stop (`cause` none) writes the stop before it again. Log entry 113. -/
def dfGo (i st : Nat) (cause : Option Nat) (s : State) : State :=
  let s1 := flag (pDF i) 0 (setBlockState (pDF i) st s)
  let s2 := setFld (pDF i) 0x24C 0 4 (cause.getD (fld s (pDF i) 0x24C 0 4)) s1
  let s3 := if st = dfRUN ∨ st = dfSTOPPING then s2
    else forRange 6 (fun p s => if dfOn s i p then setDfPhSt i p 3 s else s) s2
  dfShowHot i (dfShowRef i (dfOverrides i (dfShowPhases i s3)))

/-- R377: has a `STOP` of the present tick taken the instance out of RUN, to IDLE where r is at the stop value already? -/
def dfStopNow (s : State) (i : Nat) : Bool :=
  (dfState s i == dfSTOPPING || dfState s i == dfIDLE) && (dfH s i).stop.map Prod.fst == some s.tick

/-- R377: an instance in RUN, or one that a `STOP` of the present tick has just taken out of it. -/
def dfRuns (s : State) (i : Nat) : Bool := dfState s i == dfRUN || dfStopNow s i

/-- R377: an entry to HICCUP or FAULT wins over a `STOP` of the same tick, which is refused with reason STATE. -/
def dfUndoStop (i : Nat) (s : State) : State :=
  match (dfH s i).stop with
  | some (_, acc, v, tgt) =>
    if dfStopNow s i then
      refuse acc (pDF i) 0x08 v .state (setDfH i { dfH s i with tgt := tgt, stop := none } s)
    else s
  | none => s

/-- R377: does instance `i` declare a degraded condition? -/
def dfDegraded (s : State) (i : Nat) : Bool :=
  dfState s i == dfHICCUP || dfState s i == dfTHERMAL ||
    (List.range 6).any (fun p => dfPhSt s i p == 4 || dfPhSt s i p == 5)

/-! ## Honeybee -/

/-- The states of R383. -/
def hbOFF : Nat := 0
def hbIDLE : Nat := 1
def hbSOURCE : Nat := 2
def hbHANDOVER : Nat := 3
def hbSUPPORT : Nat := 4

def hbState (s : State) : Nat := blockState s pHB

/-- `CHG_STAT` bits 2:0: is a charge running? -/
def chgRunning (s : State) : Bool := 1 ≤ fld s pHB 0x200 0 3 && fld s pHB 0x200 0 3 ≤ 5

/-- R401: does a termination cause block? -/
def chgBlocks (c : Nat) : Bool := c == 5 || c == 6 || c == 8 || c == 9

/-- R396: is grid mode in force under the value `cfg` of `CFG`? -/
def hbGridBy (s : State) (cfg : Nat) : Bool :=
  let m := bits cfg 2 2
  m == 0 || (m == 2 && decide (rg s pPILOT 0x50 ≠ 0xFFFF))
def hbGrid (s : State) : Bool := hbGridBy s (act s pHB 0x100)

/-- R382, R395: bring the overrides of the source legs to what the state gives. In SOURCE with grid mode in force, an open state-C switch
puts them OFF. -/
def hbOverrides (s : State) : State :=
  let st := hbState s
  let want := if st = hbOFF ∨ (st = hbSOURCE ∧ (¬ hbGrid s ∨ rbit s pPILOT 0x48 3)) then 0 else 1
  forRange 32 (fun m s => if ¬ rbit s pHB 0x44 m ∨ (legH s m).ovr = want then s else setOvr m want s) s

/-- R395: the state-C switch, shown in `CP_STATE.S2`. In SOURCE, its opening comes with the override of R387. -/
def pilotSwitch (s : State) : State :=
  let cp := fld s pPILOT 0x48 0 3
  let s1 := setBit pPILOT 0x48 3 (rbit s pPILOT 0x08 0 && rbit s pPILOT 0x08 1 && pageEn s pHB && hbGrid s && (cp == 1 || cp == 2) &&
    decide (60 ≤ rg s pPILOT 0x5C) && ! rbit s pHB 0x200 17) s
  if hbState s1 = hbSOURCE then hbOverrides s1 else s1

/-- R401: the end of a charge. -/
def chgEnd (c : Nat) (s : State) : State :=
  let cause := if (c = 8 ∨ c = 9) ∧ s.hb.therm then c + 128 else c
  let s1 := setFld pHB 0x200 8 8 cause (setFld pHB 0x200 0 3 (if c = 2 then 6 else 7) s)
  let s2 := if chgBlocks c then setBit pHB 0x200 17 true s1 else s1
  pilotSwitch (flag pHB 2 { s2 with hb := { s2.hb with iChg := 0, term := 0 } })

/-- R383: a transition of Honeybee. Leaving SOURCE ends a running charge with cause 3 and the forage search (R390). -/
def hbGo (st : Nat) (s : State) : State :=
  let s1 := if hbState s = hbSOURCE ∧ chgRunning s then chgEnd 3 s else s
  let s2 := if hbState s = hbSOURCE then setFld pHB 0x210 16 3 0 s1 else s1
  let s3 := flag pHB 0 (setBlockState pHB st { s2 with hb := { s2.hb with since := none, loss := 0 } })
  pilotSwitch (hbOverrides s3)

/-- R383, R401: Honeybee after `DF.0` has left RUN. -/
def hbDfLeft (s : State) : State :=
  if hbState s = hbHANDOVER ∨ hbState s = hbSUPPORT then hbGo hbIDLE s
  else if chgRunning s then chgEnd 7 s else s

/-- A transition of a Dragonfly instance, with Honeybee's reaction to `DF.0` leaving RUN. -/
def dfEnter (i st : Nat) (cause : Option Nat) (s : State) : State :=
  let s1 := dfGo i st cause s
  if i = 0 ∧ dfState s i = dfRUN ∧ st ≠ dfRUN then hbDfLeft s1 else s1

/-- R377: an instance in RUN, STOPPING or HICCUP one of whose configured legs has entered its safe state since state `o` enters IDLE. -/
def dfReact (o : State) (i : Nat) (s : State) : State :=
  let st := dfState s i
  if (st = dfRUN ∨ st = dfSTOPPING ∨ st = dfHICCUP) ∧
      (List.range 6).any (fun p => dfConf s i p && rbit s (pLEG (dfLeg s i p)) 0x94 2 && ! rbit o (pLEG (dfLeg s i p)) 0x94 2) then
    dfEnter i dfIDLE (some 5) s
  else s

/-! ## The reference of Dragonfly (R367, R368) -/

/-- R367, R368: r is at the target in force: `TGT` in RUN, IDLE at the stop value. -/
def dfReached (i : Nat) (s : State) : State :=
  let h := dfH s i
  if ¬ h.slew ∨ h.need ∨ h.r ≠ h.tgt * 2 ^ 32 then s
  else
    let s1 := setDfH i { h with slew := false } s
    if dfState s i = dfRUN then dfShowRef i (flag (pDF i) 1 s1)
    else if dfState s i = dfSTOPPING then dfShowRef i (dfEnter i dfIDLE (some 1) s1)
    else s1

/-- R368: a new target in force; one equal to r is reached in the same tick. -/
def dfSetTarget (i : Nat) (t : Int) (s : State) : State :=
  dfReached i (dfShowRef i (setDfH i { dfH s i with tgt := t, slew := true } s))

/-- R382: is the instance under Honeybee's command? -/
def dfByHb (s : State) (i : Nat) : Bool := i == 0 && bit (act s (pDF i) 0x40) 19

/-- R367, R382: the active target `TGT`, which a transfer puts in force in RUN while Honeybee does not command; one that
transfers in STOPPING is held until the next `START`. -/
def dfTransferred (i : Nat) (s : State) : State :=
  if dfState s i = dfRUN ∧ ¬ dfByHb s i then dfSetTarget i (sgn 16 (actFld s (pDF i) 0x100 0 16)) s else s

/-- R395, R399: a transfer of `HB` at which `BMS_CTL.SEQ` differs from its previous active value sets the freshness counter to 0; the
mode in force, and with it the state-C switch, follow it. `o` is the state before the transfer. -/
def hbTransferred (o s : State) : State :=
  pilotSwitch (if actFld s pHB 0x1E0 0 16 = actFld o pHB 0x1E0 0 16 then s else setFld pHB 0x220 16 16 0 s)

/-! ## Actuator drive units -/

def aduH (s : State) (u : Nat) : AduHid := nth s.adu u {}
def setAduH (u : Nat) (h : AduHid) (s : State) : State := { s with adu := s.adu.set u h }

/-- The states of R411. -/
def aduOFF : Nat := 0
def aduIDLE : Nat := 1
def aduRUN : Nat := 2
def aduHICCUP : Nat := 3
def aduFAULT : Nat := 4

def aduState (s : State) (u : Nat) : Nat := blockState s (pADU u)

/-- R407: the number of legs of a unit. -/
def aduLegs (u : Nat) : Nat := if u = 2 then 2 else 3

/-- `SRC.LEG`. -/
def aduLeg (s : State) (u : Nat) : Nat := fld s (pADU u) 0x40 0 5

/-- Give every leg of a unit one override. -/
def aduOvr (u code : Nat) (s : State) : State :=
  forRange (aduLegs u) (fun j s => setOvr (aduLeg s u + j) code s) s

/-- R409, R410: the overrides a state brings: none in OFF and, with `EXEC` = 0, in RUN; OFF elsewhere. -/
def aduOverrides (u : Nat) (s : State) : State :=
  let st := aduState s u
  aduOvr u (if st = aduOFF ∨ (st = aduRUN ∧ ¬ rbit s (pADU u) 0x40 8) then 0 else 1) s

/-- R411: a transition of a unit. Leaving RUN writes `CAUSE`, another transition writes the last exit from RUN again (log entry 113), and the pawl of `ADU.2` is unknown until it is confirmed
again (R416). -/
def aduEnter (u st : Nat) (cause : Option Nat) (s : State) : State :=
  let s1 := flag (pADU u) 0 (setBlockState (pADU u) st s)
  let s2 := setFld (pADU u) 0x210 0 4 (cause.getD (fld s (pADU u) 0x210 0 4)) s1
  let s3 := if u = 2 ∧ aduState s u = aduRUN ∧ st ≠ aduRUN then setBit (pADU u) 0x208 3 false (setFld (pADU u) 0x208 0 2 0 s2)
    else s2
  aduOverrides u s3

/-! ## Reactions -/

/-- R383, R411: the units after the device has left RUN and DEGRADED. -/
def unitsLeaveRun (s : State) : State :=
  let s1 := if hbState s = hbSOURCE ∨ hbState s = hbSUPPORT then hbGo hbIDLE s else s
  forRange 3 (fun u s => if aduState s u = aduRUN then aduEnter u aduIDLE (some 6) s else s) s1

/-- Re-evaluate the outputs of every leg (R303). Safe states follow at the start of the next tick (R301). -/
def refreshLegs (s : State) : State := forRange 32 refreshOut s

/-- R301, R377: the safe states of the legs at the start of a tick, Dragonfly's reaction to them, and the outputs (R303). -/
def safeLegs (s : State) : State := refreshLegs (dfReact s 1 (dfReact s 0 (forRange 32 safeCheck s)))

end Sys2Proof.Machine
end

