-- ==== Sys2Proof/Machine/Device.lean ====
section
/-! DEFINITION. The device state machine (R88 to R92, R355, R536), saving of the image (R101), restart and removal of
power, and the rows whose effect is a transition: bands, stops, degraded conditions, clock and baseplate. -/
namespace Sys2Proof.Machine

/-! ## Degraded conditions (R355, R356) -/

/-- `CHECKER:STAT_x.STAT` of a pair. -/
def pairRec (s : State) (x : Nat) : Nat := fld s pCHECKER (0x40 + 4 * x) 0 2

/-- R140: pages armed while a pair is in recovery: such a page waits until every pair in recovery at its `ARM` is back. -/
def isLate (s : State) (p : Nat) : Bool := s.chk.lateArm.any (·.contains p)
def noteLate (p : Nat) (s : State) : State :=
  { s with chk := { s.chk with lateArm := s.chk.lateArm.mapIdx (fun x l => if pairRec s x = 0 ∨ l.contains p then l else l ++ [p]) } }
def dropLate (p : Nat) (s : State) : State := { s with chk := { s.chk with lateArm := s.chk.lateArm.map (·.filter (· != p)) } }

/-- R140: both pairs are in recovery at the same moment. -/
def bothRecover (s : State) : Bool := pairRec s 0 != 0 && pairRec s 1 != 0

/-- R355, R356: the degraded conditions in force, as `DEG_COND` reads them. -/
def degCond (s : State) : Nat :=
  b2n (pairRec s 0 ≠ 0) + 2 * b2n (pairRec s 1 ≠ 0) + 4 * b2n (dfDegraded s 0) + 8 * b2n (dfDegraded s 1)
    + 16 * b2n ((List.range 8).any (fun n => rbit s pSYS 0x64 n && (trackState s n == trCOAST || trackState s n == trINVALID)))
    + 256 * fld s pSYS 0x60 0 8

/-- Show the degraded conditions in `DEG_COND`. -/
def degShow (s : State) : State := setRg pSYS 0x5C (degCond s) s

/-! ## Transitions -/

/-- The states in which the device runs its drives. -/
def DevState.running (d : DevState) : Bool := d == .run || d == .degraded

/-- R447: a programming run in progress when HELD and READY are left is aborted. -/
def fwReact (s : State) : State :=
  if s.eth.fw ∧ devState s ≠ .held ∧ devState s ≠ .ready then flag pETH 3 { s with eth := { s.eth with fw := false } } else s

/-- R513: a substitution that waits when RUN and DEGRADED are left is aborted. -/
def spareReact (s : State) : State :=
  if fld s pSPARE 0x4C 0 2 = 1 ∧ ¬ (devState s).running then setFld pSPARE 0x4C 0 2 3 s else s

/-- The hidden part of the device state at a transition from `old` to `t`. -/
def devEnter (old t : DevState) (cmd : Bool) (s : State) : State :=
  let d := s.dev
  let d1 := { d with goReady := if t = .held then d.goReady else false, heldOnce := d.heldOnce || t == .held }
  let d2 := if t = .stopping then { d1 with stopC := ! cmd, stopTick := s.tick } else d1
  let l := if old = .stopping ∧ t = .ready then
      { s.led with zAt := some s.tick, zDone := [], zT := (List.range 6).map (fun t => fld s (pIC t) 0x54 0 16), zB := fld s pSUPPLY 0x64 0 16 }
    else if t = .run then
      { s.led with zAt := none, vDone := [], chans := List.replicate 48 { ronAt := s.tick, scrAt := s.tick } }
    else if t.running ∧ ¬ old.running then { s.led with zAt := none }
    else s.led
  { s with dev := d2, led := l }

/-- R424: may the controllers run? They do in every device state from HELD onwards. -/
def kdMayRun (s : State) : Bool :=
  match devState s with
  | .off | .standby | .boot | .selftest | .restore => false
  | .held | .ready | .run | .degraded | .stopping | .safe | .latched => true

/-- R424: a controller whose `EN` is 1 leaves OFF, once controllers may run. -/
def kdStart (k : Nat) (s : State) : State :=
  if pageEn s (pKD k) ∧ blockState s (pKD k) = 0 ∧ kdMayRun s then setBlockState (pKD k) 1 s else s

/-- R88, R102, R103: the transition itself: `DEV_STATE`, `E012`, then what the change of state brings to the gates (R309),
the legs (R301), the units (R383, R411), a substitution (R513) and a programming run (R447). `cause` is the number of the event that
reported it; where none did, `CAUSE` reads 0 (log entry 96). CAN controllers enabled before HELD start with it (R424). -/
def enterState (t : DevState) (cause : Nat) (cmd : Bool) (s : State) : State :=
  let old := devState s
  let s1 := setRg pSYS 0x44
    (t.code + old.code * 16 + cause % 256 * 256 + b2n cmd * 2 ^ 16 + b2n (degLatch s) * 2 ^ 17)
    { s with now := { s.now with trans := some (old.code, none) } }
  let s2 := flagIf (t = .restore ∨ t = .held ∨ t = .latched) pSYS 1 (devEnter old t cmd s1)
  let s3 := if old.running ∧ ¬ t.running then unitsLeaveRun s2 else s2
  forRange 4 kdStart (fwReact (spareReact (degShow (refreshLegs (refreshTiles s3)))))

/-- The states of R59. -/
def DevState.shutOk (d : DevState) : Bool := d == .held || d == .ready || d == .safe || d == .latched

/-- R90: the place of a target in the order in which transitions of one tick are taken. -/
def DevState.rank : DevState → Nat
  | .off | .standby => 0 | .boot => 1 | .latched => 2 | .safe => 3 | .stopping => 4 | .degraded => 5 | .ready => 6 | .run => 7
  | .selftest | .restore | .held => 8

/-- R90: the device falls back to the state `a` in which the tick's first transition began; the command that caused that transition
is refused with reason DEVSTATE. -/
def unTransit (a : Nat) (c : Option (Access × Nat)) (s : State) : State :=
  setFld pSYS 0x44 0 4 a (match c with | some (acc, v) => refuse acc pSYS 0x48 v .devstate s | none => s)

/-- R89, R90: a transition that no command asks for; `due` gives its target from a state in which it is due. One that was due in the
state in which another transition of the same tick began is taken in place of that one where its target comes first, else discarded. -/
def transit (due : DevState → Option DevState) (cause : Nat) (s : State) : State :=
  let go := match due (devState s) with | some t => enterState t cause false s | none => s
  match s.now.trans with
  | none => go
  | some (a, c) => match due (.ofCode a) with
    | none => go
    | some t => if t.rank < (devState s).rank then enterState t cause false (unTransit a c s) else s

/-- R89, R534: a fault whose reaction names SAFE. -/
def goSafe (cause : Nat) (s : State) : State :=
  transit (fun d => match d with
    | .held | .ready | .run | .degraded | .stopping => some .safe
    | .off | .standby | .boot | .selftest | .restore | .safe | .latched => none) cause s

/-- R89: a fault whose recovery rule latches. -/
def goLatched (cause : Nat) (s : State) : State :=
  transit (fun d => match d with
    | .held | .ready | .run | .degraded | .stopping | .safe => some .latched
    | .off | .standby | .boot | .selftest | .restore | .latched => none) cause s

/-- R536: a class C fault. -/
def classC (cause : Nat) (s : State) : State :=
  let s1 := transit (fun d => match d with
    | .run | .degraded => some .stopping
    | .held | .ready => some .safe
    | .off | .standby | .boot | .selftest | .restore | .stopping | .safe | .latched => none) cause s
  if devState s = .stopping ∧ devState s1 = .stopping then { s1 with dev := { s1.dev with stopC := true } } else s1

/-- R537: the cause of a SAFE row that still holds, as the event number of its row. -/
def safeHolds (s : State) : Option Nat :=
  if fld s pSUPPLY 0x44 0 3 = 2 then some 3
  else if s.dev.clockLost then some 0
  else if s.dev.base100 then some 15
  else if bothRecover s then some 16
  else none

/-- R89: entry to HELD. A cause of a SAFE row that already holds then takes the device on to SAFE (log entry 13). -/
def enterHeld (cmd : Bool) (s : State) : State :=
  let s1 := enterState .held 0 cmd s
  match safeHolds s1 with
  | some c => enterState .safe c false s1
  | none => s1

/-- R89, R554: is a class B or C cause active? -/
def classBC (s : State) : Bool :=
  let band := fld s pSUPPLY 0x44 0 3
  band == 2 || band == 4 || s.dev.clockLost || s.dev.base100 ||
    (List.range 32).any (fun m => pageEn s (pLEG m) &&
      (bindHalted s m || ! pageEn s (pCAR (legCar s m)) || classB s m))

/-- R89, R554: where a stop that completes takes the device. -/
def stopTarget (s : State) : DevState := if s.dev.stopC ∨ classBC s then .safe else .ready

/-- R89, R554: a stop completes by command. -/
def stopComplete (s : State) : State := enterState (stopTarget s) 0 true s

/-! ## Saving the image (R98, R99, R101) -/

/-- The key under which a stored register word belongs to the image: class K registers, an epoch-buffered one by its active
copy. -/
def imageKey (a : Nat) : Option Nat :=
  match pageOf (a / 4096) with
  | none => none
  | some (k, i) =>
    let o := a % 4096
    if isView k i o then some (a - 0x800)
    else match rowAt k i o with
      | some r => if r.cls = .k ∧ ¬ r.epoch then some a else none
      | none => none

/-- R79, R99: of `EPOCH` only `DOM` is held. -/
def imageWord (a : Nat) (v : Word) : Word := if a % 4096 = 0x28 then v &&& 0x07000000#32 else v

/-- Every class K value that differs from its factory value, with its key. -/
def kValues (s : State) : List (Nat × Word) :=
  s.regs.filterMap (fun e => match imageKey e.1 with
    | some a => (let w := imageWord a e.2; if w = regDefault s.variant a then none else some (a, w))
    | none => none)

/-- R99: the pages that have a record: every page but the windows of Scarab. -/
def restorePages : List Nat := allPages.filter (fun p => ¬ (0xC0 ≤ p ∧ p < 0xC8))

/-- R99, R101: the capture: the record of every page. The model captures every page in the tick in which the save starts, with the
check value of the values captured. Log entry 14. -/
def capture (s : State) : List PageRec :=
  let vals := kValues s
  restorePages.map (fun p => ⟨p, rg s p 0, vals.filter (fun e => e.1 / 4096 == p), checkNow s p⟩)

/-- R99: the CRC of an image's header. -/
def headerCrc (seq count : Nat) : Nat := crc32c (bytesLE seq ++ bytesLE count)

/-- R99: the image of a slot whose header is valid. -/
def slotImage (x : Option Image) : Option Image :=
  match x with
  | some m => if m.crc = headerCrc m.seq m.count then some m else none
  | none => none

/-- R99: is sequence number `a` newer than `b`, modulo 2^32? -/
def seqNewer (a b : Nat) : Bool := decide (0 < (a + 2 ^ 32 - b % 2 ^ 32) % 2 ^ 32 ∧ (a + 2 ^ 32 - b % 2 ^ 32) % 2 ^ 32 < 2 ^ 31)

/-- R99: the slot that holds the newest valid image, with that image. -/
def newest (n : NonVol) : Option (Nat × Image) :=
  match slotImage n.slot0, slotImage n.slot1 with
  | none, none => none
  | some a, none => some (0, a)
  | none, some b => some (1, b)
  | some a, some b => if seqNewer b.seq a.seq then some (1, b) else some (0, a)

/-- R101: a save starts, with its origin code: 1 command, 2 shutdown, 3 brown-out. -/
def saveStart (origin : Nat) (s : State) : State :=
  setRg pCOCOON 0x40 (1 + bits (rg s pCOCOON 0x40) 1 2 * 2 + origin * 16)
    { s with dev := { s.dev with saveImg := some (capture s), saveStart := s.tick } }

/-- Is a save running? -/
def saveBusy (s : State) : Bool := rbit s pCOCOON 0x40 0

/-- R101: a save ends. It writes the slot that does not hold the newest valid image, header last; one that fails leaves
that slot without a valid header and the other as the newest. -/
def saveEnd (ok : Bool) (s : State) : State :=
  let img := s.dev.saveImg.getD []
  let nw := newest s.nv
  let target := match nw with | some (0, _) => 1 | _ => 0
  let seq := match nw with | some (_, m) => (m.seq + 1) % 2 ^ 32 | none => 1
  let im : Option Image := if ok then some ⟨seq, img.length, headerCrc seq img.length, img⟩ else none
  let nv := if target = 0 then { s.nv with slot0 := im } else { s.nv with slot1 := im }
  let s1 := { s with nv := nv, dev := { s.dev with saveImg := none } }
  let s2 := if ok then setRg pCOCOON 0x44 seq s1 else s1
  let s3 := setFld pCOCOON 0x40 0 3 (if ok then 2 else 4) s2
  flag pCOCOON (if ok then 0 else 1) (setRg pCOCOON 0x48 ((s.tick - s.dev.saveStart) / 2000) s3)

/-! ## Removal of power and restart -/

/-- R98: the addresses of the non-volatile memories: flash and Cocoon. -/
def nonVolatile (a : Nat) : Bool :=
  (0x08000000 ≤ a && a < 0x08800000) || (0x28000000 ≤ a && a < 0x28080000)

/-- R55, R59, R88: entry to OFF or STANDBY. Everything but the non-volatile parts loses its state, `DEG_LATCH` with it (log entry 97);
the wake sources of STANDBY are those of `WAKE_SRC` at that time, those of OFF the factory ones (R103). The level of `VSAFE` stands
outside the device. -/
def powerOff (standby : Bool) (brown : Bool) (s : State) : State :=
  let arm := (List.range 4).map (fun n =>
    if standby ∧ rbit s pSUPPLY 0x58 (2 + n) ∧ fld s (pKD n) 0x50 0 2 ≠ 0 then
      some ((List.range 5).map (fun j => rg s (pKD n) (0x50 + 4 * j))) else none)
  let unarmed := (List.range 4).foldl (fun a n => a + b2n ((nth arm n none).isNone) * 2 ^ (2 + n)) 0
  let armed := if standby then clrN (rg s pSUPPLY 0x58) unarmed else 3
  let r : State :=
    { pending := s.pending, variant := s.variant, freeCtr := s.freeCtr, reply := s.reply, nv := s.nv,
      mem := s.mem.filter (fun c => nonVolatile c.1), upset := s.upset.filter (fun c => nonVolatile (8 * c.1))
      dev := { wasBrown := brown, armedWake := armed, canArm := arm, vsafeLow := s.dev.vsafeLow } }
  setRg pSYS 0x44 (if standby then 1 else 0) r

/-- R103, R140, R322, R370, R413: the registers a restart of the main die keeps: Scarab's windows, the recovery counts (R141),
what is measured at the supply, and, unless `STATE_CMD` RESET restarts it, the hold of a pair, exhausted pairs and hiccup counts
and the FAULT states of units. -/
def keptReg (s : State) (byReset : Bool) (a : Nat) : Bool :=
  let p := a / 4096
  let o := a % 4096
  (0xC0 ≤ p && p < 0xC8) || (p == pCHECKER && (o == 0x48 || o == 0x4C)) || (p == pSUPPLY && (o == 0x40 || o == 0x64)) ||
    (! byReset && (((p == 0x10 || p == 0x11) && o == 0x40 && fld s p 0x40 0 3 == 4) ||
      (p == pCHECKER && (o == 0x40 || o == 0x44) && fld s p o 0 2 == 3) || ((0x80 ≤ p && p < 0x86) && (o == 0x64 || o == 0x60)) ||
      ((p == 0x90 || p == 0x91) && (o == 0x0C || o == 0x24C) && fld s p 0x0C 0 8 == dfFAULT) ||
      ((0xA0 ≤ p && p < 0xA3) && (o == 0x20C || ((o == 0x0C || o == 0x210) && fld s p 0x0C 0 8 == aduFAULT)))))

/-- R104: the boot record, in Cocoon (R98). -/
def bootRec (s : State) : Nat := mread s.mem 0x28040000 4 &&& 0x101

/-- R104: the boot record takes a value, which `BANK_SEL` shows. -/
def setBootRec (v : Nat) (s : State) : State := setRg pBOOT 0x40 v { s with mem := mwrite s.mem 0x28040000 v 4 }

/-- R529 and *Start-up*: what every entry to BOOT sets up: the band from `VIN` as last measured (R53, log entry 98), the boot record
and rollback counter (R104), the newest slot's number, and a fresh nonce (R525). -/
def bootEntry (cmd : Bool) (cause : Nat) (s : State) : State :=
  let vin := fld s pSUPPLY 0x40 0 16
  let band := if vin < 1600 then 1 else if vin ≤ 3600 then 0 else 4
  let s1 := setRg pBOOT 0x48 s.nv.rollback (setRg pBOOT 0x40 (bootRec s) (setRg pSUPPLY 0x44 band s))
  let s2 := setRg pCOCOON 0x44 (match newest s.nv with | some (_, m) => m.seq | none => 0) s1
  let s3 := forRange 4 (fun j s => freeStep (setRg pDEBUG (0x48 + 4 * j) (freeNow s) s)) s2
  setRg pSYS 0x4C cause (enterState .boot 0 cmd s3)

/-- R90: a restart comes before a transition of the same tick whose target follows BOOT, if it was due in the state in which that
transition began; the transition is discarded. -/
def restartFrom (byReset : Bool) (s : State) : State :=
  match s.now.trans with
  | some (a, c) =>
    if (byReset ∧ ¬ (DevState.ofCode a).shutOk) ∨ (devState s).rank ≤ DevState.rank .boot then s else unTransit a c s
  | none => s

/-- R103: what a restart keeps of a register: of the `PAGE_STATE` of a unit in FAULT only its state code (R74), of the
counts of an actuator drive unit only its hiccups (R413). -/
def keptWord (e : Nat × Word) : Nat × Word :=
  if e.1 % 4096 = 0x0C ∨ (e.1 % 4096 = 0x20C ∧ 0xA0 ≤ e.1 / 4096 ∧ e.1 / 4096 < 0xA3) then (e.1, e.2 &&& 0xFF#32) else e

/-- R89, R91, R453, R529: a restart of the main die. One that is asked for in BROWN-OUT is discarded, for the device goes to OFF
(R53, R58, R90). `DEG_LATCH`, Scarab, the boot record and the levels outside the die
keep their state; memory that is not non-volatile is lost to the March tests of R93. Log entry 15. -/
def restart (cause : Nat) (cmd : Bool) (s : State) : State :=
  if s.dev.brownOut then s else
  let byReset := cause == 3
  let s := restartFrom byReset s
  let d := s.dev
  let s1 : State :=
    { pending := s.pending, variant := s.variant, tick := s.tick, freeCtr := s.freeCtr, reply := s.reply,
      nv := s.nv, mem := s.mem.filter (fun c => nonVolatile c.1), upset := s.upset.filter (fun c => nonVolatile (8 * c.1)),
      dev := { heldOnce := d.heldOnce, svc := d.svc, clockLost := d.clockLost, base85 := d.base85, base100 := d.base100,
               vsafeLow := d.vsafeLow },
      chk := { last := s.chk.last }, genS := s.genS, sc := s.sc,
      regs := (s.regs.filter (fun e => keptReg s byReset e.1)).map keptWord,
      pairs := if byReset then List.replicate 32 {} else s.pairs.map (fun p => { trips := p.trips }),
      df := if byReset then List.replicate 2 {} else s.df.map (fun h => { hics := h.hics }),
      adu := if byReset then List.replicate 3 {} else s.adu.map (fun h => { hics := h.hics }) }
  let s2 := if byReset then s1 else forRange 6 (fun t s => setRg (pIC t) 0x60 (bits (rg s (pIC t) 0x60) 20 4 * 2 ^ 20) s) s1
  let s3 := setRg pSYS 0x44 ((devState s).code + b2n (degLatch s) * 2 ^ 17) s2
  bootEntry cmd (2 ^ cause) s3

/-! ## Rows: waking, bands and shutdown -/

/-- R53, R30, R55: BOOT starts; `src` holds the active wake sources in the order of `WAKE_SRC`, `svcen` the sampled level
of `SVCEN`. -/
def wakeStart (vin src : Nat) (svcen : Bool) (s : State) : State :=
  if powered s ∨ vin < 1150 ∨ src &&& s.dev.armedWake = 0 then s
  else
    let cause := (if devState s = .standby then 2 else 1) + 4 * b2n s.dev.wasBrown + src % 128 * 256
    let s1 := setRg pSUPPLY 0x40 (vin % 2 ^ 16 * (2 ^ 16 + 1)) { s with dev := { s.dev with svc := svcen, wasBrown := false } }
    bootEntry false cause s1

def execWakeStart (vin : Nat) (src : Nat) (svcen : Bool) (s : State) : Host.Outcome State Fault Refusal :=
  .next (wakeStart vin src svcen s)

/-- R59: `KEY` falls; nothing but `E006`. -/
def execKeyInactive (s : State) : Host.Outcome State Fault Refusal :=
  .next (if powered s then flag pSUPPLY 5 s else s)

/-- R64: a measurement of `VIN`, in 10 mV, enters `VIN_MEAS`. `VIN` is the model's only where a command tells it: between two such
commands `VIN_MEAS` keeps the last (log entry 98). -/
def vinMeasure (vin : Nat) (s : State) : State :=
  let lo := fld s pSUPPLY 0x40 16 16
  setRg pSUPPLY 0x40 (vin % 2 ^ 16 + 2 ^ 16 * (if vin % 2 ^ 16 < lo then vin % 2 ^ 16 else lo)) s

/-- The band, as `SUPPLY:BAND` reports it: 0 FULL, 1 REDUCED, 2 CRITICAL, 3 BROWN-OUT, 4 OVER. -/
def band (s : State) : Nat := fld s pSUPPLY 0x44 0 3

/-- R53: entry to a band from one of the bands `frm`, with its event flag, and what the legs make of it. Where the band is not entered
the row is a measurement of `VIN` (R64, log entry 98). -/
def bandEnter (frm : List Nat) (b : Nat) (fl : Option Nat) (vin : Nat) (s : State) : State :=
  if ¬ powered s then s
  else if ¬ frm.contains (band s) then vinMeasure vin s
  else
    let s1 := setRg pSUPPLY 0x44 b (vinMeasure vin s)
    refreshLegs (match fl with | some i => flag pSUPPLY i s1 | none => s1)

/-- R53: FULL, from REDUCED or OVER only. -/
def execVinFull (vin : Nat) (s : State) : Host.Outcome State Fault Refusal := .next (bandEnter [1, 4] 0 none vin s)

/-- R53: REDUCED, from FULL, CRITICAL or OVER. -/
def execVinReduced (vin : Nat) (s : State) : Host.Outcome State Fault Refusal := .next (bandEnter [0, 2, 4] 1 (some 1) vin s)

/-- R53, R534: CRITICAL takes the device to SAFE. -/
def execVinCritical (vin : Nat) (s : State) : Host.Outcome State Fault Refusal :=
  .next (if powered s ∧ [0, 1, 4].contains (band s) then goSafe 3 (bandEnter [0, 1, 4] 2 (some 2) vin s)
    else bandEnter [0, 1, 4] 2 (some 2) vin s)

/-- R53: OVER, from FULL or REDUCED (the band leaves CRITICAL to REDUCED only). -/
def execVinOver (vin : Nat) (s : State) : Host.Outcome State Fault Refusal := .next (bandEnter [0, 1] 4 (some 4) vin s)

/-- R57, R59: every tile and brake converter off: enables, power good and overload reports. -/
def suppliesOff (s : State) : State := refreshTiles (setRg pSUPPLY 0x50 0 (setRg pSUPPLY 0x48 0 s))

/-- R425: the state of transmit buffer `b`: 0 EMPTY, 1 PENDING, 2 IN_TX, 3 DONE, 4 CANCELLED, 5 ABORTED. -/
def txStat (s : State) (k b : Nat) : Nat := fld s (pKD k) 0x84 (4 * b) 3
def setTxStat (k b st : Nat) (s : State) : State := setFld (pKD k) 0x84 (4 * b) 3 st s

def kdH (s : State) (k : Nat) : KdHid := nth s.kd k {}
def setKdH (k : Nat) (h : KdHid) (s : State) : State := { s with kd := s.kd.set k h }

/-- R424: a controller is OFF. A frame it had in transmission is PENDING again. -/
def kdOff (k : Nat) (s : State) : State :=
  let h := kdH s k
  let s1 := match h.tx with | some (b, _) => setTxStat k b 1 s | none => s
  setBlockState (pKD k) 0 (setKdH k { h with offPend := false, sleepPend := false, integ := false, tx := none } s1)

/-- R424: BROWN-OUT takes every CAN controller to OFF. -/
def kdBrownOut (s : State) : State :=
  forRange 4 (fun k s => kdOff k (setBit (pKD k) 0x08 0 false s)) s

/-- R57, R58, R101: BROWN-OUT. A save that runs continues and ends in OFF; before the first HELD nothing is saved. -/
def brownOut (vin : Nat) (s : State) : State :=
  if ¬ powered s then s
  else if band s = 3 then vinMeasure vin s
  else
    let s1 := flag pSUPPLY 3 (setRg pSUPPLY 0x44 3 (vinMeasure vin s))
    let s2 := kdBrownOut (suppliesOff (refreshTiles s1))
    let s3 := { s2 with dev := { s2.dev with brownOut := true } }
    if saveBusy s then s3
    else if s.dev.heldOnce then saveStart 3 s3
    else powerOff false true s3

def execBrownOut (vin : Nat) (s : State) : Host.Outcome State Fault Refusal := .next (brownOut vin s)

/-- R58: the save that runs through a brown-out completes, and the device enters OFF. -/
def execBrownOutSaveDone (ok : Bool) (s : State) : Host.Outcome State Fault Refusal :=
  .next (if s.dev.brownOut ∧ saveBusy s then powerOff false true (saveEnd ok s) else s)

/-- R59, R101: an orderly shutdown is executed: tile supplies off, the brake drives' with them, then the save; one that finds a save
running waits for it. A second request while one is executing changes nothing (log entry 99). -/
def shutdown (s : State) : State :=
  if s.dev.shutPend then s
  else
    let s1 := suppliesOff { s with dev := { s.dev with shutPend := true } }
    if saveBusy s then { s1 with dev := { s1.dev with shutQueued := true } } else saveStart 2 s1

/-- R59: the shutdown's save completes; STANDBY if a wake source is enabled, else OFF. A device that has left the states of R59 in the
meantime goes on (log entry 99). -/
def shutdownComplete (ok : Bool) (s : State) : State :=
  if s.dev.shutPend ∧ ¬ s.dev.shutQueued ∧ saveBusy s ∧ ¬ s.dev.brownOut then
    let s1 := saveEnd ok { s with dev := { s.dev with shutPend := false } }
    if (devState s).shutOk then powerOff (decide (rg s pSUPPLY 0x58 ≠ 0)) false s1 else s1
  else s

def execShutdownComplete (ok : Bool) (s : State) : Host.Outcome State Fault Refusal := .next (shutdownComplete ok s)

/-- R101: a commanded save completes; a shutdown that waited for it then saves again. -/
def saveComplete (ok : Bool) (s : State) : State :=
  if ¬ saveBusy s ∨ s.dev.brownOut then s
  else if s.dev.shutPend ∧ ¬ s.dev.shutQueued then s
  else
    let s1 := saveEnd ok s
    if s.dev.shutQueued then saveStart 2 { s1 with dev := { s1.dev with shutQueued := false } } else s1

def execSaveComplete (ok : Bool) (s : State) : Host.Outcome State Fault Refusal := .next (saveComplete ok s)

/-! ## Rows: tile supplies, sensor supplies, baseplate, clocks -/

/-- R66: converter `t` (0 to 7 tiles, 8 and 9 brake drives) reaches power good. -/
def execTilePowerGood (t : Fin 10) (s : State) : Host.Outcome State Fault Refusal :=
  .next (if powered s ∧ rbit s pSUPPLY 0x48 t ∧ band s ≠ 3 then refreshTiles (setBit pSUPPLY 0x50 t true s) else s)

/-- R62: a tile converter reaches its power limit. -/
def execTilePowerLimit (t : Fin 8) (s : State) : Host.Outcome State Fault Refusal :=
  .next (if powered s ∧ rbit s pSUPPLY 0x48 t then setBit pSUPPLY 0x50 (16 + t) true s else s)

/-- R34: a short on `VS5A` (0), `VS5B` (1) or `VS12` (2). -/
def execSensorSupplyFault (i : Fin 3) (s : State) : Host.Outcome State Fault Refusal :=
  .next (if powered s then flag pSUPPLY 0 (setBit pSUPPLY 0x54 i true s) else s)

/-- R63: the baseplate temperature is measured, Q8.8; the level at 85.0 °C raises `E007` once. -/
def execBaseplateWarn (temp : Nat) (s : State) : Host.Outcome State Fault Refusal :=
  .next (if powered s ∧ 85 * 256 ≤ temp ∧ temp < 2 ^ 15 then
    (let s1 := setRg pSUPPLY 0x64 temp s
     flagIf (! s.dev.base85) pSUPPLY 6 { s1 with dev := { s1.dev with base85 := true } }) else s)

/-- R63, R534: the level at 100.0 °C requests SS1 and raises `E015` once. -/
def execBaseplateSs1 (temp : Nat) (s : State) : Host.Outcome State Fault Refusal :=
  .next (if powered s ∧ 100 * 256 ≤ temp ∧ temp < 2 ^ 15 then
    (let s1 := setRg pSUPPLY 0x64 temp s
     let s2 := { s1 with dev := { s1.dev with base100 := true } }
     if s.dev.base100 then s2 else classC 15 (flag pSUPPLY 7 s2)) else s)

/-- R63: each level clears 5.0 °C below its threshold. `temp` is the 16-bit Q8.8 word. DESIGN CHOICE: the level stands at exactly 80.0
and 95.0 °C and clears below them (log entry 126). -/
def execBaseplateLevelClear (temp : Nat) (s : State) : Host.Outcome State Fault Refusal :=
  .next (if powered s then
    (let s1 := setRg pSUPPLY 0x64 (temp % 2 ^ 16) s
     let t := sgn 16 temp
     { s1 with dev := { s1.dev with base85 := s1.dev.base85 && decide (80 * 256 ≤ t),
                                    base100 := s1.dev.base100 && decide (95 * 256 ≤ t) } }) else s)

/-- R301, R534: PCLK or MCLK is reported lost: every leg to its safe state, `E000`, SAFE. -/
def execClockLost (s : State) : Host.Outcome State Fault Refusal :=
  .next (if powered s ∧ ¬ s.dev.clockLost then
    goSafe 0 (refreshLegs (flag pCLK 0 { s with dev := { s.dev with clockLost := true } })) else s)

/-- R301, R302: the clocks are in tolerance again. -/
def execClockRestored (s : State) : Host.Outcome State Fault Refusal :=
  .next (if powered s ∧ s.dev.clockLost then refreshLegs { s with dev := { s.dev with clockLost := false } } else s)

/-! ## Rows: boot -/

/-- R67, R95: the bytes of the image in bank `b`. -/
def bankCells (s : State) (b : Nat) : List Host.Cell :=
  (s.mem.filter (fun c => decide (c.1 / 0x400000 = 32 + b))).map (fun c => (c.1 % 0x400000, c.2))

/-- R95: the outcome of the verification of bank `b`, whose header gives security version `ver`: 0 accepted, 1 header, 2 key hash,
3 signature, 4 rollback, 5 uncorrectable ECC. Whether header, key hash and signature hold is a function of the image; `res` tells an
uncorrectable read (5) and which of the three fails where one does. A bank that a programming run left invalid (R447) has no valid
header. -/
def imageResult (s : State) (b res ver : Nat) : Nat :=
  if res = 5 then 5
  else if s.nv.bankBad.contains b then 1
  else if ¬ Config.imageOk (bankCells s b) then (if res = 1 ∨ res = 2 then res else 3)
  else if ver < s.nv.rollback then 4 else 0

/-- R104: what `VER_x` shows of a bank whose header was read. -/
def versionShown (res ver : Nat) : Nat := if res = 1 then 0 else ver

/-- R95, R97: the bank the ROM tries first: after an unconfirmed trial the other bank, else `PREF`. -/
def firstBank (s : State) : Nat := if s.nv.trialRun then 1 - s.nv.trialTo else bootRec s % 2

/-- R93: in SELFTEST, bit 6 shows that Scarab's last self-test failed or Scarab is in FAULT. -/
def scarabTested (s : State) : State :=
  if devState s = .selftest ∧ fld s (pSC 0) 0x40 0 3 = 4 then setBit pSYS 0x54 6 true s else s

/-- R95 to R97: the ROM tries the banks; `resA`, `resB` are the outcomes and `verA`, `verB` the versions it finds. When an
image starts the device enters SELFTEST, otherwise it stays in BOOT. `TRIAL` is cleared at this boot in every case; a trial bank that
fails keeps its `PREF` (log entry 100). -/
def bootTry (resA resB verA verB : Nat) (s : State) : State :=
  let n := s.nv
  let f := firstBank s
  let res := fun b => if b = 0 then imageResult s 0 resA verA else imageResult s 1 resB verB
  let ver := fun b => if b = 0 then verA else verB
  let triedBoth := res f ≠ 0
  let shown := fun b => if b = f ∨ triedBoth then res b else 0
  let vshown := fun b => if b = f ∨ triedBoth then versionShown (res b) (ver b) else 0
  let started := if res f = 0 then some f else if res (1 - f) = 0 then some (1 - f) else none
  let trial := ! n.trialRun && bit (bootRec s) 8
  let fromTrial := n.trialRun
  let base := shown 0 * 256 + shown 1 * 4096 + b2n fromTrial * 16
  let s1 := setRg pBOOT 0x50 (vshown 1) (setRg pBOOT 0x4C (vshown 0) s)
  match started with
  | none => setBootRec (bootRec s % 2) (setRg pBOOT 0x44 (bits (rg s1 pBOOT 0x44) 0 3 + base) { s1 with nv := { n with trialRun := false } })
  | some b =>
    let act := trial && b == f
    let s2 := setBootRec (if fromTrial then b else bootRec s % 2) (setRg pBOOT 0x44 (b + 4 * b2n (b ≠ f) + 8 * b2n act + base) s1)
    let s3 := { s2 with nv := { n with trialRun := act, trialTo := b }, dev := { s2.dev with imgVer := ver b } }
    scarabTested (enterState .selftest 0 false s3)

/-- Does some bank verify? -/
def someBank (resA resB verA verB : Nat) (s : State) : Bool := imageResult s 0 resA verA == 0 || imageResult s 1 resB verB == 0

/-- R95, R97: the ROM tries the banks; where one is accepted, its image starts. -/
def execImageVerified (resA resB : Fin 6) (verA verB : Nat) (s : State) : Host.Outcome State Fault Refusal :=
  .next (if devState s = .boot then bootTry resA resB verA verB s else s)

/-- R96: the ROM tries the banks; where neither verifies, the outcomes are recorded and the device stays in BOOT. -/
def execBootNoImage (resA resB : Fin 6) (verA verB : Nat) (s : State) : Host.Outcome State Fault Refusal :=
  .next (if devState s = .boot then bootTry resA resB verA verB s else s)

/-- R96: an image enters bank A. -/
def serviceStore (image : List (BitVec 8)) (s : State) : State :=
  { s with mem := (image.foldl (fun (a : Nat × List Host.Cell) b => (a.1 + 1, mset a.2 a.1 b.toNat)) (0x08000000, s.mem)).2
           nv := { s.nv with bankBad := s.nv.bankBad.filter (· != 0) }
           upset := s.upset.filter (fun c => ! (decide (0x08000000 ≤ 8 * c.1 ∧ 8 * c.1 < 0x08000000 + image.length))) }

/-- R96: with both banks rejected and the local service path enabled, the ROM takes an image into bank A, verifies it under
R95 and starts it. -/
def serviceLoad (image : List (BitVec 8)) (res ver : Nat) (s : State) : State :=
  if devState s = .boot ∧ s.dev.svc ∧ bits (rg s pBOOT 0x44) 8 4 ≠ 0 ∧ bits (rg s pBOOT 0x44) 12 4 ≠ 0 ∧ image.length ≤ 0x400000 then
    let s0 := serviceStore image s
    let r := imageResult s0 0 res ver
    let s1 := setFld pBOOT 0x44 8 4 r (setRg pBOOT 0x4C (versionShown r ver) s0)
    if r = 0 then
      scarabTested (enterState .selftest 0 false (setFld pBOOT 0x44 0 1 0 { s1 with dev := { s1.dev with imgVer := ver } }))
    else s1
  else s

def execServiceImageLoad (image : List (BitVec 8)) (res : Fin 6) (ver : Nat) (s : State) : Host.Outcome State Fault Refusal :=
  .next (serviceLoad image res ver s)

/-- R92, R93: every self-test has passed, Scarab's own among them: Scarab has left INIT and is not in FAULT. `INJ_STAT` shows the 32
injections detected (R137). -/
def execSelftestPass (s : State) : Host.Outcome State Fault Refusal :=
  .next (if devState s = .selftest ∧ rg s pSYS 0x54 = 0 ∧ fld s (pSC 0) 0x40 0 3 ≠ 0 ∧ fld s (pSC 0) 0x40 0 3 ≠ 4 then
    enterState .restore 0 false (setRg pCHECKER 0x58 (injStat []) s) else s)

/-- R93, R137: the tests that fail among `tests`: test 0 is that of the injections, which `inj` does not show all detected; test 6 is
Scarab's. -/
def failedTests (tests : Nat) (inj : List (Fin 32 × CmpCycle)) (s : State) : Nat :=
  putBits (putBits tests 0 1 (b2n (injStat inj ≠ 0xFFFFFFFF || injAlarm inj))) 6 1 (b2n (fld s (pSC 0) 0x40 0 3 = 4))

/-- R92, R93: tests fail; `SELFTEST` records them and the device stays in SELFTEST. `inj` gives the injections that
do not go as they should, from which `INJ_STAT` follows (R137). -/
def execSelftestFail (tests : Fin 128) (inj : List (Fin 32 × CmpCycle)) (s : State) : Host.Outcome State Fault Refusal :=
  .next (if devState s = .selftest ∧ failedTests tests inj s ≠ 0 then
    setRg pCHECKER 0x58 (injStat inj) (setRg pSYS 0x54 (orN (rg s pSYS 0x54) (failedTests tests inj s)) s) else s)

/-! ## Rows: stops, degraded conditions, reset requests -/

/-- R554: `STOP_TMO` has elapsed since the entry to STOPPING. -/
def execStopTimeout (s : State) : Host.Outcome State Fault Refusal :=
  .next (if s.dev.stopTick + fld s pSYS 0x68 0 16 * msT ≤ s.tick then
    transit (fun d => if d = .stopping then some (stopTarget s) else none) 0 s else s)

/-- R355: a degraded condition has risen; `event` is the number of the event that reported it, 0 for none. -/
def execDegConditionRise (event : Fin 256) (s : State) : Host.Outcome State Fault Refusal :=
  .next (if powered s then
    (let s1 := degShow s
     transit (fun d => if d = .run ∧ degCond s ≠ 0 then some .degraded else none) event s1) else s)

/-- R355: every degraded condition has cleared. -/
def execDegConditionClear (s : State) : Host.Outcome State Fault Refusal :=
  .next (if powered s then
    (let s1 := degShow s
     transit (fun d => if d = .degraded ∧ degCond s = 0 ∧ ¬ degLatch s then some .run else none) 0 s1) else s)

/-- R89, R453: Scarab's reset request. -/
def execScarabResetRequest (s : State) : Host.Outcome State Fault Refusal :=
  .next (if powered s then restart 5 false s else s)

/-- R89, R529: `DBGNRST` held low for 1 µs or more, on EX-6416-H12-D. -/
def execDbgnrstLow (s : State) : Host.Outcome State Fault Refusal :=
  .next (if powered s ∧ s.variant = .h12d then restart 4 false s else s)

end Sys2Proof.Machine
end

