-- ==== Sys2Proof/Machine/Firefly.lean ====
section
/-! DEFINITION. Firefly (R281 to R308): carriers and their events, the reference signal of a leg, edges with delays, minimum pulse
and refresh, the update of compare values, forces, and the writes of the `CAR` and `FFLEG` pages. -/
namespace Sys2Proof.Machine

/-! ## The counter of a carrier (R281) -/

/-- R281: `CCFG.MODE` is UPDN. -/
def carUpdn (s : State) (n : Nat) : Bool := rbit s (pCAR n) 0x40 0

/-- R281: the compare range P of a period T. -/
def rangeOf (updn : Bool) (t : Nat) : Nat := if updn then t / 2 else t

/-- R281: the compare range of carrier `n` under its active period. -/
def carRange (s : State) (n : Nat) : Nat := rangeOf (carUpdn s n) (rg s (pCAR n) 0x50)

/-- The counter c(t) in U24.6, and whether it counts down. -/
def carCnt (s : State) (n : Nat) : Nat := fld s (pCAR n) 0x54 0 30
def carDown (s : State) (n : Nat) : Bool := rbit s (pCAR n) 0x54 31

/-- `CSTAT.LOCKED` (R284). -/
def carLocked (s : State) (n : Nat) : Bool := rbit s (pCAR n) 0x58 0

/-- Does the counter of carrier `n` run in the present tick (R285)? -/
def carRuns (s : State) (n : Nat) : Bool := pageEn s (pCAR n) && ! (carH s n).hold

/-- The period under which the counter moves in the present tick: one that a zero event of this tick replaces still ends it. -/
def carT (s : State) (n : Nat) : Nat := (carH s n).wrapT.getD (rg s (pCAR n) 0x50)

/-- R281: the counter and direction one tick later, on the period `t` of this tick. -/
def carNext (updn : Bool) (t c : Nat) (down : Bool) : Nat × Bool :=
  if ¬ updn then (if t ≤ c + 64 then c + 64 - t else c + 64, false)
  else
    let p := t / 2
    if down then (if c ≤ 64 then (64 - c, false) else (c - 64, true))
    else (if p ≤ c + 64 then (2 * p - (c + 64), true) else (c + 64, false))

/-- R281: how far the counter is from the end of its half. -/
def boundDist (updn : Bool) (t c : Nat) (down : Bool) : Nat := if ¬ updn then t - c else if down then c else t / 2 - c

/-- R281: counter and direction from the end of a half on. -/
def afterBound (updn : Bool) (t : Nat) (down : Bool) : Nat × Bool := if ¬ updn ∨ down then (0, false) else (t / 2, true)

/-- R281: the end of a half in the present tick: whether it is a zero event, and where it lies in the tick, in 1/64. One at the very
start of a tick belongs to that tick (log entry 109). -/
def boundDue (s : State) (n : Nat) : Option (Bool × Nat) :=
  let u := carUpdn s n
  if (carH s n).hit then some (! u || ! carDown s n, 0)
  else
    let d := boundDist u (carT s n) (carCnt s n) (carDown s n)
    if d < 64 then some (! u || carDown s n, d) else none

/-- R281: the zero event of a running carrier in the present tick that has not acted, with its place in the tick. -/
def zeroDue (s : State) (n : Nat) : Option Nat :=
  if ¬ carRuns s n ∨ (carH s n).lastZero = some s.tick then none
  else match boundDue s n with | some (true, f) => some f | _ => none

/-- R281: the period event of a running carrier in the present tick that has not acted, with its place in the tick; on an UP carrier
the counter reaches half the compare range by counting (R283). -/
def perDue (s : State) (n : Nat) : Option Nat :=
  if ¬ carRuns s n ∨ (carH s n).lastPer = some s.tick then none
  else if carUpdn s n then (match boundDue s n with | some (false, f) => some f | _ => none)
  else
    let c := carCnt s n
    let h := carT s n / 2
    if c ≤ h ∧ h < c + 64 ∧ ¬ (c = h ∧ (carH s n).resyncAt = some s.tick) then some (h - c) else none

/-- R305: `CAR.n` counts an event selected in `CEVT`; each `PRE` + 1-th drives `E136`+n in the next tick. -/
def carCount (n sel : Nat) (s : State) : State :=
  if ¬ rbit s (pCAR n) 0x4C sel then s
  else
    let h := carH s n
    if fld s (pCAR n) 0x4C 4 4 ≤ h.pre then pulseAt (s.tick + 1) (136 + n) (pCAR n) (setCarH n { h with pre := 0 } s)
    else setCarH n { h with pre := h.pre + 1 } s

/-! ## The reference signal of a leg (R286) -/

def legMode (s : State) (m : Nat) : Nat := fld s (pLEG m) 0x40 6 2
def legUpd (s : State) (m : Nat) : Nat := fld s (pLEG m) 0x40 4 2
def legA (s : State) (m : Nat) : Nat := rg s (pLEG m) 0x88
def legB (s : State) (m : Nat) : Nat := rg s (pLEG m) 0x8C

/-- R286: the reference signal S right after the counter has stood at `c` in the half in progress. -/
def refAfter (mode a b c : Nat) (down : Bool) : Bool :=
  if down then (if mode = 1 then decide (c ≤ b) else if mode = 2 then decide (a < c ∧ c ≤ b) else decide (c ≤ a))
  else if mode = 2 then decide (a ≤ c ∧ c < b) else decide (c < a)

/-- A stretch of counting in one direction: from instant `at_` and counter `c` on, for `len` 64ths of a tick, under the compare values
`a` and `b`. -/
structure Seg where
  at_  : Nat
  c    : Nat
  down : Bool
  len  : Nat
  a    : Nat
  b    : Nat

/-- The rest of a stretch after its first `k` 64ths. -/
def segCut (k : Nat) (g : Seg) : Seg :=
  { g with at_ := g.at_ + k, c := if g.down then g.c - k else g.c + k, len := g.len - k }

/-- The least of the numbers that satisfy a condition. -/
def leastOf (f : Nat → Bool) (l : List Nat) : Option Nat :=
  (l.filter f).foldl (fun m x => match m with | some y => some (if x < y then x else y) | none => some x) none

/-- R286: where S first differs from `level` in a stretch. -/
def segChange (mode : Nat) (level : Bool) (g : Seg) : Option Nat :=
  let hits := fun (v : Nat) => if g.down then (if v ≤ g.c then [g.c - v] else []) else (if g.c ≤ v then [v - g.c] else [])
  leastOf (fun k => decide (k < g.len) && refAfter mode g.a g.b (segCut k g).c g.down != level) ([0] ++ hits g.a ++ hits g.b)

/-- R286: the edges of S in a stretch that begins at `level`: their instants and the new values. -/
def segEdges (mode : Nat) : Nat → Bool → Seg → List (Nat × Bool)
  | 0, _, _ => []
  | n + 1, level, g =>
    match segChange mode level g with
    | none => []
    | some k => (g.at_ + k, ! level) :: segEdges mode n (! level) (segCut k g)

/-- R281, R292: the stretches of the present tick of a leg's carrier. Up to a half boundary that applied held values the values before
it hold. -/
def legSegs (s : State) (m : Nat) : List Seg :=
  let n := legCar s m
  let u := carUpdn s n
  let t := carT s n
  let c := carCnt s n
  let dn := carDown s n
  let d := boundDist u t c dn
  let a := legA s m
  let b := legB s m
  let old := (legH s m).before.getD (a, b)
  if 64 ≤ d then [⟨64 * s.tick, c, dn, 64, a, b⟩]
  else
    let x := afterBound u t dn
    [⟨64 * s.tick, c, dn, d, old.1, old.2⟩, ⟨64 * s.tick + d, x.1, x.2, 64 - d, a, b⟩]

/-- Does S of leg `m` act: is the leg enabled and begun, and does its carrier run? -/
def legFollows (s : State) (m : Nat) : Bool := pageEn s (pLEG m) && (legH s m).began && carRuns s (legCar s m)

/-- R286: the edges of S of leg `m` in the present tick that have not acted. -/
def legEdges (s : State) (m : Nat) : List (Nat × Bool) :=
  if ¬ legFollows s m then []
  else
    let l := legH s m
    ((legSegs s m).foldl (fun (x : Bool × List (Nat × Bool)) g =>
      let g' := segCut (l.followed - g.at_) g
      let es := segEdges (legMode s m) 5 x.1 g'
      (match es.getLast? with | some e => e.2 | none => x.1, x.2 ++ es)) (l.ref, [])).2

/-- R295: the instant at which S next leaves `level`, from instant `at_` and counter `c` on, over `k` halves of the period `t`. -/
def changeIn (mode a b : Nat) (level updn : Bool) (t : Nat) : Nat → Nat → Nat → Bool → Option Nat
  | 0, _, _, _ => none
  | k + 1, at_, c, down =>
    let d := boundDist updn t c down
    match segChange mode level ⟨at_, c, down, d, a, b⟩ with
    | some x => some (at_ + x)
    | none => let y := afterBound updn t down; changeIn mode a b level updn t k (at_ + d) y.1 y.2

/-- R295: the instant at which S of leg `m` next leaves its value, predicted from the active values as they stand, at the end of the
present tick; none where it never does. -/
def refChange (s : State) (m : Nat) : Option Nat :=
  let n := legCar s m
  if ¬ carRuns s n then none
  else
    let u := carUpdn s n
    let x := carNext u (carT s n) (carCnt s n) (carDown s n)
    changeIn (legMode s m) (legA s m) (legB s m) (legH s m).ref u (rg s (pCAR n) 0x50) 4 (64 * (s.tick + 1)) x.1 x.2

/-! ## Delays and minimum pulse (R287, R295 to R297) -/

/-- R295: the threshold of a leg, in 1/64 tick. -/
def legThr (s : State) (m : Nat) : Nat :=
  let g := pairGap s (legPair s m)
  let w := fld s (pLEG m) 0x5C 0 10
  64 * (if w < g then g else w)

/-- R295: `MINPW.POLICY`. -/
def legPolicy (s : State) (m : Nat) : Nat := fld s (pLEG m) 0x5C 12 2

/-- The programmed delays of R287, in 1/64 tick: `RISE` and `FALL` of an output. -/
def dlyRise (s : State) (m : Nat) (hi : Bool) : Nat := 64 * fld s (pLEG m) (if hi then 0x54 else 0x58) 0 12
def dlyFall (s : State) (m : Nat) (hi : Bool) : Nat := 64 * fld s (pLEG m) (if hi then 0x54 else 0x58) 16 12

/-- The hidden part of one output. -/
def outH (s : State) (m : Nat) (hi : Bool) : OutHid := if hi then (legH s m).hi else (legH s m).lo
def setOutH (m : Nat) (hi : Bool) (o : OutHid) (s : State) : State :=
  let l := legH s m
  setLegH m (if hi then { l with hi := o } else { l with lo := o }) s

/-- R295: the debt of an output, S16 in 1/64 tick. -/
def debtOf (s : State) (m : Nat) (hi : Bool) : Int := sgn 16 (fld s (pLEG m) 0x90 (if hi then 0 else 16) 16)

/-- R295, R296: store a debt, bounded to ± the threshold; a bound that cuts sets `DEBTSAT`. -/
def setDebt (m : Nat) (hi : Bool) (d : Int) (s : State) : State :=
  let t : Int := legThr s m
  let d' := clampI (-t) t d
  flagIf (d' ≠ d) (pLEG m) 4 (setFld (pLEG m) 0x90 (if hi then 0 else 16) 16 (uns 16 d') s)

/-- R296: `PCNT.DROPPED` and `DROP`, or `PCNT.STRETCHED` and `STRETCH`. -/
def countDrop (m : Nat) (s : State) : State := flag (pLEG m) 2 (incSat (pLEG m) 0x98 0 16 1 s)
def countStretch (m : Nat) (s : State) : State := flag (pLEG m) 3 (incSat (pLEG m) 0x98 16 16 1 s)

/-- R287: a delayed turn-on edge joins those that wait: one before the turn-off edge of the interval before joins the two intervals. -/
def schedOn (x : Nat) (q : List (Nat × Bool)) : List (Nat × Bool) :=
  match q.getLast? with
  | some (r, false) => if x ≤ r then q.dropLast else q ++ [(x, true)]
  | _ => q ++ [(x, true)]

/-- R287: a delayed turn-off edge: one not after its turn-on edge leaves no interval. -/
def schedOff (r : Nat) (q : List (Nat × Bool)) : List (Nat × Bool) :=
  match q.getLast? with
  | some (x, true) => if r ≤ x then q.dropLast else q ++ [(r, false)]
  | _ => q ++ [(r, false)]

/-- R287: an edge of S at instant `x`: one output will turn on, the other off, each after its delay. -/
def refEdge (m : Nat) (rise : Bool) (x : Nat) (s : State) : State :=
  let on := outH s m rise
  let off := outH s m (! rise)
  setOutH m (! rise) { off with sched := schedOff (x + dlyFall s m (! rise)) off.sched }
    (setOutH m rise { on with sched := schedOn (x + dlyRise s m rise) on.sched } s)

/-- R305: `FFLEG.m` counts an edge of S selected in `EVT_CFG.EDGE`; each `PRE` + 1-th drives `E152`+m in the tick after the edge. -/
def legCount (m : Nat) (rise : Bool) (s : State) : State :=
  if ¬ rbit s (pLEG m) 0x64 (if rise then 0 else 1) then s
  else
    let l := legH s m
    if fld s (pLEG m) 0x64 4 4 ≤ l.pre then pulseAt (s.tick + 1) (152 + m) (pLEG m) (setLegH m { l with pre := 0 } s)
    else setLegH m { l with pre := l.pre + 1 } s

/-- R286: S of leg `m` takes the value `rise` at instant `x`. In a safe state only the edge is counted. -/
def takeEdge (m : Nat) (x : Nat) (rise : Bool) (s : State) : State :=
  let s1 := legCount m rise (setLegH m { legH s m with ref := rise, followed := x + 1 } s)
  if rbit s1 (pLEG m) 0x94 2 then s1 else refEdge m rise x s1

/-- R295: the instant at which the interval of an output that begins at or before now, or waits, will end by R287: the turn-off edge
that waits, or the one predicted. -/
def refOff (s : State) (m : Nat) (hi : Bool) : Option Nat :=
  match (outH s m hi).sched.find? (fun e => ! e.2) with
  | some e => some e.1
  | none => (refChange s m).map (· + dlyFall s m hi)

/-- The width of an interval that begins at `x`; none where it does not end. -/
def widthFrom (x : Nat) (off : Option Nat) : Option Int := off.map (fun r => (r : Int) - x)

/-- Is a width, with the debt added, below the threshold? -/
def belowThr (w : Option Int) (d thr : Int) : Bool := match w with | some x => decide (x + d < thr) | none => false

/-- R297: the turn-off edge of an interval of an output that begins at `x`: the one that waits after it, or the one predicted. -/
def offAfter (s : State) (m : Nat) (hi : Bool) (x : Nat) : Option Nat :=
  match (outH s m hi).sched.find? (fun e => ! e.2 && decide (x < e.1)) with
  | some e => some e.1
  | none => (refChange s m).map (· + dlyFall s m hi)

/-- R297: is the pulse of an output whose turn-on edge lies at `x` skipped: has it been, or will it be? An interval of no width is no
pulse. -/
def willSkip (s : State) (m : Nat) (hi : Bool) (x : Nat) : Bool :=
  let o := outH s m hi
  o.skipAt == some x ||
    (legPolicy s m != 1 && o.sched.contains (x, true) &&
      (let w := widthFrom x (offAfter s m hi x)
       (match w with | some y => decide (0 < y) | none => false) && belowThr w (debtOf s m hi) (legThr s m)))

/-- R295, R296: the pulse under way ends `extra` after the reference instant `r`, not before the threshold after its turn-on. -/
def endPulse (m : Nat) (hi : Bool) (r : Nat) (s : State) : State :=
  let o := outH s m hi
  let want : Int := r + o.extra
  let least : Int := o.since + legThr s m
  if want < least then
    let s1 := setOutH m hi { o with offAt := some least.toNat, long := true } s
    if o.long then s1
    else
      let s2 := countStretch m s1
      if legPolicy s m = 2 then setDebt m hi (debtOf s2 m hi - (least - want)) s2 else s2
  else setOutH m hi { o with offAt := some want.toNat } s

/-- R295: a pulse of an output begins at instant `x`. An output that stayed on across a gap that was to close turns off now. -/
def beginPulse (m : Nat) (hi : Bool) (x : Nat) (extra : Int) (long : Bool) (s : State) : State :=
  let o := outH s m hi
  let q := outH s m (! hi)
  setOutH m hi { o with on := true, since := x, offAt := none, long := long, extra := extra, closed := false }
    (if q.closed then setOutH m (! hi) { q with on := false, closed := false, offAt := none, extra := 0, long := false } s else s)

/-- R295: the turn-on edge of an output at instant `x`, with w predicted in its tick: the pulse is skipped, stretched or emitted. An
output that stayed on across a closed gap begins no pulse (R297). -/
def turnOnEdge (m : Nat) (hi : Bool) (x : Nat) (s : State) : State :=
  let o := outH s m hi
  if o.closed then setOutH m hi { o with closed := false } s
  else
    let w := widthFrom x (refOff s m hi)
    let thr : Int := legThr s m
    let skip := fun (s : State) => setOutH m hi { outH s m hi with skipAt := some x } s
    if legPolicy s m = 1 then
      (if belowThr w 0 thr then beginPulse m hi x 0 true (countStretch m s) else beginPulse m hi x 0 false s)
    else if legPolicy s m = 2 then
      (let d := debtOf s m hi
       if belowThr w d thr then skip (countDrop m (setDebt m hi (w.getD 0 + d) s)) else beginPulse m hi x d false (setDebt m hi 0 s))
    else if belowThr w 0 thr then skip (countDrop m s)
    else beginPulse m hi x 0 false s

/-- R296, R297: the turn-off edge of an output at instant `r`. When the pulse of the other output that the same edge of S brings is
skipped and the off-gap is shorter than the threshold, the output stays on. -/
def turnOffEdge (m : Nat) (hi : Bool) (r : Nat) (s : State) : State :=
  let o := outH s m hi
  if ¬ o.on ∨ o.offAt.isSome then s
  else
    let back := match o.sched.head? with
      | some (x, true) => some x
      | _ => (refChange s m).map (· + dlyRise s m hi)
    let short : Bool := match back with | some x => decide (x < r + legThr s m) | none => false
    if short ∧ willSkip s m (! hi) (r - dlyFall s m hi + dlyRise s m (! hi)) then setOutH m hi { o with closed := true, long := true, extra := 0 } s
    else endPulse m hi r s

/-- R287, R295: what falls due on an output before instant `lim`, in order: the end of the pulse under way, then the delayed edges. -/
def outRun (m : Nat) (hi : Bool) (lim : Nat) : Nat → State → State
  | 0, s => s
  | n + 1, s =>
    let o := outH s m hi
    let edge := match o.sched with | e :: _ => if e.1 < lim then some e else none | [] => none
    let stop := match o.offAt with | some x => if x < lim then some x else none | none => none
    let take := fun (e : Nat × Bool) =>
      let s1 := setOutH m hi { o with sched := o.sched.tail } s
      outRun m hi lim n (if e.2 then turnOnEdge m hi e.1 s1 else turnOffEdge m hi e.1 s1)
    let end_ := fun (_ : Unit) => outRun m hi lim n (setOutH m hi { o with on := false, offAt := none, extra := 0, long := false } s)
    match stop, edge with
    | none, none => s
    | none, some e => take e
    | some _, none => end_ ()
    | some x, some e => if e.1 < x then take e else end_ ()

/-- R295: a pulse shortened by its debt ends before its reference instant, as predicted in each tick. -/
def endEarly (m : Nat) (hi : Bool) (lim : Nat) (s : State) : State :=
  let o := outH s m hi
  if ¬ o.on ∨ o.offAt.isSome ∨ o.closed ∨ 0 ≤ o.extra then s
  else match refOff s m hi with
    | some r => if (r : Int) + o.extra < lim then endPulse m hi r s else s
    | none => s

/-! ## Shadow and active compare values (R290 to R293) -/

/-- `LEG_STAT` bits 8 and 9: writes of the shadow wait, or a COMMIT value is held. -/
def showShadow (m : Nat) (s : State) : State :=
  let l := legH s m
  setBit (pLEG m) 0x94 9 (l.heldA.isSome || l.heldB.isSome)
    (setBit (pLEG m) 0x94 8 (! l.wrA.isEmpty || ! l.wrB.isEmpty || l.offA.isSome || l.offB.isSome || l.holdWr) s)

/-- R290: the writes a reload in tick `r` transfers: the newest retired by tick r − 2. -/
def reloadable (r : Nat) (ws : List (Nat × Nat)) : Option Nat := (ws.find? (fun w => w.1 + 2 ≤ r)).map Prod.snd

/-- R290: the writes that stay in the shadow. -/
def stillWaiting (r : Nat) (ws : List (Nat × Nat)) : List (Nat × Nat) := ws.filter (fun w => r < w.1 + 2)

/-- Store an active compare value. -/
def setActive (m : Nat) (b : Bool) (v : Option Nat) (s : State) : State :=
  match v with
  | some x => setRg (pLEG m) (if b then 0x8C else 0x88) x s
  | none => s

/-- R290: `LATE` for `k` writes. -/
def countLate (m k : Nat) (s : State) : State := if k = 0 then s else flag (pLEG m) 0 (incSat (pLEG m) 0x94 16 8 k s)

/-- `PAGE_CTRL.HOLD` of a leg (R291). -/
def legHold (s : State) (m : Nat) : Bool := rbit s (pLEG m) 0x08 1

/-- R290, R291: a reload in the present tick. -/
def reload (m : Nat) (s : State) : State :=
  if legHold s m then s
  else
    let l := legH s m
    let r := s.tick
    let s1 := setActive m true (reloadable r l.wrB) (setActive m false (reloadable r l.wrA) s)
    let a := stillWaiting r l.wrA
    let b := stillWaiting r l.wrB
    showShadow m (countLate m ((a ++ b).filter (fun w => w.1 ≤ r)).length (setLegH m { l with wrA := a, wrB := b } s1))

/-- R291, R292: the held COMMIT values apply at a half boundary, from its instant on, `frac` into the present tick; not under `HOLD`. -/
def applyHeld (m frac : Nat) (s : State) : State :=
  let l := legH s m
  if legHold s m ∨ (l.heldA.isNone ∧ l.heldB.isNone) then s
  else showShadow m (setLegH m { l with heldA := none, heldB := none, before := if frac = 0 then l.before else some (l.before.getD (legA s m, legB s m)) }
    (setActive m true l.heldB (setActive m false l.heldA s)))

/-- Does the present tick hold a reload of the leg (R290)? -/
def reloadTick (s : State) (m : Nat) : Bool :=
  let h := carH s (legCar s m)
  let z := h.lastZero == some s.tick
  let p := h.lastPer == some s.tick
  match legUpd s m with
  | 0 => z
  | 1 => p
  | 2 => z || p
  | _ => false

/-- Has carrier `n` had a half boundary in the present tick (R281)? -/
def halfTick (s : State) (n : Nat) : Bool :=
  (carH s n).lastZero == some s.tick || (carUpdn s n && (carH s n).lastPer == some s.tick)

/-- R292: has the edge at compare value `v` happened in the half in progress? -/
def edgeDone (s : State) (n v : Nat) : Bool := if carDown s n then decide (carCnt s n < v) else decide (v ≤ carCnt s n)

/-- R286, R292: does the register produce an edge in the half in progress? -/
def hasEdge (s : State) (m : Nat) (b : Bool) : Bool :=
  match legMode s m with
  | 0 => ! b
  | 1 => b == carDown s (legCar s m)
  | _ => true

/-- R292: may the new value apply at once? -/
def edgeSafe (s : State) (m : Nat) (b : Bool) (v : Nat) : Bool :=
  ! hasEdge s m b || edgeDone s (legCar s m) v == edgeDone s (legCar s m) (if b then legB s m else legA s m)

/-- R292: hold a COMMIT value for the next half boundary; one inside the arrival tick is that boundary. -/
def holdValue (m : Nat) (b : Bool) (v : Nat) (s : State) : State :=
  let s1 := flag (pLEG m) 1 (incSat (pLEG m) 0x94 24 8 1 s)
  let l := legH s1 m
  let s2 := showShadow m (setLegH m (if b then { l with heldB := some v } else { l with heldA := some v }) s1)
  if halfTick s (legCar s m) then applyHeld m ((boundDue s (legCar s m)).elim 0 Prod.snd) s2 else s2

/-- R292: apply a value at once, dropping a held value of the same register. -/
def applyNow (m : Nat) (b : Bool) (v : Nat) (s : State) : State :=
  let l := legH s m
  showShadow m (setActive m b (some v) (setLegH m (if b then { l with heldB := none } else { l with heldA := none }) s))

/-- A compare value reaches a leg's shadow in the present tick. Under `HOLD` the shadow takes it and transfers nothing (R291); with `EN`
0 it transfers in the next tick (R294); else it waits for a reload, or, in mode COMMIT, acts under R292 (`safe` says whether it may
apply at once). -/
def arrive (m : Nat) (b : Bool) (v : Nat) (safe : Bool) (s : State) : State :=
  let x := v % 2 ^ 30
  let s1 := setRg (pLEG m) (if b then 0x84 else 0x80) x s
  let l := legH s1 m
  if legHold s m then showShadow m (setLegH m { l with holdWr := true } s1)
  else if ¬ pageEn s (pLEG m) then showShadow m (setLegH m (if b then { l with offB := some x } else { l with offA := some x }) s1)
  else if legUpd s m ≠ 3 then
    countLate m (b2n (reloadTick s m))
      (showShadow m (setLegH m (if b then { l with wrB := (s.tick, x) :: l.wrB } else { l with wrA := (s.tick, x) :: l.wrA }) s1))
  else if safe then applyNow m b x s1 else holdValue m b x s1

/-- R289: a value of a dedicated path arrives; one of a path that is not the owner is discarded. -/
def deliverNow (owner m : Nat) (b : Bool) (v : Nat) (s : State) : State :=
  if legOwner s m = owner then arrive m b v (edgeSafe s m b v) s else flag (pLEG m) 5 s

/-- R289, R361, R410: a value of a dedicated path that arrives in tick `at_`. -/
def deliver (owner m : Nat) (b : Bool) (v at_ : Nat) (s : State) : State :=
  if at_ ≤ s.tick then deliverNow owner m b v s
  else setLegH m { legH s m with inbox := (legH s m).inbox ++ [(at_, owner, b, v)] } s

/-- R291, R293: `HOLD` of the legs `ms` is cleared in one tick: it counts as a write of every shadow register. The values of the legs in
mode COMMIT are one group (log entry 110). -/
def releaseHolds (ms : List Nat) (s : State) : State :=
  let safe := (ms.filter (fun m => legUpd s m == 3)).all (fun m =>
    edgeSafe s m false (rg s (pLEG m) 0x80) && edgeSafe s m true (rg s (pLEG m) 0x84))
  ms.foldl (fun s m =>
    let l := legH s m
    let s1 := setBit (pLEG m) 0x08 1 false (setLegH m { l with wrA := [], wrB := [], offA := none, offB := none, holdWr := false } s)
    arrive m true (rg s (pLEG m) 0x84) safe (arrive m false (rg s (pLEG m) 0x80) safe s1)) s

/-! ## Commits of Mantis (R293) -/

/-- One committed value: leg, register B or A, value. -/
structure CommitVal where
  leg : Nat
  isB : Bool
  val : Nat
  deriving DecidableEq, Repr

/-- R293: the values of a group that go together with `v`: those of the same carrier and update mode. -/
def sameGroup (s : State) (v w : CommitVal) : Bool := legCar s v.leg == legCar s w.leg && legUpd s v.leg == legUpd s w.leg

/-- R289, R292, R293: committed values arrive. A group transfers together where its legs share carrier and mode, and is split
otherwise, with `GSPLIT` on each of its legs; values of legs Mantis does not own are discarded. -/
def commitArrive (group : Bool) (vals : List CommitVal) (s : State) : State :=
  let split := group && vals.any (fun v => vals.any (fun w => ! sameGroup s v w))
  let s1 := if split then vals.foldl (fun s v => flag (pLEG v.leg) 6 s) s else s
  vals.foldl (fun st v =>
    if legOwner s v.leg ≠ 1 then flag (pLEG v.leg) 5 st
    else
      let safe := if group then
          (vals.filter (fun w => legOwner s w.leg == 1 && sameGroup s v w)).all (fun w => edgeSafe s w.leg w.isB w.val)
        else edgeSafe s v.leg v.isB v.val
      arrive v.leg v.isB v.val safe st) s1

/-! ## Forces (R299) -/

/-- R299: the newest waiting force that a condition names takes effect; those written before it are superseded (log entry 111). -/
def applyForce (due : Nat × Nat → Bool) (m : Nat) (s : State) : State :=
  let l := legH s m
  match l.fwait.find? due with
  | some f => refreshOut m (setLegH m { l with force := f.1 % 16, fwait := l.fwait.takeWhile (fun e => ! due e) } s)
  | none => s

/-- R299: a write with `WHEN` = 0 acts from tick w + 2 on. -/
def forceTime (t : Nat) (f : Nat × Nat) : Bool := ! bit f.1 4 && decide (f.2 + 2 ≤ t)

/-- R299: is a waiting force due in the present tick? -/
def forceNow (s : State) (m : Nat) (f : Nat × Nat) : Bool :=
  if bit f.1 4 then (carH s (legCar s m)).lastZero == some s.tick || (carH s (legCar s m)).lastPer == some s.tick
  else forceTime s.tick f

def forceDue (s : State) (m : Nat) : Bool := (legH s m).fwait.any (forceNow s m)

/-! ## Events of a carrier -/

/-- R286, R302, R304: S is followed from instant `x` on, and the output it calls for turns on; minimum pulse and refresh start afresh. -/
def startRef (m x : Nat) (s : State) : State :=
  let l := legH s m
  let r := refAfter (legMode s m) (legA s m) (legB s m) 0 false
  let o : OutHid := { sched := [(x + dlyRise s m r, true)] }
  setLegH m { l with resume := false, began := true, ref := r, followed := x + 1, hi := if r then o else {}, lo := if r then {} else o,
                     offEnd := s.tick, offFrom := s.tick } s

/-- R286, R305: the edges of S of leg `m` up to instant `x` act. -/
def followTo (m x : Nat) (s : State) : State :=
  ((legEdges s m).filter (fun e => decide (e.1 ≤ x))).foldl (fun s e => takeEdge m e.1 e.2 s) s

/-- R302, R304: at its carrier's zero event a leg whose causes have all cleared leaves its safe state, and an enabled leg
that has not begun begins. -/
def resumeLeg (m frac : Nat) (s : State) : State :=
  let p := pLEG m
  let l := legH s m
  if ¬ pageEn s p then s
  else if rbit s p 0x94 2 ∧ ¬ l.resume then
    (if l.began then s else setLegH m { l with began := true, ref := refAfter (legMode s m) (legA s m) (legB s m) 0 false,
                                               followed := 64 * s.tick + frac + 1 } s)
  else if rbit s p 0x94 2 ∨ ¬ l.began then
    refreshOut m (startRef m (64 * s.tick + frac) (setFld p 0x94 2 5 0 (followTo m (64 * s.tick + frac) s)))
  else s

/-- What a zero event (`zero`) or a period event of carrier `n`, `frac` into the present tick, brings to a leg on it. -/
def legEvent (n : Nat) (zero : Bool) (frac m : Nat) (s : State) : State :=
  if legCar s m ≠ n then s
  else if ¬ pageEn s (pLEG m) then applyForce (fun f => bit f.1 4) m s
  else
    let u := legUpd s m
    let s1 := if u = 2 ∨ (zero ∧ u = 0) ∨ (¬ zero ∧ u = 1) then reload m s else s
    let s2 := if u = 3 ∧ (zero ∨ carUpdn s n) then applyHeld m frac s1 else s1
    let s3 := applyForce (fun f => bit f.1 4) m s2
    if zero then resumeLeg m frac s3 else s3

/-- R282: `PER` as it stood at the end of tick z − 2. -/
def perAt (s : State) (n z : Nat) : Nat :=
  match ((carH s n).perOld.filter (fun e => decide (z < e.1 + 2))).getLast? with
  | some e => e.2
  | none => rg s (pCAR n) 0x44

/-- R281 to R284, R290 to R305: the zero event of a running carrier, `frac` into the present tick. -/
def zeroEvent (n frac : Nat) (s : State) : State :=
  let p := pCAR n
  let h := carH s n
  let t := rg s p 0x50
  let v := if carLocked s n then t else perAt s n s.tick
  let s1 := setRg p 0x50 v (incWrap p 0x58 16 16 1 s)
  let s2 := setCarH n { h with lastZero := some s.tick, prevZero := h.lastZero, wrapT := if v ≠ t ∧ 0 < frac then some t else h.wrapT } s1
  forRange 32 (legEvent n true frac) (carCount n 0 s2)

/-- The period event of a running carrier, `frac` into the present tick. -/
def periodEvent (n frac : Nat) (s : State) : State :=
  forRange 32 (legEvent n false frac) (carCount n 1 (setCarH n { carH s n with lastPer := some s.tick } s))

/-- R283: does a resync or a start with c = `PHASE` in the present tick count as a zero event? -/
def countsZero (s : State) (n : Nat) : Bool :=
  rg s (pCAR n) 0x48 == 0 &&
    (match (carH s n).lastZero with | some z => ! decide (s.tick ≤ z + fld s (pCAR n) 0x40 16 8) && z != s.tick | none => true)

/-- R283: a resync of a carrier in the present tick; several in one tick act once. -/
def resync (n : Nat) (s : State) : State :=
  let p := pCAR n
  let h := carH s n
  if ¬ pageEn s p ∨ h.resyncAt = some s.tick then s
  else
    let s1 := setCarH n { h with resyncAt := some s.tick, hit := false } (setRg p 0x54 (rg s p 0x48) (incWrap p 0x58 8 8 1 s))
    if countsZero s n then zeroEvent n 0 s1 else s1

/-- R182, R284: Cicada delivers a period, active in the present tick. -/
def deliverPeriod (n t : Nat) (s : State) : State := setBit (pCAR n) 0x58 0 true (setRg (pCAR n) 0x50 (t % 2 ^ 30) s)

/-- R284: the lock of a carrier is released; `PER` takes over at the next zero event. -/
def releaseLock (n : Nat) (s : State) : State := setBit (pCAR n) 0x58 0 false s

/-- R285: the zero-event rule for a carrier that starts in the present tick with c = `PHASE`. -/
def carStart (n : Nat) (s : State) : State :=
  let p := pCAR n
  let s1 := setRg p 0x54 (rg s p 0x48) (setCarH n { carH s n with hold := false, hit := false } s)
  if countsZero s n then zeroEvent n 0 s1 else s1

/-- R283: is a resync of carrier `n` by its chain due in the present tick: did its source have a zero event in the tick before? -/
def chainDue (s : State) (n : Nat) : Bool :=
  let h := carH s (fld s (pCAR n) 0x40 8 4)
  rbit s (pCAR n) 0x40 4 && (h.lastZero.map (· + 1) == some s.tick || (h.lastZero == some s.tick && h.prevZero.map (· + 1) == some s.tick))

/-- R283: the resync of carrier `n` by its chain, where it is due. -/
def chainStep (n : Nat) (s : State) : State := if carRuns s n ∧ chainDue s n then resync n s else s

/-- R294: the first step of a tick: the chained resyncs, all of which the zero events of the tick before bring. -/
def chainSync (s : State) : State := forRange 16 chainStep s

/-- R294: the first two steps of the present tick for carrier `n`, where no command has brought them: its chained resync, then its
events. -/
def carSettle (n : Nat) (s : State) : State :=
  let s1 := chainStep n s
  let s2 := match zeroDue s1 n with | some f => zeroEvent n f s1 | none => s1
  match perDue s2 n with | some f => periodEvent n f s2 | none => s2

/-! ## Writes of the `CAR` pages (R282, R285, R306) -/

/-- R360: a carrier of an enabled Dragonfly instance, its master or a phase carrier. -/
def dfCarrier (s : State) (n : Nat) : Bool :=
  (List.range 2).any (fun i => pageEn s (pDF i) && (fld s (pDF i) 0x60 0 4 == n ||
    (List.range 6).any (fun p => dfConf s i p && legCar s (dfLeg s i p) == n)))

/-- The checks of a write to a `CAR` page. -/
def carChk (s : State) (n o v : Nat) (_old new : Nat) : Option Reason :=
  if o = 0x08 then firstReason [(cmdBit v 1 && ! rbit s (pCAR n) 0x08 0, .state)]
  else if o = 0x40 then firstReason [(bits new 8 4 == n, .value), (pageEn s (pCAR n), .state)]
  else if o = 0x44 then firstReason [(decide (new < 4096), .value)]
  else if o = 0x48 then firstReason [(decide (carRange s n ≤ bits new 0 30), .value), (dfCarrier s n, .conflict)]
  else none

/-- R285, R301: `EN` of a carrier has changed. -/
def carEnable (n : Nat) (on : Bool) (s : State) : State :=
  refreshLegs (setCarH n { carH s n with hold := on, pre := 0, hit := false } s)

/-- R291: `GCOMMIT` clears `HOLD` on every leg of the carrier, all in one tick. -/
def gcommit (n : Nat) (s : State) : State :=
  releaseHolds ((List.range 32).filter (fun m => legCar s m == n && legHold s m)) s

/-- The effects of a write to a `CAR` page, `was` being `EN` and `per` being `PER` before it. -/
def carEff (n o v : Nat) (was : Bool) (per : Nat) (s : State) : State :=
  if o = 0x08 then
    let s1 := if cmdBit v 1 then gcommit n s else s
    if pageEn s1 (pCAR n) = was then s1 else carEnable n (! was) s1
  else if o = 0x44 then
    setCarH n { carH s n with perOld := (s.tick, per) :: (carH s n).perOld.filter (fun e => decide (s.tick < e.1 + 2)) } s
  else s

/-- A write to a register of `CAR.n`. -/
def carWrite (acc : Access) (n o v : Nat) (s : State) : State :=
  busStore acc (pCAR n) o v (carChk s n o v) (carEff n o v (pageEn s (pCAR n)) (rg s (pCAR n) 0x44)) s

/-! ## Writes of the `FFLEG` pages (R288, R289, R299, R300, R304) -/

/-- R288: may a leg name this pair at all? -/
def xbarLegal (m k : Nat) : Bool := k == 0x3F || (decide (m < 24) && decide (k < 24)) || (decide (24 ≤ m) && decide (24 ≤ k ∧ k < 32))

/-- R300: an LV pair with ASC_HI in either state field. -/
def ascHiLv (k cfg : Nat) : Bool := decide (24 ≤ k ∧ k < 32) && (bits cfg 0 2 == 2 || bits cfg 2 2 == 2)

/-- R358, R382, R409: does a unit hold overrides on the leg, so that a fabric write to `FORCE` is refused? -/
def ovrOwned (s : State) (m : Nat) : Bool :=
  legOwner s m == 2 || legOwner s m == 3 || (pageEn s pHB && rbit s pHB 0x44 m) ||
    (List.range 3).any (fun u => pageEn s (pADU u) && decide (aduLeg s u ≤ m ∧ m < aduLeg s u + aduLegs u))

/-- R304: does the tile of a pair report power good? -/
def pairPower (s : State) (k : Nat) : Bool := rbit s pSUPPLY 0x50 (pairTile k)

/-- R295: may `MINPW` hold this value: no policy 3, and no CARRY with a threshold above 511 ticks? -/
def minpwLegal (s : State) (m new : Nat) : Bool :=
  bits new 12 2 != 3 && ! (bits new 12 2 == 2 && (decide (511 < bits new 0 10) || decide (511 < pairGap s (legPair s m))))

/-- The checks of a write to an `FFLEG` page. -/
def legChk (s : State) (m o v : Nat) (_old new : Nat) : Option Reason :=
  let p := pLEG m
  let en := pageEn s p
  let k := legPair s m
  if o = 0x08 then
    firstReason [(cmdBit v 0 && ! en && (k == 0x3F || ! pageEn s (pCAR (legCar s m)) || ! pairPower s k), .resource)]
  else if o = 0x40 then
    firstReason [(bits new 6 2 == 3 || decide (5 ≤ bits new 8 3) || (bits new 6 2 == 1 && ! carUpdn s (bits new 0 4)), .value),
      (en, .state)]
  else if o = 0x44 then
    firstReason [(! xbarLegal m new || ascHiLv new (rg s p 0x48), .value), (en, .state),
      (new != 0x3F && (List.range 32).any (fun j => j != m && legPair s j == new), .conflict)]
  else if o = 0x48 then
    firstReason [(bits new 0 2 == 3 || bits new 2 2 == 3 || ascHiLv k new, .value), (en, .state)]
  else if o = 0x4C ∨ o = 0x54 ∨ o = 0x58 then firstReason [(en, .state)]
  else if o = 0x50 then firstReason [(new == 3, .value), (en, .state)]
  else if o = 0x5C then firstReason [(! minpwLegal s m new, .value), (en, .state)]
  else if o = 0x60 then
    firstReason [(bits new 0 2 == 3 || bits new 2 2 == 3 || (bits new 0 2 == 2 && bits new 2 2 == 2), .value),
      (ovrOwned s m, .conflict)]
  else if o = 0x80 ∨ o = 0x84 then firstReason [(legOwner s m != 0, .conflict)]
  else none

/-- R301, R303, R304: `EN` of a leg has changed. A leg that is enabled while a cause of R301 holds is in its safe state from then on. -/
def legEnable (m : Nat) (on : Bool) (s : State) : State :=
  let l := legH s m
  if on then refreshOut m (safeCheck m (setLegH m { l with began := false, pre := 0, ref := false } s))
  else
    refreshOut m (setFld (pLEG m) 0x94 2 5 0
      (clearPulses m (setLegH m { l with began := false, resume := false, ref := false } s)))

/-- The effects of a write to an `FFLEG` page, given the `PAGE_CTRL` before it. -/
def legEff (m o v ctrl : Nat) (s : State) : State :=
  let p := pLEG m
  if o = 0x08 then
    let s1 := if cmdBit v 2 then setRg p 0x90 0 s else s
    let s2 := if bit ctrl 1 ∧ ¬ rbit s1 p 0x08 1 then releaseHolds [m] s1 else s1
    if pageEn s2 p = bit ctrl 0 then s2 else legEnable m (pageEn s2 p) s2
  else if o = 0x60 then setLegH m { legH s m with fwait := (rg s p 0x60, s.tick) :: (legH s m).fwait } s
  else if o = 0x80 then arrive m false (rg s p 0x80) (edgeSafe s m false (rg s p 0x80)) s
  else if o = 0x84 then arrive m true (rg s p 0x84) (edgeSafe s m true (rg s p 0x84)) s
  else s

/-- A write to a register of `FFLEG.m`. -/
def legWrite (acc : Access) (m o v : Nat) (s : State) : State :=
  busStore acc (pLEG m) o v (legChk s m o v) (legEff m o v (rg s (pLEG m) 0x08)) s

/-! ## What a tick brings to Firefly by itself -/

/-- R298: may a refresh act on the leg: it drives an LV pair, by rule 4 or 5 of R303? -/
def refreshable (s : State) (m : Nat) : Bool :=
  let k := legPair s m
  decide (24 ≤ k ∧ k < 32) && pageEn s (pLEG m) && (legH s m).began && ! rbit s (pLEG m) 0x94 2 &&
    (match devState s with
      | .off | .standby | .boot | .selftest | .restore | .held => false
      | .ready | .run | .degraded | .stopping | .safe | .latched => true)

/-- R298: has the refresh timer of the leg reached 9 920 ticks? A natural off-interval of 80 ticks resets it. -/
def refreshDue (s : State) (m : Nat) : Bool :=
  let l := legH s m
  refreshable s m && l.refresh.isNone && decide (l.offEnd + 9920 ≤ s.tick) && (rbit s (pLEG m) 0x94 0 || decide (s.tick < l.offFrom + 80))

/-- R298: a refresh begins. -/
def refreshBegin (m : Nat) (s : State) : State := setLegH m { legH s m with refresh := some (s.tick + 80) } s

/-- R298: the refresh of a leg ends. The high output turns on again only if S stays 1 for the threshold beyond; the fragment is
counted as skipped otherwise. -/
def refreshEnd (m : Nat) (s : State) : State :=
  let l := legH s m
  let stays : Bool := l.ref && (match refChange s m with | some x => decide (64 * s.tick + legThr s m ≤ x) | none => true)
  let l1 := { l with refresh := none }
  if ¬ l.hi.on then setLegH m l1 s
  else if stays then setLegH m { l1 with hi := { l.hi with since := 64 * s.tick } } s
  else countDrop m (setLegH m { l1 with hi := { l.hi with on := false, offAt := none, extra := 0, long := false } } s)

/-- R294: the last step of the present tick for a leg: the edges of S that have not acted, the delayed edges under the minimum pulse,
a refresh that begins or ends, and the outputs. -/
def legTick (m : Nat) (s : State) : State :=
  if ¬ pageEn s (pLEG m) then s
  else
    let lim := 64 * (s.tick + 1)
    let s1 := (legEdges s m).foldl (fun s e => takeEdge m e.1 e.2 s) s
    let s2 := setLegH m { legH s1 m with followed := lim, before := none } s1
    let s3 := if rbit s2 (pLEG m) 0x94 2 then s2
      else outRun m false lim 8 (endEarly m false lim (outRun m true lim 8 (endEarly m true lim s2)))
    let s4 := match (legH s3 m).refresh with
      | some e => if e ≤ s3.tick then refreshEnd m s3 else s3
      | none => if refreshDue s3 m then refreshBegin m s3 else s3
    refreshOut m s4

/-- R294, R299, R361: the beginning of the present tick for a leg: shadow writes taken with `EN` 0 and all that wait while it is 0
transfer, values of dedicated paths arrive, forces with `WHEN` = 0 take effect, and swarm pulses end. -/
def legBegin (m : Nat) (s : State) : State :=
  let l := legH s m
  let off := ! pageEn s (pLEG m)
  let pick := fun (x : Option Nat) (ws : List (Nat × Nat)) => if x.isSome then x else if off then ws.head?.map Prod.snd else none
  let s1 := if legHold s m ∨ (l.offA.isNone ∧ l.offB.isNone ∧ (¬ off ∨ (l.wrA.isEmpty ∧ l.wrB.isEmpty))) then s
    else showShadow m (setLegH m { l with offA := none, offB := none, wrA := if off then [] else l.wrA, wrB := if off then [] else l.wrB }
      (setActive m true (pick l.offB l.wrB) (setActive m false (pick l.offA l.wrA) s)))
  let due := l.inbox.filter (fun e => decide (e.1 ≤ s.tick))
  let s2 := if due.isEmpty then s1
    else due.foldl (fun s e => deliverNow e.2.1 m e.2.2.1 e.2.2.2 s)
      (setLegH m { legH s1 m with inbox := l.inbox.filter (fun e => ! decide (e.1 ≤ s.tick)) } s1)
  let s3 := applyForce (forceTime s.tick) m s2
  if l.swarm.any (fun w => decide (w.2 ≤ s.tick)) then
    setLegH m { legH s3 m with swarm := l.swarm.filter (fun w => decide (s.tick < w.2)) } s3
  else s3

/-- R281: one tick of a running carrier's counter. -/
def carTick (n : Nat) (s : State) : State :=
  let p := pCAR n
  if ¬ carRuns s n then s
  else
    let u := carUpdn s n
    let d := boundDist u (carT s n) (carCnt s n) (carDown s n)
    let nx := carNext u (carT s n) (carCnt s n) (carDown s n)
    setCarH n { carH s n with wrapT := none, hit := d == 64 } (setRg p 0x54 (nx.1 % 2 ^ 30 + 2 ^ 31 * b2n nx.2) s)

/-- R285: the carriers enabled in the last tick start. -/
def carStarts (s : State) : State := forRange 16 (fun n s => if pageEn s (pCAR n) ∧ (carH s n).hold then carStart n s else s) s

/-- R294: the end of the present tick in Firefly: resyncs and events, then the edges of every leg, then the counters move on. -/
def fireflyTick (s : State) : State := forRange 16 carTick (forRange 32 legTick (forRange 16 carSettle s))

/-! ## Rows -/

/-- R285: a write that sets `CAR.n:PAGE_CTRL.EN`. -/
def execCarrierEnable (acc : Access) (n : Fin 16) (s : State) : Host.Outcome State Fault Refusal :=
  .next (onBus acc (pCAR n) 0x08 (carWrite acc n 0x08 0x00010001) s)

/-- R285, R301: a write that clears `EN`; every leg on the carrier enters its safe state with cause 4. -/
def execCarrierDisable (acc : Access) (n : Fin 16) (s : State) : Host.Outcome State Fault Refusal :=
  .next (onBus acc (pCAR n) 0x08 (carWrite acc n 0x08 0x00010000) s)

/-- R281: the zero event of the present tick of a running carrier. -/
def execCarrierZeroEvent (n : Fin 16) (s : State) : Host.Outcome State Fault Refusal :=
  .next (if powered s then (match zeroDue s n with | some f => zeroEvent n f s | none => s) else s)

/-- R281: the period event of the present tick of a running carrier. -/
def execCarrierPeriodEvent (n : Fin 16) (s : State) : Host.Outcome State Fault Refusal :=
  .next (if powered s then (match perDue s n with | some f => periodEvent n f s | none => s) else s)

/-- R283: a chained carrier is resynced in the tick after its source's zero event. -/
def execChainResync (n : Fin 16) (s : State) : Host.Outcome State Fault Refusal :=
  .next (if powered s ∧ chainDue s n then resync n s else s)

/-- R291: `CAR.n:PAGE_CTRL.GCOMMIT`. -/
def execGcommit (acc : Access) (n : Fin 16) (s : State) : Host.Outcome State Fault Refusal :=
  .next (onBus acc (pCAR n) 0x08 (carWrite acc n 0x08 0x00020002) s)

/-- R304: a write that sets `FFLEG.m:PAGE_CTRL.EN`. -/
def execLegEnable (acc : Access) (m : Fin 32) (s : State) : Host.Outcome State Fault Refusal :=
  .next (onBus acc (pLEG m) 0x08 (legWrite acc m 0x08 0x00010001) s)

/-- R303: a write that clears `FFLEG.m:PAGE_CTRL.EN`. -/
def execLegDisable (acc : Access) (m : Fin 32) (s : State) : Host.Outcome State Fault Refusal :=
  .next (onBus acc (pLEG m) 0x08 (legWrite acc m 0x08 0x00010000) s)

/-- R297: `FFLEG.m:PAGE_CTRL.DEBTCLR`. -/
def execDebtclr (acc : Access) (m : Fin 32) (s : State) : Host.Outcome State Fault Refusal :=
  .next (onBus acc (pLEG m) 0x08 (legWrite acc m 0x08 0x00040004) s)

/-- R299: a write to `FFLEG.m:FORCE`. -/
def execForce (acc : Access) (m : Fin 32) (v : BitVec 32) (s : State) : Host.Outcome State Fault Refusal :=
  .next (onBus acc (pLEG m) 0x60 (legWrite acc m 0x60 v.toNat) s)

/-- R299: a waiting force that is due takes effect. -/
def execForceApply (m : Fin 32) (s : State) : Host.Outcome State Fault Refusal :=
  .next (if powered s ∧ forceDue s m then applyForce (forceNow s m) m s else s)

/-- R298: the refresh timer of a leg on an LV pair has reached 9 920 ticks. -/
def execBootstrapRefresh (m : Fin 32) (s : State) : Host.Outcome State Fault Refusal :=
  .next (if powered s ∧ refreshDue s m then refreshOut m (refreshBegin m s) else s)

/-- R286, R294: the carrier's counter crosses a compare value of the leg at `frac`/64 of the present tick: the edge of S there, after the
events of the tick and the edges before it. A crossing that gives S no edge is none. -/
def execCompareCrossing (m : Fin 32) (rise : Bool) (frac : Fin 64) (s : State) : Host.Outcome State Fault Refusal :=
  .next (if powered s then
    (let x := 64 * s.tick + frac.val
     let s1 := carSettle (legCar s m) s
     if (legEdges s1 m).contains (x, rise) then followTo m x s1 else s) else s)

end Sys2Proof.Machine
end

