-- ==== Sys2Proof/Machine/Gauge.lean ====
section
/-! DEFINITION. The channels of a pair, and what the lifetime ledger gathers while the tiles and the HV sense measure (R499 to R504). -/
namespace Sys2Proof.Machine

/-- One channel of a pair. -/
def chanH (s : State) (c : Nat) : ChanHid := if c % 2 = 0 then (pairH s (c / 2)).hi else (pairH s (c / 2)).lo
def setChanH (c : Nat) (x : ChanHid) (s : State) : State :=
  let p := pairH s (c / 2)
  setPairH (c / 2) (if c % 2 = 0 then { p with hi := x } else { p with lo := x }) s

/-- R499: does the ledger measure? -/
def ledOn (s : State) : Bool := powered s && rbit s pLEDGER 0x08 0

def setLed (h : LedHid) (s : State) : State := { s with led := h }
def ledChan (s : State) (c : Nat) : LedChan := nth s.led.chans c {}
def setLedChan (c : Nat) (h : LedChan) (s : State) : State := setLed { s.led with chans := s.led.chans.set c h } s

/-- R515: the sigma-delta input of channel `c`. -/
def scrMap (s : State) (c : Nat) : Nat := fld s pLEDGER (0x90 + 4 * (c / 4)) (8 * (c % 4)) 8

/-- The place of a code in a list of channels. -/
def codeIndex (code : Nat) : List Nat → Option Nat
  | [] => none
  | a :: l => if a = code then some 0 else (codeIndex code l).map (· + 1)

/-- R504: the magnitude of input `n`'s calibrated value in the latest set record that lists it, by its sinc3 or its sinc2 code
(R204). -/
def latestValue (s : State) (n : Nat) : Option Nat :=
  (s.sets.foldl (fun (m : Option (Nat × Nat)) h => match h.doneAt, (codeIndex n h.codes).or (codeIndex (0x30 + n) h.codes) with
    | some t, some i =>
      let v := (nth h.elems i 0).natAbs
      (match m with | some (t0, _) => if t0 < t then some (t, v) else m | none => some (t, v))
    | _, _ => m) none).map Prod.snd

/-- R501, R504: a measurement of channel `c` has been written to `MEAS_c`: it is noted, and in RUN a main current of `RON_IMIN` or more
adds a resistance and a pair of currents to the windows. -/
def ledMeasure (c : Nat) (s : State) : State :=
  let p := pIC (c / 8)
  let i := fld s p (0x180 + 4 * (c % 8)) 0 16
  let isns := fld s p (0x10C + 16 * (c % 8)) 0 10
  let vds := fld s p (0x10C + 16 * (c % 8)) 10 10
  let h := { ledChan s c with mAt := some (chanH s c).onAt }
  if ¬ ledOn s ∨ devState s ≠ .run ∨ i < fld s pLEDGER 0x44 0 16 ∨ i = 0 then setLedChan c h s
  else
    let r := rneDiv (((vds : Int) - fld s pLEDGER 0x48 0 10) * 100000) i
    let h1 := { h with ronN := h.ronN + 1, ron := h.ron + r }
    let h2 := if scrMap s c = 0xFF ∨ rg s pCAL (0x400 + 8 * c) = 0 then h1
      else match latestValue s (scrMap s c) with
        | some a => { h1 with scrN := h1.scrN + 1, scrI := h1.scrI + a, scrS := h1.scrS + isns }
        | none => h1
    setLedChan c h2 s

/-- R222, R501: a temperature `x` of NTC pair `n` of an HV tile enters the windows of the channels whose tile temperature it is. -/
def ledTemp (n : Nat) (x : Int) (s : State) : State :=
  if ¬ ledOn s ∨ devState s ≠ .run ∨ 12 ≤ n then s
  else forRange 4 (fun j s =>
    let c := 8 * (n / 2) + 4 * (n % 2) + j
    let h := ledChan s c
    setLedChan c { h with tN := h.tN + 1, t := h.t + x } s) s

/-- R503: the times of a pre-charge under way at the value `v` of `HVS.0`, in the present tick. -/
def preTimes (tick : Nat) (v : Int) (p : PreCharge) : PreCharge :=
  let t20 : Option Nat := match p.t20 with | some t => some t | none => if p.vs ≤ 5 * v then some tick else none
  { p with t20 := t20
           dt := match p.dt, t20 with
             | some d, _ => some d
             | none, some t => if 3 * p.vs ≤ 5 * v then some (tick - t) else none
             | none, none => none }

/-- R503: a result of `HVS.i` follows a pre-charge, which begins in HELD or READY; `fs` is the full scale in V. One that is complete
waits for its record. -/
def preCharge (fs i : Nat) (s : State) : State :=
  let v0 := sgn 16 (fld s pHVS 0x60 0 16)
  let v1 := sgn 16 (fld s pHVS 0x64 0 16)
  let low : Bool := decide (10 * v0 < v1)
  let l := s.led
  let pre : Option PreCharge := match l.pre with
    | some p => if p.dt.isSome then some p
      else if p.vs < 50 * ((v1 - p.vs).natAbs : Int) ∨ low then none
      else if i = 0 then some (preTimes s.tick v0 p) else some p
    | none => if i = 0 ∧ l.low ∧ ¬ low ∧ (devState s = .held ∨ devState s = .ready) ∧ (200 * 32768 : Int) ≤ v1 * fs then some (preTimes s.tick v0 ⟨v1, none, none⟩) else none
  if 1 < i then s
  else if ¬ ledOn s then setLed { l with low := low, pre := none } s
  else setLed { l with low := if i = 0 then low else l.low, pre := pre } s

end Sys2Proof.Machine
end

