-- ==== Sys2Proof/Machine/Ironclad.lean ====
section
/-! DEFINITION. Ironclad and the brake chopper (R309 to R341): trips, hiccup, fault groups, channel supplies, measurements,
temperatures, and the chopper's comparators and energy model. -/
namespace Sys2Proof.Machine

/-! ## Dragonfly's fast limit (R369) -/

/-- R366: the phases of an instance that are available. -/
def dfAvailN (s : State) (i : Nat) : Nat := dfCount (dfAvail s i)

/-- R369: the trip of a phase of `DF.i`: it is counted over `FAST_CFG.WIN`, ends the phase's shedding, and fails the phase at
`FAST_N` + 1; too few available phases put the instance in FAULT and the device in LATCHED. -/
def dfTrip (i p : Nat) (s : State) : State :=
  let h := dfH s i
  let ph := dfPhase h p
  let win := actFld s (pDF i) 0x178 16 16 * msT
  let trips := s.tick :: ph.trips.filter (fun t => s.tick ≤ t + win)
  let s1 := flag (pDF i) 2 (setFld (pDF i) (0x210 + 4 * p) 8 8 (satN 255 trips.length)
    (setDfPhase i p { ph with trips := trips } s))
  if actFld s (pDF i) 0x178 0 4 + 1 ≤ trips.length then
    let s2 := flag (pDF i) 7 (dfOverrides i (dfShowPhases i (setDfPhSt i p 5 s1)))
    if dfAvailN s2 i < actFld s2 (pDF i) 0x40 8 3 ∧ dfRuns s2 i then
      goLatched (205 + 4 * i) (dfEnter i dfFAULT (some 4) (dfUndoStop i s2))
    else s2
  else if dfPhSt s1 i p = 2 then flag (pDF i) 5 (dfOverrides i (dfShowPhases i (setDfPhSt i p 3 s1)))
  else s1

/-- The phase of an instance that runs on a leg, if any. -/
def dfPhaseOfLeg (s : State) (i m : Nat) : Option Nat := (List.range 6).find? (fun p => dfConf s i p && dfLeg s i p == m)

/-! ## Trips (R318 to R324) -/

/-- R324: a pair whose off condition has ended waits for Firefly's high output to be off. -/
def awaitResume (k : Nat) (s : State) : State :=
  let p := pairH s k
  drivePair k (setPairH k { p with tripOff := false, cycab := false, resume := true } s)

/-- R322: a counted trip of pair `k` at tick `at_`: the count within the window, and exhaustion with LATCHED. -/
def countTrip (k at_ : Nat) (s : State) : State :=
  let t := pairTile k
  let p := pIC t
  let j := k % 4
  let h := pairH s k
  let trips := at_ :: h.trips.filter (fun x => at_ ≤ x + fld s p 0x44 16 16 * msT)
  let s1 := setFld p 0x64 (4 * j) 4 (satN 15 trips.length) (setPairH k { h with trips := trips } s)
  if fld s p 0x44 0 4 + 1 ≤ trips.length then
    goLatched (184 + 2 * t) (refreshTile t (setBit p 0x60 (20 + j) true s1))
  else s1

/-- R322, R323: a trip handled under the hiccup rules: delivered to Dragonfly in cycle-abort mode, counted otherwise. -/
def singleTrip (k at_ : Nat) (s : State) : State :=
  if pairCycab s k then
    match pairLeg s k with
    | some m =>
      let i := legOwner s m - 2
      let s1 := awaitResume k s
      (match dfPhaseOfLeg s1 i m with | some p => dfTrip i p s1 | none => s1)
    | none => s
  else countTrip k at_ s

/-- `IC.0:FG_STAT_g` and `FG_CFG_g`. -/
def fgStat (g : Nat) : Nat := 0x240 + 4 * g
def fgEn (s : State) (g : Nat) : Bool := rbit s (pIC 0) (0x200 + 4 * g) 3

/-- R325, R327, R328: what becomes of a trip: it changes a held decision, is collected, or is handled alone. -/
def classifyTrip (c : Nat) (s : State) : State :=
  let k := c / 2
  match pairGroup s k with
  | none => singleTrip k s.tick s
  | some g =>
    if groupDecision s g ≠ 0 then
      let d := groupDecision s g
      if (d = 1 ∧ c % 2 = 0) ∨ (d = 2 ∧ c % 2 = 1) then driveGroup g (setFld (pIC 0) (fgStat g) 0 2 3 s) else s
    else if ¬ fgEn s g then singleTrip k s.tick s
    else
      let x := groupH s g
      match x.opened with
      | none => setGroupH g { opened := some s.tick, trips := [c] } s
      | some o => if s.tick ≤ o + 200 then setGroupH g { x with trips := x.trips ++ [c] } s else singleTrip k s.tick s

/-- R321: a detection on channel `c`. -/
def trip (c : Nat) (hard ovld : Bool) (s : State) : State :=
  let k := c / 2
  let p := pIC (pairTile k)
  let pos := c % 8
  let ch := chanH s c
  let s1 := setRg p 0x60 (orN (rg s p 0x60) (b2n hard * 2 ^ pos + b2n ovld * 2 ^ (8 + pos))) s
  if ch.soft.isSome then s1
  else if ¬ (ch.cmd ∨ ch.on ∨ ch.sink = s.tick) then s
  else
    let softEnd := s.tick + 20 * fld s p (0x104 + 16 * pos) 8 5
    let s2 := incWrap p 0x6C 0 16 (b2n (endsShort s k ch)) (setChanH c { ch with on := false, soft := some softEnd, sink := softEnd } s1)
    let s3 := flag p 0 (setBit p 0x60 (16 + k % 4) true s2)
    let h := pairH s3 k
    let s4 := if pairDecision s3 k = 0 then setPairH k { h with tripOff := true, tripAt := s.tick } s3 else s3
    classifyTrip c (drivePair k s4)

/-- R318: OVLD acts from the end of blanking, while enabled, until turn-off; a detection in the tick of the turn-off coincides with it
(R310). -/
def ovldArmed (s : State) (c : Nat) : Bool :=
  let p := pIC (pairTile (c / 2))
  let pos := c % 8
  let x := chanH s c
  rbit s p (0x100 + 16 * pos) 24 &&
    (x.soft.isSome || ((x.on || x.sink == s.tick) && decide (x.onAt + 5 * fld s p (0x104 + 16 * pos) 0 7 ≤ s.tick)))

/-- R321: the sense current crosses HARD, OVLD detecting in the same tick where `ovld` says so. -/
def execHardTrip (c : Fin 48) (ovld : Bool) (s : State) : Host.Outcome State Fault Refusal :=
  .next (if powered s then trip c true (ovld && ovldArmed s c) s else s)

/-- R321: the sense current is above the OVLD threshold after blanking. -/
def execOvldTrip (c : Fin 48) (s : State) : Host.Outcome State Fault Refusal :=
  .next (if powered s ∧ ovldArmed s c then trip c false true s else s)

/-- R321: a channel's soft turn-off is over: full sink and the Miller clamp, which acts while its rails are up (R48, R316). -/
def softEnd (c : Nat) (s : State) : State :=
  match (chanH s c).soft with
  | some e =>
    if e ≤ s.tick then
      drivePair (c / 2) (setChanH c { chanH s c with soft := none, clamp := clampRail s c } s)
    else s
  | none => s

/-- R321: the soft turn-off of a channel ends. -/
def execSoftTurnoffEnd (c : Fin 48) (s : State) : Host.Outcome State Fault Refusal := .next (softEnd c s)

/-- R322: has `HIC_OFF` elapsed since the pair's last trip? -/
def hiccupDue (s : State) (k : Nat) : Bool :=
  let h := pairH s k
  h.tripOff && ! pairExhausted s k && decide (h.tripAt + 2000 * fld s (pIC (pairTile k)) 0x44 8 8 ≤ s.tick)

def execHiccupRestart (k : Fin 24) (s : State) : Host.Outcome State Fault Refusal :=
  .next (if powered s ∧ hiccupDue s k then awaitResume k s else s)

/-- R324: Firefly's high output for the pair is off after its off condition has ended. -/
def execPairResume (k : Fin 32) (s : State) : Host.Outcome State Fault Refusal :=
  .next (if powered s then drivePair k (pairRelease k s) else s)

/-! ## Multi-leg faults (R325 to R328) -/

/-- R326: the decision for the channels collected: none where one channel of one pair tripped. `fast` is that of R326. -/
def multiLeg (cs : List Nat) (fast : Bool) : Nat :=
  let both := cs.any (fun c => c % 2 == 0 && cs.contains (c + 1))
  let one := cs.all (fun c => c / 2 == (cs.headD 0) / 2)
  let hi := cs.any (fun c => c % 2 == 0)
  let lo := cs.any (fun c => c % 2 == 1)
  if one ∧ ¬ both then 0
  else if ¬ fast then 3
  else if one then 2
  else if both then 3
  else if hi ∧ lo then 3
  else if lo then 1 else 2

/-- R326: is the group's drive fast? -/
def groupFast (s : State) (g : Nat) : Bool :=
  ! rbit s (pIC 0) (0x200 + 4 * g) 4 || trackFast s (fld s (pIC 0) (0x200 + 4 * g) 0 3) (rg s (pIC 0) (0x220 + 4 * g))

/-- R327: a decision: `FG_STAT_g`, `MULTI` on the group's tiles, its legs to class B, SAFE requested. -/
def decide_ (g d : Nat) (cs : List Nat) (s : State) : State :=
  let ks := groupPairs s g
  let mask := (List.range 24).foldl (fun a k => a + b2n (cs.any (fun c => c / 2 == k)) * 2 ^ k) 0
  let s1 := cs.foldl (fun s c => setPairH (c / 2) { pairH s (c / 2) with tripOff := false, resume := false } s) s
  let s2 := setRg (pIC 0) (fgStat g) (d + 16 + mask * 256) s1
  let s3 := forRange 6 (fun t s => flagIf (ks.any (fun k => pairTile k == t)) (pIC t) 1 s) s2
  goSafe (184 + 2 * pairTile ((cs.headD 0) / 2)) (driveGroup g s3)

/-- R325, R326: the collection window of group `g` closes. -/
def windowClose (g : Nat) (s : State) : State :=
  let x := groupH s g
  match x.opened with
  | none => s
  | some o =>
    if s.tick < o + 200 then s
    else
      let d := multiLeg x.trips (groupFast s g)
      if d = 0 then
        let s1 := setGroupH g {} s
        x.trips.foldl (fun s c => singleTrip (c / 2) o s) s1
      else decide_ g d x.trips (setGroupH g { x with opened := none } s)

def execFaultWindowClose (g : Fin 8) (s : State) : Host.Outcome State Fault Refusal :=
  .next (if powered s then windowClose g s else s)

/-- R327, R537: an executed ACK ends every decision. -/
def endDecisions (s : State) : State :=
  forRange 8 (fun g s => if groupDecision s g ≠ 0 then driveGroup g (setGroupH g {} (setRg (pIC 0) (fgStat g) 0 s)) else s) s

/-! ## Supplies of the channels (R314 to R317) -/

/-- The `TSTAT` bit of a channel's rail: HV channels per rail, LV channels one bit for the tile. -/
def uvloBit (c : Nat) (neg : Bool) : Nat := if c < 48 then c % 8 + (if neg then 8 else 0) else 0

/-- R314: the falling and rising thresholds of a rail of channel `c`, in 0.1 V, by the rail setting of its tile (R65); those of the LV
driver rail. -/
def uvloThr (s : State) (c : Nat) (neg : Bool) : Nat × Nat :=
  if 48 ≤ c then (95, 100)
  else
    let x := fld s pSUPPLY 0x4C (4 * (c / 8) + (if neg then 2 else 0)) 2
    if neg then (if x = 0 then (10, 15) else if x = 1 then (25, 30) else (30, 35))
    else if x = 0 then (125, 130) else if x = 1 then (145, 150) else (160, 165)

/-- R314: a rail counts once it has been past its threshold for 1 µs. -/
def uvloTime : Nat := 200

/-- R314, R315: a rail of channel `c` has stood at `v` (0.1 V, its magnitude) for `held` ticks: below its falling threshold for 1 µs it is
an undervoltage, which turns the pair off. -/
def channelUvlo (c : Nat) (neg : Bool) (v held : Nat) (s : State) : State :=
  if v < (uvloThr s c neg).1 ∧ uvloTime ≤ held then
    driveTile (c / 8) (flag (pIC (c / 8)) 2 (setBit (pIC (c / 8)) 0x5C (uvloBit c neg) true s))
  else s

/-- R314, R315, R324: at or above its rising threshold for 1 µs the rail has recovered; pairs with no undervoltage left wait for the
high output. -/
def channelUvloRecover (c : Nat) (neg : Bool) (v held : Nat) (s : State) : State :=
  if (uvloThr s c neg).2 ≤ v ∧ uvloTime ≤ held then
    let t := c / 8
    forRange 4 (fun j s' =>
      let k := 4 * t + j
      if pairUvlo s k ∧ ¬ pairUvlo s' k then drivePair k (setPairH k { pairH s' k with resume := true } s') else s')
      (setBit (pIC t) 0x5C (uvloBit c neg) false s)
  else s

def execChannelUvlo (c : Fin 64) (r : Rail) (s : State) : Host.Outcome State Fault Refusal :=
  .next (if powered s then channelUvlo c r.neg r.v r.held s else s)

def execChannelUvloRecover (c : Fin 64) (r : Rail) (s : State) : Host.Outcome State Fault Refusal :=
  .next (if powered s then channelUvloRecover c r.neg r.v r.held s else s)

/-- R317: the bootstrap voltage of pair 24 + `j` is measured, in 0.1 V: below 8.0 V it cuts the high side, at 9.0 V or above the next
on-interval may conduct. -/
def execBootstrapLow (j : Fin 8) (v : Fin 256) (s : State) : Host.Outcome State Fault Refusal :=
  .next (if powered s then
    (let k := 24 + j.val
     let p := pIC (pairTile k)
     let q := k % 4
     let s1 := setFld p 0x74 (8 * q) 8 v s
     if (v : Nat) < 80 then
       drivePair k (flag p 3 (setBit p 0x5C (8 + q) true (setPairH k { pairH s1 k with bstCut := true, bstNew := false } s1)))
     else if 90 ≤ (v : Nat) then
       setBit p 0x5C (8 + q) false (setPairH k { pairH s1 k with bstNew := (pairH s1 k).bstCut } s1)
     else setPairH k { pairH s1 k with bstNew := false } s1) else s)

/-! ## Gate enables (R309, R310) -/

/-- R310: the enable of a tile is withdrawn at the tile: Scarab's (`bySafety`), or its own, by clearing `GENP`. -/
def execGateEnableWithdrawn (t : Fin 8) (bySafety : Bool) (s : State) : Host.Outcome State Fault Refusal :=
  .next (if powered s then
    (if bySafety then refreshTile t { s with genS := clrN s.genS (2 ^ (t : Nat)) }
     else refreshTile t (setBit (pIC t) 0x08 0 false s)) else s)

/-! ## Measurements (R329 to R331) -/

/-- R329: `IMAIN_c` in 0.1 A; a current beyond the field is a free value (log entry 18). -/
def setImain (c isns : Nat) (s : State) : State :=
  let k := rg s pCAL (0x580 + 4 * c)
  let q := (rneDiv (isns * k) 6553600).toNat
  let o := 0x180 + 4 * (c % 8)
  if q < 2 ^ 16 then setFld (pIC (c / 8)) o 0 16 q s else freeStep (setFld (pIC (c / 8)) o 0 16 (freeNow s) s)

/-- R329: the measurement point of an on-interval is reached; `DEC` intervals pass between two measured ones. -/
def measure (c isns vds : Nat) (s : State) : State :=
  let k := c / 2
  let p := pIC (c / 8)
  let h := pairH s k
  let n := if c % 2 = 0 then h.meas else h.measLo
  let put := fun (x : Nat) (s : State) =>
    setPairH k (if c % 2 = 0 then { pairH s k with meas := x } else { pairH s k with measLo := x }) s
  if n < fld s p 0x48 16 8 then put (n + 1) s
  else
    let o := 0x10C + 16 * (c % 8)
    let i := satN 1023 isns
    let seq := (fld s p o 20 8 + 1) % 256
    ledMeasure c (setImain c i (setRg p o (i + 2 ^ 10 * satN 1023 vds + 2 ^ 20 * seq) (put 0 s)))

/-- R329: an on-interval is measured once, at its measurement point. -/
def measureDue (s : State) (c : Nat) : Bool :=
  let x := chanH s c
  x.on && ! x.taken && decide (x.onAt + 5 * fld s (pIC (c / 8)) 0x48 0 10 ≤ s.tick)

def execChannelMeasurement (c : Fin 48) (isns : Nat) (vds : Nat) (s : State) : Host.Outcome State Fault Refusal :=
  .next (if powered s ∧ measureDue s c then measure c isns vds (setChanH c { chanH s c with taken := true } s) else s)

/-- R330: the tile and temperature register of NTC pair `n`. -/
def ntcTile (n : Nat) : Nat := if n < 12 then n / 2 else n - 6
def ntcReg (n : Nat) : Nat := if n < 12 ∧ n % 2 = 1 then 0x58 else 0x54

/-- R331: a temperature level, reached at `lim`, which clears 5.0 °C below. -/
def tempLevel (was : Bool) (t lim : Int) : Bool := decide (lim ≤ t) || (was && decide (lim - 5 * 256 ≤ t))

/-- The first `k` binary digits of the logarithm to base 2 of `x` / 2^60 (at least 1, below 2): the sum so far, doubled with each. -/
def log2Digits : Nat → Nat → Nat → Nat
  | 0, _, acc => acc
  | k + 1, x, acc =>
    let y := x * x / 2 ^ 60
    if 2 ^ 61 ≤ y then log2Digits k (y / 2) (2 * acc + 1) else log2Digits k y (2 * acc)

/-- The logarithm to base 2 of a positive number `n`, in units of 2^-40. -/
def log2Q (n : Nat) : Int :=
  let e := n.log2
  (e : Int) * 2 ^ 40 + log2Digits 40 (n * 2 ^ 60 / 2 ^ e) 0

/-- R330: the temperature of an NTC of resistance `r` (mΩ), in 1/256 °C, by R = R26 × exp(B × (1/T − 1/298.15 K)), that is
T = 298.15 × B / (B + 298.15 × ln(R / R26)). `r26` in 10 Ω units. With R26 or B 0 the law gives none. Rounding and accuracy: log
entry 112. -/
def ntcLaw (r26 b r : Nat) : Option Int :=
  if r26 = 0 ∨ b = 0 ∨ r = 0 then none
  else
    -- ln 2 in units of 2^-40; the logarithm in units of 2^-40; B + 298.15 × ln(R / R26) in units of 2^-40 / 100
    let ln : Int := (log2Q r - log2Q (r26 * 10000)) * 762123384786 / 2 ^ 40
    let den : Int := (b : Int) * 100 * 2 ^ 40 + 29815 * ln
    if den ≤ 0 then some 0x8000
    else some (rneDiv (29815 * b * 256 * 2 ^ 40 - 273 * 256 * den - 15 * 256 * den / 100) den.toNat)

/-- R330, R331: the temperature `x` of NTC pair `n` enters its register and meets its limits. -/
def ntcStore (n : Nat) (x : Int) (s : State) : State :=
  let p := pIC (ntcTile n)
  let v := clampI (-32768) 32767 x
  let s1 := setBit p 0x5C (16 + (if n < 12 then n % 2 else 0)) false (setFld p (ntcReg n) 0 16 (uns 16 v) s)
  let warn := tempLevel (bit s.ntcWarn n) v (sgn 16 (fld s p 0x50 0 16))
  let shut := tempLevel (bit s.ntcShut n) v (sgn 16 (fld s p 0x50 16 16))
  let s2 := flagIf shut p 5 (flagIf warn p 4 s1)
  ledTemp n v { s2 with ntcWarn := putBits s2.ntcWarn n 1 (b2n warn), ntcShut := putBits s2.ntcShut n 1 (b2n shut) }

/-- R330: a conversion of NTC pair `n`: its resistance in mΩ, or none for an open or shorted NTC. A resistance for which the law gives no
temperature is a free value (log entry 112). -/
def ntcConvert (n : Nat) (ohms : Option Nat) (s : State) : State :=
  let p := pIC (ntcTile n)
  match ohms with
  | none => flag p 6 (setBit p 0x5C (16 + (if n < 12 then n % 2 else 0)) true s)
  | some r =>
    match ntcLaw (fld s p 0x4C 0 16) (fld s p 0x4C 16 16) r with
    | some x => ntcStore n x s
    | none => freeStep (ntcStore n (sgn 16 (freeNow s % 2 ^ 16)) s)

def execNtcConversion (n : Fin 14) (ohms : Option Nat) (s : State) : Host.Outcome State Fault Refusal :=
  .next (if powered s then ntcConvert n ohms s else s)

/-! ## What a tick brings to the channels by itself -/

/-- R313, R316, R321, R322, R324: the end of the present tick for a pair: soft turn-offs and hiccups that are over, a release that is
due, channels that waited for the gap, and the Miller clamps. -/
def pairTick (k : Nat) (s : State) : State :=
  let s1 := if k < 24 then softEnd (2 * k + 1) (softEnd (2 * k) s) else s
  let s2 := if k < 24 ∧ hiccupDue s1 k then awaitResume k s1 else s1
  drivePair k (pairRelease k s2)

/-- R325: the end of the present tick for Ironclad: collection windows that close, then every pair. -/
def ironTick (s : State) : State := forRange 32 pairTick (forRange 8 windowClose s)

/-! ## Writes of the `IC` pages -/

/-- Is `GEN_STAT.BOTH` 1 on some HV tile (R340)? -/
def anyHvBoth (s : State) : Bool := (List.range 6).any (genBoth s)

/-- R309, R319, R322, R329, R337, R340: the checks of a write to `IC.t`. -/
def icChk (acc : Access) (s : State) (t o v : Nat) (_old new : Nat) : Option Reason :=
  let both := genBoth s t
  if o = 0x08 then
    (if cmdBit v 0 then
      firstReason [(! rbit s pSUPPLY 0x50 t, .resource), (acc.master != .stagA, .conflict), (! genSOf s t, .safety)]
     else none)
  else if 6 ≤ t then none
  else if o = 0x44 then firstReason [(bits new 8 8 == 0 || bits new 16 16 == 0, .value), (both, .state)]
  else if o = 0x48 then firstReason [(decide (bits new 0 10 < 8) || decide (512 < bits new 0 10), .value)]
  else if o = 0x68 then
    firstReason [((List.range 4).any (fun j => decide (8 ≤ bits new (4 * j) 4 ∧ bits new (4 * j) 4 < 15)), .value), (both, .state)]
  else if 0x100 ≤ o ∧ o < 0x180 then
    (if o % 16 = 0 then
      firstReason [(decide (bits new 0 9 < 32) || decide (256 < bits new 0 9) || decide (bits new 16 8 < 13) ||
        decide (192 < bits new 16 8), .value), (both, .state)]
     else if o % 16 = 4 then
      firstReason [(decide (bits new 0 7 < 4) || decide (80 < bits new 0 7) || decide (bits new 8 5 < 3) ||
        decide (30 < bits new 8 5), .value), (both, .state)]
     else none)
  else if t = 0 ∧ 0x200 ≤ o ∧ o < 0x240 then firstReason [(anyHvBoth s, .state)]
  else none

/-- R320: the OVLD code of channel `c` after a 1 ms computation, shown with `CLIP` in `OVLD_A_c`. The code in force changes at the
channel's next turn-on. -/
def ovldCode (c : Nat) (s : State) : State :=
  let p := pIC (c / 8)
  let po := 0x100 + 16 * (c % 8)
  let k := rg s pCAL (0x580 + 4 * c)
  let raw := rneDiv (64000 * 256 * (fld s p (po + 8) 0 16 : Nat)) k
  let code := clampI 13 192 raw
  let track : Bool := rbit s p po 25 && k != 0
  setBit p (po + 8) 31 (track && decide (code ≠ raw))
    (setChanH c { chanH s c with code := some (if track then code.toNat else fld s p po 16 8) } s)

/-- R320: a write of `PROT_c` at offset `o`: tracking that begins keeps the code in force until the next computation. -/
def protEff (p o was : Nat) (s : State) : State :=
  if rbit s p o 25 ∧ ¬ bit was 25 then setFld p (o + 8) 16 8 (bits was 16 8) s else s

/-- The effects of a write to `IC.t`; `was` is what the register held. -/
def icEff (t o was : Nat) (s : State) : State :=
  if o = 0x08 then refreshTile t s
  else if 0x100 ≤ o ∧ o < 0x180 ∧ t < 6 ∧ o % 16 = 0 then protEff (pIC t) o was s
  else s

/-- A write to a register of `IC.t`. -/
def icWrite (acc : Access) (t o v : Nat) (s : State) : State :=
  busStore acc (pIC t) o v (icChk acc s t o v) (icEff t o (rg s (pIC t) o)) s

/-- R309: a write that sets `IC.t:PAGE_CTRL.GENP`. -/
def execGenpSet (acc : Access) (t : Fin 8) (s : State) : Host.Outcome State Fault Refusal :=
  .next (onBus acc (pIC t) 0x08 (icWrite acc t 0x08 0x00010001) s)

/-! ## Brake chopper (R332 to R336) -/

/-- `BRK_STAT` bits: output on, and forced off by its energy limit. -/
def brkOn (s : State) (n : Nat) : Bool := rbit s pBRAKE 0x70 n
def brkLim (s : State) (n : Nat) : Bool := rbit s pBRAKE 0x70 (4 + n)

/-- R332, R57: may output `n` be driven at all? -/
def brkGate (s : State) (n : Nat) : Bool := rbit s pBRAKE 0x08 n && genSOf s 8 && decide (band s ≠ 3)

/-- R332, R335: what the comparators ask of output `n`. -/
def brkWant (s : State) (n : Nat) : Bool := (if n = 0 then s.brake.above0 else s.brake.above1) || rbit s pBRAKE 0x70 2

/-- R336: did output `n` reach its energy limit in the present tick? -/
def brkLimNow (s : State) (n : Nat) : Bool := brkLim s n && nth s.brake.limAt n none == some s.tick

/-- R332 to R336: bring output `n` to what its comparator, gate and limit give, under `MINON` and `MINOFF`; `ACT` is set
at each turn-on, one that falls due at the end of `MINOFF` in the tick in which the energy limit is reached included: that output
stays off. -/
def brkDrive (n : Nat) (s : State) : State :=
  let b := s.brake
  let on := brkOn s n
  let forcedOff := ! brkGate s n || brkLim s n
  if on ∧ (forcedOff ∨ (¬ brkWant s n ∧ nth b.onAt n 0 + 20 * fld s pBRAKE 0x50 0 8 ≤ s.tick)) then
    setBit pBRAKE 0x70 n false { s with brake := { b with offAt := b.offAt.set n s.tick } }
  else if ¬ on ∧ ¬ forcedOff ∧ brkWant s n ∧ nth b.offAt n 0 + 20 * fld s pBRAKE 0x50 8 8 ≤ s.tick then
    flag pBRAKE 0 (setBit pBRAKE 0x70 n true { s with brake := { b with onAt := b.onAt.set n s.tick } })
  else
    flagIf (! on && brkWant s n && brkGate s n && brkLimNow s n && decide (nth b.offAt n 0 + 20 * fld s pBRAKE 0x50 8 8 = s.tick)) pBRAKE 0 s

/-- R336: the comparator switches an output on in the tick in which its energy limit has forced it off. -/
def brkMeet (n : Nat) (was : Bool) (s : State) : State :=
  flagIf (! was && brkWant s n && ! brkOn s n && brkGate s n && brkLimNow s n &&
    decide (nth s.brake.offAt n 0 + 20 * fld s pBRAKE 0x50 8 8 ≤ s.tick)) pBRAKE 0 s

/-- Both outputs. -/
def brakeDrive (s : State) : State := brkDrive 1 (brkDrive 0 s)

/-- R332: the end of a tick: outputs that waited for `MINON` or `MINOFF`, and the ticks each output was on. -/
def brakeTick (s : State) : State :=
  let s1 := { s with brake := { s.brake with h0 := satN 200 (s.brake.h0 + b2n (brkOn s 0)), h1 := satN 200 (s.brake.h1 + b2n (brkOn s 1)) } }
  brakeDrive s1

/-- R332: the link rises to `ON` of output `n`. -/
def execBrakeOnCrossing (n : Fin 2) (s : State) : Host.Outcome State Fault Refusal :=
  .next (if powered s then
    brkMeet n (brkWant s n)
      (brkDrive n { s with brake := if (n : Nat) = 0 then { s.brake with above0 := true } else { s.brake with above1 := true } }) else s)

/-- R332: the link falls to `OFF` of output `n`. -/
def execBrakeOffCrossing (n : Fin 2) (s : State) : Host.Outcome State Fault Refusal :=
  .next (if powered s then
    brkDrive n { s with brake := if (n : Nat) = 0 then { s.brake with above0 := false } else { s.brake with above1 := false } } else s)

/-- R195: the full scale of the HVS inputs in volts. -/
def hvsFs (v : Variant) : Nat := match v with | .h17 => 2000 | .h12 | .h12d => 1600

/-- R334: the estimate of one resistor after a microsecond of which the output was on for `h` ticks. -/
def brkEnergy (e v fs res tsh h : Nat) : Nat :=
  let e1 := e + (rneDiv (v * v * fs * fs * 1000 * h : Nat) (2 ^ 30 * res * 200)).toNat
  satN (2 ^ 40 - 1) (e1 - e1 / 2 ^ tsh)

/-- R334: one output's update: estimate, limit with its event on the rise, and release below three quarters. -/
def brkUpdate (n : Nat) (s : State) : State :=
  let b := s.brake
  let raw := (sgn 16 (fld s pHVS 0x60 0 16)).natAbs
  let e := brkEnergy (if n = 0 then b.e0 else b.e1) raw (hvsFs s.variant) (fld s pBRAKE (0x54 + 4 * n) 0 16) (fld s pBRAKE 0x5C 0 5)
    (if n = 0 then b.h0 else b.h1)
  let s1 := setRg pBRAKE (0x74 + 4 * n) (e / 1000)
    { s with brake := if n = 0 then { b with e0 := e, h0 := 0 } else { b with e1 := e, h1 := 0 } }
  let lim := fld s pBRAKE (0x60 + 4 * n) 0 16 * 1000000
  if lim ≤ e then
    (if brkLim s n then s1
     else flag pBRAKE 1 (setBit pBRAKE 0x70 (4 + n) true { s1 with brake := { s1.brake with limAt := b.limAt.set n (some s.tick) } }))
  else if 4 * e < 3 * lim then setBit pBRAKE 0x70 (4 + n) false s1
  else s1

/-- R334: the update of every microsecond. `BRK_STAT` bit 3 ends with a link result at or above `UV`. -/
def execBrakeEnergyUpdate (s : State) : Host.Outcome State Fault Refusal :=
  .next (if powered s then
    (let s1 := brkUpdate 1 (brkUpdate 0 s)
     let s2 := if fld s pBRAKE 0x4C 0 16 ≤ (sgn 16 (fld s pHVS 0x60 0 16)).toNat then setBit pBRAKE 0x70 3 false s1 else s1
     brakeDrive s2) else s)

/-- R335: the comparator reaches `OV_TRIP`. -/
def dcLinkOv (s : State) : State :=
  let b := s.brake
  let win := fld s pBRAKE 0x6C 16 16 * msT
  let old := b.ovTrips.filter (fun x => s.tick ≤ x + win)
  let latch := fld s pBRAKE 0x6C 0 4 ≤ old.length
  let s1 := { s with brake := { b with ovTrips := s.tick :: old, ovLatched := b.ovLatched || latch } }
  let s2 := flag pBRAKE 2 (setBit pBRAKE 0x70 2 true (incSat pBRAKE 0x70 8 8 1 s1))
  let s3 := refreshLegs (brakeDrive s2)
  if latch then goLatched 202 s3 else s3

def execDcLinkOvTrip (s : State) : Host.Outcome State Fault Refusal :=
  .next (if powered s ∧ ¬ rbit s pBRAKE 0x70 2 then dcLinkOv s else s)

/-- R335: the link falls below `OV_REL`; a latched reaction holds. -/
def execDcLinkOvRelease (s : State) : Host.Outcome State Fault Refusal :=
  .next (if powered s ∧ ¬ s.brake.ovLatched then refreshLegs (brakeDrive (setBit pBRAKE 0x70 2 false s)) else s)

/-- R335: the link falls below `UV`. -/
def execDcLinkUv (s : State) : Host.Outcome State Fault Refusal :=
  .next (if powered s then flag pBRAKE 3 (setBit pBRAKE 0x70 3 true s) else s)

/-- R333, R337: the checks of a write to `BRAKE`: the relations that the written register would leave. -/
def brakeChk (acc : Access) (s : State) (o v : Nat) (_old new : Nat) : Option Reason :=
  let at_ := fun q => if q = o then new else rg s pBRAKE q
  let ok := fun n => let w := at_ (0x40 + 4 * n); decide (bits w 16 16 < bits w 0 16) && decide (bits w 0 16 < bits (at_ 0x48) 0 16)
  let en := rbit s pBRAKE 0x08 0 || rbit s pBRAKE 0x08 1
  let t := bits new 0 8
  let u := bits new 8 8
  if o = 0x08 then
    (if cmdBit v 0 ∨ cmdBit v 1 then firstReason [(acc.master != .stagA, .conflict), (! genSOf s 8, .safety)] else none)
  else if o = 0x40 ∨ o = 0x44 then firstReason [(! ok ((o - 0x40) / 4), .value), (en, .state)]
  else if o = 0x48 then firstReason [(! ok 0 || ! ok 1 || decide (bits new 0 16 ≤ bits new 16 16), .value), (en, .state)]
  else if o = 0x4C then firstReason [(en, .state)]
  else if o = 0x50 then firstReason [(decide (t < 5 ∨ 100 < t ∨ u < 5 ∨ 100 < u), .value), (en, .state)]
  else if o = 0x54 ∨ o = 0x58 ∨ o = 0x60 ∨ o = 0x64 then firstReason [(new == 0, .value)]
  else if o = 0x5C then firstReason [(decide (new < 10 ∨ 26 < new), .value)]
  else if o = 0x6C then firstReason [(bits new 0 4 == 0, .value)]
  else none

/-- The effects of a write to `BRAKE`. -/
def brakeEff (o : Nat) (s : State) : State := if o = 0x08 then brakeDrive s else if o = 0x68 then refreshLegs s else s

/-- A write to a register of `BRAKE`. -/
def brakeWrite (acc : Access) (o v : Nat) (s : State) : State := busStore acc pBRAKE o v (brakeChk acc s o v) (brakeEff o) s

/-- R332: a write that sets or clears `EN_n`. -/
def execBrakeEnable (acc : Access) (n : Fin 2) (on : Bool) (s : State) : Host.Outcome State Fault Refusal :=
  .next (onBus acc pBRAKE 0x08 (brakeWrite acc 0x08 (2 ^ (n : Nat) * (2 ^ 16 + b2n on))) s)

end Sys2Proof.Machine
end

