-- ==== Sys2Proof/Machine/Trig.lean ====
section
/-! DEFINITION. The sine table of R251 and its interpolation, used by Mantis `SCS`, Cicada's mains correction (R168) and the
actuator drive units. -/
namespace Sys2Proof.Machine

/-- Entries 0 to 63 of sin(2π × index / 1024) in Q1.17. -/
def sineQuarter0 : List Nat :=
  [
    0, 804, 1608, 2413, 3217, 4021, 4824, 5628, 6431, 7235, 8037, 8840, 9642, 10444, 11246, 12047,
    12847, 13647, 14447, 15246, 16045, 16843, 17640, 18436, 19232, 20027, 20822, 21615, 22408, 23200, 23991, 24782,
    25571, 26359, 27147, 27933, 28718, 29502, 30285, 31067, 31848, 32627, 33406, 34183, 34959, 35733, 36506, 37278,
    38048, 38817, 39585, 40350, 41115, 41878, 42639, 43399, 44157, 44913, 45668, 46421, 47172, 47922, 48669, 49415 ]

/-- Entries 64 to 127 of sin(2π × index / 1024) in Q1.17. -/
def sineQuarter1 : List Nat :=
  [
    50159, 50901, 51641, 52380, 53116, 53850, 54582, 55312, 56041, 56766, 57490, 58212, 58931, 59649, 60364, 61076,
    61787, 62495, 63201, 63904, 64605, 65304, 66000, 66693, 67384, 68073, 68759, 69442, 70123, 70801, 71477, 72150,
    72820, 73487, 74152, 74813, 75472, 76128, 76782, 77432, 78079, 78724, 79366, 80004, 80640, 81272, 81902, 82528,
    83151, 83771, 84388, 85002, 85613, 86220, 86824, 87425, 88023, 88617, 89208, 89795, 90379, 90960, 91538, 92111 ]

/-- Entries 128 to 191 of sin(2π × index / 1024) in Q1.17. -/
def sineQuarter2 : List Nat :=
  [
    92682, 93249, 93812, 94372, 94929, 95481, 96030, 96576, 97118, 97656, 98191, 98722, 99249, 99772, 100292, 100808,
    101320, 101828, 102333, 102833, 103330, 103823, 104312, 104797, 105278, 105755, 106228, 106697, 107162, 107624, 108081, 108534,
    108982, 109427, 109868, 110304, 110737, 111165, 111589, 112009, 112424, 112836, 113243, 113645, 114044, 114438, 114828, 115214,
    115595, 115972, 116345, 116713, 117077, 117436, 117791, 118142, 118488, 118829, 119166, 119499, 119827, 120151, 120470, 120785 ]

/-- Entries 192 to 255 of sin(2π × index / 1024) in Q1.17. -/
def sineQuarter3 : List Nat :=
  [
    121095, 121400, 121701, 121997, 122289, 122576, 122859, 123137, 123410, 123679, 123943, 124202, 124457, 124706, 124952, 125192,
    125428, 125659, 125886, 126107, 126324, 126536, 126744, 126946, 127144, 127337, 127525, 127709, 127887, 128061, 128230, 128394,
    128553, 128708, 128858, 129002, 129142, 129277, 129408, 129533, 129653, 129769, 129880, 129985, 130086, 130182, 130273, 130360,
    130441, 130517, 130589, 130655, 130717, 130774, 130825, 130872, 130914, 130951, 130983, 131010, 131033, 131050, 131062, 131070 ]

/-- Entries 256 to 256 of sin(2π × index / 1024) in Q1.17. -/
def sineQuarter4 : List Nat :=
  [
    131072 ]

/-- The first quarter of the sine table, entries 0 to 256. -/
def sineQuarter : List Nat := sineQuarter0 ++ sineQuarter1 ++ sineQuarter2 ++ sineQuarter3 ++ sineQuarter4

/-- R251: entry `i` of the 1024-entry sine table, in Q1.17. -/
def sineEntry (i : Nat) : Int :=
  let j := i % 1024
  if j ≤ 256 then sineQuarter.getD j 0
  else if j ≤ 512 then sineQuarter.getD (512 - j) 0
  else if j ≤ 768 then -(sineQuarter.getD (j - 512) 0 : Int)
  else -(sineQuarter.getD (1024 - j) 0 : Int)

/-- R251: the sine of the U32 angle `phi` in Q1.15: exact interpolation, RNE, limited to ±32 767. -/
def sinQ15 (phi : Nat) : Int :=
  let i := phi / 2 ^ 22 % 1024
  let f : Int := (phi % 2 ^ 22 : Nat)
  let a := sineEntry i
  let v := a * 2 ^ 22 + (sineEntry (i + 1) - a) * f
  clampI (-32767) 32767 (rshift .rne v 24)

/-- R251: the cosine reads the table a quarter turn on. -/
def cosQ15 (phi : Nat) : Int := sinQ15 (phi + 2 ^ 30)

end Sys2Proof.Machine
end

