-- ==== Sys2Proof/Machine/Cicada.lean ====
section
/-! DEFINITION. Cicada (R165 to R185, R556): tracks and their corrections, event slots, the lock lattice of angle-locked
carriers, epoch transfers, and the writes of the `AT` and `SLOTS` pages. -/
namespace Sys2Proof.Machine

/-! ## Angles of the present tick -/

/-- R176: ΔA = A(t) − A(t − 1) of track `n`. -/
def deltaA (s : State) (n : Nat) : Int := angDiff (angleNow s n) (angleAt s n 1)

/-- R166: `SRC.INST` and `SRC.SUB`. -/
def trackInst (s : State) (n : Nat) : Nat := fld s (pAT n) 0x40 4 3
def trackSub (s : State) (n : Nat) : Nat := fld s (pAT n) 0x40 8 4

/-- R174: the active `VSET`, S32.16 raw. -/
def vset (s : State) (n : Nat) : Int := sgn 48 (act s (pAT n) 0x108 + 2 ^ 32 * bits (act s (pAT n) 0x10C) 0 16)

/-- Store ω and show its sign in `TSTAT.DIR`. -/
def setOmega (n : Nat) (w : Int) (s : State) : State :=
  setBit (pAT n) 0x214 0 (w < 0) (setTrk n { trk s n with omega := w } s)

/-! ## Lattices (R175, R176, R178) -/

/-- R175: the gap from point `k` to the next. -/
def gap (pts step k : Nat) : Nat := if k + 1 < pts then step else 2 ^ 32 - (pts - 1) * step

/-- The angle of point `k` of a lattice. -/
def pointAngle (base step k : Nat) : Nat := (base + k * step) % 2 ^ 32

/-- R178: the point with the smallest forward distance to angle `a`, and that distance. -/
def nearest (pts base step a : Nat) : Nat × Nat :=
  let dist := fun k => (a + 2 ^ 32 - pointAngle base step k) % 2 ^ 32
  (List.range pts).foldl (fun best k => if dist k < best.2 then (k, dist k) else best) (0, dist 0)

/-- R178: a re-seat that starts in the present tick: it ends `PTS` ticks later; the residual is stored as at the end of the
previous tick, so that the ticks of the scan add their ΔA. -/
def seat (s : State) (n pts base step : Nat) (l : Lattice) : Lattice :=
  let b := nearest pts base step (angleNow s n)
  { l with k := b.1, r := b.2 - deltaA s n, scan := some (s.tick + pts) }

/-- R176: what a lattice does in a tick: nothing, a forward or a reverse event, with its overshoot, and the follower after
it. `r'` is the residual with the ΔA of the tick. -/
inductive LatEvent where
  | none
  | forward (o : Int) (l : Lattice)
  | reverse (o : Int) (l : Lattice)
  deriving DecidableEq, Repr

def latEvent (pts step : Nat) (hf hr d : Int) (l : Lattice) : LatEvent :=
  let r' := l.r + d
  let g : Int := gap pts step l.k
  if g + hf ≤ r' then .forward (r' - g - hf) { l with k := (l.k + 1) % pts, r := l.r - g }
  else if r' < -hr then
    let k := (l.k + pts - 1) % pts
    .reverse (-hr - 1 - r') { l with k := k, r := l.r + gap pts step k }
  else .none

/-- R177: was the residual out of its bounds before the present tick, so that an event now catches up? -/
def catchUp (pts step : Nat) (hf hr : Int) (l : Lattice) : Bool := decide ((gap pts step l.k : Int) + hf ≤ l.r) || decide (l.r < -hr)

/-! ## Slots -/

def slotH (s : State) (i : Nat) : SlotHid := nth s.slots i {}
def setSlotH (i : Nat) (x : SlotHid) (s : State) : State := { s with slots := s.slots.set i x }

/-- The page of slot `i` and the offset of its register `d`. -/
def slotPage (i : Nat) : Nat := pSLOTS (i / 32)
def slotReg (i d : Nat) : Nat := 0x100 + 0x20 * (i % 32) + d

/-- A field of a slot's active register (R185). -/
def slotAct (s : State) (i d lo w : Nat) : Nat := actFld s (slotPage i) (slotReg i d) lo w

def slotEn (s : State) (i : Nat) : Bool := slotAct s i 0 0 1 == 1
def slotTrk (s : State) (i : Nat) : Nat := slotAct s i 0 4 3
def slotPts (s : State) (i : Nat) : Nat := slotAct s i 0 16 9
def slotStep (s : State) (i : Nat) : Nat := act s (slotPage i) (slotReg i 8)

/-- R176: the hysteresis bounds h_f and h_r. -/
def slotHyst (s : State) (i : Nat) : Int × Int :=
  let h : Int := slotAct s i 0xC 0 16 * 2 ^ 16
  match slotAct s i 0 8 2 with
  | 0 => (0, h)
  | 1 => (h, 0)
  | _ => (h, h)

/-- `SLOT_POS.ARMED` and `SLOT_POS.SEAT`. -/
def slotArmed (s : State) (i : Nat) : Bool := rbit s (slotPage i) (slotReg i 0x14) 8
def slotSeat (s : State) (i : Nat) : Bool := rbit s (slotPage i) (slotReg i 0x14) 9

/-- R178: a slot is re-seated in the present tick; one with `MODE` = 1 is armed at once. -/
def reseatSlot (i : Nat) (s : State) : State :=
  let p := slotPage i
  let h := slotH s i
  if ¬ slotEn s i then setBit p (slotReg i 0x14) 9 false (setSlotH i { h with lat := { h.lat with scan := none } } s)
  else if slotAct s i 0 2 1 = 1 then
    setFld p (slotReg i 0x14) 8 2 1 (setSlotH i { h with lat := { h.lat with scan := none } } s)
  else
    let l := seat s (slotTrk s i) (slotPts s i) (act s p (slotReg i 4)) (slotStep s i) h.lat
    setFld p (slotReg i 0x14) 8 2 2 (setSlotH i { h with lat := l } s)

/-- R178: the scan of a slot ends after `PTS` ticks. -/
def reseatDone (i : Nat) (s : State) : State :=
  let h := slotH s i
  match h.lat.scan with
  | none => s
  | some e =>
    if s.tick < e then s
    else
      let p := slotPage i
      flag p 2 (setRg p (slotReg i 0x14) (h.lat.k % 256 + 256) (setSlotH i { h with lat := { h.lat with scan := none } } s))

/-- R177, R179: what a slot counts when it fires or misses in the present tick. -/
def slotFires (i : Nat) (s : State) : State :=
  let p := slotPage i
  let s1 := incWrap p (slotReg i 0x18) 0 16 1 (setSlotH i { slotH s i with fired := true } s)
  if slotAct s i 0 1 1 = 1 then setBit p (slotReg i 0x14) 8 false s1 else s1

/-- R176, R177: an event of a slot. -/
def slotEvent (i : Nat) (fwd : Bool) (o : Int) (l : Lattice) (catching : Bool) (s : State) : State :=
  let p := slotPage i
  let s1 := setFld p (slotReg i 0x14) 0 8 l.k (setSlotH i { slotH s i with lat := { l with evAt := some s.tick } } s)
  let s2 := if catching then flag p 1 (incSat p (slotReg i 0x18) 24 8 1 s1) else s1
  let win := slotAct s i 0xC 16 16
  let dir := slotAct s i 0 8 2
  if win ≠ 0 ∧ ((win * 2 ^ 16 : Nat) : Int) < o then flag p 0 (incSat p (slotReg i 0x18) 16 8 1 s2)
  else if (fwd ∧ dir = 1) ∨ (¬ fwd ∧ dir = 0) then s2
  else slotFires i s2

/-- R176 to R179: the evaluation of slot `i` in the present tick; at most one event a tick. -/
def slotEval (i : Nat) (s : State) : State :=
  let h := slotH s i
  let n := slotTrk s i
  if ¬ slotEn s i ∨ ¬ slotArmed s i ∨ slotSeat s i ∨ h.lat.evAt = some s.tick then s
  else if slotAct s i 0 2 1 = 1 then
    (if (trk s n).changed then slotFires i (setSlotH i { h with lat := { h.lat with evAt := some s.tick } } s) else s)
  else if ¬ trackGood s n then s
  else
    let b := slotHyst s i
    let c := catchUp (slotPts s i) (slotStep s i) b.1 b.2 h.lat
    match latEvent (slotPts s i) (slotStep s i) b.1 b.2 (deltaA s n) h.lat with
    | .none => s
    | .forward o l => slotEvent i true o l c s
    | .reverse o l => slotEvent i false o l c s

/-! ## The lock (R181, R182, R556) -/

def lockPts (s : State) (n : Nat) : Nat := actFld s (pAT n) 0x114 0 9
def lockStep (s : State) (n : Nat) : Nat := act s (pAT n) 0x110
def lockMap (s : State) (n : Nat) : Nat := actFld s (pAT n) 0x5C 0 16

/-- `TSTAT.LOCKED`. -/
def lockOn (s : State) (n : Nat) : Bool := rbit s (pAT n) 0x214 1

/-- R556: the lock lattice of track `n` is re-seated. -/
def reseatLock (n : Nat) (s : State) : State :=
  if lockMap s n = 0 then s
  else setTrk n { trk s n with lat := seat s n (lockPts s n) (act s (pAT n) 0x118) (lockStep s n) (trk s n).lat } s

/-- R182, R284: the carriers of a set of bits leave their lock. -/
def releaseCarriers (map : Nat) (s : State) : State := forRange 16 (fun c s => if bit map c then releaseLock c s else s) s

/-- R181: the conditions of the lock on the track's state and velocity. -/
def lockCond (s : State) (n : Nat) : Bool := trackGood s n && decide (rg s (pAT n) 0x60 ≤ speedOf s n)

/-- R181: does the lock stand at the present velocity and state? -/
def lockStands (s : State) (n : Nat) : Bool :=
  let m := rg s (pAT n) 0x60
  trackGood s n && decide (m - m / 16 ≤ speedOf s n)

/-- R181: after a change of ω or of the state: the count of two restarts while the conditions do not hold, and
an active lock is released. -/
def lockCheck (n : Nat) (s : State) : State :=
  let s1 := if lockCond s n then s else setTrk n { trk s n with lCount := 0 } s
  if lockOn s1 n ∧ ¬ lockStands s1 n then
    releaseCarriers (lockMap s1 n) (setBit (pAT n) 0x214 1 false
      (setTrk n { trk s1 n with lCount := 0, lGoes := false, lOut := none } s1))
  else s1

/-- R182, R556: D1 and D2 at a lock event. A D1 beyond the field's 24 bits is a free value (log entry 19). -/
def recordD (n : Nat) (s : State) : State :=
  let p := pAT n
  let d := s.tick - (trk s n).lAt
  let s1 := setFld p 0x224 0 24 (fld s p 0x220 0 24) s
  if d < 2 ^ 24 then setFld p 0x220 0 24 d s1 else freeStep (setFld p 0x220 0 24 (freeNow s1) s1)

/-- R182: the period delivered, in ticks, and whether the clamp acted. -/
def lockPeriod (d1 d2 : Nat) : Nat × Bool :=
  let p : Int := 2 * (d1 : Int) - (d2 : Int)
  let q := clampI 64 (2 ^ 24 - 1) p
  (q.toNat, decide (q ≠ p))

/-- R181, R182, R556: a lock event in direction `dir` (1 or −1). -/
def lockEvent (n : Nat) (dir : Int) (l : Lattice) (s : State) : State :=
  let p := pAT n
  let s1 := recordD n s
  let t := trk s1 n
  let s2 := setTrk n { t with lat := { l with evAt := some s.tick }, lAt := s.tick } s1
  let t2 := trk s2 n
  if lockOn s2 n then
    if t2.lGoes ∨ dir = t2.lDir then
      let q := lockPeriod (fld s2 p 0x220 0 24) (fld s2 p 0x224 0 24)
      flagIf q.2 p 2 (setTrk n { t2 with lGoes := true, lOut := some q.1 } s2)
    else s2
  else if ¬ lockCond s2 n then s2
  else
    let c := if dir = t2.lDir then t2.lCount + 1 else 1
    let s3 := setTrk n { t2 with lDir := dir, lCount := c, lGoes := false } s2
    if 2 ≤ c then setBit p 0x214 1 true s3 else s3

/-- R182: in the tick after a delivering lock event every mapped carrier takes the period and a resync. -/
def lockDeliver (n : Nat) (s : State) : State :=
  match (trk s n).lOut with
  | none => s
  | some q =>
    forRange 16 (fun c s => if bit (lockMap s n) c then resync c (deliverPeriod c (q * 64) s) else s)
      (setTrk n { trk s n with lOut := none } s)

/-! ## Track states (R171, R172) -/

/-- R178, R556: every slot of a track, and its lock lattice, are re-seated. -/
def reseatAll (n : Nat) (s : State) : State :=
  reseatLock n (forRange 64 (fun i s => if slotEn s i ∧ slotTrk s i = n then reseatSlot i s else s) s)

/-- Does a track's position advance in the state? -/
def advances (st : Nat) : Bool := st == trACQUIRE || st == trVALID || st == trCOAST

/-- R165, R171: a transition of track `n` in the present tick. The position keeps the advance that step 1 of R165 gave it in
this tick; ω is 0 in DISABLED and INVALID. -/
def trackGo (n st cause : Nat) (s : State) : State :=
  let p := pAT n
  let was := trackState s n
  let theta := if advances st then (trk s n).theta else nextTheta s n
  let s1 := flag p 0 (setBlockState p st (setTrk n { trk s n with theta := theta, changed := true } s))
  let s2 := if advances st then s1 else setOmega n 0 s1
  let t := trk s2 n
  let s3 :=
    if st = trACQUIRE then setTrk n { t with first := true, good := 0, bad := 0 } s2
    else if st = trVALID then setFld p 0x214 4 4 0 (setTrk n { t with bad := 0, good := 0, corrAt := s.tick } s2)
    else if st = trCOAST then
      incSat p 0x218 24 8 1 (setFld p 0x214 4 4 cause (setTrk n { t with good := 0, coastAt := s.tick } s2))
    else if st = trDISABLED then setFld p 0x214 4 4 0 (setTrk n { t with wait := [] } s2)
    else s2
  let s4 := if st = trVALID ∧ (was = trACQUIRE ∨ was = trDISABLED) then reseatAll n s3 else s3
  lockCheck n s4

/-- R172: a source block reports a fault to a track. -/
def trackFault (n : Nat) (s : State) : State :=
  if trackState s n = trDISABLED then s
  else
    let s1 := flag (pAT n) 3 s
    if trackState s n = trVALID then trackGo n trCOAST 1 s1 else s1

/-- R172: every track whose source is instance `inst` of type `ty` hears of its fault. -/
def sourceFault (ty inst : Nat) (s : State) : State :=
  forRange 8 (fun n s => if trackType s n = ty ∧ trackInst s n = inst then trackFault n s else s) s

/-- R171: does the source of track `n` report a fault now? -/
def sourceBad (s : State) (n : Nat) : Bool :=
  let i := trackInst s n
  match trackType s n with
  | 1 => decide (i < 2 ∧ fld s (pRSV i) 0x4C 0 4 ≠ 0)
  | 2 => decide (i < 4) && rbit s pENC 0xD0 i
  | 3 => decide (i < 4) && rbit s pENC 0xD0 (4 + i)
  | _ => false

/-! ## Corrections (R166 to R170) -/

/-- A source hands a correction to a track, which takes it in step 1 of R165. -/
def offer (n : Nat) (c : Corr) (s : State) : State :=
  if trackState s n = trDISABLED then s
  else setTrk n { trk s n with wait := (trk s n).wait.filter (fun x => x.due ≠ c.due) ++ [c] } s

/-- R168, R153: vd and vq of a mains source from α, β and the angle `a` in a rounding mode, and whether a conversion saturated. -/
def mainsDq (rd : Rnd) (al be : Int) (a : Nat) : Int × Int × Bool :=
  let c := cosQ15 a
  let sn := sinQ15 a
  let d := convQ15 rd (al * c + be * sn) 15
  let q := convQ15 rd (be * c - al * sn) 15
  (d.1, q.1, d.2 || q.2)

/-- R168, R170: the error of a correction, none where a mains source gives no correction, and whether a conversion
saturated. -/
def corrError (s : State) (n : Nat) (c : Corr) : Option Int × Bool :=
  let ac := angleAt s n (s.tick - c.cap)
  match c.ab with
  | none => (some (angDiff c.m ac), false)
  | some (al, be) =>
    let x := mainsDq .rne al be ac
    if x.1 < sgn 16 (fld s (pAT n) 0x80 0 16) then (none, x.2.2)
    else (some (sgn 32 (uns 32 (rneDiv (x.2.1 * (rg s (pAT n) 0x7C : Nat)) (2 ^ 15)))), x.2.2)

/-- R170: the filter: θ takes e × `KP`, ω takes RNE(e × `KI` / 2^`KSH`), saturating (R157). -/
def applyCorr (n : Nat) (e : Int) (s : State) : State :=
  let p := pAT n
  let kp : Int := actFld s p 0x100 0 16
  let ki : Int := actFld s p 0x104 0 16
  let t := trk s n
  let w := satS 48 (t.omega + rneDiv (e * ki) (2 ^ actFld s p 0x104 16 6))
  let s1 := setOmega n w.1 (setTrk n { t with theta := uns 48 ((t.theta : Int) + e * kp) } s)
  lockCheck n (incWrap p 0x218 0 16 1 (setArith p 0x21C none (some 0) (2 * b2n w.2) s1))

/-- R171: the first correction of ACQUIRE: θ takes the measured angle, ω the resolver's velocity or 0, and it counts as the
first of `ACQ.N`. -/
def firstCorr (n : Nat) (c : Corr) (e : Int) (s : State) : State :=
  let p := pAT n
  let m := match c.ab with | none => c.m | some _ => uns 32 ((angleAt s n (s.tick - c.cap) : Int) + e)
  let w := if trackType s n = 1 then c.vel else 0
  let s1 := setOmega n w (setTrk n { trk s n with theta := m % 2 ^ 32 * 2 ^ 16, first := false, good := 1 } s)
  let s2 := lockCheck n (setRg p 0x210 0 (incWrap p 0x218 0 16 1 s1))
  if fld s p 0x54 0 8 ≤ 1 then trackGo n trVALID 0 s2 else s2

/-- R170 to R172: a correction with error `e` in the track's present state. -/
def takeCorr (n : Nat) (c : Corr) (e : Int) (s : State) : State :=
  let p := pAT n
  let within : Bool := decide (e.natAbs ≤ rg s p 0x58)
  let need := fld s p 0x54 0 8
  let st := trackState s n
  let t := trk s n
  let show_ := setRg p 0x210 (uns 32 e)
  if st = trINVALID then
    (if rbit s p 0x08 1 ∧ ¬ sourceBad s n then firstCorr n c e (trackGo n trACQUIRE 0 s) else s)
  else if st = trACQUIRE then
    (if t.first then firstCorr n c e s
     else
      let s1 := show_ (applyCorr n e s)
      let g := if within then t.good + 1 else 0
      let s2 := setTrk n { trk s1 n with good := g } s1
      if within ∧ need ≤ g then trackGo n trVALID 0 s2 else s2)
  else if st = trVALID then
    (if ¬ within ∧ 3 ≤ t.bad then trackGo n trCOAST 3 (show_ s)
     else
      let s1 := show_ (applyCorr n e s)
      setTrk n { trk s1 n with bad := if within then 0 else t.bad + 1 } s1)
  else if st = trCOAST then
    (let g := if within then t.good + 1 else 0
     let s1 := show_ (setTrk n { t with good := g } s)
     if within ∧ need ≤ g then trackGo n trVALID 0 s1 else s1)
  else s

/-- R165, R169, R170: the waiting correction of track `n` is taken in the present tick, one a tick. -/
def correct (n : Nat) (s : State) : State :=
  match (if (trk s n).tookAt = some s.tick then none else (trk s n).wait.find? (fun x => x.due ≤ s.tick)) with
  | none => s
  | some c =>
    let p := pAT n
    let s1 := setTrk n { trk s n with wait := (trk s n).wait.filter (· ≠ c) } s
    if c.cap + 255 < s.tick then flag p 1 (incSat p 0x218 16 8 1 s1)
    else
      let x := corrError s1 n c
      let s2 := setArith p 0x21C none (some 0) (2 * b2n x.2) (setTrk n { trk s1 n with tookAt := some s.tick } s1)
      match x.1 with
      | none => s2
      | some e =>
        let s3 := setTrk n { trk s2 n with corrAt := s.tick } s2
        takeCorr n c e (if trackType s n = 3 then setBit p 0x214 2 false s3 else s3)

/-! ## Epoch transfers (R82, R178, R180) -/

/-- What a transfer of `AT.n` brings: a new `VSET` (R174), a new lock lattice (R556), carriers that leave the map. `o` is the
state before the transfer. -/
def trackTransferred (o : State) (n : Nat) (s : State) : State :=
  let s1 := if trackType s n = 6 ∧ trackState s n = trVALID then setOmega n (vset s n) s else s
  let gone := clrN (lockMap o n) (lockMap s1 n)
  let s2 := releaseCarriers gone s1
  let seatNew := (lockMap o n = 0 ∧ lockMap s n ≠ 0) ∨ lockStep o n ≠ lockStep s n ∨ act o (pAT n) 0x114 ≠ act s (pAT n) 0x114 ∨
    act o (pAT n) 0x118 ≠ act s (pAT n) 0x118
  lockCheck n (if seatNew then reseatLock n s2 else s2)

/-- R178: a transfer that changes a slot's configuration, base or step re-seats it. -/
def slotTransferred (o : State) (i : Nat) (s : State) : State :=
  let ch := fun d => act o (slotPage i) (slotReg i d) ≠ act s (slotPage i) (slotReg i d)
  if ch 0 ∨ ch 4 ∨ ch 8 then reseatSlot i s else s

/-- R82: the pages `moved` names transfer, and Cicada takes its new values. -/
def epochTransfer (moved : Nat → Bool) (s : State) : State :=
  let s1 := transferWhere moved s
  let s2 := forRange 8 (fun n s' => if moved (pAT n) then trackTransferred s n s' else s') s1
  forRange 64 (fun i s' => if moved (slotPage i) then slotTransferred s i s' else s') s2

/-! ## Writes of the `AT` and `SLOTS` pages -/

/-- R183: the checks of a write to `AT.n`. -/
def atChk (s : State) (n o v : Nat) (_old new : Nat) : Option Reason :=
  let p := pAT n
  let en := pageEn s p
  if o = 0x08 then
    firstReason [(cmdBit v 0 && ! en && (trackType s n == 0 || (trackType s n == 1 && (rg s p 0x44 == 0 || decide (32 < rg s p 0x44)))), .value),
      (cmdBit v 2 && trackState s n != trINVALID, .state)]
  else if o = 0x40 then firstReason [(decide (7 ≤ bits new 0 4), .value), (en, .state)]
  else if o = 0x4C then firstReason [(bits new 0 16 == 0 || bits new 16 8 == 0, .value), (en, .state)]
  else if o = 0x54 then firstReason [(bits new 0 8 == 0, .value), (en, .state)]
  else if o = 0x5C then
    firstReason [((List.range 8).any (fun j => j != n && (new &&& (rg s (pAT j) 0x5C ||| act s (pAT j) 0x5C)) != 0), .conflict)]
  else if o = 0x104 then firstReason [(decide (47 < bits new 16 6), .value)]
  else if o = 0x114 then firstReason [(bits new 0 9 == 0 || decide (256 < bits new 0 9), .value)]
  else if 0x40 ≤ o ∧ o ≤ 0x80 then firstReason [(en, .state)]
  else none

/-- R171, R174: `EN` of a track is set. A time track is VALID at once; its position advances from the next tick on. -/
def trackEnable (n : Nat) (s : State) : State :=
  if trackType s n = 6 then
    let s1 := setOmega n (vset s n) s
    let t := trk s1 n
    trackGo n trVALID 0 (setTrk n { t with theta := uns 48 ((t.theta : Int) - t.omega) } s1)
  else trackGo n trACQUIRE 0 s

/-- The effects of a write to `AT.n`, `was` being `EN` before it. -/
def atEff (n o v : Nat) (was : Bool) (s : State) : State :=
  if o = 0x08 then
    let s1 := if cmdBit v 2 ∧ trackState s n = trINVALID then trackGo n trACQUIRE 0 s else s
    let en := pageEn s1 (pAT n)
    if en ∧ ¬ was then trackEnable n s1 else if ¬ en ∧ was then trackGo n trDISABLED 0 s1 else s1
  else if o = 0x21C then s
  else s

/-- A write to a register of `AT.n`. `ARITH` is cleared under R155. -/
def atWrite (acc : Access) (n o v : Nat) (s : State) : State :=
  if o = 0x21C then clearArith (pAT n) 0x21C v s
  else busStore acc (pAT n) o v (atChk s n o v) (atEff n o v (pageEn s (pAT n))) s

/-- R185: the checks of a write to a `SLOTS` page. -/
def slotsChk (o : Nat) (_old new : Nat) : Option Reason :=
  if 0x100 ≤ o ∧ o < 0x500 ∧ o % 0x20 = 0 then firstReason [(bits new 8 2 == 3, .value)] else none

/-- A write to a register of `SLOTS.p`. -/
def slotsWrite (acc : Access) (p o v : Nat) (s : State) : State := busStore acc (pSLOTS p) o v (slotsChk o) id s

/-- R175: does the pending bank of `SLOTS.p` hold an enabled slot with a lattice that is not allowed? -/
def slotsBad (s : State) (p : Nat) : Bool :=
  (List.range 32).any (fun j =>
    let c := rg s (pSLOTS p) (0x100 + 0x20 * j)
    let pts := bits c 16 9
    let step := rg s (pSLOTS p) (0x108 + 0x20 * j)
    bit c 0 && (pts == 0 || decide (256 < pts) || (decide (2 ≤ pts) && (step == 0 || decide (2 ^ 32 ≤ (pts - 1) * step)))))

/-! ## What a tick brings to Cicada by itself (R165, R176) -/

/-- The end of the present tick for a lattice on track `n`: the residual takes ΔA. -/
def latTick (s : State) (n : Nat) (l : Lattice) : Lattice :=
  if trackGood s n ∨ l.scan.isSome then { l with r := sgn 34 (uns 34 (l.r + deltaA s n)) } else l

/-- The end of the present tick for all slots, on the angles before it. -/
def slotsTick (s : State) : State :=
  forRange 64 (fun i s' => if slotEn s i then
    (let h := slotH s' i
     let l := latTick s (slotTrk s i) h.lat
     if l = h.lat then s' else setSlotH i { h with lat := l } s') else s') s

/-- The end of the present tick for track `n`: a correction not yet taken, the lock lattice, then the advance. -/
def trackTick (n : Nat) (s : State) : State :=
  let t := trk s n
  let l := if lockMap s n = 0 then t.lat else latTick s n t.lat
  let l1 := match l.scan with | some e => if e ≤ s.tick + 1 then { l with scan := none } else l | none => l
  let t1 := { t with theta := nextTheta s n, hist := (angleNow s n :: t.hist).take 256, changed := false, lat := l1,
                     lAt := if l.scan.isSome ∧ l1.scan.isNone then s.tick + 1 else t.lAt }
  if trackState s n = trDISABLED ∧ t.hist.length = 256 ∧ t.hist.all (· == angleNow s n) ∧ ¬ t.changed then s else setTrk n t1 s

/-! ## Rows -/

/-- R183: a write that sets `AT.n:PAGE_CTRL.EN`. -/
def execTrackEnable (acc : Access) (n : Fin 8) (s : State) : Host.Outcome State Fault Refusal :=
  .next (onBus acc (pAT n) 0x08 (atWrite acc n 0x08 0x00010001) s)

/-- R171: a write that clears `EN`. -/
def execTrackDisable (acc : Access) (n : Fin 8) (s : State) : Host.Outcome State Fault Refusal :=
  .next (onBus acc (pAT n) 0x08 (atWrite acc n 0x08 0x00010000) s)

/-- R171: the `REACQ` command. -/
def execReacq (acc : Access) (n : Fin 8) (s : State) : Host.Outcome State Fault Refusal :=
  .next (onBus acc (pAT n) 0x08 (atWrite acc n 0x08 0x00040004) s)

/-- R170: the correction delivered to a track is taken. -/
def execTrackCorrection (n : Fin 8) (s : State) : Host.Outcome State Fault Refusal :=
  .next (if powered s then correct n s else s)

/-- R172: `SRC_TIME.TO` has elapsed since the last correction of a resolver, Mantis or mains track. -/
def execTrackSourceTimeout (n : Fin 8) (s : State) : Host.Outcome State Fault Refusal :=
  .next (let ty := trackType s n
         if powered s ∧ trackState s n = trVALID ∧ (ty = 1 ∨ ty = 4 ∨ ty = 5) ∧
             (trk s n).corrAt + fld s (pAT n) 0x4C 0 16 * usT ≤ s.tick
         then trackGo n trCOAST 2 s else s)

/-- R171: `COAST.T` has elapsed since entry to COAST. -/
def execTrackCoastExpire (n : Fin 8) (s : State) : Host.Outcome State Fault Refusal :=
  .next (if powered s ∧ trackState s n = trCOAST ∧ (trk s n).coastAt + fld s (pAT n) 0x50 0 16 * usT ≤ s.tick
         then trackGo n trINVALID 0 s else s)

/-- R167: no Hall edge within `SRC_TIME.TO`: standstill. -/
def execHallStandstill (n : Fin 8) (s : State) : Host.Outcome State Fault Refusal :=
  .next (if powered s ∧ trackType s n = 3 ∧ advances (trackState s n) ∧
             (trk s n).corrAt + fld s (pAT n) 0x4C 0 16 * usT ≤ s.tick
         then lockCheck n (setBit (pAT n) 0x214 2 true (setOmega n 0 s)) else s)

/-- R176, R177, R179: slot `i` is evaluated in the present tick. -/
def execSlotFire (i : Fin 64) (s : State) : Host.Outcome State Fault Refusal :=
  .next (if powered s then slotEval i s else s)

/-- R178: the re-seat scan of slot `i` ends. -/
def execSlotReseatDone (i : Fin 64) (s : State) : Host.Outcome State Fault Refusal :=
  .next (if powered s then reseatDone i s else s)

/-- R556: the lock lattice of track `n` takes an event in the present tick. -/
def execLockEvent (n : Fin 8) (s : State) : Host.Outcome State Fault Refusal :=
  .next (let t := trk s n
         if ¬ powered s ∨ lockMap s n = 0 ∨ ¬ trackGood s n ∨ t.lat.scan.isSome ∨ t.lat.evAt = some s.tick then s
         else match latEvent (lockPts s n) (lockStep s n) 0 0 (deltaA s n) t.lat with
           | .none => s
           | .forward _ l => lockEvent n 1 l s
           | .reverse _ l => lockEvent n (-1) l s)

/-- R183: the values that a read of `POS` latches. -/
def posLatch (n : Nat) (s : State) : State :=
  let p := pAT n
  let w := uns 48 (trk s n).omega
  setRg p 0x20C (uns 32 (sgn 16 (w / 2 ^ 32))) (setRg p 0x208 (w % 2 ^ 32) (setRg p 0x204 (nextTheta s n % 2 ^ 16)
    (setRg p 0x200 (angleNow s n) s)))

/-- R183: a read of `AT.n:POS`. -/
def execPosRead (acc : Access) (n : Fin 8) (s : State) : Host.Outcome State Fault Refusal :=
  .next (onBusRead acc (pAT n) 0x200 (fun s => angleNow s n) (posLatch n) s)

end Sys2Proof.Machine
end

