-- ==== Sys2Proof/Machine/Sense.lean ====
section
/-! DEFINITION. The sense front end (R186 to R218) and the conversion of raw values (R219 to R221, R223, R224): sigma-delta,
SAR, HVS, resolvers, encoders, Halls, tooth wheels, SENT, and the assembly of sample sets. -/
namespace Sys2Proof.Machine

/-! ## Channel codes and calibration -/

/-- R186: is the channel code defined? -/
def codeOk (c : Nat) : Bool := decide (c < 0x8C)

/-- R186: the input class of a code, as `CAL_SATF` numbers them: 0 SD, 1 AIN, 2 HVS, 3 SENT. -/
def codeClass (c : Nat) : Nat := if c < 0x60 then 0 else if c < 0x80 then 1 else if c < 0x88 then 2 else 3

/-- R231: the offset of a code's calibration register. -/
def calReg (c : Nat) : Nat :=
  if c < 0x30 then 0x100 + 4 * c else if c < 0x60 then 0x100 + 4 * (c - 0x30)
  else if c < 0x80 then 0x1C0 + 4 * (c - 0x60) else if c < 0x88 then 0x240 + 4 * (c - 0x80) else 0x260 + 4 * (c - 0x88)

/-- R219: the calibrated value of a raw value by a calibration word, and whether it saturated. -/
def calibrateBy (w : Nat) (raw : Int) : Int × Bool :=
  satS 16 (rneDiv ((raw - sgn 16 (bits w 0 16)) * sgn 16 (bits w 16 16)) (2 ^ 14))

/-- R219: the calibrated value of a raw value of channel `code`. -/
def calibrate (s : State) (code : Nat) (raw : Int) : Int × Bool := calibrateBy (act s pCAL (calReg code)) raw

/-- R221: the active calibration words of channels, and the conversion of raw values by such words: codes, values, saturations. -/
def calWords (s : State) (codes : List Nat) : List Nat := codes.map (fun c => act s pCAL (calReg c))
def convert (ws : List Nat) (raws : List (Nat × Int)) : List (Nat × Int × Bool) :=
  (raws.zip ws).map (fun e => (e.1.1, calibrateBy e.2 e.1.2))

/-- R220: a saturated conversion of class `c`. -/
def calSat (sat : Bool) (c : Nat) (s : State) : State := if sat then flag pCAL 1 (setBit pCAL 0x54 c true s) else s

/-- R220, R221: the saturations of a set's conversion; what a record of the present tick has set can be taken back. -/
def convSat (ys : List (Nat × Int × Bool)) (s : State) : State :=
  let was := s.now.sat.getD (rg s pCAL 0x54, rbit s pCAL 0x10 1)
  ys.foldl (fun s e => calSat e.2.2 (codeClass e.1) s) { s with now := { s.now with sat := some was } }

/-- R229, R230: a result that becomes available on channel `code` feeds a running `ZERO` and the auto-zero of HELD to READY.
-/
def zeroFeed (code : Nat) (raw : Int) (s : State) : State :=
  let c := s.cal
  let c1 := match c.zero with
    | some (z, n) => if z = code ∧ c.count < 2 ^ n then { c with sum := c.sum + raw, count := c.count + 1 } else c
    | none => c
  { s with cal := { c1 with
      az := c1.az.map (fun e => if e.1 = code ∧ e.2.2 < 2 ^ c.azN then (e.1, e.2.1 + raw, e.2.2 + 1) else e) } }

/-! ## Sigma-delta (R188 to R191) -/

/-- R189: the decimation ratio of a path, by a value of `FILT`, and the one in force on group `g`. -/
def osrOf (fast : Bool) (filt : Nat) : Nat := if fast then 2 ^ (3 + bits filt 8 2) else 2 ^ (4 + bits filt 0 3)
def sdOsrNow (s : State) (g : Nat) (fast : Bool) : Nat := osrOf fast (act s (pSDG g) 0x48)

/-- R190: `FILT` of group `g` in tick `t`. -/
def filtAt (s : State) (g t : Nat) : Nat :=
  match (nth s.sdOsr g []).find? (fun e => decide (e.1 ≤ t)) with
  | some e => e.2
  | none => act s (pSDG g) 0x48

/-- R190: a transfer of `FILT`, which windows in progress outlive: no window lasts 15360 ticks. `o` is the state before. -/
def sdgTransferred (o : State) (g : Nat) (s : State) : State :=
  let h := match nth s.sdOsr g [] with | [] => [(0, act o (pSDG g) 0x48)] | l => l
  let keep := h.filter (fun e => decide (s.tick < e.1 + 15360)) ++ (h.filter (fun e => decide (e.1 + 15360 ≤ s.tick))).take 1
  { s with sdOsr := s.sdOsr.set g ((s.tick, act s (pSDG g) 0x48) :: keep) }

def sdDiv (s : State) (g : Nat) : Nat := fld s (pSDG g) 0x40 0 5
def sdDly (s : State) (g : Nat) : Nat := fld s (pSDG g) 0x40 16 3

/-- Running sums of `n` neighbours of a list, as long as the list: one boxcar of the sinc kernels. -/
def boxcar (n : Nat) (l : List Nat) : List Nat := (List.range (l.length + n - 1)).map (fun i =>
  ((List.range n).map (fun j => if i < j then 0 else l.getD (i - j) 0)).foldl (· + ·) 0)

/-- R189: the kernel of a sinc path of order 3 or 2 and ratio `n`: as many boxcars of `n` folded together. -/
def sincKernel (order n : Nat) : List Nat :=
  let b := List.replicate n 1
  if order = 3 then boxcar n (boxcar n b) else boxcar n b

/-- R189: the weighted sum of the bits of a window. -/
def sincSum (order n : Nat) (w : List Bool) : Nat :=
  ((sincKernel order n).zip w).foldl (fun a e => a + e.1 * b2n e.2) 0

/-- R189: the raw value of a window. -/
def sincRaw (order n : Nat) (w : List Bool) : Int :=
  let full := n ^ order
  (satS 16 (rneDiv ((2 * (sincSum order n w : Int) - (full : Int)) * 2 ^ 15) full)).1

/-- R190: the bits of a window, its ready tick where it is centred on edge `k`, and the ticks of its first and last sample. -/
def sdBits (fast : Bool) (n : Nat) : Nat := if fast then 2 * n - 1 else 3 * n - 2
def sdReady (s : State) (g : Nat) (fast : Bool) (n k : Nat) : Nat :=
  if fast then k + (n - 1) * sdDiv s g + sdDly s g + 3 else k + (3 * n / 2 - 2) * sdDiv s g + sdDly s g + 4
def sdFirst (s : State) (g : Nat) (fast : Bool) (n k : Nat) : Nat :=
  k + sdDly s g - (if fast then (n - 1) * sdDiv s g else (3 * n / 2 - 1) * sdDiv s g)
def sdLast (s : State) (g : Nat) (fast : Bool) (n k : Nat) : Nat :=
  k + sdDly s g + (if fast then (n - 1) * sdDiv s g else (3 * n / 2 - 2) * sdDiv s g)

/-- R188, R190: the first clock edge of group `g` at or after tick `t`. -/
def sdEdge (s : State) (g t : Nat) : Nat := let d := sdDiv s g; (t + d - 1) / d * d

/-- Is input `n` enabled: its group's `EN` and its `IN_EN` bit? -/
def sdEn (s : State) (n : Nat) : Bool := pageEn s (pSDG (n / 8)) && rbit s (pSDG (n / 8)) 0x44 (n % 8)

/-- R190, R208: was input `n` enabled at tick `t` and ever since? -/
def sdSince (s : State) (n t : Nat) : Bool := match nth s.sdOn n none with | some a => decide (a ≤ t) | none => false

/-- R190: is the present tick the ready tick of the free-running window of ratio `n3` on an edge of group `g` at a multiple of
`n3` × `DIV`, whose first bit was taken under that ratio? Then the tick of that first bit. -/
def sdFree (s : State) (g n3 : Nat) : Option Nat :=
  let r := sdReady s g false n3 0
  let k := s.tick - r
  let f := sdFirst s g false n3 k
  if r ≤ s.tick ∧ k % (n3 * sdDiv s g) = 0 ∧ osrOf false (filtAt s g f) = n3 then some f else none

/-- R190: the free-running sinc3 result of input `n` from the bits `w` of the window that is ready in the present tick. -/
def sdRaw (n : Nat) (w : List Bool) (s : State) : State :=
  let g := n / 8
  let n3 := (w.length + 2) / 3
  match sdFree s g n3 with
  | none => s
  | some f =>
    if w.length = sdBits false n3 ∧ sdEn s n ∧ sdSince s n f then
      (let raw := sincRaw 3 n3 w
       zeroFeed n raw (setFld (pSDG g) (0x60 + 4 * (n % 8)) 0 16 (uns 16 raw) s))
    else s

def setH (s : State) (k : Nat) : SetHid := nth s.sets k {}
def setSetH (k : Nat) (x : SetHid) (s : State) : State := { s with sets := s.sets.set k x }

/-- R208: the lower of two loss causes. -/
def minCause (a b : Nat) : Nat := if a = 0 then b else if b < a then b else a

/-- What happens to every assembly of every set. -/
def mapAsm (f : SetAsm → SetAsm) (s : State) : State :=
  { s with sets := s.sets.map (fun x => { x with cur := x.cur.map f, late := x.late.map f }) }

/-- R208: a loss cause for every assembly that lists a channel the condition names. -/
def loseWhere (cause : Nat) (c : SetChan → Bool) (s : State) : State :=
  mapAsm (fun a => if a.chans.any c then { a with cause := minCause a.cause cause } else a) s

/-- R208: has the channel not reached its ready tick? -/
def notReady (now : Nat) (c : SetChan) : Bool := match c.ready with | some r => decide (now ≤ r) | none => true

/-- Does a code name sigma-delta input `n`? -/
def codeIsSd (c n : Nat) : Bool := c == n || c == 0x30 + n

/-- R191: a fault of input `n` of a group; `b` is the `FAULT` bit and `ev` the event flag. -/
def sdFault (g b ev : Nat) (inputs : List Nat) (s : State) : State :=
  loseWhere 1 (fun c => inputs.any (codeIsSd c.code) && notReady s.tick c) (flag (pSDG g) ev (setBit (pSDG g) 0x50 b true s))

/-- R188, R213: the checks of a write to `SDG.g`. -/
def sdgChk (s : State) (g o : Nat) (_old new : Nat) : Option Reason :=
  if o = 0x40 then firstReason [(decide (bits new 0 5 < 8) || decide (20 < bits new 0 5), .value), (pageEn s (pSDG g), .state)]
  else if o = 0x48 then firstReason [(decide (5 ≤ bits new 0 3) || bits new 8 2 == 3, .value)]
  else if o = 0x4C then firstReason [(decide (0 < new ∧ new < 16), .value)]
  else none

/-- R208: the enables of a group's inputs have changed: inputs newly enabled start their history, and a set loses a channel
whose input is off in its window. -/
def sdEnables (g : Nat) (s : State) : State :=
  forRange 8 (fun i s =>
    let n := 8 * g + i
    if sdEn s n then
      (if (nth s.sdOn n none).isSome then s else { s with sdOn := s.sdOn.set n (some s.tick) })
    else
      loseWhere 4 (fun c => codeIsSd c.code n && decide (s.tick ≤ c.last)) { s with sdOn := s.sdOn.set n none }) s

/-- A write to a register of `SDG.g`. -/
def sdgWrite (acc : Access) (g o v : Nat) (s : State) : State :=
  busStore acc (pSDG g) o v (sdgChk s g o) (fun s => if o = 0x08 ∨ o = 0x44 then sdEnables g s else s) s

/-! ## SAR converters (R192 to R194) -/

def sarH (s : State) (n : Nat) : SarHid := nth s.sar n {}
def setSarH (n : Nat) (x : SarHid) (s : State) : State := { s with sar := s.sar.set n x }

/-- R192: the code of an input voltage in µV, and its raw value. -/
def sarCode (uv : Int) : Int := clampI 0 16383 (rneDiv (uv * 16384) 5000000)
def sarRaw (uv : Int) : Int := (sarCode uv - 8192) * 4

/-- R193: the first tick from which converter `n` is free. -/
def sarFree (s : State) (n : Nat) : Nat :=
  match (sarH s n).conv.getLast? with
  | some c => if s.tick < c.start + 40 then c.start + 40 else s.tick
  | none => s.tick

/-- The first channel of a list that has the code and the ready tick `was` takes another ready tick. -/
def readyAt (code : Nat) (was new : Option Nat) : List SetChan → List SetChan
  | [] => []
  | c :: l => if c.code = code ∧ c.ready = was ∧ c.raw = none then { c with ready := new } :: l else c :: readyAt code was new l

/-- The present assembly of set `k` changes. -/
def setCur (k : Nat) (f : SetAsm → SetAsm) (s : State) : State := setSetH k { setH s k with cur := (setH s k).cur.map f } s

/-- R193, R194, R205: set `k` requests a conversion of input `ch` of converter `n`. A request that finds the queue full loses its
set. -/
def sarRequest (n ch k : Nat) (s : State) : State :=
  let h := sarH s n
  if (h.conv.filter (fun c => decide (s.tick < c.start))).length < 16 then
    setCur k (fun a => { a with chans := readyAt (0x60 + 8 * n + ch) none (some (sarFree s n + 42)) a.chans })
      (setSarH n { h with conv := h.conv ++ [⟨ch, some k, sarFree s n, false⟩] } s)
  else
    flag pSETS 1 (setCur k (fun a => { a with cause := minCause a.cause 2 }) (flag (pSAR n) 0 (setBit (pSAR n) 0x80 1 true s)))

/-- R193: the queued conversions follow one another 40 ticks apart, `free` being the tick from which the converter is free. -/
def sarPack (now free : Nat) : List SarConv → List SarConv
  | [] => []
  | c :: l =>
    let st := if c.start ≤ now then c.start else if now < free then free else now
    { c with start := st } :: sarPack now (st + 40) l

/-- R193, R208: conversions have left the queue of converter `n`; those that remain move up, and their ready ticks with them. -/
def sarKeep (n : Nat) (keep : List SarConv) (s : State) : State :=
  let now := sarPack s.tick 0 keep
  let s1 := setSarH n { sarH s n with conv := now } s
  (keep.zip now).foldl (fun s e => match e.1.set with
    | some k => setCur k (fun a => { a with
        chans := readyAt (0x60 + 8 * n + e.1.ch) (some (e.1.start + 42)) (some (e.2.start + 42)) a.chans }) s
    | none => s) s1

/-- The raw value of a conversion enters the channel that waits for it at its ready tick. -/
def giveRaw (code ready : Nat) (raw : Int) : List SetChan → List SetChan
  | [] => []
  | c :: l => if c.code = code ∧ c.raw = none ∧ c.ready = some ready then { c with raw := some raw } :: l else c :: giveRaw code ready raw l

/-- R193, R229: a result of converter `n` is ready: its register, and its set, or `ZERO` where the scan asked for it. -/
def sarResult (n : Nat) (e : Nat × SarConv × Int) (s : State) : State :=
  let p := pSAR n
  let o := 0x60 + 4 * e.2.1.ch
  let code := 0x60 + 8 * n + e.2.1.ch
  let s1 := setFld p o 0 16 (uns 16 e.2.2) (incWrap p o 16 16 1 s)
  let s2 := if e.2.1.scan then zeroFeed code e.2.2 s1 else s1
  match e.2.1.set with
  | some k =>
    let f := fun (a : SetAsm) => { a with chans := giveRaw code e.1 e.2.2 a.chans }
    setSetH k { setH s2 k with cur := (setH s2 k).cur.map f, late := (setH s2 k).late.map f } s2
  | none => s2

/-- R193: the results of converter `n` that are ready by now. -/
def sarDue (n : Nat) (s : State) : State :=
  let h := sarH s n
  let due := h.res.filter (fun e => decide (e.1 ≤ s.tick))
  if due.isEmpty then s
  else due.foldl (fun s e => sarResult n e s) (setSarH n { h with res := h.res.filter (fun e => decide (s.tick < e.1)) } s)

/-- R193: a conversion of converter `n` has ended, 40 ticks after its start; its result is ready 42 ticks after it. -/
def sarDone (n : Nat) (uv : Int) (s : State) : State :=
  let h := sarH s n
  match h.conv with
  | [] => s
  | c :: l =>
    if s.tick < c.start + 40 then s
    else sarDue n (setSarH n { h with conv := l, res := h.res ++ [(c.start + 42, c, sarRaw uv)] } s)

/-- R193: a scan conversion starts, or is skipped and counted. -/
def sarScan (n : Nat) (s : State) : State :=
  let p := pSAR n
  let h := sarH s n
  if ¬ rbit s p 0x08 0 ∨ ¬ rbit s p 0x08 1 ∨ s.tick % (if rg s p 0x44 = 0 then 1 else rg s p 0x44) ≠ 0 then s
  else if s.tick < sarFree s n then setBit p 0x80 0 true (incSat p 0x80 8 8 1 s)
  else
    let n_ := fld s p 0x40 24 3 + 1
    let j := h.scan % n_
    setSarH n { h with scan := (j + 1) % n_, conv := h.conv ++ [⟨fld s p 0x40 (3 * j) 3, none, s.tick, true⟩] } s

/-- R214: the checks of a write to `SAR.n`. -/
def sarChk (o : Nat) (_old new : Nat) : Option Reason := if o = 0x44 then firstReason [(decide (new < 40), .value)] else none

/-- R208: the page's `EN` was cleared: the conversions under way or queued end, and their sets lose their channels. -/
def sarEnables (n : Nat) (s : State) : State :=
  if pageEn s (pSAR n) then s
  else
    let ended := (sarH s n).conv.filter (fun c => decide (c.start + 40 ≤ s.tick))
    loseWhere 4 (fun c => decide (0x60 + 8 * n ≤ c.code ∧ c.code < 0x68 + 8 * n) && c.raw == none &&
        (match c.ready with | some r => decide (s.tick + 2 < r) | none => true))
      (setSarH n { sarH s n with conv := ended } s)

/-- A write to a register of `SAR.n`. Clearing `SAR_STAT` skip or count fields is a W1C write of their bits. -/
def sarWrite (acc : Access) (n o v : Nat) (s : State) : State :=
  busStore acc (pSAR n) o v (sarChk o) (fun s => if o = 0x08 then sarEnables n s else s) s

/-! ## HV sense (R195, R196) -/

/-- R195: the raw value of a voltage in mV. -/
def hvsRaw (v : Variant) (mv : Int) : Int := (satS 16 (rneDiv (mv * 32768) (hvsFs v * 1000))).1

/-- R208: has `HVS.i` been enabled since tick `t`? -/
def hvsSince (s : State) (i t : Nat) : Bool := match nth s.hvsOn i none with | some a => decide (a ≤ t) | none => false

/-- R195, R196, R208: a result of `HVS.i` is ready, 60 ticks after the tick that held its input; `fault` says that the channel
reports a fault. -/
def hvsResult (i : Nat) (mv : Int) (fault : Bool) (s : State) : State :=
  if ¬ rbit s pHVS 0x08 i ∨ s.tick % 200 ≠ 60 ∨ ¬ hvsSince s i (s.tick - 60) then s
  else
    let raw := hvsRaw s.variant mv
    let o := 0x60 + 4 * i
    let s1 := setFld pHVS o 0 16 (uns 16 raw) (incWrap pHVS o 16 16 1 s)
    let th := rg s pHVS (0x40 + 4 * i)
    let hi : Bool := decide (sgn 16 (bits th 16 16) < raw)
    let lo : Bool := decide (raw < sgn 16 (bits th 0 16))
    let s2 := setRg pHVS 0x80 (orN (rg s1 pHVS 0x80) (b2n hi * 2 ^ i + b2n lo * 2 ^ (8 + i) + b2n fault * 2 ^ (16 + i))) s1
    let s3 := flagIf (hi || lo) pHVS i s2
    let s4 := mapAsm (fun a => { a with chans := a.chans.map (fun c =>
      if c.code = 0x80 + i ∧ c.raw = none ∧ c.ready = some s.tick then { c with raw := some raw } else c) }) s3
    preCharge (hvsFs s.variant) i <| zeroFeed (0x80 + i) raw (if fault then loseWhere 1 (fun c => c.code == 0x80 + i && notReady s.tick c) s4 else s4)

/-- R215: bit 0 of the enables cannot be cleared. -/
def hvsChk (o : Nat) (_old new : Nat) : Option Reason := if o = 0x08 then firstReason [(! bit new 0, .value)] else none

/-- R208: the enable of `HVS.i` may have changed; a set loses the channel whose conversion is under way. -/
def hvsEnables (i : Nat) (s : State) : State :=
  if rbit s pHVS 0x08 i then
    (if (nth s.hvsOn i none).isSome then s else { s with hvsOn := s.hvsOn.set i (some s.tick) })
  else
    loseWhere 4 (fun c => c.code == 0x80 + i && c.raw == none &&
      (match c.ready with | some r => decide (r ≤ s.tick + 60 ∧ s.tick ≤ r) | none => false)) { s with hvsOn := s.hvsOn.set i none }

/-- A write to a register of `HVS`. -/
def hvsWrite (acc : Access) (o v : Nat) (s : State) : State :=
  busStore acc pHVS o v (hvsChk o) (fun s =>
    if o = 0x08 then forRange 8 hvsEnables s else s) s

/-! ## Resolvers (R197 to R199, R223, R224) -/

def rsvH (s : State) (r : Nat) : RsvHid := nth s.rsv r {}
def setRsvH (r : Nat) (x : RsvHid) (s : State) : State := { s with rsv := s.rsv.set r x }

/-- R197: the excitation phase in the present tick, as U32: `EXC.FREQ` periods a second from that of the first sample on, which is `ph`.
Log entry 20. -/
def rsvPhase (s : State) (r ph : Nat) : Nat :=
  match (rsvH s r).exc with
  | some (t, p) => (p + (s.tick - t) * fld s (pRSV r) 0x40 0 16 * 2 ^ 32 / 200000000) % 2 ^ 32
  | none => ph

/-- R198: the excitation reference e, shifted by `DEMOD.PHASE`. Log entry 20. -/
def rsvRef (s : State) (r ph : Nat) : Int := sinQ15 ((rsvPhase s r ph + fld s (pRSV r) 0x44 0 16 * 2 ^ 16) % 2 ^ 32)

/-- R223: the correction of a sine and cosine sample, and whether a step saturated. -/
def rsvCorrect (s : State) (r : Nat) (sg sn cs : Int) : Int × Int × Bool :=
  let ofs := act s pCAL (0x270 + 16 * r)
  let aq := act s pCAL (0x274 + 16 * r)
  let s1 := satS 16 (sn - sg * sgn 16 (bits ofs 0 16))
  let c1 := satS 16 (cs - sg * sgn 16 (bits ofs 16 16))
  let c2 := satS 16 (rneDiv (c1.1 * sgn 16 (bits aq 0 16)) (2 ^ 14))
  let s3 := satS 16 (rneDiv (s1.1 * 2 ^ 15 - c2.1 * sgn 16 (bits aq 16 16)) (2 ^ 15))
  (s3.1, c2.1, s1.2 || c1.2 || c2.2 || s3.2)

/-- R224: the harmonic correction of a 16-bit angle. -/
def rsvHarm (s : State) (r a : Nat) : Nat :=
  let h := fun (i : Nat) => sgn 16 (actFld s pCAL (0x300 + 0x80 * r + 4 * (i % 64 / 2)) (16 * (i % 2)) 16)
  let i := a / 1024 % 64
  let d := h i + rneDiv ((h (i + 1) - h i) * ((a % 1024 : Nat) : Int)) 1024
  uns 16 ((a : Int) - d)

/-- π and the unit in the fixed point of 112 fractional bits that R198's angle is computed in. -/
def fixPi : Int := 16312081666030376401667486162748272
def fixOne : Int := 2 ^ 112

/-- `n` terms of the power series of sine (`k` 1, `t` = x) or cosine (`k` 0, `t` = 1) at `x`, in fixed point. -/
def fixSeries (x : Int) : Nat → Nat → Int → Int
  | 0, _, _ => 0
  | n + 1, k, t => t + fixSeries x n (k + 2) (-(t * x / fixOne * x / fixOne) / ((k + 1) * (k + 2) : Nat))

/-- R198: is `k` of 65536 parts of a turn at most the angle, from 0 to an eighth of a turn, whose tangent is `a` / `b`? -/
def angleReaches (a b : Int) (k : Nat) : Bool :=
  let x := fixPi * (k : Int) / 2 ^ 15
  decide (fixSeries x 20 1 x * b ≤ fixSeries x 20 0 fixOne * a)

/-- The largest `lo` + d, d below 2 ^ `n`, that an angle reaches, a bit of d at a time. -/
def angleSearch (a b : Int) : Nat → Nat → Nat
  | 0, lo => lo
  | n + 1, lo => angleSearch a b n (if angleReaches a b (lo + 2 ^ n) then lo + 2 ^ n else lo)

/-- R198: an angle within the first eighth of a turn, rounded down, and whether it is exact: only 0 and the diagonal are. -/
def angleOctant (a b : Int) : Nat × Bool := if a = 0 then (0, true) else if a = b then (8192, true) else (angleSearch a b 13 0, false)

/-- The angle `n` less an angle that is rounded down. -/
def angleFrom (n : Nat) (e : Nat × Bool) : Nat × Bool := (if e.2 then n - e.1 else n - e.1 - 1, e.2)

/-- R198: atan2 of a sine `s` and a cosine `c` to 16 bits. An angle between two of 16 bits is taken to one of them, and that of a
zero pair is free (log entry 23). -/
def angle16 (s c : Int) : Nat :=
  if s = 0 ∧ c = 0 then Config.angleZero.toNat
  else
    let a : Int := s.natAbs
    let b : Int := c.natAbs
    let q := if a ≤ b then angleOctant a b else angleFrom 16384 (angleOctant b a)
    let h := if c < 0 then angleFrom 32768 q else q
    let f := if s < 0 then angleFrom 65536 h else h
    (f.1 + b2n (! f.2 && Config.angleUp s c)) % 65536

/-- R199: a fault of a resolver: its bit, its event, and the source fault of its tracks. -/
def rsvFault (r b : Nat) (s : State) : State :=
  sourceFault 1 r (flag (pRSV r) 0 (setBit (pRSV r) 0x4C b true (setRsvH r { rsvH s r with low := 0, high := 0, wait := none } s)))

/-- R197 to R199, R223, R224: a sample pair of `RSV.r`, in a tick whose TICK is a multiple of 200; `ph` is the excitation's phase in the
first. -/
def rsvSample (r : Nat) (sn cs : Int) (ph : Nat) (s : State) : State :=
  let p := pRSV r
  if ¬ pageEn s p ∨ s.tick % 200 ≠ 0 then s
  else
    let x0 := { rsvH s r with exc := some ((rsvH s r).exc.getD (s.tick, ph)) }
    let s0 := setRg p 0x5C (uns 16 sn + 2 ^ 16 * uns 16 cs) (setRsvH r x0 s)
    let e := rsvRef s r ph
    let sg : Int := if e < 0 then -1 else 1
    let x := rsvCorrect s r sg sn cs
    let s1 := calSat x.2.2 4 s0
    if (e.natAbs : Int) < sgn 16 (fld s p 0x44 16 16) ∨ rg s p 0x4C ≠ 0 then s1
    else
      let m2 : Int := (x.1 * x.1 + x.2.1 * x.2.1) * 2 ^ 30
      let lo : Int := sgn 16 (fld s p 0x48 0 16)
      let hi : Int := sgn 16 (fld s p 0x48 16 16)
      let h := rsvH s1 r
      let low := if m2 < lo * lo * (e * e) then h.low + 1 else 0
      let high := if hi * hi * (e * e) < m2 then h.high + 1 else 0
      let a := rsvHarm s r (angle16 (sg * x.1) (sg * x.2.1))
      let s2 := setRsvH r { h with low := low, high := high, wait := some (a, s.tick) } s1
      let s3 := if 4 ≤ low then rsvFault r 0 s2 else s2
      if 4 ≤ high then rsvFault r 1 s3 else s3

/-- R166, R198: the angle of `RSV.r` is delivered to its tracks, 40 ticks after sampling. -/
def rsvDeliver (r : Nat) (s : State) : State :=
  let p := pRSV r
  let h := rsvH s r
  match h.wait with
  | none => s
  | some (a, t) =>
    if s.tick ≠ t + 40 ∨ rg s p 0x4C ≠ 0 ∨ ¬ pageEn s p then s
    else
      let ang := a % 2 ^ 16 * 2 ^ 16
      let vel := match h.last with
        | some (a', t') => if t' + 200 = t then rneDiv (angDiff ang (a' * 2 ^ 16) * 2 ^ 16) 200 else h.vel
        | none => h.vel
      let s1 := setRg p 0x50 ang (setRsvH r { h with wait := none, last := some (a % 2 ^ 16, t), vel := vel, cap := t } s)
      forRange 8 (fun n s =>
        if trackType s n = 1 ∧ trackInst s n = r then
          offer n { cap := t, m := (ang * rg s (pAT n) 0x44 + rg s (pAT n) 0x48) % 2 ^ 32, vel := vel } s
        else s) s1

/-- R216: the values that a read of `ANGLE` latches. -/
def angleLatch (r : Nat) (s : State) : State :=
  let p := pRSV r
  let h := rsvH s r
  let w := uns 48 h.vel
  setRg p 0x60 (h.cap % 2 ^ 32) (setRg p 0x58 (uns 32 (sgn 16 (w / 2 ^ 32))) (setRg p 0x54 (w % 2 ^ 32) s))

/-- R216: the checks of a write to `RSV.r`. -/
def rsvChk (s : State) (r o : Nat) (_old new : Nat) : Option Reason :=
  if o = 0x40 then
    firstReason [(decide (bits new 0 16 < 5000 ∨ 20000 < bits new 0 16 ∨ 4 < bits new 16 3), .value), (pageEn s (pRSV r), .state)]
  else none

/-- R197, R216: the excitation starts when `EN` is set; when it is cleared, what a read of `ANGLE` latches stays. -/
def rsvEnable (r : Nat) (s : State) : State :=
  if pageEn s (pRSV r) then s else setRsvH r { vel := (rsvH s r).vel, cap := (rsvH s r).cap } s

/-- A write to a register of `RSV.r`. -/
def rsvWrite (acc : Access) (r o v : Nat) (s : State) : State :=
  busStore acc (pRSV r) o v (rsvChk s r o) (fun s => if o = 0x08 then rsvEnable r s else s) s

/-! ## Encoders, Halls, tooth wheels and SENT (R200 to R203) -/

/-- R200: what an edge of A and B counts: by mode (0 ×4, 1 ×2, 2 ×1, 3 step and direction), old and new levels. Log entry 21. -/
def encCount (mode : Nat) (a b a' b' : Bool) : Int :=
  let dir : Int := if a != a' then (if a' != b' then 1 else -1) else (if a' == b' then 1 else -1)
  match mode with
  | 0 => if a != a' || b != b' then dir else 0
  | 1 => if a != a' then dir else 0
  | 2 => if a != a' && (if dir = 1 then a' else ! a') then dir else 0
  | _ => if ! a && a' then (if b' then -1 else 1) else 0

/-- R200: new filtered levels of A and B of encoder `i`, with a pulse of Z. A change of both counts nothing (log entry 21). -/
def encEdge (i : Nat) (a b z : Bool) (s : State) : State :=
  if ¬ rbit s pENC 0x08 i then { s with enc := s.enc.set i (a, b) }
  else
    let old := nth s.enc i (false, false)
    let cfg := rg s pENC (0x40 + 4 * i)
    let mode := bits cfg 0 2
    let s0 := { s with enc := s.enc.set i (a, b) }
    let err := old.1 ≠ a ∧ old.2 ≠ b
    let s1 := if err then sourceFault 2 i (flag pENC 0 (setBit pENC 0xD0 i true s0)) else s0
    let d := if err then 0 else encCount mode old.1 old.2 a b
    let o := 0x50 + 4 * i
    let cnt := uns 32 ((rg s pENC o : Int) + (if bit cfg 2 then -d else d))
    let s2 := setRg pENC o cnt s1
    let zm := bits cfg 4 2
    if ¬ z ∨ zm = 0 then s2
    else
      let s3 := setRg pENC (0x60 + 4 * i) cnt s2
      if zm = 2 then setRg pENC o 0 s3 else s3

/-- R166: the count of its encoder is delivered to track `n`, every `SRC_TIME.DIV` ticks from the first delivery on. -/
def encDeliver (n : Nat) (s0 : State) : State :=
  let i := trackInst s0 n
  let div := fld s0 (pAT n) 0x4C 16 8
  let due : Bool := match nth s0.encAt n none with | some t => decide (t < s0.tick ∧ (s0.tick - t) % (if div = 0 then 1 else div) = 0) | none => true
  let s := { s0 with encAt := s0.encAt.set n (some s0.tick) }
  if ¬ due then s0
  else if trackType s n = 2 ∧ i < 4 ∧ rbit s pENC 0x08 i then
    offer n { cap := s.tick, m := (rg s pENC (0x50 + 4 * i) * rg s (pAT n) 0x44 + rg s (pAT n) 0x48) % 2 ^ 32 } s
  else s0

/-- R201: the sector a Hall code selects; 7 where the table has none. -/
def hallSector (cfg code : Nat) : Nat :=
  match (List.range 6).find? (fun k => bits cfg (3 * k) 3 == code) with | some k => k | none => 7

/-- R167, R201: a filtered edge of Hall triplet `i` to a new code. -/
def hallEdge (i code : Nat) (s : State) : State :=
  if ¬ rbit s pENC 0x08 (4 + i) then s
  else
    let cfg := rg s pENC (0x70 + 4 * i)
    let t := s.tick - bits cfg 24 8
    let old := fld s pENC (0x80 + 4 * i) 4 3
    let new := hallSector cfg code
    let s1 := setRg pENC (0x80 + 4 * i) (code % 8 + new * 16 + t % 2 ^ 24 * 256) s
    if new = 7 then sourceFault 3 i (flag pENC 1 (setBit pENC 0xD0 (4 + i) true s1))
    else if old = 7 ∨ old = new then s1
    else if new = (old + 1) % 6 ∨ old = (new + 1) % 6 then
      let k := if new = (old + 1) % 6 then new else old
      forRange 8 (fun n s =>
        if trackType s n = 3 ∧ trackInst s n = i then
          offer n { cap := t, m := (rg s (pAT n) (0x64 + 4 * k) + rg s (pAT n) 0x48) % 2 ^ 32 } s
        else s) s1
    else sourceFault 3 i s1

/-- R202: a rising edge of the copy of tooth wheel `j`. -/
def twEdge (j : Nat) (s : State) : State :=
  if ¬ rbit s pENC 0x08 (8 + j) then s
  else
    let s1 := { s with twLast := s.twLast.set j (some s.tick) }
    match nth s.twLast j none with
    | none => s1
    | some t =>
      let d := s.tick - t
      if d < 2 ^ 32 then setRg pENC (0x98 + 4 * j) d s1
      else flag pENC 2 (setBit pENC 0xD0 (8 + j) true (setRg pENC (0x98 + 4 * j) (2 ^ 32 - 1) s1))

/-- R203: fast channel 1 of the last frame: the first three nibbles, which `SENT_DATA` holds in bits 23:12 (log entry 22). -/
def sentRaw (s : State) (i : Nat) : Int := ((fld s pENC (0xB0 + 4 * i) 12 12 : Nat) : Int) * 16 - 2048 * 16

/-- R203, R205: the raw value of SENT input `i` that a set triggered in the present tick takes: that of the last valid frame completed
before the tick. -/
def sentTaken (s : State) (i : Nat) : Int :=
  match nth s.sentWas i none with
  | some (t, r) => if t = s.tick then r else sentRaw s i
  | none => sentRaw s i

/-- R203: the data word of a frame's nibbles, the first in bits 23:20. -/
def sentWord (ns : List (Fin 16)) : Nat := (List.range 6).foldl (fun a j => a + (ns.getD j 0).val * 2 ^ (20 - 4 * j)) 0

/-- R203: is a frame's calibration pulse of `cal` ns, 56 clock ticks of 0.1 µs × `tick`, within 25 % of nominal? Log entry 22. -/
def sentCal (tick cal : Nat) : Bool := decide (3 * (5600 * tick) ≤ 4 * cal ∧ 4 * cal ≤ 5 * (5600 * tick))

/-- R203: a frame of SENT input `i`: what its pulses show (a pause pulse where `SENT_CFG` has one, and none where it has none), its status nibble, its data nibbles, and a slow-channel message that it
completes. -/
def sentFrame (i : Nat) (p : SentPulses) (st : Nat) (ns : List (Fin 16)) (slow : Option (Nat × Nat)) (s : State) : State :=
  let cfg := rg s pENC (0xA0 + 4 * i)
  let ok : Bool := p.nib && p.pause == bit cfg 17 && (if bit cfg 16 then p.crcR else p.crcL) && sentCal (bits cfg 0 10) p.cal && ns.length == bits cfg 12 3
  if ¬ rbit s pENC 0x08 (10 + i) then s
  else if ¬ ok then
    loseWhere 1 (fun c => c.code == 0x88 + i && notReady s.tick c)
      (flag pENC 3 (setBit pENC 0xD0 (12 + i) true { s with sentErr := s.sentErr.set i (some s.tick) }))
  else
    let s0 := if (nth s.sentWas i none).map Prod.fst = some s.tick then s else { s with sentWas := s.sentWas.set i (some (s.tick, sentRaw s i)) }
    let s1 := setRg pENC (0xB0 + 4 * i) (sentWord ns + st % 16 * 2 ^ 24 + 2 ^ 31) s0
    let s2 := match slow with
      | some (id, d) => if rbit s pENC (0xA0 + 4 * i) 18 then setRg pENC (0xC0 + 4 * i) (id % 256 + d % 2 ^ 16 * 256 + 2 ^ 31) s1 else s1
      | none => s1
    zeroFeed (0x88 + i) (sentRaw s2 i) s2

/-- R201: six distinct codes from 1 to 6. -/
def hallCfgOk (cfg : Nat) : Bool := (List.range 6).all (fun c => (List.range 6).any (fun k => bits cfg (3 * k) 3 == c + 1))

/-- R217: the checks of a write to `ENC`. -/
def encChk (o : Nat) (_old new : Nat) : Option Reason :=
  if 0x40 ≤ o ∧ o < 0x50 then firstReason [(bits new 4 2 == 3, .value)]
  else if 0x70 ≤ o ∧ o < 0x80 then firstReason [(! hallCfgOk new, .value)]
  else if 0xA0 ≤ o ∧ o < 0xB0 then
    firstReason [(decide (bits new 0 10 < 30 ∨ 900 < bits new 0 10 ∨ bits new 12 3 < 1 ∨ 6 < bits new 12 3), .value)]
  else none

/-- A write to a register of `ENC`. -/
def encWrite (acc : Access) (o v : Nat) (s : State) : State :=
  busStore acc pENC o v (encChk o) (fun s =>
    if o = 0x08 then forRange 2 (fun j s => if rbit s pENC 0x08 (8 + j) then s else { s with twLast := s.twLast.set j none }) s else s) s

/-! ## Sample sets (R204 to R211) -/

/-- A field of the active `SS_CFG_k`. -/
def ssCfg (s : State) (k lo w : Nat) : Nat := actFld s pSETS (0x100 + 0x20 * k) lo w

/-- The channel codes of the active list of set `k`. -/
def ssList (s : State) (k : Nat) : List Nat :=
  (List.range (ssCfg s k 16 5)).map (fun j => actFld s pSETS (0x104 + 0x20 * k + 4 * (j / 4)) (8 * (j % 4)) 8)

/-- R235: a start of engine `e` is requested by source `src` (0–7 a set, 8 a slot, 9 Hive, 10 a command) for tick `at_`. -/
def mtRequest (e src at_ : Nat) (s : State) : State :=
  let h := nth s.mt e {}
  { s with mt := s.mt.set e { h with reqs := h.reqs ++ [(src, at_)] } }

/-- R190, R205, R208: a channel as the trigger in the present tick finds it, with the loss cause it brings. -/
def setChan (s : State) (code : Nat) : SetChan × Nat :=
  if code < 0x60 then
    let n := code % 0x30
    let g := n / 8
    let fast : Bool := decide (0x30 ≤ code)
    let osr := sdOsrNow s g fast
    let k := sdEdge s g s.tick
    let f := sdFirst s g fast osr k
    let bad := rbit s (pSDG g) 0x50 (n % 8) || rbit s (pSDG g) 0x50 8
    ({ code := code, ready := some (sdReady s g fast osr k), osr := osr, first := f, last := sdLast s g fast osr k },
      if bad then 1 else if sdEn s n ∧ sdSince s n f then 0 else 4)
  else if code < 0x80 then ({ code := code }, if pageEn s (pSAR ((code - 0x60) / 8)) then 0 else 4)
  else if code < 0x88 then
    ({ code := code, ready := some ((s.tick + 199) / 200 * 200 + 60) }, b2n (rbit s pHVS 0x80 (16 + (code - 0x80))))
  else
    let i := code - 0x88
    ({ code := code, ready := some s.tick, raw := some (sentTaken s i) },
      if nth s.sentErr i none = some s.tick then 1 else if rbit s pENC 0x08 (10 + i) then 0 else 4)

/-- R207: a word of the visible record of set `k`. -/
def recOff (k w : Nat) : Nat := 0x400 + 0x40 * k + 4 * w

/-- R207: the elements of the record of set `k`. -/
def writeElems (k : Nat) (els : List Int) (s : State) : State :=
  let e := fun i => uns 16 (els.getD i 0)
  forRange 8 (fun w s => setRg pSETS (recOff k w) (e (2 * w) + 2 ^ 16 * e (2 * w + 1)) s) s

/-- R207: the record of an assembly of set `k` is written: its elements, angle, status and tick. -/
def writeRecord (k : Nat) (els : List Int) (cause : Nat) (a : SetAsm) (s : State) : State :=
  let len := bits a.cfg 16 5
  let seq := (fld s pSETS (recOff k 9) 8 8 + 1) % 256
  let s1 := writeElems k (els.take len) s
  let st := b2n (cause ≠ 0) + 2 * cause + 16 * a.trkSt + 256 * seq + 2 ^ 16 * len
  let s2 := setRg pSETS (recOff k 9) st (setRg pSETS (recOff k 8) a.ang s1)
  let s3 := setRg pSETS (recOff k 11) (a.trig / 2 ^ 32 % 2 ^ 32) (setRg pSETS (recOff k 10) (a.trig % 2 ^ 32) s2)
  incWrap pSETS (0x114 + 0x20 * k) 8 8 1 s3

/-- R218: `SS_STAT_k.BUSY`. -/
def showBusy (k : Nat) (s : State) : State :=
  setBit pSETS (0x114 + 0x20 * k) 0 ((setH s k).cur.isSome || ! (setH s k).late.isEmpty) s

/-- R206, R209: an assembly of set `k`, which stands in it no more, ends in the present tick as a lost record. -/
def loseSet (k cause : Nat) (a : SetAsm) (s : State) : State :=
  let s1 := writeRecord k (setH s k).elems cause a s
  let s2 := showBusy k (incSat pSETS (0x114 + 0x20 * k) 16 8 1 (setSetH k { setH s k with doneAt := some s.tick, raws := [] } s1))
  let s3 := pulse (104 + k) pSETS (detBreach 3 pSETS s2)
  if bit a.cfg 8 ∧ bit a.cfg 11 then mtRequest (bits a.cfg 9 2) k (s.tick + 1) s3 else s3

/-- R204, R205: the assembly of set `k` starts in the present tick. -/
def startSet (k : Nat) (s : State) : State :=
  let n := ssCfg s k 4 3
  let cs := (ssList s k).map (setChan s)
  let a : SetAsm := {
    trig := s.tick, ang := angleNow s n, trkSt := trackState s n, cfg := act s pSETS (0x100 + 0x20 * k),
    chans := cs.map Prod.fst, cause := cs.foldl (fun a c => if c.2 = 0 then a else minCause a c.2) 0 }
  let s1 := showBusy k (setSetH k { setH s k with cur := some a } s)
  a.chans.foldl (fun s c =>
    if 0x60 ≤ c.code ∧ c.code < 0x80 ∧ pageEn s (pSAR ((c.code - 0x60) / 8)) then
      sarRequest ((c.code - 0x60) / 8) ((c.code - 0x60) % 8) k s
    else s) s1

/-- R208: the queued conversions of set `k` are removed; one under way ends for no set. -/
def dropQueued (k : Nat) (s : State) : State :=
  forRange 4 (fun n s =>
    let cs := (sarH s n).conv
    if ¬ cs.any (fun c => c.set == some k) then s
    else sarKeep n ((cs.filter (fun c => decide (c.set ≠ some k ∨ c.start ≤ s.tick))).map (fun c =>
      if c.set = some k ∧ s.tick < c.start + 40 then { c with set := none } else c)) s) s

/-- R206: the tick C of an assembly has come: no channel of it is ready later. -/
def asmDue (s : State) (a : SetAsm) : Bool :=
  a.chans.all (fun c => match c.ready with | some r => decide (r ≤ s.tick) | none => true)

/-- R204, R208: set `k` is triggered in the present tick. In tick C, or after it, an assembly that has not completed yet waits for
that beside the new one. -/
def triggerSet (k : Nat) (s : State) : State :=
  let x := setH s k
  let again := fun (s : State) => if ssCfg s k 0 1 = 1 then startSet k s else s
  match x.cur with
  | none => again s
  | some a =>
    if a.trig = s.tick then s
    else if asmDue s a then again (setSetH k { x with cur := none, late := x.late ++ [a] } s)
    else
      flag pSETS 0 (incSat pSETS (0x114 + 0x20 * k) 24 8 1
        (loseSet k (minCause a.cause 3) a (setSetH k { setH (dropQueued k s) k with cur := none } (dropQueued k s))))

/-- R208: the loss cause of an assembly in its tick C, where an `HVS` channel may not have been enabled since its capture. -/
def asmCause (s : State) (a : SetAsm) : Nat :=
  if a.chans.any (fun c => decide (0x80 ≤ c.code ∧ c.code < 0x88) && c.raw == none &&
      (match c.ready with | some r => decide (r ≤ s.tick) && ! hvsSince s (c.code - 0x80) (r - 60) | none => false)) then
    minCause a.cause 4
  else a.cause

/-- R190, R211: the sigma-delta result of a channel of an assembly: that which another set triggered in the same tick has taken, else
the one of the window `w`, where `w` is one. -/
def sdResult (got : List (Nat × Nat × Int)) (trig : Nat) (c : SetChan) (w : List Bool) : Option Int :=
  let fast : Bool := decide (0x30 ≤ c.code)
  match got.find? (fun e => e.1 == trig && e.2.1 == c.code) with
  | some e => some e.2.2
  | none => if w.length = sdBits fast c.osr then some (sincRaw (if fast then 2 else 3) c.osr w) else none

/-- The raw values of an assembly's channels, the sigma-delta windows taken in list order from `ws`, and the results taken so far;
none while one is missing. -/
def asmRaws (trig : Nat) : List SetChan → List (List Bool) → List (Nat × Nat × Int) → Option (List (Nat × Int) × List (Nat × Nat × Int))
  | [], _, got => some ([], got)
  | c :: l, ws, got =>
    if c.code < 0x60 then
      match sdResult got trig c (ws.headD []) with
      | none => none
      | some r => (asmRaws trig l ws.tail ((trig, c.code, r) :: got)).map (fun x => ((c.code, r) :: x.1, x.2))
    else match c.raw with
      | none => none
      | some r => (asmRaws trig l ws got).map (fun x => ((c.code, r) :: x.1, x.2))

/-- R168, R153: α and β of three line-to-neutral voltages in a rounding mode, and whether a conversion saturated. -/
def alphaBeta (rd : Rnd) (u v w : Int) : Int × Int × Bool :=
  let al := convQ15 rd (0x5555 * u - 0x2AAB * (v + w)) 15
  let be := convQ15 rd (0x49E7 * (v - w)) 15
  (al.1, be.1, al.2 || be.2)

/-- R168: the mains tracks fed by set `k` take a correction from its elements. -/
def mainsOffer (k : Nat) (els : List Int) (trig : Nat) (s : State) : State :=
  forRange 8 (fun n s =>
    if trackType s n = 5 ∧ trackInst s n = k then
      let j := trackSub s n
      let x := alphaBeta .rne (els.getD j 0) (els.getD (j + 1) 0) (els.getD (j + 2) 0)
      offer n { cap := trig, m := 0, ab := some (x.1, x.2.1) } (setArith (pAT n) 0x21C none (some 0) (2 * b2n x.2.2) s)
    else s) s

/-- R211: the results of the triggers that still have an assembly. -/
def gotKeep (got : List (Nat × Nat × Int)) (s : State) : State :=
  let used := fun (t : Nat) => s.sets.any (fun x => (x.cur.toList ++ x.late).any (fun a => a.trig == t))
  { s with sdGot := got.filter (fun e => used e.1) }

/-- R206, R220, R221: an assembly of set `k`, which stands in it no more, completes in the present tick with the raw values `raws`,
converted by the bank that is active in its tick C. -/
def finishSet (k : Nat) (a : SetAsm) (raws : List (Nat × Int)) (s : State) : State :=
  let ys := convert (a.cal.getD (calWords s (raws.map Prod.fst))) raws
  let els := ys.map (fun e => e.2.1)
  let x := { setH s k with elems := els, codes := raws.map Prod.fst, raws := if a.cal.isNone then raws else [], doneAt := some s.tick }
  let s2 := showBusy k (setSetH k x (writeRecord k els 0 a (convSat ys s)))
  let s4 := mainsOffer k els a.trig (pulse (96 + k) pSETS s2)
  if bit a.cfg 8 then mtRequest (bits a.cfg 9 2) k (s.tick + 1) s4 else s4

/-- R221: an assembly whose tick C ends keeps the calibration of that tick. -/
def asmKeep (s : State) (a : SetAsm) : SetAsm :=
  if a.cal.isNone ∧ asmDue s a then { a with cal := some (calWords s (a.chans.map SetChan.code)) } else a
def setsTick (s : State) : State := mapAsm (asmKeep s) s

/-- R221: a record of set `k` written in the present tick is converted by the bank that a transfer of the tick has made active, and the
corrections that its mains tracks have not taken yet with it. -/
def recalSet (k : Nat) (s : State) : State :=
  let x := setH s k
  if x.doneAt ≠ some s.tick ∨ x.raws = [] then s
  else
    let ys := convert (calWords s x.codes) x.raws
    let els := ys.map (fun e => e.2.1)
    let trig := rg s pSETS (recOff k 10) + 2 ^ 32 * rg s pSETS (recOff k 11)
    forRange 8 (fun n s =>
      if trackType s n = 5 ∧ trackInst s n = k then
        let j := trackSub s n
        let y := alphaBeta .rne (els.getD j 0) (els.getD (j + 1) 0) (els.getD (j + 2) 0)
        setTrk n { trk s n with wait := (trk s n).wait.map (fun c => if c.cap = trig ∧ c.ab.isSome then { c with ab := some (y.1, y.2.1) } else c) } s
      else s)
      (convSat ys (writeElems k els (setSetH k { x with elems := els } s)))

/-- R221: a transfer of the `CAL` page: the records of the present tick are converted anew, and the saturations of their first conversion
are taken back. -/
def calTransferred (s : State) : State :=
  match s.now.sat with
  | none => s
  | some (w, b) => forRange 8 recalSet (setRg pCAL 0x54 (rg s pCAL 0x54 &&& w) (if b then s else setBit pCAL 0x10 1 false s))

/-- R206: set `k` completes: its oldest assembly whose tick C has come, if every channel has its raw value. -/
def completeSet (k : Nat) (ws : List (List Bool)) (s : State) : State :=
  let x := setH s k
  let y : Option (SetAsm × SetHid) := match x.late, x.cur with
    | a :: l, _ => some (a, { x with late := l })
    | [], some a => some (a, { x with cur := none })
    | [], none => none
  match y with
  | none => s
  | some (a, rest) =>
    if ¬ asmDue s a then s
    else if asmCause s a ≠ 0 then loseSet k (asmCause s a) a (setSetH k rest s)
    else match asmRaws a.trig a.chans ws s.sdGot with
      | none => s
      | some (raws, got) => finishSet k a raws (gotKeep got (setSetH k rest s))

/-- R209, R211: what a transfer of the `SETS` page brings: a set whose `EN` was cleared ends its assembly, one whose `EN` was
set has no last record. `o` is the state before the transfer. -/
def setsTransferred (o : State) (s : State) : State :=
  forRange 8 (fun k s =>
    let was := ssCfg o k 0 1
    let is_ := ssCfg s k 0 1
    if was = 1 ∧ is_ = 0 then
      showBusy k (setSetH k { setH (dropQueued k s) k with cur := none } (dropQueued k s))
    else if was = 0 ∧ is_ = 1 then setSetH k { setH s k with elems := [], codes := [] } s
    else s) s

/-- R186, R218: the checks of a write to `SETS`: a list names channels by the codes of R186. -/
def setsChk (o : Nat) (_old new : Nat) : Option Reason :=
  if 0x100 ≤ o ∧ o < 0x200 ∧ 4 ≤ o % 0x20 ∧ o % 0x20 ≤ 0x10 then
    firstReason [((List.range 4).any (fun b => ! codeOk (bits new (8 * b) 8)), .value)]
  else none

/-- A write to a register of `SETS`. -/
def setsWrite (acc : Access) (o v : Nat) (s : State) : State := busStore acc pSETS o v (setsChk o) id s

/-- R218: does the pending bank hold an enabled set that `ARM` refuses? -/
def setsBad (s : State) : Bool :=
  (List.range 8).any (fun k =>
    let c := rg s pSETS (0x100 + 0x20 * k)
    let len := bits c 16 5
    bit c 0 && (len == 0 || decide (16 < len) ||
      (List.range len).any (fun j => ! codeOk (fld s pSETS (0x104 + 0x20 * k + 4 * (j / 4)) (8 * (j % 4)) 8))))

/-! ## Rows -/

/-- R206: set `k` completes; `ws` holds the bit windows of its sigma-delta channels in list order. -/
def execSetComplete (k : Fin 8) (ws : List (List Bool)) (s : State) : Host.Outcome State Fault Refusal :=
  .next (if powered s then completeSet k ws s else s)

/-- R190: a free-running sinc3 result of input `n` from the bits of its window. -/
def execSdRawResult (n : Fin 48) (w : List Bool) (s : State) : Host.Outcome State Fault Refusal :=
  .next (if powered s then sdRaw n w s else s)

/-- R191: `STUCK` consecutive equal bits on input `n`. -/
def execSdStuck (n : Fin 48) (s : State) : Host.Outcome State Fault Refusal :=
  .next (if powered s ∧ sdEn s n ∧ rg s (pSDG (n / 8)) 0x4C ≠ 0 then sdFault (n / 8) (n % 8) 0 [n] s else s)

/-- R191: the clock of group `g` does not toggle: a fault of all eight inputs. -/
def execSdClockFault (g : Fin 6) (s : State) : Host.Outcome State Fault Refusal :=
  .next (if powered s ∧ pageEn s (pSDG g) then sdFault g 8 1 ((List.range 8).map (8 * (g : Nat) + ·)) s else s)

def execSarScanStart (n : Fin 4) (s : State) : Host.Outcome State Fault Refusal :=
  .next (if powered s then sarScan n s else s)

/-- R193: the conversion of converter `n` ends; `uv` is the voltage held, in µV. -/
def execSarConversionDone (n : Fin 4) (uv : Int) (s : State) : Host.Outcome State Fault Refusal :=
  .next (if powered s then sarDone n uv s else s)

/-- R195: a result of `HVS.i`; `mv` is the voltage held, in mV. -/
def execHvsResult (i : Fin 8) (mv : Int) (fault : Bool) (s : State) : Host.Outcome State Fault Refusal :=
  .next (if powered s then hvsResult i mv fault s else s)

/-- R198: a sine and cosine pair of `RSV.r`, raw. -/
def execResolverSample (r : Fin 2) (sn cs : BitVec 16) (ph : BitVec 32) (s : State) : Host.Outcome State Fault Refusal :=
  .next (if powered s then rsvSample r sn.toInt cs.toInt ph.toNat s else s)

def execResolverAngleDelivery (r : Fin 2) (s : State) : Host.Outcome State Fault Refusal :=
  .next (if powered s then rsvDeliver r s else s)

/-- R199: fault `b` of `RSV.r`: 0 amplitude low, 1 amplitude high, 2 excitation overload, 3 input open. The amplitude faults
follow from the counted pairs. -/
def execResolverFault (r : Fin 2) (b : Fin 4) (s : State) : Host.Outcome State Fault Refusal :=
  .next (let h := rsvH s r
         if powered s ∧ pageEn s (pRSV r) ∧ ((b : Nat) = 0 → 4 ≤ h.low) ∧ ((b : Nat) = 1 → 4 ≤ h.high) then rsvFault r b s else s)

def execEncoderEdge (i : Fin 4) (a b z : Bool) (s : State) : Host.Outcome State Fault Refusal :=
  .next (if powered s then encEdge i a b z s else s)

def execEncoderDelivery (n : Fin 8) (s : State) : Host.Outcome State Fault Refusal :=
  .next (if powered s then encDeliver n s else s)

def execHallEdge (i : Fin 4) (code : Fin 8) (s : State) : Host.Outcome State Fault Refusal :=
  .next (if powered s then hallEdge i code s else s)


def execSentFrame (i : Fin 4) (p : SentPulses) (st : Fin 16) (ns : List (Fin 16)) (slow : Option (Nat × Nat)) (s : State) :
    Host.Outcome State Fault Refusal :=
  .next (if powered s then sentFrame i p st ns slow s else s)

/-- R216: a read of `RSV.r:ANGLE`. -/
def execAngleRead (acc : Access) (r : Fin 2) (s : State) : Host.Outcome State Fault Refusal :=
  .next (onBusRead acc (pRSV r) 0x50 (fun s => rg s (pRSV r) 0x50) (angleLatch r) s)

/-- R217: a read of `SENT_DATA_i` clears `NEW`. -/
def execSentDataRead (acc : Access) (i : Fin 4) (s : State) : Host.Outcome State Fault Refusal :=
  .next (onBusRead acc pENC (0xB0 + 4 * i) (fun s => rg s pENC (0xB0 + 4 * i)) (setBit pENC (0xB0 + 4 * i) 31 false) s)

end Sys2Proof.Machine
end

