-- ==== Sys2Proof/Machine/Calib.lean ====
section
/-! DEFINITION. Images of class K registers loaded into pages (R84, R99, R226), and the `CAL` page's operations (R222, R225 to
R231): zero measurement, the calibration record, its check, and the sense-cell ratio. -/
namespace Sys2Proof.Machine

/-! ## Class K values of a page -/

/-- Is the register word at key `a` one of class K: the register itself, or the active copy of one? -/
def isKWord (a : Nat) : Bool :=
  match pageOf (a / 4096) with
  | none => false
  | some (k, i) =>
    let o := a % 4096
    let r := if isView k i o then rowAt k i (o - 0x800) else rowAt k i o
    match r with | some r => r.cls == .k | none => false

/-- R84, R99: a class K value enters its register, an epoch-buffered one both copies; of `EPOCH` the field `DOM`. -/
def loadWord (a : Nat) (v : Word) (s : State) : State :=
  let p := a / 4096
  let o := a % 4096
  match pageOf p with
  | none => s
  | some (k, i) =>
    if o = 0x28 then setFld p o 24 3 (bits v.toNat 24 3) s
    else
      let s1 := setRg p o v.toNat s
      if isEpochReg k i o then setRg p (o + 0x800) v.toNat s1 else s1

/-- R99: the class K registers of page `p` take their factory values (R4); `ACTIVE` and `ARMED` are live (R81). -/
def factoryPage (p : Nat) (s : State) : State :=
  let e := rg s p 0x28
  let s1 := { s with regs := s.regs.filter (fun x => ¬ (x.1 / 4096 = p ∧ isKWord x.1)) }
  setRg p 0x28 (putBits (rg s1 p 0x28) 0 24 (bits e 0 24)) s1

/-- R99, R226: the class K registers of page `p` take the listed values, the others their factory values. -/
def loadPage (p : Nat) (vals : List (Nat × Word)) (s : State) : State :=
  (vals.filter (fun e => e.1 / 4096 = p)).foldl (fun s e => loadWord e.1 e.2 s) (factoryPage p s)

/-! ## The calibration record (R225 to R228) -/

/-- R79, R225: the class K registers of `CAL` in ascending offset. -/
def calOffsets : List Nat := kcOffsets .cal 0

/-- R98, R225: the address of a copy of the record: sequence number, header CRC, the class K values, the check value. -/
def calBase (copy : Nat) : Nat := if copy = 0 then 0x28041000 else 0x28048800

/-- R225: the sequence number of a copy whose header is valid. Its CRC covers the sequence number (log entry 102). -/
def calSeq (s : State) (copy : Nat) : Option Nat :=
  let q := mread s.mem (calBase copy) 4
  if mread s.mem (calBase copy + 4) 4 = crc32c (bytesLE q) then some q else none

/-- R225: the copy that holds the newer valid record, with its sequence number. -/
def newestCal (s : State) : Option (Nat × Nat) :=
  match calSeq s 0, calSeq s 1 with
  | none, none => none
  | some a, none => some (0, a)
  | none, some b => some (1, b)
  | some a, some b => if seqNewer b a then some (1, b) else some (0, a)

/-- R225: the check value of a copy. -/
def calCheck (s : State) (copy : Nat) : Nat := mread s.mem (calBase copy + 8 + 4 * calOffsets.length) 4

/-- R225: the class K values of a copy, with their keys. -/
def calValuesOf (s : State) (copy : Nat) : List (Nat × Word) :=
  (List.range calOffsets.length).map (fun j =>
    (pCAL * 4096 + nth calOffsets j 0, BitVec.ofNat 32 (mread s.mem (calBase copy + 8 + 4 * j) 4)))

/-- R231: `PAGE_STATE.STATE` and `CAL_STAT.BUSY`. -/
def calState (c : Nat) (s : State) : State := setBit pCAL 0x48 0 (c ≠ 0) (setBlockState pCAL c s)

/-- What `CAL_STAT` and `REF_CHECK` show of the newer record. -/
def calShow (s : State) : State :=
  match newestCal s with
  | some (c, q) => setRg pCAL 0x4C (calCheck s c) (setFld pCAL 0x48 16 16 q (setBit pCAL 0x48 1 true s))
  | none => setBit pCAL 0x48 1 false s

/-- R228: the comparison of `CHECK`, as it stands once it has been recomputed (R79), with `REF_CHECK`. -/
def calCompare (s : State) : State :=
  let bad : Bool := (newestCal s).isNone || checkNow s pCAL != rg s pCAL 0x4C
  flagIf bad pCAL 0 (setBit pCAL 0x48 3 bad s)

/-- R226: `STORE` captures the active values; `origin` 1 a command, 2 the ledger. -/
def calStoreStart (origin : Nat) (s : State) : State :=
  calState 2 { s with cal := { s.cal with store := some (checkWords .cal 0 (rg s pCAL)), storeCheck := checkNow s pCAL, origin := origin } }

/-- R225: `STORE` completes: the copy not holding the newer valid record takes the capture. -/
def calStoreEnd (s : State) : State :=
  match s.cal.store with
  | none => s
  | some vals =>
    let nw := newestCal s
    let seq := match nw with | some (_, q) => (q + 1) % 2 ^ 32 | none => 1
    let copy := match nw with | some (0, _) => 1 | _ => 0
    let words := seq :: crc32c (bytesLE seq) :: (vals ++ [s.cal.storeCheck])
    let s1 := { s with mem := mputs s.mem (calBase copy) (words.flatMap bytesLE), cal := { s.cal with store := none } }
    calCompare (calShow (calState (if s.cal.zero.isSome then 1 else 0) (setFld pCAL 0x48 5 3 s.cal.origin s1)))

/-- R226, R228: `RECALL`: the newer valid record enters both banks. -/
def calRecall (s : State) : State :=
  match newestCal s with
  | none => s
  | some (c, _) =>
    let s1 := loadPage pCAL (calValuesOf s c) s
    calCompare (calShow (if s1.regs = s.regs then s1 else afterConfigChange pCAL false s1))

/-! ## `ZERO` (R229) -/

/-- R229: does the channel give no results now? -/
def zeroAbsent (s : State) (c : Nat) : Bool :=
  if c < 0x30 then ! sdEn s c
  else if c < 0x80 then
    let n := (c - 0x60) / 8
    let p := pSAR n
    ! (rbit s p 0x08 0 && rbit s p 0x08 1 &&
      (List.range (fld s p 0x40 24 3 + 1)).any (fun j => fld s p 0x40 (3 * j) 3 == (c - 0x60) % 8))
  else if c < 0x88 then ! rbit s pHVS 0x08 (c - 0x80)
  else ! rbit s pENC 0x08 (10 + (c - 0x88))

/-- R229: the offset of a channel's pending calibration register takes a value. -/
def setOffset (c : Nat) (v : Int) (s : State) : State :=
  setBit pCAL 0x0C 8 true (setFld pCAL (calReg c) 0 16 (uns 16 v) s)

/-- R229: all 2^N results have been taken. -/
def zeroEnd (s : State) : State :=
  match s.cal.zero with
  | none => s
  | some (c, n) =>
    if s.cal.count < 2 ^ n then s
    else
      let avg := rneDiv s.cal.sum (2 ^ n)
      calState 0 (setOffset c avg (setRg pCAL 0x44 (uns 16 avg + 2 ^ 31) { s with cal := { s.cal with zero := none, sum := 0, count := 0 } }))

/-! ## Writes of the `CAL` page -/

/-- R226, R229, R231: the checks of a write to `CAL`. -/
def calChk (s : State) (o v : Nat) (_old new : Nat) : Option Reason :=
  if o = 0x08 then
    let z := cmdBit v 0
    let st := cmdBit v 1
    let rc := cmdBit v 2
    let code := fld s pCAL 0x40 0 8
    let n := fld s pCAL 0x40 8 4
    if ¬ (z || st || rc) then none
    else firstReason [
      (decide (1 < b2n z + b2n st + b2n rc) ||
        (z && (! codeOk code || decide (0x30 ≤ code ∧ code < 0x60) || decide (n < 4) || decide (12 < n))), .value),
      (devState s != .held && devState s != .ready, .devstate),
      (rbit s pCAL 0x48 0, .state),
      (armed s pCAL || (rc && (newestCal s).isNone) || (z && zeroAbsent s code), .resource)]
  else if o = 0x60 then firstReason [(decide (new < 1 ∨ 4096 < new), .value)]
  else if 0x400 ≤ o ∧ o < 0x580 then
    firstReason [((devState s).running || devState s == .stopping, .devstate)]
  else none

/-- The effects of a write to `CAL`. -/
def calEff (o v : Nat) (s : State) : State :=
  if o = 0x08 then
    (if cmdBit v 0 then
      calState 1 { s with cal := { s.cal with zero := some (fld s pCAL 0x40 0 8, fld s pCAL 0x40 8 4), sum := 0, count := 0 } }
     else if cmdBit v 1 then calStoreStart 1 s
     else if cmdBit v 2 then calRecall s else s)
  else s

/-- A write to a register of `CAL`. -/
def calWrite (acc : Access) (o v : Nat) (s : State) : State := busStore acc pCAL o v (calChk s o v) (calEff o v) s

/-! ## The sense-cell ratio (R222) -/

/-- R222: k of a channel from k0, the coefficients, the reference and tile temperature words; and whether it saturated. -/
def scrRatio (k0 a t tref : Nat) : Nat × Bool :=
  let d := (satS 16 (sgn 16 t - sgn 16 tref)).1
  let f := rneDiv (2 ^ 47 + d * (sgn 16 (bits a 0 16) * 2 ^ 16 + sgn 16 (bits a 16 16) * d)) (2 ^ 17)
  let k := (rneDiv ((k0 : Int) * f) (2 ^ 30)).toNat
  if 2 ^ 32 ≤ k then (2 ^ 32 - 1, true) else (k, false)

/-- R222, R320: k of channel `c`, and the overload code that tracks it. A channel whose tile is not powered keeps its k. -/
def scrChannel (c : Nat) (s : State) : State :=
  let t := c / 8
  if ¬ rbit s pSUPPLY 0x50 t then s
  else
    let k0 := rg s pCAL (0x400 + 8 * c)
    let temp := fld s (pIC t) (if c % 8 < 4 then 0x54 else 0x58) 0 16
    let x := if k0 = 0 then (0, false) else scrRatio k0 (rg s pCAL (0x404 + 8 * c)) temp (fld s pCAL 0x50 0 16)
    ovldCode c (calSat x.2 5 (setRg pCAL (0x580 + 4 * c) x.1 s))

/-! ## Rows -/

/-- R226: a write of `ZERO`. -/
def execZero (acc : Access) (s : State) : Host.Outcome State Fault Refusal :=
  .next (onBus acc pCAL 0x08 (calWrite acc 0x08 0x00010001) s)

/-- R229: the average is taken. -/
def execZeroDone (s : State) : Host.Outcome State Fault Refusal := .next (if powered s then zeroEnd s else s)

/-- R226: a write of `STORE`. -/
def execCalStore (acc : Access) (s : State) : Host.Outcome State Fault Refusal :=
  .next (onBus acc pCAL 0x08 (calWrite acc 0x08 0x00020002) s)

/-- R225: `STORE` completes. -/
def execCalStoreDone (s : State) : Host.Outcome State Fault Refusal := .next (if powered s then calStoreEnd s else s)

/-- R226: a write of `RECALL`. -/
def execRecall (acc : Access) (s : State) : Host.Outcome State Fault Refusal :=
  .next (onBus acc pCAL 0x08 (calWrite acc 0x08 0x00040004) s)

/-- R222: the computation of every millisecond. -/
def execScrKCompute (s : State) : Host.Outcome State Fault Refusal := .next (if powered s then forRange 48 scrChannel s else s)

end Sys2Proof.Machine
end

