-- ==== Sys2Proof/Machine/MtCore.lean ====
section
/-! DEFINITION. Mantis engines (R232 to R262, R275 to R280): their resources, starts, overruns, errors, ends of runs, the
results of issued instructions, injection and capture channels, and the writes of the `MT` and `MTSHARED` pages. -/
namespace Sys2Proof.Machine

/-! ## Access -/

def mtH (s : State) (e : Nat) : MtHid := nth s.mt e {}
def setMtH (e : Nat) (h : MtHid) (s : State) : State := { s with mt := s.mt.set e h }

/-- The states of R238. -/
def mtOFF : Nat := 0
def mtIDLE : Nat := 1
def mtRUN : Nat := 2
def mtERROR : Nat := 3
def mtHALTED : Nat := 4

def mtState (s : State) (e : Nat) : Nat := blockState s (pMT e)

/-- R260: the address of the next instruction to issue; `PC` holds it. -/
def mtPc (s : State) (e : Nat) : Nat := fld s (pMT e) 0x88 0 12
def setMtPc (e a : Nat) (s : State) : State := setRg (pMT e) 0x88 (a % 4096) s

/-- The cycle of the run in which the present tick begins. -/
def mtNow (s : State) (e : Nat) : Nat := 4 * (s.tick - (mtH s e).start)

/-- R260: what `PC` shows: the instruction in issue, else the next one. -/
def shownPc (s : State) (e : Nat) : Nat :=
  let x := (mtH s e).isAt
  if mtState s e = mtRUN ∧ mtNow s e < x.2 then x.1 else mtPc s e

/-- R154: the rounding mode of the page's active `CFG`. -/
def mtRnd (s : State) (e : Nat) : Rnd := .ofCode (actFld s (pMT e) 0x40 0 2)

/-- Element `i` of vector register `r`. -/
def vget (h : MtHid) (r i : Nat) : Int := nth (nth h.vr r []) i 0
def accGet (h : MtHid) (r : Nat) : Int := nth h.acc r 0

/-- R232: a Q1.15 word of state memory, and an accumulator slot. -/
def stWord (s : State) (e w : Nat) : Int := sgn 16 (mread s.mem (mtBase e + 0x10000 + 2 * w) 2)
def stSlot (s : State) (e k : Nat) : Int := sgn 40 (mread s.mem (mtBase e + 0x10000 + 8 * k) 5)

/-- R232: a word of the active coefficient bank. -/
def coefWord (s : State) (e w : Nat) : Int := sgn 16 (mread s.mem (mtBase e + 0xC000 + 2 * w) 2)

/-- R242: the instruction word at program address `a`. -/
def progWord (s : State) (e a : Nat) : Nat := mread s.mem (mtBase e + 8 * a) 8

/-- A field `hi : lo` of an instruction word. -/
def iw (w hi lo : Nat) : Nat := bits w lo (hi + 1 - lo)

/-! ## Capture channels (R276, R277) -/

def capH (s : State) (c : Nat) : CapHid := nth s.capt c {}
def setCapH (c : Nat) (x : CapHid) (s : State) : State := { s with capt := s.capt.set c x }

/-- A field of an active register of channel `c`: `d` 0 `CAP_CFG`, 4 `CAP_BASE`, 8 `CAP_SIZE`. -/
def capReg (s : State) (c d : Nat) : Nat := act s pMTS (0x100 + 0x10 * c + d)

/-- R142: the check bits of the 64-bit words from `a` up to `b` are written anew. -/
def freshWords (a b : Nat) (s : State) : State := { s with upset := s.upset.filter (fun x => ! decide (a ≤ 8 * x.1 ∧ 8 * x.1 < b)) }

/-- Write a list of 32-bit words, whole 64-bit words, to memory. -/
def writeWords (a : Nat) (ws : List Nat) (s : State) : State :=
  freshWords a (a + 4 * ws.length)
    { s with mem := (ws.foldl (fun (x : Nat × List Host.Cell) w => (x.1 + 4, mwrite x.2 x.1 w 4)) (a, s.mem)).2 }

/-- Two elements a word, the lower in bits 15:0. -/
def pack2 : List Int → List Nat
  | [] => []
  | [a] => [uns 16 a]
  | a :: b :: l => (uns 16 a + 2 ^ 16 * uns 16 b) :: pack2 l

/-- R276: padding with zeros to a multiple of four words. -/
def pad4 (ws : List Nat) : List Nat := ws ++ List.replicate ((4 - ws.length % 4) % 4) 0

/-- R276: a record dropped. -/
def capDrop (c : Nat) (s : State) : State := incSat pMTS (0x140 + 4 * c) 16 16 1 s

/-- R276, R277: a `CAP` by engine `e` on channel `c`, with the selected elements in ascending order. -/
def capRecord (e c mask : Nat) (els : List Int) (s : State) : State :=
  let cfg := capReg s c 0
  if ¬ bit cfg 0 then s
  else if bits cfg 4 2 ≠ e then capDrop c s
  else
    let h := capH s c
    let n := h.caps + 1
    if n < bits cfg 8 8 + 1 then setCapH c { h with caps := n } s
    else
      let data := pack2 els
      let m := mtH s e
      let rec_ := pad4 ([mask + c * 2 ^ 16 + e * 2 ^ 18 + data.length * 2 ^ 20 + h.recs % 256 * 2 ^ 24, m.starts,
        (m.start + 2 ^ 32 - 1) % 2 ^ 32] ++ data)
      let base := bits (capReg s c 4) 0 18
      let size := bits (capReg s c 8) 0 19
      let len := 4 * rec_.length
      let ptr := h.ptr
      let fits : Bool := decide (ptr + len ≤ base + size)
      let s0 := setCapH c { h with caps := 0 } s
      if (¬ fits ∧ ¬ bit cfg 6) ∨ size < len then capDrop c s0
      else
        let at_ := if fits then ptr else base
        let s1 := bwSeen [13] len true <| writeWords (0x50000000 + at_) rec_ (setCapH c { ptr := at_ + len, caps := 0, recs := h.recs + 1 } s0)
        let s2 := if fits then s1 else setBit pMTS (0x10C + 0x10 * c) 31 true s1
        let s3 := incWrap pMTS (0x140 + 4 * c) 0 16 1 (setFld pMTS (0x10C + 0x10 * c) 0 18 ((at_ + len) % 2 ^ 18) s2)
        if bit cfg 7 then streamRecord rec_ s3 else s3

/-! ## Results of instructions that read coefficients as they issue (R241, R246, R249) -/

/-- ⌈n / 4⌉. -/
def quarter (n : Nat) : Nat := (n + 3) / 4

/-- R244: `SAT`, `AOV` and `RCP` set the run flag and the page's `ARITH` flag, whose bits are 1, 0 and 2. -/
def satEffs (pc : Nat) (sat aov rcp : Bool) : List MtEff :=
  if sat || aov || rcp then [.flags (2 * b2n sat + 4 * b2n aov + 8 * b2n rcp) 0, .arith (2 * b2n sat + b2n aov + 4 * b2n rcp) pc] else []

/-- R249, R151, R152: the results of `MVM` or `MVMZ`. -/
def mvmEffs (pc : Nat) (x : MtSpread) : List MtEff :=
  let d := iw x.w 57 54
  let cols := iw x.w 37 34 + 1
  let row := fun r => (List.range cols).foldl (fun (a : Int) c => a + nth x.ks (r * cols + c) 0 * nth x.va (iw x.w 45 42 + c) 0) 0
  let res := fun r => accAdd (if iw x.w 63 58 = 0x09 then 0 else nth x.acc (d + r) 0) (row r)
  let rows := List.range (iw x.w 41 38 + 1)
  rows.map (fun r => .acc (d + r) (res r).1) ++ satEffs pc false (rows.any (fun r => (res r).2)) false

/-- R246: the results of an `LDX` of Q1.15 words, multiplied by `kap` with `CS`. -/
def ldxEffs (pc : Nat) (rnd : Rnd) (kap : Int) (x : MtSpread) : List MtEff :=
  let ks := List.range (iw x.w 37 34 + 1)
  let conv := fun i => if bit x.w 43 then convQ15 rnd (nth x.ks i 0 * kap) 15 else (nth x.ks i 0, false)
  ks.map (fun i => .vec (iw x.w 57 54) (iw x.w 41 38 + i) (conv i).1) ++ satEffs pc (ks.any (fun i => (conv i).2)) false false

/-- The results of an instruction that reads coefficients. -/
def spreadEffs (s : State) (e pc : Nat) (x : MtSpread) : List MtEff :=
  if iw x.w 63 58 = 0x05 then ldxEffs pc (mtRnd s e) (rg s (pMT e) 0xA0) x else mvmEffs pc x

/-- R244: the issue cycle, from the first on, in which coefficient `i` is read. -/
def spreadCycle (w i : Nat) : Nat :=
  if iw w 63 58 = 0x05 then i / 4
  else
    let cols := iw w 37 34 + 1
    i / cols * quarter cols + i % cols / 4

/-- R241: an instruction that is issuing reads the newly active bank from the present tick on. -/
def spreadAgain (e : Nat) (s : State) : State :=
  let now := mtNow s e
  let again := fun (p : MtPend) => match p.spread with
    | none => p
    | some x =>
      let y := { x with ks := x.ks.mapIdx (fun i k => if p.first + spreadCycle x.w i < now then k else coefWord s e (x.at_ + i)) }
      if y = x then p else { p with effs := spreadEffs s e p.addr y, spread := some y }
  setMtH e { mtH s e with pend := (mtH s e).pend.map again } s

/-! ## Results that retire (R243, R246, R248, R255) -/

/-- The first PCLK tick that begins after cycle `c` of a run that started in tick `t`. -/
def tickAfter (t c : Nat) : Nat := t + c / 4 + 1

/-- R246: an accumulator slot holds 40 bits, sign-extended through bit 63. -/
def putSlot (e k : Nat) (x : Int) (s : State) : State :=
  let a := mtBase e + 0x10000 + 8 * k
  freshWords a (a + 8) { s with mem := mwrite s.mem a (uns 64 x) 8 }

/-- R142, R246: word `w` of state memory is written, a read-modify-write of its 64-bit word. -/
def putWord (e w : Nat) (x : Int) (s : State) : State :=
  let a := mtBase e + 0x10000 + 2 * w
  if eccBad (eccMeet s a .good) then s else setUpset a .good { s with mem := mwrite s.mem a (uns 16 x) 2 }

/-- R248: the track output: tracks of `TYPE` 4 with this engine take their element. -/
def trackOut (e ret : Nat) (els : List Int) (s : State) : State :=
  let h := mtH s e
  forRange 8 (fun n s =>
    if trackType s n = 4 ∧ trackInst s n = e then
      offer n { cap := h.start - 1, m := (uns 16 (els.getD (trackSub s n) 0) * 2 ^ 16 + rg s (pAT n) 0x48) % 2 ^ 32,
                due := tickAfter h.start ret } s
    else s) s

/-- R155, R243: arithmetic flags of the instruction at `pc`, which has retired in cycle `ret`, before the present tick; `FIRST` is that of
the earliest to retire. -/
def mtArith (e ret fl pc : Nat) (s : State) : State :=
  let h := mtH s e
  let p := pMT e
  let s1 := setArith p 0x80 (some 2) none fl s
  if fl = 0 then s
  else if ¬ h.firstSet then setMtH e { h with firstSet := true, firstAt := some ret } (setFld p 0x80 16 12 pc s1)
  else match h.firstAt with
    | some r => if ret < r then setMtH e { h with firstAt := some ret } (setFld p 0x80 16 12 pc s1) else s1
    | none => s1

/-- One result of an instruction of engine `e` that retires in cycle `ret`. -/
def mtEffect (e ret : Nat) (x : MtEff) (s : State) : State :=
  let h := mtH s e
  match x with
  | .vec r i v => setMtH e { h with vr := h.vr.set r ((nth h.vr r []).set i v) } s
  | .acc r v => setMtH e { h with acc := h.acc.set r v } s
  | .ang r v => setMtH e { h with ang := h.ang.set r v } s
  | .duty r v => setMtH e { h with duty := h.duty.set r v } s
  | .word w v => putWord e w v s
  | .slot k v => putSlot e k v s
  | .fresh q => freshWords (mtBase e + 0x10000 + 8 * q) (mtBase e + 0x10000 + 8 * q + 8) s
  | .mbox i v => setMtH e { h with mbox := h.mbox.set i v } s
  | .track els => trackOut e ret els s
  | .commit g vals => setMtH e { h with out := h.out ++ [⟨tickAfter h.start ret, g, vals⟩] } s
  | .flags st cl => setRg (pMT e) 0x84 (orN (clrN (rg s (pMT e) 0x84) cl) st) s
  | .arith fl pc => mtArith e ret fl pc s
  | .capture c m els => capRecord e c m els s

/-- The results of the instructions that have retired before cycle `c` take effect, in program order. -/
def mtFlush (e c : Nat) (s : State) : State :=
  let h := mtH s e
  let done := h.pend.filter (fun p => p.ret < c)
  let s1 := if done.isEmpty then s else setMtH e { h with pend := h.pend.filter (fun p => c ≤ p.ret) } s
  done.foldl (fun s p => p.effs.foldl (fun s x => mtEffect e p.ret x s) s) s1

/-- Every issued instruction completes. -/
def mtDrain (e : Nat) (s : State) : State := mtFlush e (mtH s e).lastRet s

/-! ## Overruns (R240, R241) -/

/-- R240, R241: an overrun of kind `kind`, `cyc` cycles after the start: one record a tick, with the lowest kind. -/
def overrun (e kind cyc : Nat) (s : State) : State :=
  let h := mtH s e
  let p := pMT e
  let again : Bool := match h.ovrAt with | some (t, _) => t == s.tick | none => false
  let lower : Bool := match h.ovrAt with | some (t, k) => t != s.tick || decide (kind < k) | none => true
  let put := fun (s : State) =>
    setRg p 0x94 (fld s p 0x28 0 16 + s.tick % 2 ^ 16 * 2 ^ 16)
      (setRg p 0x90 (kind + shownPc s e * 16 + satN 65535 cyc * 2 ^ 16) s)
  let s1 := if lower then put (setMtH e { h with ovrAt := some (s.tick, kind), ovr := true } s) else s
  if again then s1 else detBreach 1 p (flag p 1 (incSat p 0x98 0 8 1 s1))

/-! ## Errors and ends of runs (R238, R239, R241) -/

/-- The cycles of RUN that a run which ends in cycle `ret` adds to the profiling window (R279). -/
def runCycles (s : State) (e ret : Nat) : Nat :=
  let h := mtH s e
  ret + 1 - 4 * ((if h.runFrom < s.profAt then s.profAt else h.runFrom) - h.start)

/-- R238: the engine leaves RUN, whose last cycle is `ret`. -/
def mtLeave (e st ret : Nat) (s : State) : State :=
  let h := mtH s e
  setBlockState (pMT e) st
    (setMtH e { h with waitAt := none, idleAt := some (tickAfter h.start ret), pBusy := h.pBusy + runCycles s e ret
                       leftAt := if mtNow s e ≤ ret then some s.tick else h.leftAt } s)

/-- R239: an error with its cause and program address. A halted engine counts for the halt bindings of legs (R301). -/
def mtFail (e cause addr : Nat) (s : State) : State :=
  let p := pMT e
  let s1 := flag p 3 (incSat p 0x98 24 8 1 (setRg p 0x9C (cause + addr % 4096 * 16) s))
  refreshLegs (setBlockState p mtERROR s1)

/-- R241: the count of consecutive overrunning runs at the end of a run. -/
def countConsec (e : Nat) (byHalt : Bool) (s : State) : State :=
  if (mtH s e).ovr then incSat (pMT e) 0x98 8 8 1 s else if byHalt then setFld (pMT e) 0x98 8 8 0 s else s

/-- R241: has `CONSEC` reached `OVR_LIM` in this run? -/
def consecOver (s : State) (e : Nat) : Bool :=
  (mtH s e).ovr && decide (actFld s (pMT e) 0x40 8 8 ≤ fld s (pMT e) 0x98 8 8)

/-- R241, R257: every instruction of the run has retired: an engine still in RUN is IDLE, or in ERROR where `CONSEC` has reached its
limit. A `HALT` sets `DONE` and gives `RUN_CYC`. -/
def mtFinish (e : Nat) (x : MtEnd) (s : State) : State :=
  let p := pMT e
  let run := mtState s e == mtRUN
  let s0 := mtDrain e s
  let s1 := setMtH e { mtH s0 e with ending := none, wasRun := false } s0
  let s2 := countConsec e x.byHalt (if run then mtLeave e mtIDLE x.ret s1 else s1)
  let n := satN 65535 (x.ret + 1)
  let top := fld s2 p 0x8C 16 16
  let s3 := if x.byHalt then flag p 0 (setRg p 0x8C (n + 2 ^ 16 * (if top < n then n else top)) s2) else s2
  if run ∧ consecOver s3 e then mtFail e 7 x.addr s3 else s3

/-- R239: the engine stops in cycle `c` with an error; instructions not yet retired are discarded. -/
def mtStop (e cause addr c : Nat) (s : State) : State :=
  let s1 := mtFlush e c s
  mtFail e cause addr (countConsec e false (mtLeave e mtERROR c (setMtH e { mtH s1 e with pend := [], ending := none } s1)))

/-- R238, R239: a run whose last instruction has retired before the present tick, or that meets its error in it, ends. -/
def mtEndDue (e : Nat) (s : State) : State :=
  match (mtH s e).ending with
  | none => s
  | some x =>
    if x.err ≠ 0 then (if mtState s e = mtRUN ∧ x.ret < mtNow s e + 4 then mtStop e x.err x.addr x.ret s else s)
    else if tickAfter (mtH s e).start x.ret ≤ s.tick then mtFinish e x s
    else s

/-- The engine has reached the present tick: what has retired takes effect, and a run that ends does so. -/
def mtSync (e : Nat) (s : State) : State := mtEndDue e (mtFlush e (mtNow s e) s)

/-- R241, R257: the run ends in the cycle after `ret`. -/
def mtEnding (e : Nat) (x : MtEnd) (s : State) : State := mtEndDue e (setMtH e { mtH s e with waitAt := none, ending := some x } s)

/-- R239: an engine error of the instruction at `addr`, detected in cycle `c`. -/
def mtError (e cause addr c : Nat) (s : State) : State := mtEnding e ⟨c, addr, false, cause⟩ s

/-- R238: no instruction issues from cycle `c` on: those accepted whose issue has not begun are taken back. A `HALT` that has issued and
every other instruction complete. -/
def mtCut (e c : Nat) (s : State) : State :=
  let h := mtH s e
  let kept := h.pend.filter (fun p => p.first < c)
  let back := h.pend.find? (fun p => c ≤ p.first)
  let last := kept.foldl (fun m p => max m (p.ret + 1)) (min h.lastRet (mtNow s e))
  let s1 := setMtH e { h with
    pend := kept, lastRet := last, waitAt := none, ret := h.ret.filter (fun r => r.2 < last)
    loops := match back with | some p => p.loops | none => h.loops
    isAt := match back with | some _ => (0, 0) | none => h.isAt
    ending := match h.ending with
      | some x => if x.byHalt ∧ h.cycle < c ∨ x.err ≠ 0 ∧ x.ret < c then some x else none
      | none => none } s
  match back with
  | some p => setMtPc e p.addr s1
  | none => s1

/-- R238: clearing `EN` aborts the run: instructions whose issue has begun complete, and until they have, a start is held. The engine is
OFF from the end of the present tick; a run whose `HALT` has issued ends by it. -/
def mtAbortOff (e : Nat) (s : State) : State :=
  let c := mtNow s e + 4
  let s1 := mtLeave e mtOFF (c - 1) (mtCut e c s)
  let h := mtH s1 e
  let stop := match h.ending with | some x => x.ret + 1 | none => h.lastRet
  let s2 := setMtH e { h with heldEnd := some (tickAfter h.start (stop - 1)) } s1
  if h.ending.isSome then s2 else countConsec e false s2

/-- R241: `EABORT` aborts the run: no instruction issues from the first cycle of the present tick, and those whose issue has begun
complete. A `HALT` that began to issue before is one of those. -/
def mtAbort (e : Nat) (s : State) : State :=
  let c := mtNow s e
  let s1 := mtCut e c s
  if (mtH s1 e).ending.isSome then s1
  else mtEnding e ⟨max (mtH s1 e).lastRet c - 1, mtPc s1 e, false, 0⟩ s1

/-! ## Starts (R235 to R238, R259, R275) -/

/-- R235: the entry address that a source selects. -/
def entryAddr (s : State) (e src : Nat) : Nat :=
  let x := if src < 8 then actFld s (pMT e) 0x44 (3 * src) 3
    else if src = 8 then actFld s (pMT e) 0x48 0 3
    else if src = 9 then actFld s (pMT e) 0x48 4 3
    else fld s (pMT e) 0x08 2 3
  actFld s (pMT e) (0x60 + 4 * x) 0 12

/-- R140, R259: κ of the present tick: the ramp of the bound pair's recovery, or the value last held. -/
def kappaNow (s : State) (e : Nat) : Nat :=
  let b := rg s (pMT e) 0x50
  let held := (mtH s e).kappa
  if b = 0 then held
  else match nth s.chk.recAt (b - 1) none with
    | none => held
    | some t0 =>
      let t := s.tick - t0
      if ¬ nth s.chk.coast (b - 1) false ∨ t ≤ 5 * msT then held
      else
        let ramp : Int := fld s pCHECKER 0x54 0 16 * (msT / 10)
        let k := rdiv .trn (2 ^ 15 * (ramp - ((t - 5 * msT : Nat) : Int))) (if ramp = 0 then 1 else ramp.toNat)
        if k < 0 then 0 else k.toNat

def injH (s : State) (c : Nat) : InjHid := nth s.inj c {}
def setInjH (c : Nat) (x : InjHid) (s : State) : State := { s with inj := s.inj.set c x }

/-- A field of an active register of injection channel `c`. -/
def injReg (s : State) (c d : Nat) : Nat := act s pMTS (0x40 + 0x20 * c + d)

/-- R275: the degree a and the tap b of a PRBS polynomial x^a + x^b + 1. -/
def prbsTaps (order : Nat) : Nat × Nat :=
  match order with
  | 0 => (7, 6) | 1 => (9, 5) | 2 => (11, 9) | 3 => (15, 14) | 4 => (23, 18) | _ => (31, 28)

/-- R275: one advance of a PRBS register. -/
def prbsStep (order r : Nat) : Nat :=
  let t := prbsTaps order
  (2 * r + b2n (bit r (t.1 - 1) != bit r (t.2 - 1))) % 2 ^ t.1

/-- R275: is channel `c` done before run n? -/
def injDone (s : State) (c : Nat) : Bool :=
  let x := injH s c
  let runs := injReg s c 0x14
  (runs != 0 && decide (runs ≤ x.n)) ||
    ((bits (injReg s c 0) 1 2 == 1 || bits (injReg s c 0) 1 2 == 2) && decide (injReg s c 0x10 < x.f))

/-- R275: s for the present run. -/
def injSignal (s : State) (c : Nat) : Int :=
  let cfg := injReg s c 0
  let x := injH s c
  if bits cfg 1 2 = 0 then (if bit x.reg ((prbsTaps (bits cfg 8 3)).1 - 1) then 32767 else -32767) else sinQ15 x.phase

/-- R275: the generator after run n. -/
def injAdvance (cfg fstep : Nat) (x : InjHid) : InjHid :=
  let hold := bits cfg 16 16
  let turn : Bool := hold = 0 || (x.n + 1) % hold = 0
  let y := { x with n := x.n + 1 }
  if bits cfg 1 2 = 0 then { y with reg := if turn then prbsStep (bits cfg 8 3) x.reg else x.reg }
  else { y with phase := (x.phase + x.f) % 2 ^ 32, f := if turn ∨ bits cfg 1 2 = 2 then x.f + fstep else x.f }

/-- R275: the value of channel `c` for a run of its owner is fixed in the start tick. -/
def injStart (e c : Nat) (s : State) : State :=
  let cfg := injReg s c 0
  if ¬ bit cfg 0 ∨ bits cfg 4 2 ≠ e then s
  else if injDone s c then
    setRg pMTS (0xC0 + 4 * c) (2 ^ 17) (setInjH c { injH s c with val := 0 } s)
  else
    let a := sgn 16 (bits (injReg s c 4) 0 16)
    let v := (convQ15 .rne (a * injSignal s c) 15).1
    setRg pMTS (0xC0 + 4 * c) (uns 16 v + 2 ^ 16)
      (setInjH c { injAdvance cfg (injReg s c 0xC) (injH s c) with val := v } s)

/-- Eight words written into the state memory of an engine, from word `w` on. -/
def putWords (e w : Nat) (ws : List Nat) (s : State) : State :=
  { s with mem := (List.range 8).foldl (fun m j => mwrite m (mtBase e + 0x10000 + 2 * (w + j)) (ws.getD j 0) 2) s.mem }

/-- R381, R410: the outputs of Honeybee and of the actuator drive units that a run of engine `e` starting in the present tick
finds in its state memory: those that counted before the tick. -/
def unitWords (e : Nat) (s : State) : State :=
  let s1 := if fld s pHB 0x40 8 2 = e ∧ s.hb.last.isSome then
      putWords e 1008 (if s.hb.outAt < s.tick then s.hb.out else s.hb.outPrev) s else s
  forRange 3 (fun u s =>
    let h := aduH s u
    if fld s (pADU u) 0x40 9 2 = e ∧ ¬ rbit s (pADU u) 0x40 8 ∧ h.last.isSome then
      putWords e (976 + 8 * u) (if h.outAt < s.tick then h.out else h.outPrev) s else s) s1

/-- R236, R259, R275: what the start tick fixes after any transfer in it: κ, the entry address, the compare ranges and the values of the
injection channels. -/
def mtLatch (e : Nat) (s : State) : State :=
  let k := kappaNow s e
  let s1 := setMtH e { mtH s e with kappa := k, carP := (List.range 16).map (carRange s)
                                    injWas := (List.range 4).map (fun c => (injH s c, rg s pMTS (0xC0 + 4 * c))) } s
  forRange 4 (injStart e) (setMtPc e (entryAddr s1 e (mtH s1 e).src) (setRg (pMT e) 0xA0 k s1))

/-- R236: the start of a run in the present tick, from source `src`. -/
def mtBegin (e src : Nat) (s : State) : State :=
  let s0 := mtDrain e s
  let h := mtH s0 e
  let slack := match h.idleAt with | some t => s.tick - t | none => 0xFFFFFF
  let h1 := { h with
    start := s.tick, runFrom := s.tick, cycle := 0, ret := [], firstAt := none, lastRet := 0, pend := [], isAt := (0, 0), src := src
    waitAt := none, ovr := false, held := none, heldEnd := none, ending := none,
    noted := List.replicate 8 none, recs := (List.range 8).map (fun k => fld s pSETS (recOff k 9) 8 8),
    starts := (h.starts + 1) % 2 ^ 32,
    pStarts := h.pStarts + 1, pSlack := if slack < h.pSlack then slack else h.pSlack, idleAt := none }
  mtLatch e (setBlockState (pMT e) mtRUN (unitWords e (setRg (pMT e) 0x84 0 (setMtH e h1 s0))))

/-- Has the run begun in the present tick without an instruction accepted yet? -/
def mtFresh (s : State) (e : Nat) : Bool :=
  let h := mtH s e
  mtState s e == mtRUN && h.start == s.tick && h.pend.isEmpty && h.ending.isNone && h.waitAt.isNone

/-- R237: a start that finds the engine OFF or ERROR is discarded and counted; in HALTED it is an overrun too (R528). -/
def mtDiscard (e : Nat) (s : State) : State :=
  let s1 := incSat (pMT e) 0x98 16 8 1 (setMtH e { mtH s e with pDisc := (mtH s e).pDisc + 1 } s)
  if mtState s e = mtHALTED then detBreach 1 (pMT e) s1 else s1

/-- R237, R240: does the first cycle of the present tick find the engine in RUN? -/
def inRun (s : State) (e : Nat) : Bool :=
  let h := mtH s e
  (mtState s e == mtRUN || h.leftAt == some s.tick) && decide (h.start < s.tick)

/-- R237: the first of the starts of one tick in the order of the rule gives the entry. -/
def mtPrefer (e src : Nat) (s : State) : State :=
  if mtFresh s e ∧ src < (mtH s e).src then setMtPc e (entryAddr s e src) (setMtH e { mtH s e with src := src } s) else s

/-- R235 to R238: the starts requested for the present tick. The first source in the order of R237 gives the entry. -/
def mtStart (e : Nat) (s : State) : State :=
  let h := mtH s e
  let due := h.reqs.filter (fun r => r.2 ≤ s.tick)
  match due with
  | [] => s
  | r :: _ =>
    let src := due.foldl (fun a x => if x.1 < a then x.1 else a) r.1
    let s1 := setMtH e { h with reqs := h.reqs.filter (fun r => s.tick < r.2) } s
    let st := mtState s e
    if inRun s e then overrun e 1 (mtNow s e) (setMtH e { mtH s1 e with pDisc := h.pDisc + 1 } s1)
    else if st = mtRUN then mtPrefer e src s1
    else if st = mtOFF ∨ st = mtERROR ∨ st = mtHALTED then mtDiscard e s1
    else if (match h.heldEnd with | some t => decide (s.tick < t) | none => false) then
      setMtH e { mtH s1 e with held := some (match h.held with | some x => if x < src then x else src | none => src) } s1
    else mtBegin e src s1

/-- R238: a held start takes effect once the aborted run's instructions have retired. -/
def mtHeldStart (e : Nat) (s : State) : State :=
  let h := mtH s e
  match h.held, h.heldEnd with
  | some src, some t =>
    if s.tick < t then s
    else if mtState s e = mtIDLE then mtBegin e src s
    else mtDiscard e (setMtH e { h with held := none, heldEnd := none } s)
  | _, _ => s

/-- R235, R238, R257: the end of a tick: the starts of the tick have been made, and a run that began in it waits for records written
after it. -/
def mtTickEnd (e : Nat) (s : State) : State :=
  let s1 := mtStart e (mtHeldStart e s)
  let h := mtH s1 e
  if mtState s1 e = mtRUN ∧ h.start = s1.tick then
    setMtH e { h with recs := (List.range 8).map (fun k => fld s1 pSETS (recOff k 9) 8 8) } s1
  else s1

/-! ## Epoch boundaries (R241, R247, R259, R275) -/

/-- `EPOCH.DOM` of a page (R81). -/
def domOf (s : State) (p : Nat) : Nat := fld s p 0x28 24 3

/-- R247: the working mailbox, as it stands in the first cycle of the tick, becomes the visible one. -/
def mailboxCopy (e : Nat) (s : State) : State :=
  let mb := (mtH s e).mbox
  let s2 := forRange 32 (fun j s => setRg (pMT e) (0x200 + 4 * j) (uns 16 (nth mb (2 * j) 0) + 2 ^ 16 * uns 16 (nth mb (2 * j + 1) 0)) s) s
  incWrap (pMT e) 0xA8 0 16 1 s2

/-- R240, R241, R528: a boundary of the engine's domain, after the transfer of R82. -/
def mtBoundary (e : Nat) (s : State) : State :=
  let run := inRun s e
  let s1 := mailboxCopy e s
  if run then
    let s2 := overrun e 2 (mtNow s e) s1
    if actFld s2 (pMT e) 0x40 4 1 = 1 ∧ mtState s2 e = mtRUN then mtAbort e s2 else s2
  else if mtState s e = mtHALTED ∧ (mtH s e).wasRun then overrun e 2 (mtNow s e) s1
  else s1

/-- R275: what a transfer of `MTSHARED` brings: a channel whose `EN` was set starts afresh. -/
def injTransferred (o : State) (c : Nat) (s : State) : State :=
  let was := bit (injReg o c 0) 0
  let is_ := bit (injReg s c 0) 0
  if is_ ∧ ¬ was then
    let seed := injReg s c 8 % 2 ^ (prbsTaps (bits (injReg s c 0) 8 3)).1
    setRg pMTS (0xC0 + 4 * c) (2 ^ 16) (setInjH c { reg := seed, f := injReg s c 8 } s)
  else if was ∧ ¬ is_ then setFld pMTS (0xC0 + 4 * c) 16 2 0 (setInjH c {} s)
  else s

/-- R276: a capture channel whose `EN` was set records from its base onwards; an enabled one whose base has changed goes on
at the new base. -/
def capTransferred (o : State) (c : Nat) (s : State) : State :=
  let base := bits (capReg s c 4) 0 18
  if ¬ bit (capReg s c 0) 0 then s
  else if ¬ bit (capReg o c 0) 0 then setRg pMTS (0x10C + 0x10 * c) base (setCapH c { ptr := base } s)
  else if bits (capReg o c 4) 0 18 ≠ base then setRg pMTS (0x10C + 0x10 * c) base (setCapH c { capH s c with ptr := base } s)
  else s

/-- R275, R276: what a new active bank of `MTSHARED` brings to its channels; `o` is the state before. -/
def mtsTransferred (o s : State) : State := forRange 4 (fun c s' => capTransferred o c (injTransferred o c s')) s

/-- R82: every page `moved` names transfers, and each block takes what that brings. -/
def transferAll (moved : Nat → Bool) (s : State) : State :=
  let s1 := epochTransfer moved s
  let s2 := forRange 6 (fun g s' => if moved (pSDG g) then sdgTransferred s g s' else s') (if moved pSETS then setsTransferred s s1 else s1)
  let s3 := if moved pMTS then mtsTransferred s s2 else s2
  let s4 := forRange 2 (fun i s' => if moved (pDF i) then dfTransferred i s' else s') s3
  let s5 := (if moved pHB then hbTransferred s else id) <| (if moved pCAL then calTransferred else id) s4
  let back : Nat → Bool := fun b => b == 0 || (nth s.chk.recAt (b - 1) none).isNone
  forRange 4 (fun e s' =>
    if moved (pMT e) ∧ back (rg s' (pMT e) 0x50) then setMtH e { mtH s' e with kappa := 0x8000 } s' else s') s5

/-- R275: a run that has begun in the present tick gives back the values of its injection channels, which the bank after a transfer
of the tick fixes. -/
def injUndo (e : Nat) (s : State) : State :=
  forRange 4 (fun c s =>
    let cfg := injReg s c 0
    match (mtH s e).injWas[c]? with
    | some x => if bit cfg 0 ∧ bits cfg 4 2 = e then setRg pMTS (0xC0 + 4 * c) x.2 (setInjH c x.1 s) else s
    | none => s) s

/-- R82, R236, R241, R272, R275: a transfer of the pages `moved`; runs that start in this tick and coefficients still to be read use the
new banks. -/
def transferPages (moved : Nat → Bool) (s : State) : State :=
  let es := (List.range 4).filter (mtFresh s)
  let s1 := transferAll moved (es.foldl (fun s e => injUndo e s) s)
  es.foldl (fun s e => mtLatch e s) (forRange 4 (fun e s => if moved (pMT e) then spreadAgain e s else s) s1)

/-! ## Writes of the `MT` and `MTSHARED` pages and of the engines' windows -/

/-- R237, R238, R260, R261: the checks of a write to `MT.e`. A `START` in the tick of another start is one of the tick's starts. -/
def mtChk (s : State) (e o v : Nat) (_old new : Nat) : Option Reason :=
  let st := mtState s e
  if o = 0x08 then
    firstReason [(cmdBit v 1 && st != mtIDLE && ! (st == mtRUN && (mtH s e).start == s.tick), .state), (cmdBit v 5 && st != mtERROR, .state), (cmdBit v 0 && st == mtERROR, .state)]
  else if o = 0x40 then firstReason [(bits new 0 2 == 3 || bits new 8 8 == 0, .value)]
  else if o = 0x50 then firstReason [(new == 3, .value)]
  else none

/-- R238, R279: the engine enters IDLE in the present tick. -/
def mtIdle (e : Nat) (s : State) : State := setBlockState (pMT e) mtIDLE (setMtH e { mtH s e with idleAt := some s.tick } s)

/-- R261: `CLEAR` in ERROR. -/
def mtClear (e : Nat) (s : State) : State :=
  let p := pMT e
  refreshLegs (mtIdle e (setFld p 0x98 24 8 0 (setFld p 0x8C 16 16 0 (setFld p 0x98 8 8 0 s))))

/-- R238: `EN` is cleared. -/
def mtOff (e : Nat) (s : State) : State :=
  if mtState s e = mtRUN then mtAbortOff e s
  else refreshLegs (setBit pDEBUG 0x40 (8 + e) false (setBlockState (pMT e) mtOFF (setMtH e { mtH s e with wasRun := false } s)))

/-- The effects of a write to `MT.e`, `was` being `EN` before it. -/
def mtEff (e o v : Nat) (was : Bool) (s : State) : State :=
  if o = 0x08 then
    let en := pageEn s (pMT e)
    let s1 := if cmdBit v 5 ∧ mtState s e = mtERROR then mtClear e s else s
    if was ∧ ¬ en then mtOff e s1
    else if en ∧ ¬ was then mtIdle e s1
    else if cmdBit v 1 then mtStart e (mtRequest e 10 s.tick s1)
    else s1
  else s

/-- R155: a W1C write of an engine's `ARITH`. -/
def mtArithClear (e v : Nat) (s : State) : State :=
  let s1 := clearArith (pMT e) 0x80 v s
  if v &&& 7 = 0 then s1 else setMtH e { mtH s1 e with firstSet := false, firstAt := none } s1

/-- A write to a register of `MT.e`. `ARITH` is cleared under R155. -/
def mtWrite (acc : Access) (e o v : Nat) (s : State) : State :=
  if o = 0x80 then mtArithClear e v s
  else busStore acc (pMT e) o v (mtChk s e o v) (mtEff e o v (pageEn s (pMT e))) s

/-- R278: does the pending bank of `MTSHARED` hold what `ARM` refuses? -/
def mtsBad (s : State) : Bool :=
  let cfg := fun c => rg s pMTS (0x40 + 0x20 * c)
  let cap := fun c d => rg s pMTS (0x100 + 0x10 * c + d)
  let en := fun c => bit (cap c 0) 0
  let lo := fun c => bits (cap c 4) 0 18
  let hi := fun c => bits (cap c 4) 0 18 + bits (cap c 8) 0 19
  (List.range 4).any (fun c => bit (cfg c) 0 &&
    (bits (cfg c) 1 2 == 3 || decide (6 ≤ bits (cfg c) 8 3) || bits (cfg c) 16 16 == 0 ||
      (bits (cfg c) 1 2 == 0 && rg s pMTS (0x48 + 0x20 * c) % 2 ^ (prbsTaps (bits (cfg c) 8 3)).1 == 0))) ||
  (List.range 4).any (fun c => en c && (lo c % 16 != 0 || hi c % 16 != 0 || decide (bits (cap c 8) 0 19 < 16) || decide (262144 < hi c))) ||
  (List.range 4).any (fun c => (List.range 4).any (fun d => decide (c < d) && en c && en d && decide (lo c < hi d ∧ lo d < hi c)))

/-- R280: the checks of a write to `MTSHARED`. -/
def mtsChk (o : Nat) (_old new : Nat) : Option Reason := if o = 0x1C0 then firstReason [(decide (new < 1000), .value)] else none

/-- R279: setting `PROF_EN` starts the first window. -/
def profBegin (s : State) : State :=
  { s with profAt := s.tick, mt := s.mt.map (fun h => { h with pBusy := 0, pStarts := 0, pDisc := 0, pSlack := 0xFFFFFF }) }

/-- A write to a register of `MTSHARED`. -/
def mtsWrite (acc : Access) (o v : Nat) (s : State) : State :=
  busStore acc pMTS o v (mtsChk o) (fun s' => if o = 0x08 ∧ pageEn s' pMTS ∧ ¬ pageEn s pMTS then profBegin s' else s') s

/-- R234: a write to a window of engine `e` is refused: `OFFSET` reads 0xFFF and `REJ_WADDR` holds the window offset. -/
def refuseWindow (acc : Access) (e off v : Nat) (r : Reason) (s : State) : State :=
  setRg (pMT e) 0xA4 (off % 2 ^ 17) (refuse acc (pMT e) 0xFFF v r s)

/-- R68, R78, R83, R163, R234: a write of `n` bytes at offset `off` of the window of engine `e`. -/
def windowWrite (acc : Access) (e off v n : Nat) (s : State) : State :=
  let put := { s with mem := mwrite s.mem (mtBase e + off) v n }
  let st := mtState s e
  if off < 0x8000 then
    (if st ≠ mtOFF then refuseWindow acc e off v .state s
     else if detActive s ∧ mread s.mem (mtBase e + off) n ≠ v % 256 ^ n then detBreach 0 (pMT e) put else put)
  else if off < 0xC000 then
    (if locked s (pMT e) ∧ mread s.mem (mtBase e + off) n ≠ v % 256 ^ n then refuseWindow acc e off v .locked s
     else if armed s (pMT e) then refuseWindow acc e off v .armed s else setBit (pMT e) 0x0C 8 true put)
  else if off < 0x10000 then refuseWindow acc e off v .view s
  else if off < 0x10800 then (if st = mtRUN then refuseWindow acc e off v .state s else put)
  else s

end Sys2Proof.Machine
end

