-- ==== Sys2Proof/Machine/Mantis.lean ====
section
/-! DEFINITION. The Mantis instruction set (R242 to R258): fetch, the timing of R243, the results of every instruction, control
flow, and Cicada's slot actions, which start engines (R179). -/
namespace Sys2Proof.Machine

/-! ## Issue and retirement (R243) -/

/-- The resources whose writers later readers wait for: elements of vector registers, accumulators, angle and duty registers,
run flags, state-memory words and mailbox elements. -/
def kVec (r i : Nat) : Nat := 16 * r + i
def kAcc (r : Nat) : Nat := 256 + r
def kAng (r : Nat) : Nat := 272 + r
def kDuty (r : Nat) : Nat := 276 + r
def kFlag (f : Nat) : Nat := 292 + f
def kWord (w : Nat) : Nat := 512 + w
def kMbox (i : Nat) : Nat := 1536 + i

/-- All elements of vector register `r`. -/
def kReg (r : Nat) : List Nat := (List.range 16).map (kVec r)

/-- What an instruction is at its issue: an error cause (0 none), the resources it reads and writes, its issue cycles and
latency (0: it retires in its last issue cycle), and its results. -/
structure MtOp where
  err    : Nat := 0
  reads  : List Nat := []
  writes : List Nat := []
  issue  : Nat := 1
  lat    : Nat := 1
  effs   : List MtEff := []
  /-- the places its memory reads meet (R142) -/
  mem    : List Nat := []
  spread : Option MtSpread := none

/-- The cycle in which a resource is retired, if an earlier instruction of the run wrote it; the last one, where several set a
run flag. -/
def retOf (h : MtHid) (k : Nat) : Option Nat :=
  h.ret.foldl (fun r e => if e.1 = k then some (match r with | some x => max x e.2 | none => e.2) else r) none

/-- R243: run flags need no order among their writers. -/
def isFlagKey (k : Nat) : Bool := decide (292 ≤ k) && decide (k < 512)

/-- R243: the first issue cycle: after the writers of what is read, and late enough to retire after earlier writers of what
is written. -/
def issueCycle (h : MtHid) (reads writes : List Nat) (span : Nat) : Nat :=
  let c1 := reads.foldl (fun c k => match retOf h k with | some r => if c < r + 1 then r + 1 else c | none => c) h.cycle
  (writes.filter (fun k => ! isFlagKey k)).foldl
    (fun c k => match retOf h k with | some r => if c + span < r + 1 then r + 1 - span else c | none => c) c1

/-- The number of ticks' cycles from the first issue cycle to retirement. -/
def opSpan (op : MtOp) : Nat := op.issue - 1 + (if op.lat = 0 then 0 else op.lat - 1)

/-- R257: the loop that ends at address `pc`, the inner one first. -/
def loopAt (h : MtHid) (pc : Nat) : Option Nat :=
  let on := fun i => let l := nth h.loops i {}; l.active && l.stop == pc
  if on 0 && on 1 then (if (nth h.loops 0 {}).start < (nth h.loops 1 {}).start then some 1 else some 0)
  else if on 0 then some 0 else if on 1 then some 1 else none

/-- R239, R257: after the last issue cycle `c` of an instruction that does not branch: loops that end here, then the next
address. -/
def mtNext (e c : Nat) : Nat → State → State
  | 0, s => s
  | n + 1, s =>
    let h := mtH s e
    let pc := mtPc s e
    match loopAt h pc with
    | some i =>
      let l := nth h.loops i {}
      if l.left = 0 then
        mtNext e c n (setMtH e { h with loops := h.loops.set i { l with active := false, done := l.done + 1 } } s)
      else
        setMtPc e l.start (setMtH e { h with cycle := c + 2, loops := h.loops.set i { l with left := l.left - 1, done := l.done + 1 } } s)
    | none =>
      if pc = 4095 then mtError e 5 0xFFF (c + 1) s
      else setMtPc e (pc + 1) (setMtH e { h with cycle := c + 1 } s)

/-- R243, R260: an instruction at `pc` is accepted: it issues from cycle `first` to `last` and retires in cycle `ret`. -/
def mtAccept (pc first last ret : Nat) (effs : List MtEff) (spread : Option MtSpread) (h : MtHid) : MtHid :=
  { h with pend := h.pend ++ [{ first := first, ret := ret, addr := pc, effs := effs, loops := h.loops, spread := spread }]
           isAt := (pc, last + 1), lastRet := if h.lastRet < ret + 1 then ret + 1 else h.lastRet }

/-- R243: what has retired before the present tick takes effect. -/
def mtSettle (e : Nat) (s : State) : State := if mtState s e = mtRUN then mtFlush e (mtNow s e) s else s

/-- R242, R243: an instruction issues: its results wait for its retire cycle. -/
def mtIssue (e : Nat) (op : MtOp) (s : State) : State :=
  let h := mtH s e
  let c0 := issueCycle h op.reads op.writes (opSpan op)
  let c := c0 + op.issue - 1
  let ret := c0 + opSpan op
  let keep := h.ret.filter (fun x => h.cycle ≤ x.2 && (isFlagKey x.1 || ! op.writes.contains x.1))
  let h1 := mtAccept (mtPc s e) c0 c ret op.effs op.spread { h with ret := op.writes.map (fun k => (k, ret)) ++ keep }
  mtSettle e (mtNext e c 3 (setMtH e h1 s))

/-- The state in which an instruction reads its operands: earlier results it may read have retired. -/
def mtOperands (e : Nat) (s : State) : State := mtDrain e s

/-! ## Fetch -/

/-- R244: the assigned opcodes other than `NOP`. -/
def mtOpcodes : List Nat :=
  [0x01, 0x04, 0x05, 0x06, 0x08, 0x09, 0x0C, 0x0D, 0x0E, 0x10, 0x11, 0x12, 0x13, 0x14, 0x15, 0x18, 0x19, 0x1A, 0x1C, 0x20, 0x21, 0x22]

/-- R142, R143: an engine reads the 64-bit words at the places `as` of its memories, the first with the outcome `ecc`. -/
def mtReadEcc (as : List Nat) (ecc : Ecc) (s : State) : State :=
  match as with
  | [] => s
  | a :: l => (l.filter (fun b => b / 8 != a / 8)).foldl (fun s b => eccRead 4 3 (b / 8 * 8) b .good s) (eccRead 4 3 (a / 8 * 8) a ecc s)

/-- R239: is one of the words uncorrectable? -/
def mtReadBad (s : State) (as : List Nat) (ecc : Ecc) : Bool :=
  match as with
  | [] => false
  | a :: l => eccBad (eccMeet s a ecc) || l.any (fun b => eccBad (eccMeet s b .good))

/-- R239: the fetch at the program counter. -/
def fetchBad (s : State) (e : Nat) (ecc : Ecc) : Bool := mtReadBad s [mtBase e + 8 * mtPc s e] ecc
def fetchEcc (e : Nat) (ecc : Ecc) (s : State) : State := mtReadEcc [mtBase e + 8 * mtPc s e] ecc s

/-- R243: can an instruction issue in the present tick? Its predecessor has issued before the tick's end, and no `HALT` or abort has
ended issue. -/
def mtIssues (s : State) (e : Nat) : Bool :=
  mtState s e == mtRUN && (mtH s e).ending.isNone && decide ((mtH s e).cycle < mtNow s e + 4)

/-- `NOP`s at the program counter, each one cycle. -/
def mtNops (e : Nat) : Nat → State → State
  | 0, s => s
  | n + 1, s =>
    if mtIssues s e ∧ progWord s e (mtPc s e) = 0 ∧ ¬ fetchBad s e .good then mtNops e n (mtIssue e {} (fetchEcc e .good s)) else s

/-- Engine `e` executes its next instruction if it is the one with opcode `op`; the check bits of its word show `ecc`. An opcode R244 does
not assign is an error of cause 1 whatever the command. An instruction whose turn has not come by the end of the present tick waits. -/
def mtStep (f : MtFetch) (op : Nat) (run : Nat → State → State) (s : State) : State :=
  let e : Nat := f.engine
  if ¬ powered s ∨ ¬ mtIssues s e then s
  else
    let s1 := mtNops e (2 ^ 32) s
    if ¬ mtIssues s1 e then s1
    else if fetchBad s1 e f.ecc then mtError e 4 (mtPc s1 e) (mtH s1 e).cycle (fetchEcc e f.ecc s1)
    else
      let w := progWord s1 e (mtPc s1 e)
      if ¬ mtOpcodes.contains (w / 2 ^ 58) then mtError e 1 (mtPc s1 e) (mtH s1 e).cycle s1
      else if w / 2 ^ 58 = op then run w (fetchEcc e f.ecc s1)
      else s

/-- R239: an instruction that may raise an error at issue, else issues. -/
def mtExecEcc (e : Nat) (ecc : Ecc) (mk : State → MtOp) (s : State) : State :=
  let op := mk (mtOperands e s)
  let h := mtH s e
  let bad := mtReadBad s op.mem ecc
  let s1 := if op.err = 0 then mtReadEcc op.mem ecc s else s
  if op.err ≠ 0 ∨ bad then mtError e (if op.err ≠ 0 then op.err else 4) (mtPc s e) (issueCycle h op.reads [] 0) s1
  else mtIssue e op s1

/-- An instruction whose command brings no outcome of its memory reads. -/
def mtExec (e : Nat) (mk : State → MtOp) (s : State) : State := mtExecEcc e .good mk s

/-- R242: is a bit outside the listed fields (high, low) of the word 1? The opcode field is always listed. -/
def strayBits (w : Nat) (fields : List (Nat × Nat)) : Bool :=
  clrN w (fields.foldl (fun m f => orN m ((2 ^ (f.1 + 1 - f.2) - 1) * 2 ^ f.2)) (63 * 2 ^ 58)) != 0

/-- The first error cause of a list of (condition, cause). -/
def firstErr : List (Bool × Nat) → Nat
  | [] => 0
  | (c, n) :: l => if c then n else firstErr l

/-- The elements a mask selects. -/
def selected (n mask : Nat) : List Nat := (List.range n).filter (bit mask)

/-- Run flag bits of R258. -/
def fLF : Nat := 0
def fSAT : Nat := 1
def fAOV : Nat := 2
def fRCP : Nat := 3

/-- R246: with `X` = 1 the number of iterations `L0` has completed is added to an address. -/
def xAddr (s : State) (e : Nat) (x : Bool) (addr : Nat) : Nat := if x then addr + (nth (mtH s e).loops 0 {}).done else addr

/-! ## Loads and stores -/

/-- R245: `LDS`. -/
def opLds (_e w : Nat) (s : State) : MtOp :=
  let d := iw w 57 54
  let t := iw w 47 46
  let k := iw w 45 43
  let st := rg s pSETS (recOff k 9)
  let el := fun i => sgn 16 (fld s pSETS (recOff k (i / 2)) (16 * (i % 2)) 16)
  let tinv : Bool := decide (bits st 4 3 ≠ trVALID ∧ bits st 4 3 ≠ trCOAST)
  let set_ := 16 * b2n (bit st 0) + 32 * b2n tinv
  { err := firstErr [(strayBits w [(57, 54), (47, 46), (45, 43)], 1)], issue := 2, lat := 2
    writes := kReg d ++ [kAng t, kFlag 4, kFlag 5]
    effs := (List.range 16).map (fun i => .vec d i (el i)) ++ [.ang t (rg s pSETS (recOff k 8)), .flags set_ (clrN 48 set_)] }

/-- R246: `LDX`. -/
def opLdx (e w : Nat) (s : State) : MtOp :=
  let d := iw w 57 54
  let src := iw w 45 44
  let cs := bit w 43
  let p := iw w 41 38
  let n := iw w 37 34 + 1
  let addr := xAddr s e (bit w 42) (iw w 33 21)
  let ks := List.range n
  let x : MtSpread := { w := w, at_ := addr, ks := ks.map (fun i => if src = 0 then stWord s e (addr + i) else coefWord s e (addr + i))
                        va := [], acc := [] }
  { err := firstErr [(strayBits w [(57, 54), (45, 45), (44, 44), (43, 43), (42, 42), (41, 38), (37, 34), (33, 21)] || src == 3 ||
        (src == 2 && (p != 0 || cs)), 1),
      (decide (src = 2 ∧ (16 < d + n ∨ 256 < addr + n)) || decide (src ≠ 2 ∧ 16 < p + n) || decide (src = 0 ∧ 1024 < addr + n) ||
        decide (src = 1 ∧ 8192 < addr + n), 2)]
    issue := quarter n, lat := 2
    mem := ks.map (fun i => mtBase e + (if src = 0 then 0x10000 + 2 * (addr + i) else if src = 1 then 0xC000 + 2 * (addr + i)
      else 0x10000 + 8 * (addr + i)))
    reads := if src = 0 then ks.map (fun i => kWord (addr + i)) else if src = 2 then (List.range (4 * n)).map (fun i => kWord (4 * addr + i)) else []
    writes := (if src = 2 then ks.map (fun i => kAcc (d + i)) else ks.map (fun i => kVec d (p + i))) ++ [kFlag fSAT]
    effs := if src = 2 then ks.map (fun i => .acc (d + i) (stSlot s e (addr + i))) else spreadEffs s e (mtPc s e) x
    spread := if src = 1 then some x else none }

/-- R142: the 64-bit words of state memory that a store of `n` words from word `addr` on writes whole. -/
def wholeWords (addr n : Nat) : List Nat := (List.range 256).filter (fun q => decide (addr ≤ 4 * q ∧ 4 * q + 4 ≤ addr + n))

/-- R142, R246 to R248: `STS`. A 64-bit word of state memory that it writes in part is read first. -/
def opSts (e w : Nat) (s : State) : MtOp :=
  let h := mtH s e
  let a := iw w 53 50
  let dst := iw w 45 44
  let p := iw w 41 38
  let n := iw w 37 34 + 1
  let addr := xAddr s e (bit w 42) (iw w 33 21)
  let ks := List.range n
  let whole := if dst = 0 then wholeWords addr n else []
  { err := firstErr [(strayBits w [(53, 50), (45, 44), (42, 42), (41, 38), (37, 34), (33, 21)] ||
        (dst == 2 && (bit w 42 || iw w 33 21 != 0 || p != 0 || n != 1)) || (dst == 3 && p != 0), 1),
      (decide (dst = 0 ∧ (16 < p + n ∨ 1024 < addr + n)) || decide (dst = 1 ∧ (16 < p + n ∨ 64 < addr + n)) ||
        decide (dst = 3 ∧ (16 < a + n ∨ 256 < addr + n)), 2)]
    issue := quarter n, lat := 1
    mem := if dst = 0 then (ks.filter (fun i => ! whole.contains ((addr + i) / 4))).map (fun i => mtBase e + 0x10000 + 2 * (addr + i)) else []
    reads := if dst = 3 then ks.map (fun i => kAcc (a + i)) else kReg a
    writes := if dst = 0 then ks.map (fun i => kWord (addr + i)) else if dst = 1 then ks.map (fun i => kMbox (addr + i))
      else if dst = 3 then (List.range (4 * n)).map (fun i => kWord (4 * addr + i)) else []
    effs := if dst = 0 then whole.map .fresh ++ ks.map (fun i => .word (addr + i) (vget h a (p + i)))
      else if dst = 1 then ks.map (fun i => .mbox (addr + i) (vget h a (p + i)))
      else if dst = 2 then [.track ((List.range 16).map (vget h a))]
      else ks.map (fun i => .slot (addr + i) (accGet h (a + i))) }

/-! ## Arithmetic -/

/-- R249: `MVM`, and `MVMZ`, whose opcode says so. -/
def opMvm (e w : Nat) (s : State) : MtOp :=
  let h := mtH s e
  let d := iw w 57 54
  let a := iw w 53 50
  let st := iw w 45 42
  let rows := iw w 41 38 + 1
  let cols := iw w 37 34 + 1
  let addr := xAddr s e (bit w 20) (iw w 33 21)
  let x : MtSpread := { w := w, at_ := addr, ks := (List.range (rows * cols)).map (fun i => coefWord s e (addr + i))
                        va := (List.range 16).map (vget h a), acc := h.acc }
  let ks := (List.range rows).map (fun r => kAcc (d + r))
  { err := firstErr [(strayBits w [(57, 54), (53, 50), (45, 42), (41, 38), (37, 34), (33, 21), (20, 20)], 1),
      (decide (16 < d + rows) || decide (16 < st + cols) || decide (8192 < addr + rows * cols), 2)]
    issue := rows * quarter cols, lat := 3
    mem := (List.range (rows * cols)).map (fun i => mtBase e + 0xC000 + 2 * (addr + i))
    reads := kReg a ++ (if iw w 63 58 = 0x09 then [] else ks)
    writes := ks ++ [kFlag fAOV]
    effs := mvmEffs (mtPc s e) x
    spread := some x }

/-- R250: the element-wise instructions: the exact result of an element, its latency and issue cycles. -/
def opElem (f : Int → Int → Int × Bool) (issue lat : Nat) (e w : Nat) (s : State) : MtOp :=
  let h := mtH s e
  let d := iw w 57 54
  let a := iw w 53 50
  let b := iw w 49 46
  let sel := selected 16 (iw w 15 0)
  let res := fun i => f (vget h a i) (vget h b (if bit w 45 then iw w 44 41 else i))
  { err := firstErr [(strayBits w [(57, 54), (53, 50), (49, 46), (45, 45), (44, 41), (15, 0)] || iw w 15 0 == 0, 1)]
    issue := issue, lat := lat, reads := kReg a ++ kReg b, writes := sel.map (kVec d) ++ [kFlag fSAT]
    effs := sel.map (fun i => .vec d i (res i).1) ++ satEffs (mtPc s e) (sel.any (fun i => (res i).2)) false false }

def opVadd (e w : Nat) (s : State) : MtOp := opElem (fun x y => satS 16 (x + y)) 1 1 e w s
def opVsub (e w : Nat) (s : State) : MtOp := opElem (fun x y => satS 16 (x - y)) 1 1 e w s
def opVmul (e w : Nat) (s : State) : MtOp := opElem (fun x y => convQ15 (mtRnd s e) (x * y) 15) 4 2 e w s

/-- R250: `ACV`. -/
def opAcv (e w : Nat) (s : State) : MtOp :=
  let h := mtH s e
  let d := iw w 57 54
  let a := iw w 53 50
  let sh := sgn 5 (iw w 45 41)
  let p := iw w 40 37
  let n := iw w 36 33 + 1
  let ks := List.range n
  let res := fun i => convQ15 (mtRnd s e) (accGet h (a + i)) (15 - sh).toNat
  { err := firstErr [(strayBits w [(57, 54), (53, 50), (45, 41), (40, 37), (36, 33)], 1), (decide (16 < a + n) || decide (16 < p + n), 2)]
    issue := quarter n, lat := 2, reads := ks.map (fun i => kAcc (a + i)), writes := ks.map (fun i => kVec d (p + i)) ++ [kFlag fSAT]
    effs := ks.map (fun i => .vec d (p + i) (res i).1) ++ satEffs (mtPc s e) (ks.any (fun i => (res i).2)) false false }

/-- R251: `SCS`. -/
def opScs (e w : Nat) (s : State) : MtOp :=
  let h := mtH s e
  let d := iw w 57 54
  let a := iw w 53 50
  let t := iw w 47 46
  let j := iw w 45 42
  let m := iw w 41 39 + 1
  let phi := fun i => uns 32 ((nth h.ang t 0 : Int) + vget h a (j + i) * 2 ^ 16)
  { err := firstErr [(strayBits w [(57, 54), (53, 50), (47, 46), (45, 42), (41, 39)], 1), (decide (16 < j + m), 2)]
    issue := m + 1, lat := 3, reads := kReg a ++ [kAng t], writes := (List.range (2 * m)).map (kVec d)
    effs := (List.range m).flatMap (fun i => [.vec d (2 * i) (cosQ15 (phi i)), .vec d (2 * i + 1) (sinQ15 (phi i))]) }

/-- R252: `ROT`. -/
def opRot (e w : Nat) (s : State) : MtOp :=
  let h := mtH s e
  let d := iw w 57 54
  let a := iw w 53 50
  let b := iw w 49 46
  let q := iw w 44 41
  let sel := selected 8 (iw w 7 0)
  let c := vget h b q
  let sn := if bit w 45 then -(vget h b (q + 1)) else vget h b (q + 1)
  let res := fun i =>
    let x := vget h a (2 * i)
    let y := vget h a (2 * i + 1)
    (convQ15 (mtRnd s e) (x * c - y * sn) 15, convQ15 (mtRnd s e) (x * sn + y * c) 15)
  { err := firstErr [(strayBits w [(57, 54), (53, 50), (49, 46), (45, 45), (44, 41), (7, 0)] || iw w 7 0 == 0, 1), (decide (14 < q), 2)]
    issue := sel.length, lat := 3, reads := kReg a ++ kReg b
    writes := sel.flatMap (fun i => [kVec d (2 * i), kVec d (2 * i + 1)]) ++ [kFlag fSAT]
    effs := sel.flatMap (fun i => [.vec d (2 * i) (res i).1.1, .vec d (2 * i + 1) (res i).2.1]) ++
      satEffs (mtPc s e) (sel.any (fun i => (res i).1.2 || (res i).2.2)) false false }

/-- R253: `LIM`. -/
def opLim (e w : Nat) (s : State) : MtOp :=
  let h := mtH s e
  let d := iw w 57 54
  let a := iw w 53 50
  let b := iw w 49 46
  let af := bit w 45
  let sel := selected 16 (iw w 15 0)
  let l := fun i => let x := vget h b i; if x < 0 then 0 else x
  let old := fun i => if af then accGet h (a + i) else vget h a i
  let new := fun i => if af then clampI (-(l i * 2 ^ 15)) (l i * 2 ^ 15) (old i) else clampI (-(l i)) (l i) (old i)
  { err := firstErr [(strayBits w [(57, 54), (53, 50), (49, 46), (45, 45), (15, 0)] || iw w 15 0 == 0, 1),
      (af && sel.any (fun i => decide (15 < a + i ∨ 15 < d + i)), 2)]
    reads := kReg b ++ (if af then sel.map (fun i => kAcc (a + i)) else kReg a)
    writes := (if af then sel.map (fun i => kAcc (d + i)) else sel.map (kVec d)) ++ [kFlag fLF]
    effs := (if af then sel.map (fun i => .acc (d + i) (new i)) else sel.map (fun i => .vec d i (new i))) ++
      (if sel.any (fun i => new i != old i) then [.flags 1 0] else []) }

/-- R253: `CLAMP`. -/
def opClamp (e w : Nat) (s : State) : MtOp :=
  let h := mtH s e
  let d := iw w 57 54
  let a := iw w 53 50
  let b := iw w 49 46
  let c := iw w 45 42
  let sel := selected 16 (iw w 15 0)
  let new := fun i =>
    let x := if vget h a i < vget h b i then vget h b i else vget h a i
    if vget h c i < x then vget h c i else x
  { err := firstErr [(strayBits w [(57, 54), (53, 50), (49, 46), (45, 42), (15, 0)] || iw w 15 0 == 0, 1)]
    reads := kReg a ++ kReg b ++ kReg c, writes := sel.map (kVec d) ++ [kFlag fLF]
    effs := sel.map (fun i => .vec d i (new i)) ++ (if sel.any (fun i => new i != vget h a i) then [.flags 1 0] else []) }

/-! ## Duties, commits, injection and capture -/

/-- R158 to R160, R254: `DUTY`. -/
def opDuty (e w : Nat) (s : State) : MtOp :=
  let h := mtH s e
  let d := iw w 57 54
  let a := iw w 53 50
  let b := iw w 49 46
  let st := iw w 41 38
  let n := iw w 37 34 + 1
  let ks := List.range n
  let vl := vget h b (iw w 45 42)
  let q := fun i => dutyQuot (vget h a (st + i)) vl
  { err := firstErr [(strayBits w [(57, 54), (53, 50), (49, 46), (45, 42), (41, 38), (37, 34), (33, 30)], 1),
      (decide (16 < d + n) || decide (16 < st + n), 2)]
    issue := 4 + n, lat := 4, reads := kReg a ++ kReg b, writes := ks.map (fun i => kDuty (d + i)) ++ [kFlag fSAT, kFlag fRCP]
    effs := ks.map (fun i => .duty (d + i) (dutyCompare (mtRnd s e) (nth h.carP (iw w 33 30) 0) (q i).1)) ++
      satEffs (mtPc s e) (ks.any (fun i => (q i).2.1)) false (ks.any (fun i => (q i).2.2)) }

/-- R255: `COMMIT`. -/
def opCommit (e w : Nat) (s : State) : MtOp :=
  let h := mtH s e
  let a := iw w 53 50
  let leg := iw w 45 41
  let n := iw w 40 38 + 1
  let ks := List.range n
  let mask := act s (pMT e) 0x4C
  { err := firstErr [(strayBits w [(53, 50), (45, 41), (40, 38), (37, 37), (36, 36)], 1), (decide (32 < leg + n) || decide (16 < a + n), 2),
      (ks.any (fun i => ! bit mask (leg + i)), 3)]
    issue := 2, lat := 2, reads := ks.map (fun i => kDuty (a + i))
    effs := [.commit (bit w 36) (ks.map (fun i => (leg + i, bit w 37, nth h.duty (a + i) 0)))] }

/-- R256, R275: `INJ`. -/
def opInj (e w : Nat) (s : State) : MtOp :=
  let d := iw w 57 54
  let c := iw w 45 44
  let i := iw w 43 40
  let cfg := injReg s c 0
  let v := if bit cfg 0 ∧ bits cfg 4 2 = e then (injH s c).val else 0
  let x := satS 16 (vget (mtH s e) d i + v)
  { err := firstErr [(strayBits w [(57, 54), (45, 44), (43, 40)], 1)]
    reads := kReg d, writes := [kVec d i, kFlag fSAT], effs := .vec d i x.1 :: satEffs (mtPc s e) x.2 false false }

/-- R256, R276: `CAP`. -/
def opCap (e w : Nat) (s : State) : MtOp :=
  let a := iw w 53 50
  let m := iw w 15 0
  { err := firstErr [(strayBits w [(53, 50), (45, 44), (15, 0)] || m == 0, 1)]
    lat := 0, reads := kReg a, effs := [.capture (iw w 45 44) m ((selected 16 m).map (vget (mtH s e) a))] }

/-! ## Control flow (R257, R258) -/

/-- R257: a branch to `target`, taken by an instruction whose last issue cycle is `c`: it clears a loop whose body it leaves. -/
def mtBranch (e target c : Nat) (s : State) : State :=
  let h := mtH s e
  let pc := mtPc s e
  let leave := fun (l : LoopHid) =>
    if l.active ∧ l.start ≤ pc ∧ pc ≤ l.stop ∧ ¬ (l.start ≤ target ∧ target ≤ l.stop) then { l with active := false } else l
  setMtPc e target (setMtH e { h with cycle := c + 1, loops := h.loops.map leave } s)

/-- A control instruction issues from cycle `first` on and retires in its last issue cycle, which counts for `HALT`. -/
def mtRetire (e first ret : Nat) (s : State) : State := setMtH e (mtAccept (mtPc s e) first ret ret [] none (mtH s e)) s

def mtBr (e w : Nat) (s : State) : State :=
  let c := (mtH s e).cycle
  if strayBits w [(11, 0)] then mtError e 1 (mtPc s e) c s else mtBranch e (iw w 11 0) (c + 1) (mtRetire e c (c + 1) s)

/-- R258: the condition of `BRF`. -/
def brfCond (s : State) (e w : Nat) : Bool :=
  let x := vget (mtH s e) (iw w 53 50) (iw w 41 38)
  let c := iw w 45 42
  if c < 7 then rbit s (pMT e) 0x84 c else if c = 7 then decide (x < 0) else decide (x = 0)

def mtBrf (e w : Nat) (s : State) : State :=
  let h := mtH s e
  let cond := iw w 45 42
  if strayBits w [(53, 50), (45, 42), (41, 38), (37, 37), (11, 0)] ∨ 9 ≤ cond then mtError e 1 (mtPc s e) h.cycle s
  else
    let c0 := issueCycle h (if cond < 7 then [kFlag cond] else kReg (iw w 53 50)) [] 0
    if brfCond (mtOperands e s) e w != bit w 37 then mtBranch e (iw w 11 0) (c0 + 2) (mtRetire e c0 (c0 + 2) s)
    else mtNext e c0 3 (mtRetire e c0 c0 s)

/-- R257: `LOOP`. -/
def mtLoop (e w : Nat) (s : State) : State :=
  let h := mtH s e
  let d := iw w 57 54
  let pc := mtPc s e
  let stop := iw w 11 0
  let c := h.cycle
  if strayBits w [(57, 54), (27, 20), (11, 0)] ∨ 2 ≤ d then mtError e 1 pc c s
  else if (nth h.loops d {}).active ∨ stop ≤ pc then mtError e 6 pc c s
  else
    let s1 := mtNext e c 3 (mtRetire e c c s)
    let h1 := mtH s1 e
    setMtH e { h1 with loops := h1.loops.set d ⟨true, iw w 27 20, 0, pc + 1, stop⟩ } s1

/-- R257: does the visible record of set `k` satisfy a `WAITE`? -/
def waitMet (s : State) (e k : Nat) : Bool :=
  let h := mtH s e
  let q := fld s pSETS (recOff k 9) 8 8
  match nth h.noted k none with
  | some n => q != n
  | none => h.start != s.tick && q != nth h.recs k 0

/-- R257: a `WAITE` that has ended in cycle `c` takes two cycles. -/
def waitEnd (e c : Nat) (s : State) : State :=
  mtNext e (c + 1) 3 (mtRetire e c (c + 1) (setMtH e { mtH s e with waitAt := none } s))

/-- R257: `WAITE` in the present tick: it ends if its record has been written, else it holds issue. -/
def mtWaite (e w : Nat) (s : State) : State :=
  let h := mtH s e
  if strayBits w [(45, 43), (15, 0)] ∨ iw w 15 0 = 0 then mtError e 1 (mtPc s e) h.cycle s
  else if waitMet s e (iw w 45 43) then
    waitEnd e (match h.waitAt with | some _ => (if h.cycle < mtNow s e then mtNow s e else h.cycle) | none => h.cycle) s
  else if h.waitAt.isSome then s
  else setMtH e { h with waitAt := some h.cycle } s

/-- R257: the timeout of a `WAITE` that holds issue. -/
def mtWaiteTimeout (e w : Nat) (s : State) : State :=
  match (mtH s e).waitAt with
  | none => s
  | some c =>
    let end_ := c + iw w 15 0
    if waitMet s e (iw w 45 43) ∨ mtNow s e + 4 ≤ end_ then s
    else waitEnd e end_ (setBit (pMT e) 0x84 6 true (overrun e 3 end_ s))

/-- R241, R257: `HALT`. The run ends in the cycle after it retires. -/
def mtHalt (e w : Nat) (s : State) : State :=
  let h := mtH s e
  if strayBits w [] then mtError e 1 (mtPc s e) h.cycle s
  else
    mtEnding e ⟨max h.cycle h.lastRet, mtPc s e, true, 0⟩ s

/-! ## Slot actions (R179, R180) -/

/-- R83, R140: does a boundary of the domains `doms` transfer page `p`: armed before this tick, and before a recovery under
way? -/
def boundaryMoves (s : State) (doms : List Nat) (p : Nat) : Bool :=
  doms.contains (domOf s p) && ! isLate s p &&
    ((armed s p && ! s.armNow.contains p) || s.disNow.contains p)

/-- R164: the page bits of `DET_STAT` and the domain each waits for. -/
def detBoundaries (doms : List Nat) (s : State) : State :=
  let at_ := fun (ps : List Nat) => ps.any (fun p => doms.contains (domOf s p))
  let bits_ := (List.range 4).map (fun e => (16 + e, [pMT e])) ++ [(20, [pDF 0]), (21, [pDF 1]), (22, [pHB]),
    (23, (List.range 8).map pAT ++ [pSLOTS 0, pSLOTS 1])]
  bits_.foldl (fun s b => if at_ b.2 then detBoundary b.1 s else s) s

/-- R83: of the pages `moved` at a boundary, those that an `ARM` of the same tick arms stay armed for the following boundary,
or for the first after a recovery under way (R140). -/
def keepArmed (was : State) (moved : List Nat) (s : State) : State :=
  let again := moved.filter (fun p => was.armNow.contains p || was.now.rearm.contains p)
  again.foldl (fun s p => noteLate p (setBit p 0x28 18 true s)) { s with
    armNow := s.armNow.filter (fun p => ! again.contains p) ++ again
    disNow := s.disNow.filter (fun p => ! moved.contains p)
    now := { s.now with rearm := s.now.rearm.filter (fun p => ! again.contains p) } }

/-- R82, R180, R241, R247: a boundary of the domains `doms` in the present tick. -/
def boundary (doms : List Nat) (s : State) : State :=
  if doms.isEmpty then s
  else
    let s1 := keepArmed s (allPages.filter (boundaryMoves s doms)) (detBoundaries doms (transferPages (boundaryMoves s doms) s))
    forRange 4 (fun e s' => if doms.contains (domOf s (pMT e)) then mtBoundary e s' else s') s1

/-- A field of the active `SLOT_ACT` of slot `i`. -/
def actionOf (s : State) (i lo w : Nat) : Nat := slotAct s i 0x10 lo w

/-- The distinct values below `n` that the fired slots with action bit `b` name in a field. -/
def named (s : State) (fired : List Nat) (b lo w n : Nat) : List Nat :=
  (List.range n).filter (fun x => fired.any (fun i => actionOf s i b 1 == 1 && actionOf s i lo w == x))

/-- R179: the actions of the slots that fired in the tick before: boundaries, sets, resyncs, Mantis starts, lines. -/
def slotActions (s : State) : State :=
  let fired := (List.range 64).filter (fun i => (slotH s i).fired && (slotH s i).lat.evAt != some s.tick)
  let doms := named s fired 3 12 3 8
  let sets := named s fired 1 4 3 8
  let cars := named s fired 2 8 4 16
  let engs := named s fired 15 16 2 4
  let lines := fired.filter (fun i => actionOf s i 0 1 == 1)
  let s1 := fired.foldl (fun s i => setSlotH i { slotH s i with fired := false } s) s
  let s2 := boundary doms s1
  let s3 := sets.foldl (fun s k => triggerSet k s) s2
  let s4 := cars.foldl (fun s n => resync n s) s3
  let s5 := engs.foldl (fun s e => mtRequest e 8 s.tick s) s4
  lines.foldl (fun s i => pulse (32 + i) (slotPage i) s) s5

/-! ## Rows -/

def execSlotActions (s : State) : Host.Outcome State Fault Refusal := .next (if powered s then slotActions s else s)

/-- R238: a write that sets `EN`. -/
def execEngineEnable (acc : Access) (e : Fin 4) (s : State) : Host.Outcome State Fault Refusal :=
  .next (onBus acc (pMT e) 0x08 (mtWrite acc e 0x08 0x00010001) s)

/-- R238: a write that clears `EN`. -/
def execEngineDisable (acc : Access) (e : Fin 4) (s : State) : Host.Outcome State Fault Refusal :=
  .next (onBus acc (pMT e) 0x08 (mtWrite acc e 0x08 0x00010000) s)

/-- R261: `START` with `SENT` = `x`. -/
def execMtStart (acc : Access) (e : Fin 4) (x : Fin 8) (s : State) : Host.Outcome State Fault Refusal :=
  .next (onBus acc (pMT e) 0x08 (mtWrite acc e 0x08 (0x001E0002 + 4 * (x : Nat))) s)

/-- R261: `CLEAR`. -/
def execMtClear (acc : Access) (e : Fin 4) (s : State) : Host.Outcome State Fault Refusal :=
  .next (onBus acc (pMT e) 0x08 (mtWrite acc e 0x08 0x00200020) s)

/-- R235 to R237: the starts requested for the present tick. -/
def execEngineStart (e : Fin 4) (s : State) : Host.Outcome State Fault Refusal := .next (if powered s then mtStart e s else s)

def execEngineHeldStart (e : Fin 4) (s : State) : Host.Outcome State Fault Refusal :=
  .next (if powered s then mtHeldStart e s else s)

/-- R245: `LDS` also notes the record's `SEQ` for `WAITE`. -/
def execLds (f : MtFetch) (s : State) : Host.Outcome State Fault Refusal :=
  let e : Nat := f.engine
  .next (mtStep f 0x04 (fun w s =>
    let k := iw w 45 43
    let h := mtH s e
    let noted := h.noted.set k (some (fld s pSETS (recOff k 9) 8 8))
    mtExec e (opLds e w) (if strayBits w [(57, 54), (47, 46), (45, 43)] then s else setMtH e { h with noted := noted } s)) s)

/-- R143, R246: `LDX`, with what the check bits of the first word it reads show; an uncorrectable error is engine error 4. -/
def execLdx (f : MtFetch) (ecc : Ecc) (s : State) : Host.Outcome State Fault Refusal :=
  .next (mtStep f 0x05 (fun w => mtExecEcc f.engine ecc (opLdx f.engine w)) s)
def execSts (f : MtAccess) (s : State) : Host.Outcome State Fault Refusal :=
  .next (mtStep ⟨f.engine, f.ecc⟩ 0x06 (fun w => mtExecEcc f.engine f.read (opSts f.engine w)) s)
def execMvm (f : MtAccess) (s : State) : Host.Outcome State Fault Refusal :=
  .next (mtStep ⟨f.engine, f.ecc⟩ 0x08 (fun w => mtExecEcc f.engine f.read (opMvm f.engine w)) s)
def execMvmz (f : MtAccess) (s : State) : Host.Outcome State Fault Refusal :=
  .next (mtStep ⟨f.engine, f.ecc⟩ 0x09 (fun w => mtExecEcc f.engine f.read (opMvm f.engine w)) s)
def execVadd (f : MtFetch) (s : State) : Host.Outcome State Fault Refusal := .next (mtStep f 0x0C (fun w => mtExec f.engine (opVadd f.engine w)) s)
def execVsub (f : MtFetch) (s : State) : Host.Outcome State Fault Refusal := .next (mtStep f 0x0D (fun w => mtExec f.engine (opVsub f.engine w)) s)
def execVmul (f : MtFetch) (s : State) : Host.Outcome State Fault Refusal := .next (mtStep f 0x0E (fun w => mtExec f.engine (opVmul f.engine w)) s)
def execAcv (f : MtFetch) (s : State) : Host.Outcome State Fault Refusal := .next (mtStep f 0x10 (fun w => mtExec f.engine (opAcv f.engine w)) s)
def execScs (f : MtFetch) (s : State) : Host.Outcome State Fault Refusal := .next (mtStep f 0x11 (fun w => mtExec f.engine (opScs f.engine w)) s)
def execRot (f : MtFetch) (s : State) : Host.Outcome State Fault Refusal := .next (mtStep f 0x12 (fun w => mtExec f.engine (opRot f.engine w)) s)
def execLim (f : MtFetch) (s : State) : Host.Outcome State Fault Refusal := .next (mtStep f 0x13 (fun w => mtExec f.engine (opLim f.engine w)) s)
def execClamp (f : MtFetch) (s : State) : Host.Outcome State Fault Refusal := .next (mtStep f 0x14 (fun w => mtExec f.engine (opClamp f.engine w)) s)
def execDuty (f : MtFetch) (s : State) : Host.Outcome State Fault Refusal := .next (mtStep f 0x15 (fun w => mtExec f.engine (opDuty f.engine w)) s)
def execCommit (f : MtFetch) (s : State) : Host.Outcome State Fault Refusal := .next (mtStep f 0x18 (fun w => mtExec f.engine (opCommit f.engine w)) s)
def execInj (f : MtFetch) (s : State) : Host.Outcome State Fault Refusal := .next (mtStep f 0x19 (fun w => mtExec f.engine (opInj f.engine w)) s)
def execCap (f : MtFetch) (s : State) : Host.Outcome State Fault Refusal := .next (mtStep f 0x1A (fun w => mtExec f.engine (opCap f.engine w)) s)

/-- R257: `WAITE`. The command stands for one look at the set's record. -/
def execWaite (f : MtFetch) (s : State) : Host.Outcome State Fault Refusal := .next (mtStep f 0x1C (mtWaite f.engine) s)
def execWaiteTimeout (f : MtFetch) (s : State) : Host.Outcome State Fault Refusal := .next (mtStep f 0x1C (mtWaiteTimeout f.engine) s)
def execBr (f : MtFetch) (s : State) : Host.Outcome State Fault Refusal := .next (mtStep f 0x20 (mtBr f.engine) s)
def execBrf (f : MtFetch) (s : State) : Host.Outcome State Fault Refusal := .next (mtStep f 0x21 (mtBrf f.engine) s)
def execLoop (f : MtFetch) (s : State) : Host.Outcome State Fault Refusal := .next (mtStep f 0x22 (mtLoop f.engine) s)
def execHalt (f : MtFetch) (s : State) : Host.Outcome State Fault Refusal := .next (mtStep f 0x01 (mtHalt f.engine) s)

/-- R279: a profiling window ends: the counts are copied and begin again. -/
def profEnd (s : State) : State :=
  let s1 := forRange 4 (fun e s =>
    let h := mtH s e
    let live := if mtState s e = mtRUN then 4 * (s.tick - (if h.runFrom < s.profAt then s.profAt else h.runFrom)) else 0
    let s' := setRg pMTS (0x180 + 16 * e) ((h.pBusy + live) % 2 ^ 32) s
    let s'' := setRg pMTS (0x184 + 16 * e) (satN 65535 h.pStarts + 2 ^ 16 * satN 65535 h.pDisc) s'
    setMtH e { h with pBusy := 0, pStarts := 0, pDisc := 0, pSlack := 0xFFFFFF }
      (setRg pMTS (0x188 + 16 * e) (satN 0xFFFFFF h.pSlack) s'')) s
  incWrap pMTS 0x1C4 0 16 1 { s1 with profAt := s.tick }

def execProfWindowEnd (s : State) : Host.Outcome State Fault Refusal :=
  .next (if powered s ∧ pageEn s pMTS ∧ s.profAt + rg s pMTS 0x1C0 ≤ s.tick then profEnd s else s)

/-- R255, R292: the values of a `COMMIT` of engine `e` reach Firefly. -/
def commitArrival (e : Nat) (s : State) : State :=
  let h := mtH s e
  match h.out with
  | [] => s
  | c :: l =>
    if s.tick < c.due then s
    else commitArrive c.group (c.vals.map (fun v => ⟨v.1, v.2.1, v.2.2⟩)) (setMtH e { h with out := l } s)

def execCommitArrival (e : Fin 4) (s : State) : Host.Outcome State Fault Refusal :=
  .next (if powered s then commitArrival e s else s)

end Sys2Proof.Machine
end

