-- ==== Sys2Proof/Machine/Dragonfly.lean ====
section
/-! DEFINITION. Dragonfly (R358 to R379): slot draws, the control cycle with its limits, swarm pulse, shedding, temperatures
and loops, the commands of `DF.i`, and the writes of its pages and of `SYS:DEG_SET` (R356). -/
namespace Sys2Proof.Machine

/-! ## Configuration -/

/-- A field of the active copy of a register of `DF.i`. -/
def dfA (s : State) (i o lo w : Nat) : Nat := actFld s (pDF i) o lo w

/-- A signed 16-bit field of the active copy. -/
def dfS (s : State) (i o lo : Nat) : Int := sgn 16 (dfA s i o lo 16)

/-- R361: the rounding mode of the instance. -/
def dfRnd (s : State) (i : Nat) : Rnd := Rnd.ofCode (dfA s i 0x40 0 2)

/-- R363, R382: is mode IBAT in force? -/
def dfIbat (s : State) (i : Nat) : Bool := if dfByHb s i then (dfH s i).hbBat else dfA s i 0x40 2 2 == 1

/-- R367, R382: the target that a start puts in force. -/
def dfTarget (s : State) (i : Nat) : Int := if dfByHb s i then (dfH s i).hbTgt else dfS s i 0x100 0

/-- `ILV.CAR`, the master carrier, and the carrier of a phase (R359). -/
def dfMaster (s : State) (i : Nat) : Nat := fld s (pDF i) 0x60 0 4
def dfPhCar (s : State) (i p : Nat) : Nat := legCar s (dfLeg s i p)

/-- `SRC.SET`, and an element of a set's visible record (R207). -/
def dfSet (s : State) (i : Nat) : Nat := fld s (pDF i) 0x44 0 3
def recEl (s : State) (k e : Nat) : Int := sgn 16 (fld s pSETS (recOff k (e / 2)) (16 * (e % 2)) 16)

/-- R361: the elements a cycle latches. -/
def dfVout (s : State) (i : Nat) : Int := recEl s (dfSet s i) (fld s (pDF i) 0x44 8 4)
def dfVin (s : State) (i : Nat) : Int := recEl s (dfSet s i) (fld s (pDF i) 0x44 12 4)
def dfIbatEl (s : State) (i : Nat) : Int := recEl s (dfSet s i) (fld s (pDF i) 0x44 16 4)
def dfIph (s : State) (i p : Nat) : Int := recEl s (dfSet s i) (fld s (pDF i) (0x48 + 4 * p) 8 4)

/-- Account A_p of a phase (R372). -/
def dfAcc (s : State) (i p : Nat) : Nat := rg s (pDF i) (0x228 + 4 * p)

/-- The phases, in ascending order, that satisfy a condition. -/
def dfWhere (f : Nat → Bool) : List Nat := (List.range 6).filter f

/-- The phase of a list with the largest, or smallest, account; on equal accounts the lowest. -/
def dfMaxAcc (s : State) (i : Nat) (ps : List Nat) : Option Nat :=
  ps.foldl (fun b p => match b with
    | none => some p
    | some q => if dfAcc s i q < dfAcc s i p then some p else some q) none
def dfMinAcc (s : State) (i : Nat) (ps : List Nat) : Option Nat :=
  ps.foldl (fun b p => match b with
    | none => some p
    | some q => if dfAcc s i p < dfAcc s i q then some p else some q) none

/-! ## Rotation and slots (R359, R360, R373) -/

/-- R373: one shift of the LFSR, in the form R275 gives its registers. Log entry 24. -/
def lfsrShift (x : Nat) : Nat :=
  (2 * x + b2n (((bit x 15 != bit x 13) != bit x 12) != bit x 10)) % 2 ^ 16

/-- R373: 16 shifts. -/
def lfsrAdvance (x : Nat) : Nat := (List.range 16).foldl (fun x _ => lfsrShift x) x

/-- R373: positions `a` and `b` of an order swapped. -/
def swapAt (a b : Nat) (l : List Nat) : List Nat := (l.set a (l.getD b 0)).set b (l.getD a 0)

/-- R373: steps 1 and 2: the shuffled order of `n` phases and the LFSR after it. -/
def shuffle (n : Nat) (l : List Nat) (x : Nat) : List Nat × Nat :=
  (List.range (n - 1)).foldl (fun (a : List Nat × Nat) d =>
    let k := n - d
    let y := lfsrAdvance a.2
    (swapAt (k - 1) (y * k / 2 ^ 16) a.1, y)) (l, x)

/-- R373: step 3. A smallest-account phase without a slot in the previous frame, or with one this frame lacks, is not
swapped against (log entry 26). -/
def balance (s : State) (i : Nat) (prev l : List Nat) : List Nat :=
  match dfMaxAcc s i (dfWhere l.contains), dfMinAcc s i (dfWhere l.contains) with
  | some hi, some lo =>
    if dfAcc s i hi < dfAcc s i lo + dfA s i 0x168 0 32 then l
    else (match prev.findIdx? (· == lo) with
      | some k => if k < l.length then swapAt (l.idxOf hi) k l else l
      | none => l)
  | _, _ => l

/-- R359: K_N. -/
def dfK (n : Nat) : Nat := [65536, 65536, 32768, 21845, 16384, 13107, 10923].getD n 10923

/-- R359: the word written to `PHASE` of the phase carrier in slot `k` of `n`, given the master's range P. A slot that begins
less than a tick after the zero event counts as one frame later (log entry 27). -/
def dfPhaseWord (p n k : Nat) : Nat :=
  let d0 := (rneDiv (k * (2 * p) * dfK n : Nat) 65536).toNat
  let d := if d0 < 64 then d0 + 2 * p else d0
  if d - 64 ≤ p then 2 ^ 31 + (d - 64) else 2 * p + 64 - d

/-- R378: show the order and the LFSR in `PERM`, and each phase's slot in `PH_STAT_p`. -/
def dfShowOrder (i : Nat) (s : State) : State :=
  let h := dfH s i
  let w := (List.range h.order.length).foldl (fun a k => a + h.order.getD k 0 * 2 ^ (4 * k)) 0
  (List.range h.order.length).foldl (fun s k => setFld (pDF i) (0x210 + 4 * h.order.getD k 0) 4 3 k s)
    (setRg (pDF i) 0x240 (w % 2 ^ 24 + h.lfsr % 256 * 2 ^ 24) s)

/-- R360, R373: a draw: the order, then `PHASE` of the phase carriers. -/
def dfDraw (i : Nat) (s : State) : State :=
  let ps := dfWhere (dfOn s i)
  let n := ps.length
  let h := dfH s i
  let rot := bit (act s (pDF i) 0x40) 16
  let sh := if rot then shuffle n ps h.lfsr else (ps, h.lfsr)
  let order := if rot then balance s i h.order sh.1 else sh.1
  let s1 := dfShowOrder i (setDfH i { h with order := order, lfsr := sh.2 } s)
  let p := carRange s (dfMaster s i)
  (List.range n).foldl (fun s k => blockConfig (pCAR (dfPhCar s i (order.getD k 0))) 0x48 (dfPhaseWord p n k) s) s1

/-! ## Start and stop -/

/-- R367: r takes the value of an element, or 0 in IBAT mode. -/
def dfSetR (i : Nat) (v : Int) (s : State) : State :=
  dfShowRef i (setDfH i { dfH s i with r := v * 2 ^ 32, need := false } s)

/-- R365, R367: RUN is entered from `START` or at the end of HICCUP: every available phase is active, the histories and the
shedding start afresh (log entry 28), the LFSR takes `SEED`, and r its first value. -/
def dfRunEntry (i : Nat) (s : State) : State :=
  let h := dfH s i
  let ph := (List.range 6).map (fun p => { (dfPhase h p) with w := 32767, ei := [0, 0, 0], yi := [0, 0, 0] })
  let h1 := { h with ev := [0, 0, 0], yv := [0, 0, 0], vPrev := none, low := 0, ho := 0, sw := none, stop := none,
                     lfsr := fld s (pDF i) 0x60 16 16, order := [], need := ! dfIbat s i, slew := true, ph := ph }
  let s1 := forRange 6 (fun p s => if dfAvail s i p then setDfPhSt i p 1 s else s) (setDfH i h1 s)
  let s2 := dfShowOrder i (dfEnter i dfRUN none s1)
  if dfIbat s i then dfSetTarget i (dfTarget s i) (dfSetR i 0 s2)
  else dfShowRef i (setDfH i { dfH s2 i with tgt := dfTarget s i } s2)

/-- R367: `STOP`: the target becomes the stop value. -/
def dfStop (acc : Access) (w i : Nat) (s : State) : State :=
  let v := if dfIbat s i then 0 else dfVin s i
  let s1 := setDfH i { dfH s i with stop := some (s.tick, acc, w, (dfH s i).tgt) } s
  dfSetTarget i v (dfEnter i dfSTOPPING (some 1) s1)

/-- R366: `CLEAR`: failed phases are available again, and the fast-trip counts are zero. -/
def dfClear (i : Nat) (s : State) : State :=
  let s1 := forRange 6 (fun p s =>
    let s1 := setFld (pDF i) (0x210 + 4 * p) 8 8 0 (setDfPhase i p { (dfPhase (dfH s i) p) with trips := [] } s)
    if dfPhSt s i p = 5 then setDfPhSt i p 3 s1 else s1) s
  dfShowPhases i s1

/-- R365: `EN` is set: an instance in OFF enters IDLE, with every configured phase that is neither failed nor dropped shed. FAULT, which
a restart of the main die keeps, is not left (log entry 114). -/
def dfEnable (i : Nat) (s : State) : State :=
  let s1 := forRange 6 (fun p s =>
    if ¬ dfConf s i p then setDfPhSt i p 0 s else if dfAvail s i p then setDfPhSt i p 3 s else s) s
  if dfState s i = dfOFF then dfEnter i dfIDLE none s1 else dfOverrides i (dfShowPhases i s1)

/-- R365: `EN` is cleared. -/
def dfDisable (i : Nat) (s : State) : State := dfEnter i dfOFF (some 6) (setDfH i { dfH s i with stop := none } s)

/-! ## The control cycle (R361 to R376) -/

/-- R362: the third-order form: coefficients at offset `o` (`B01`), error history newest first, output history, giving the
converted output and the flags of R155. -/
def dfForm (s : State) (i o : Nat) (e y : List Int) : Int × Nat :=
  let c := fun (o lo : Nat) => dfS s i o lo
  let ts := [c o 0 * e.getD 0 0, c o 16 * e.getD 1 0, c (o + 4) 0 * e.getD 2 0, c (o + 4) 16 * e.getD 3 0,
    -(c (o + 8) 0 * y.getD 0 0), -(c (o + 8) 16 * y.getD 1 0), -(c (o + 12) 0 * y.getD 2 0)]
  let sum := ts.foldl (fun (a : Int × Bool) t => (let r := accAdd a.1 t; (r.1, a.2 || r.2))) (0, false)
  let r := convQ15 (dfRnd s i) (sum.1 * 2 ^ dfA s i (o + 12) 16 3) 15
  (r.1, b2n sum.2 + 2 * b2n r.2)

/-- R155, R379: flags of an instance's arithmetic. -/
def dfArith (i flags : Nat) (s : State) : State := setArith (pDF i) 0x248 (some 8) (some 0) flags s

/-- R376: T_tile of a phase, from the NTC pair of its channels (R222, R330); none where its leg maps to no pair. -/
def dfTile (s : State) (i p : Nat) : Option Int :=
  let k := legPair s (dfLeg s i p)
  if 32 ≤ k then none else some (sgn 16 (fld s (pIC (pairTile k)) (if k < 24 ∧ 2 ≤ k % 4 then 0x58 else 0x54) 0 16))

/-- R376: T_p, as `PH_STAT_p` shows it. -/
def dfTemp (s : State) (i p : Nat) : Int := sgn 16 (fld s (pDF i) (0x210 + 4 * p) 16 16)

/-- `TH_LIM.WARN` and `TH_LIM.SHUT`. -/
def dfWarn (s : State) (i : Nat) : Int := dfS s i 0x170 0
def dfShut (s : State) (i : Nat) : Int := dfS s i 0x170 16

/-- R376: the thermal estimate of one configured phase. -/
def dfEstimate (i p : Nat) (s : State) : State :=
  match dfTile s i p with
  | none => s
  | some tile =>
    let x := dfPhase (dfH s i) p
    let c := dfIph s i p
    let rise := rneDiv (dfS s i 0x16C 0 * (c * c)) (2 ^ 30)
    let lp := x.lp + rneDiv (rise - x.lp) (2 ^ dfA s i 0x16C 16 5)
    setFld (pDF i) (0x210 + 4 * p) 16 16 (uns 16 (clampI (-32768) 32767 (tile + lp))) (setDfPhase i p { x with lp := lp } s)

/-- R376: is a phase at `SHUT`, and so to be dropped in this cycle? -/
def dfDrops (s : State) (i p : Nat) : Bool :=
  (dfPhSt s i p == 1 || dfPhSt s i p == 2 || dfPhSt s i p == 3) && decide (dfShut s i ≤ dfTemp s i p)

/-- R376: a phase at `SHUT` is dropped, a dropped phase below `WARN` is available again. -/
def dfDropOne (i p : Nat) (s : State) : State :=
  if dfPhSt s i p = 4 then (if dfTemp s i p < dfWarn s i then setDfPhSt i p 3 s else s)
  else if dfDrops s i p then
    flag (pDF i) 6 (setDfPhSt i p 4 (setDfPhase i p { (dfPhase (dfH s i) p) with w := 32767 } s))
  else s

/-- R376, R377: thermal estimates and drops, THERMAL where a drop leaves too few phases, and the return from it. -/
def dfThermal (i : Nat) (s : State) : State :=
  let s0 := forRange 6 (fun p s => if dfConf s i p then dfEstimate i p s else s) s
  let drops := (List.range 6).any (fun p => dfConf s0 i p && dfDrops s0 i p)
  let s1 := forRange 6 (fun p s => if dfConf s i p then dfDropOne i p s else s) s0
  let s2 := dfShowHot i (dfOverrides i (dfShowPhases i s1))
  let least := dfA s i 0x40 8 3
  if drops ∧ dfState s2 i = dfRUN ∧ dfCount (dfOn s2 i) < least then dfEnter i dfTHERMAL (some 3) s2
  else if dfState s2 i = dfTHERMAL ∧
      least ≤ dfCount (fun p => dfConf s2 i p && dfPhSt s2 i p != 5 && decide (dfTemp s2 i p < dfWarn s2 i)) then
    dfEnter i dfIDLE none s2
  else s2

/-- R370: HICCUP, or FAULT with LATCHED where the count is exceeded. -/
def dfHiccup (i : Nat) (s : State) : State :=
  let h := dfH s i
  let win := dfA s i 0x17C 16 16 * 1000 * msT
  let hics := s.tick :: h.hics.filter (fun t => s.tick ≤ t + win)
  let s1 := setDfH i { h with hics := hics, hicAt := s.tick } s
  let s2 := dfUndoStop i s1
  if dfA s i 0x17C 0 4 + 1 ≤ hics.length then goLatched (205 + 4 * i) (dfEnter i dfFAULT (some 2) s2)
  else dfEnter i dfHICCUP (some 2) s2

/-- R370: the overload limit IL_OL, and the new one. -/
def dfIlOl (s : State) (i : Nat) : Int := (dfH s i).ilOl.getD (dfS s i 0x10C 0)
def dfIlNext (s : State) (i : Nat) (f : Int) : Int :=
  let il := dfIlOl s i
  let der := dfS s i 0x134 0 * 2 ^ 16
  let step := dfA s i 0x138 0 16
  let floor := dfS s i 0x138 16
  if der ≤ f then (if il - step < floor then (if il < floor then il else floor) else il - step)
  else if f < der - step * 16 * 2 ^ 16 then (if dfS s i 0x10C 0 < il + step then dfS s i 0x10C 0 else il + step)
  else il

/-- R370: the slow limit of a cycle: F, then the overload limit, then the shutdown in RUN. -/
def dfSlow (i : Nat) (s : State) : State :=
  let f0 : Int := rg s (pDF i) 0x20C
  let a := (dfIbatEl s i).natAbs
  let f := f0 + rneDiv (dfA s i 0x130 0 24 * ((a : Int) * 2 ^ 16 - f0)) (2 ^ 24)
  let s1 := setRg (pDF i) 0x20C f.toNat s
  let il := dfIlNext s1 i f
  let s2 := setDfH i { dfH s1 i with ilOl := some il } s1
  let der : Bool := il < dfS s i 0x10C 0
  let s3 := if der = rbit s2 (pDF i) 0x200 17 then s2 else flag (pDF i) 3 (setBit (pDF i) 0x200 17 der s2)
  if dfRuns s3 i ∧ dfS s i 0x134 16 * 2 ^ 16 ≤ f then dfHiccup i s3 else s3

/-- R371: the undershoot of a cycle of RUN under VLINK. -/
def dfUndershoot (s : State) (i : Nat) : Bool :=
  let h := dfH s i
  let v := dfVout s i
  dfState s i == dfRUN && ! dfIbat s i && ! h.need &&
    (decide (dfS s i 0x13C 0 * 2 ^ 32 ≤ h.r - v * 2 ^ 32) ||
      (match h.vPrev with | some p => decide (dfS s i 0x13C 16 ≤ p - v) | none => false))

/-- R371: the swarm pulse, from tick C + 10 on: the overrides, the extra draw, the count. -/
def dfSwarm (i : Nat) (s : State) : State :=
  let h := dfH s i
  let from_ := s.tick + 9
  let ps := dfWhere (dfOn s i)
  let lf := if bit (act s (pDF i) 0x40) 16 then (shuffle ps.length ps h.lfsr).2 else h.lfsr
  let s1 := dfShowOrder i (setDfH i { h with sw := some 0, lfsr := lf } s)
  let s2 := ps.foldl (fun s p =>
    let m := dfLeg s i p
    setLegH m { legH s m with swarm := (legH s m).swarm ++ [(from_, from_ + dfA s i 0x140 0 9)] } s) s1
  flag (pDF i) 4 (incSat (pDF i) 0x244 0 8 1 s2)

/-- The total current reference I* of the last cycle, its magnitude, and the number of active phases not being shed. -/
def dfTotal (s : State) (i : Nat) : Int := sgn 16 (fld s (pDF i) 0x208 0 16)
def dfActive (s : State) (i : Nat) : Nat := dfCount (fun p => dfPhSt s i p == 1)

/-- R374: `SHED_TH_n`: `DN` and `UP`, for n from 2 to 6. -/
def dfShedTh (s : State) (i n : Nat) : Option (Int × Int) :=
  if 2 ≤ n ∧ n ≤ 6 then some (dfS s i (0x150 + 4 * (n - 2)) 0, dfS s i (0x150 + 4 * (n - 2)) 16) else none

/-- R374: is |I*| above `SHED_TH_n.UP`? -/
def dfAboveUp (s : State) (i n : Nat) : Bool :=
  match dfShedTh s i n with | some t => decide (t.2 < (dfTotal s i).natAbs) | none => false

/-- R375: the load step of a cycle, which aborts shedding. -/
def dfAbort (i : Nat) (s : State) : State :=
  match (dfWhere (fun p => dfPhSt s i p == 2)).head? with
  | none => s
  | some p =>
    if ¬ dfUndershoot s i ∧ ¬ dfAboveUp s i (dfActive s i) then s
    else
      let s1 := setDfPhase i p { (dfPhase (dfH s i) p) with w := 32767 } (setDfPhSt i p 1 s)
      let s2 := setDfH i { dfH s1 i with ho := dfA s i 0x144 16 16 + 1, low := 0 } s1
      dfShowPhases i (flag (pDF i) 5 (incSat (pDF i) 0x244 8 8 1 s2))

/-- R371, R375, R377: undershoot and shed abort, of which the swarm pulse includes the phase whose shedding ended. -/
def dfLoadStep (i : Nat) (s : State) : State :=
  let h := dfH s i
  let s1 := setDfH i { h with sw := h.sw.map (· + 1), ho := h.ho - 1 } s
  let go := bit (act s (pDF i) 0x40) 17 && dfUndershoot s i &&
    (match h.sw with | some n => decide (dfA s i 0x140 16 16 < n + 1) | none => true)
  let s2 := dfAbort i s1
  let s3 := if go then dfSwarm i s2 else s2
  setDfH i { dfH s3 i with vPrev := some (dfVout s i) } s3

/-- R375: the weight of a phase being shed falls; at 0 it is shed. -/
def dfWeights (i : Nat) (s : State) : State :=
  forRange 6 (fun p s =>
    if dfPhSt s i p ≠ 2 then s
    else
      let x := dfPhase (dfH s i) p
      let w := x.w - dfS s i 0x148 0
      if w ≤ 0 then
        dfOverrides i (dfShowPhases i (flag (pDF i) 5 (setDfPhSt i p 3 (setDfPhase i p { x with w := 32767 } s))))
      else setDfPhase i p { x with w := clampI 0 32767 w } s) s

/-- R374: a phase begins shedding. -/
def dfShedStart (i : Nat) (s : State) : State :=
  let n := dfActive s i
  let below : Bool := match dfShedTh s i n with | some t => decide ((dfTotal s i).natAbs < t.1) | none => false
  let low := if below then (dfH s i).low + 1 else 0
  let s1 := setDfH i { dfH s i with low := low } s
  let free : Bool := ! (List.range 6).any (fun p => dfPhSt s i p == 2)
  if below ∧ dfA s i 0x144 0 16 ≤ low ∧ dfA s i 0x40 12 3 < n ∧ free then
    match dfMaxAcc s i (dfWhere (fun p => dfPhSt s i p == 1)) with
    | some p =>
      let s2 := setDfPhase i p { (dfPhase (dfH s1 i) p) with w := 32767 } (setDfPhSt i p 2 s1)
      dfShowPhases i (flag (pDF i) 5 (setDfH i { dfH s2 i with low := 0 } s2))
    | none => s1
  else s1

/-- R374: a phase becomes active at once. -/
def dfActivate (i : Nat) (s : State) : State :=
  if ¬ dfAboveUp s i (dfActive s i + 1) then s
  else match dfMinAcc s i (dfWhere (fun p => dfPhSt s i p == 3 && dfConf s i p)) with
    | some p =>
      let x := { (dfPhase (dfH s i) p) with w := 32767, ei := [0, 0, 0], yi := [0, 0, 0] }
      dfOverrides i (dfShowPhases i (setDfPhase i p x (setDfPhSt i p 1 s)))
    | none => s

/-- R374, R375: shedding. A cycle in which R374 does not apply ends a row of consecutive cycles. -/
def dfShedding (i : Nat) (s : State) : State :=
  let s1 := dfWeights i s
  if dfState s1 i = dfRUN ∧ bit (act s (pDF i) 0x40) 18 ∧ (dfH s1 i).ho = 0 then dfActivate i (dfShedStart i s1)
  else setDfH i { dfH s1 i with low := 0 } s1

/-- R370: the per-phase limit in force, with the flags of its conversion. -/
def dfIl (s : State) (i : Nat) : Int × Nat :=
  let il := (if dfS s i 0x10C 0 < dfIlOl s i then dfS s i 0x10C 0 else dfIlOl s i)
  if dfHot s i then
    (let r := convQ15 (dfRnd s i) (il * dfS s i 0x174 0) 15; (r.1, 2 * b2n r.2))
  else (il, 0)

/-- R369, R370, R378: `PH_STAT_p` counts the trips within `FAST_CFG.WIN` at the time of the read, and `ISUM` shows the limit in force
then; in OFF none is in force. -/
def dfView (s : State) (i o : Nat) : Nat :=
  if 0x210 ≤ o ∧ o < 0x228 then
    let ts := (dfPhase (dfH s i) ((o - 0x210) / 4)).trips
    putBits (rg s (pDF i) o) 8 8 (satN 255 (ts.filter (fun t => s.tick ≤ t + actFld s (pDF i) 0x178 16 16 * msT)).length)
  else if o = 0x208 ∧ dfState s i ≠ dfOFF then fld s (pDF i) 0x208 0 16 + 2 ^ 16 * uns 16 (dfIl s i).1
  else rg s (pDF i) o

/-- R363: K′_N. -/
def dfKp (n : Nat) : Int := [0x7FFF, 0x7FFF, 0x4000, 0x2AAB, 0x2000, 0x199A, 0x1555].getD n 0x1555

/-- R363: the total current reference of a cycle: mode VLINK by the voltage loop, mode IBAT from r; limited to ± L_tot. -/
def dfVoltage (i : Nat) (s : State) : State :=
  let h := dfH s i
  let il := dfIl s i
  let lt := satS 16 (dfActive s i * il.1)
  let s0 := dfShowHot i s
  let put := fun (x : Int) (fl : Nat) (s : State) =>
    dfArith i (il.2 ||| (2 * b2n lt.2) ||| fl) (setRg (pDF i) 0x208 (uns 16 x) s)
  if dfIbat s i then
    (let r := convQ15 (dfRnd s i) h.r 32; put (clampI (-lt.1) lt.1 r.1) (2 * b2n r.2) s0)
  else
    let e := convQ15 (dfRnd s i) (h.r - dfVout s i * 2 ^ 32) 32
    let f := dfForm s i 0x110 (e.1 :: h.ev) h.yv
    let y := clampI (-lt.1) lt.1 f.1
    put y ((2 * b2n e.2) ||| f.2) (setDfH i { h with ev := (e.1 :: h.ev).take 3, yv := (y :: h.yv).take 3 } s0)

/-- R363, R364, R372: the current loop of one active or shedding phase, its account, and its compare value, delivered in tick
C + 10. -/
def dfCurrent (n i p : Nat) (s : State) : State :=
  let h := dfH s i
  let x := dfPhase h p
  let m := dfRnd s i
  let c := dfIph s i p
  let ref := convQ15 m (rneDiv (dfTotal s i * dfKp n) (2 ^ 15) * x.w) 15
  let e := satS 16 (c - ref.1)
  let f := dfForm s i 0x120 (e.1 :: x.ei) x.yi
  let d := satS 16 (dfS s i 0x108 0 + f.1)
  let range := carRange s (dfPhCar s i p)
  let v := (clampI 0 range (rdiv m ((range : Int) * (if d.1 < 0 then 0 else d.1)) 32768)).toNat
  let acc := dfAcc s i p
  let acc' := acc - acc / 2 ^ dfA s i 0x164 0 5 + (c * c).toNat / 2 ^ 14
  let s1 := setDfPhase i p { x with ei := (e.1 :: x.ei).take 3, yi := (f.1 :: x.yi).take 3 } s
  let s2 := dfArith i ((2 * b2n (ref.2 || e.2 || d.2)) ||| f.2) (setRg (pDF i) (0x228 + 4 * p) acc' s1)
  deliver (2 + i) (dfLeg s i p) false v (s.tick + 9) s2

/-- R387: HANDOVER becomes SUPPORT in the tick, C + 10, in which `DF.0` first delivers compare values under VLINK. -/
def dfSupport (i : Nat) (s : State) : State :=
  if i = 0 ∧ (dfH s 0).hbVal ∧ ¬ dfIbat s 0 then
    setDfH 0 { dfH s 0 with hbVal := false } { s with hb := { s.hb with sup := some (s.tick + 9) } }
  else s

/-- R363, R364: the loops of a cycle in RUN or STOPPING. -/
def dfLoops (i : Nat) (s : State) : State :=
  if dfState s i ≠ dfRUN ∧ dfState s i ≠ dfSTOPPING then s
  else
    let ps := dfWhere (dfOn s i)
    let s1 := ps.foldl (fun s p => dfCurrent ps.length i p s) (dfVoltage i s)
    if ps.isEmpty then s1 else dfSupport i s1

/-- R367, R387: r takes `E_VOUT` where it waits for a record, and the voltage-loop history is clear. -/
def dfFirst (i : Nat) (s : State) : State :=
  let h := dfH s i
  if ¬ h.need ∨ (dfState s i ≠ dfRUN ∧ dfState s i ≠ dfSTOPPING) then s
  else
    let s1 := dfSetR i (dfVout s i) (setDfH i { h with ev := [0, 0, 0], yv := [0, 0, 0] } s)
    dfReached i (setDfH i { dfH s1 i with slew := true } s1)

/-- R377: one full cycle, its decisions in their order. -/
def dfFull (i : Nat) (s : State) : State :=
  dfLoops i (dfShedding i (dfLoadStep i (dfSlow i (dfThermal i (dfFirst i s)))))

/-- R361: a completion of `SRC.SET` in the previous tick: a skip, a reduced cycle, or a full one. -/
def dfCycle (i : Nat) (s : State) : State :=
  match (setH s (dfSet s i)).doneAt with
  | none => s
  | some c =>
    let h := dfH s i
    if c + 1 ≠ s.tick ∨ h.last = some c then s
    else if (match h.last with | some l => decide (c ≤ l + 9) | none => false) then
      detBreach 1 (pDF i) (incSat (pDF i) 0x244 24 8 1 s)
    else
      let s1 := setDfH i { h with last := some c } s
      if rbit s pSETS (recOff (dfSet s i) 9) 0 then incSat (pDF i) 0x244 16 8 1 s1 else dfFull i s1

/-! ## What a tick brings -/

/-- R367: r advances by `SLEW` toward the target in force; the step that would reach it sets r equal to it. -/
def dfTick (i : Nat) (s : State) : State :=
  let h := dfH s i
  let t := h.tgt * 2 ^ 32
  if ¬ h.slew ∨ h.need ∨ h.r = t ∨ (dfState s i ≠ dfRUN ∧ dfState s i ≠ dfSTOPPING) then s
  else
    let d : Int := act s (pDF i) 0x104
    let r := if h.r < t then (if t ≤ h.r + d then t else h.r + d) else (if h.r - d ≤ t then t else h.r - d)
    dfShowRef i (setDfH i { h with r := r } s)

/-! ## Writes of the `DF` pages (R366, R378, R379) -/

/-- R366: is the writer the command source? -/
def dfSource (acc : Access) (s : State) (i : Nat) : Bool :=
  if bit (act s (pDF i) 0x40) 19 then acc.master == .internal else acc.master == .stagB

/-- R366: does `START` lack a resource? -/
def dfLacks (s : State) (i : Nat) : Bool :=
  let m := dfMaster s i
  (List.range 6).any (fun p => dfConf s i p && (
    ! pageEn s (pLEG (dfLeg s i p)) ||
    (let k := legPair s (dfLeg s i p); ! (decide (k < 24) && rbit s (pIC (pairTile k)) 0x44 (4 + k % 4))) ||
    (let n := dfPhCar s i p
     ! carUpdn s n || rg s (pCAR n) 0x44 != rg s (pCAR m) 0x44 || ! rbit s (pCAR n) 0x40 4 || fld s (pCAR n) 0x40 8 4 != m))) ||
  decide (dfAvailN s i < dfA s i 0x40 8 3)

/-- R366: may `EN` not be set? -/
def dfEnBad (s : State) (i : Nat) : Bool :=
  let n := dfA s i 0x40 4 3
  let out := fun x => x == 0 || decide (n < x)
  out (dfA s i 0x40 8 3) || out (dfA s i 0x40 12 3) ||
    (List.range 6).any (fun p => dfConf s i p && (List.range 6).any (fun q => decide (q < p) && dfConf s i q && dfLeg s i q == dfLeg s i p))

/-- The checks of a write to `DF.i`, in the order of R87. -/
def dfChk (acc : Access) (s : State) (i o v : Nat) (_old new : Nat) : Option Reason :=
  let en := pageEn s (pDF i)
  let st := dfState s i
  if o = 0x08 then
    let start := cmdBit v 1
    let stop := cmdBit v 2
    let clear := cmdBit v 3
    firstReason [(cmdBit v 0 && ! en && dfEnBad s i, .value),
      ((start && ! (devState s).running) || (clear && devState s != .held && devState s != .ready), .devstate),
      ((start && st != dfIDLE) || (stop && st != dfRUN) || (clear && st != dfIDLE) || (en && ! bit new 0 && st == dfFAULT), .state),
      (start && dfLacks s i, .resource),
      ((start || stop || clear) && ! dfSource acc s i, .conflict)]
  else if o = 0x40 then firstReason [(bits new 0 2 == 3 || decide (2 ≤ bits new 2 2) || decide (6 < bits new 4 3), .value)]
  else if o = 0x60 then firstReason [(bits new 16 16 == 0, .value), (en, .state)]
  else if 0x44 ≤ o ∧ o < 0x60 then firstReason [(en, .state)]
  else if o = 0x104 then firstReason [(new == 0, .value)]
  else if o = 0x140 then firstReason [(decide (bits new 0 9 < 10) || decide (400 < bits new 0 9), .value)]
  else if o = 0x164 then firstReason [(decide (new < 4) || decide (16 < new), .value)]
  else if o = 0x16C then firstReason [(decide (20 < bits new 16 5), .value)]
  else none

/-- The effects of a write to `DF.i`; a phase that is configured no more shows so (R378). `was` is `EN`
before it; a write that clears `EN` leaves the instance in OFF whatever it commands beside (R365). -/
def dfEff (acc : Access) (i o v : Nat) (was : Bool) (s : State) : State :=
  if o = 0x08 then
    let s1 := if cmdBit v 3 then dfClear i s else s
    let s2 := if cmdBit v 1 then dfRunEntry i s1 else s1
    let s3 := if cmdBit v 2 then dfStop acc v i s2 else s2
    if pageEn s (pDF i) = was then s3 else if was then dfDisable i s3 else dfEnable i s3
  else if 0x48 ≤ o ∧ o < 0x60 ∧ ¬ dfConf s i ((o - 0x48) / 4) then dfShowPhases i (setDfPhSt i ((o - 0x48) / 4) 0 s)
  else s

/-- A write to a register of `DF.i`. -/
def dfWrite (acc : Access) (i o v : Nat) (s : State) : State :=
  if o = 0x248 then clearArith (pDF i) o v s
  else busStore acc (pDF i) o v (dfChk acc s i o v) (dfEff acc i o v (pageEn s (pDF i))) s

/-- R365, R376: the end of HICCUP: RUN as from `START`, and THERMAL where the phases dropped meanwhile leave too few. -/
def dfRestart (i : Nat) (s : State) : State :=
  let s1 := dfRunEntry i s
  if dfCount (dfOn s1 i) < dfA s i 0x40 8 3 then dfEnter i dfTHERMAL (some 3) s1 else s1

/-- R356: a write to `SYS:DEG_SET`. -/
def degSetWrite (acc : Access) (v : Nat) (s : State) : State :=
  busStore acc pSYS 0x60 v (fun _ _ =>
      let st := devState s
      firstReason [
        ((cmdBit v 8 && bits v 0 8 &&& bits v 16 8 == 0) ||
          (fld s pSYS 0x40 4 2 == 0 && bits v 2 2 &&& bits v 18 2 != 0), .value),
        (st == .boot || st == .selftest || st == .restore, .devstate),
        (acc.master != .stagA, .conflict)])
    (fun s => degShow (if cmdBit v 8 then setBit pSYS 0x44 17 true s else s)) s

/-! ## Rows -/

/-- R365: a write that sets `DF.i:PAGE_CTRL.EN`. -/
def execDfEnable (acc : Access) (i : Fin 2) (s : State) : Host.Outcome State Fault Refusal :=
  .next (onBus acc (pDF i) 0x08 (dfWrite acc i 0x08 0x00010001) s)

/-- R365: a write that clears `EN`. -/
def execDfDisable (acc : Access) (i : Fin 2) (s : State) : Host.Outcome State Fault Refusal :=
  .next (onBus acc (pDF i) 0x08 (dfWrite acc i 0x08 0x00010000) s)

/-- R366: `START`. -/
def execDfStart (acc : Access) (i : Fin 2) (s : State) : Host.Outcome State Fault Refusal :=
  .next (onBus acc (pDF i) 0x08 (dfWrite acc i 0x08 0x00020002) s)

/-- R366: `STOP`. -/
def execDfStop (acc : Access) (i : Fin 2) (s : State) : Host.Outcome State Fault Refusal :=
  .next (onBus acc (pDF i) 0x08 (dfWrite acc i 0x08 0x00040004) s)

/-- R366: `CLEAR`. -/
def execDfClear (acc : Access) (i : Fin 2) (s : State) : Host.Outcome State Fault Refusal :=
  .next (onBus acc (pDF i) 0x08 (dfWrite acc i 0x08 0x00080008) s)

/-- R361: the control cycle of tick C + 1. -/
def execDfCycle (i : Fin 2) (s : State) : Host.Outcome State Fault Refusal :=
  .next (if powered s ∧ pageEn s (pDF i) then dfCycle i s else s)

/-- R360: the slot draw in tick z + 2. -/
def execDfSlotDraw (i : Fin 2) (s : State) : Host.Outcome State Fault Refusal :=
  .next (if powered s ∧ pageEn s (pDF i) ∧ (carH s (dfMaster s i)).lastZero.map (· + 2) = some s.tick ∧
      dfCount (dfOn s i) ≠ 0 then dfDraw i s else s)

/-- R367, R368: r reaches the target in force. -/
def execDfTargetReached (i : Fin 2) (s : State) : Host.Outcome State Fault Refusal :=
  .next (if powered s then dfReached i s else s)

/-- R365, R370: `HIC_OFF` has elapsed. -/
def execDfHiccupRestart (i : Fin 2) (s : State) : Host.Outcome State Fault Refusal :=
  .next (if powered s ∧ dfState s i = dfHICCUP ∧ (dfH s i).hicAt + dfA s i 0x17C 8 8 * msT ≤ s.tick then dfRestart i s else s)

/-- R356: a masked write to `SYS:DEG_SET`. -/
def execDegSetWrite (acc : Access) (v : BitVec 32) (s : State) : Host.Outcome State Fault Refusal :=
  .next (onBus acc pSYS 0x60 (degSetWrite acc v.toNat) s)

end Sys2Proof.Machine
end

