-- ==== Sys2Proof/Machine/Honeybee.lean ====
section
/-! DEFINITION. Honeybee (R380 to R405): the cycle with qualification, source loss and hand-over, sharing, forage search and
battery charge; and the control pilot (R392 to R396, R406). -/
namespace Sys2Proof.Machine

/-! ## What a cycle reads -/

/-- A field, and a signed 16-bit field, of an epoch-buffered `HB` register as a cycle has latched it, else of its active copy. -/
def hbA (s : State) (o lo w : Nat) : Nat :=
  match s.hb.use with
  | some l => bits (nth l.bank ((o - 0x100) / 4) 0) lo w
  | none => actFld s pHB o lo w
def hbS (s : State) (o lo : Nat) : Int := sgn 16 (hbA s o lo 16)

/-- R404: `SRC.MSET` and `SRC.BSET`, and the words and elements of their records as a cycle has latched them, else as they are
visible. -/
def hbMset (s : State) : Nat := fld s pHB 0x40 0 3
def hbBset (s : State) : Nat := fld s pHB 0x40 4 3
def hbMw (s : State) (w : Nat) : Nat := match s.hb.use with | some l => nth l.mrec w 0 | none => rg s pSETS (recOff (hbMset s) w)
def hbBw (s : State) (w : Nat) : Nat := match s.hb.use with | some l => nth l.brec w 0 | none => rg s pSETS (recOff (hbBset s) w)
def hbMel (s : State) (e : Nat) : Int := sgn 16 (bits (hbMw s (e / 2)) (16 * (e % 2)) 16)
def hbBel (s : State) (lo : Nat) : Int := let e := fld s pHB 0x40 lo 4; sgn 16 (bits (hbBw s (e / 2)) (16 * (e % 2)) 16)

/-- R404: the rounding mode `CFG.RND` (R154). -/
def hbRnd (s : State) : Rnd := Rnd.ofCode (hbA s 0x100 0 2)

/-- R396: grid mode under the `CFG` of the cycle. -/
def hbMode (s : State) : Bool := hbGridBy s (hbA s 0x100 0 32)

/-- R380, R153: the transform of R168 on three elements of the mains set from `j` on, against A(T) of the record. -/
def hbRot (s : State) (j : Nat) : Int × Bool :=
  let x := alphaBeta (hbRnd s) (hbMel s j) (hbMel s (j + 1)) (hbMel s (j + 2))
  let d := mainsDq (hbRnd s) x.1 x.2.1 (hbMw s 8)
  (d.1, x.2.2 || d.2.2)

/-- R380: vd, the mains amplitude, from the channels that `AT.2:SRC.SUB` names, and i_in. -/
def hbVd (s : State) : Int × Bool := hbRot s (trackSub s 2)
def hbIin (s : State) : Int × Bool := hbRot s (fld s pHB 0x40 12 4)

/-- R380: the record's track state, and bits 47:16 of |ω| of `AT.2`. -/
def hbTrk (s : State) : Nat := bits (hbMw s 9) 4 3
def hbOmega (s : State) : Nat := match s.hb.use with | some l => l.omega | none => speedOf s 2

/-- R380: `CP_STATE` and `GRID_LIM` of the cycle, and I* and `DER_TH` of `DF.0`. -/
def hbCp (s : State) : Nat := match s.hb.use with | some l => l.cp | none => fld s pPILOT 0x48 0 3
def hbLim (s : State) : Nat := match s.hb.use with | some l => l.lim | none => rg s pPILOT 0x5C
def hbIstar (s : State) : Int := match s.hb.use with | some l => l.istar | none => dfTotal s 0
def hbDer (s : State) : Bool := match s.hb.use with | some l => l.der | none => rbit s (pDF 0) 0x200 18

/-- R385, R386: is |ω| within `F_LO` to `F_HI`? -/
def hbFreqOk (s : State) : Bool := decide (hbA s 0x108 0 16 ≤ hbOmega s ∧ hbOmega s ≤ hbA s 0x108 16 16)

/-- R385, R386: in grid mode, does the pilot stand at C with a limit of 60 or more? -/
def hbPilotOk (s : State) : Bool := hbCp s == 2 && decide (60 ≤ hbLim s)

/-- R382: `V_BK`. -/
def hbVbk (s : State) : Int := hbS s 0x114 16

/-- The integrator S of R389, the setpoint `I_IN` of R390. -/
def hbShare (s : State) : Int := sgn 16 (fld s pHB 0x21C 16 16)
def hbIn (s : State) : Int := sgn 16 (fld s pHB 0x210 0 16)
def hbSetIn (x : Int) (s : State) : State := setFld pHB 0x210 0 16 (uns 16 x) s

/-- R155, R405: flags of Honeybee's arithmetic. -/
def hbArith (flags : Nat) (s : State) : State := setArith pHB 0x224 (some 5) (some 0) flags s

/-- The smaller of two integers. -/
def minI (a b : Int) : Int := if a < b then a else b
def maxI (a b : Int) : Int := if a < b then b else a

/-- R391: the ceiling. -/
def hbCeiling (s : State) : Int × Bool :=
  if hbMode s then satS 16 (rneDiv (hbLim s * rg s pHB 0x48 : Nat) (2 ^ 16)) else (hbS s 0x120 16, false)

/-! ## Commands to `DF.0` (R382, R384, R387 to R389) -/

/-- R382: `DF.0` takes its mode and target, while `CFG.SRC` is 1. A change to IBAT in RUN sets r to the target (R388). -/
def hbGive (bat : Bool) (t : Int) (s : State) : State :=
  if ¬ dfByHb s 0 then s
  else
    let h := dfH s 0
    let run : Bool := dfState s 0 == dfRUN
    let s1 := setDfH 0 { h with hbBat := bat, hbTgt := t } s
    if ¬ run then s1
    else if bat ∧ ¬ h.hbBat then dfSetTarget 0 t (dfSetR 0 t s1)
    else if t ≠ h.tgt then dfSetTarget 0 t s1
    else s1

/-- R387: steps 1 to 4 of the hand-over, or IDLE where `DF.0` is not in RUN. -/
def hbHandOver (s : State) : State :=
  if dfState s 0 ≠ dfRUN then incSat pHB 0x228 8 8 1 (hbGo hbIDLE s)
  else
    let s1 := hbGo hbHANDOVER s
    let s2 := setDfH 0 { dfH s1 0 with hbVal := true } s1
    if dfByHb s 0 then
      let h := dfH s2 0
      dfShowRef 0 (setDfH 0 { h with hbBat := false, hbTgt := hbVbk s, tgt := hbVbk s, slew := true, need := true } s2)
    else s2

/-- R386: a source loss. -/
def hbLoss (s : State) : State := hbHandOver (flag pHB 3 (incSat pHB 0x228 0 8 1 s))

/-- R388, R390, R391: entry to SOURCE: the forage search from `FG_FLOOR`, or the ceiling where there is none or it is lower, S at `DF.0`'s present I*, no charge current. -/
def hbEnterSource (s : State) : State :=
  let s1 := hbGo hbSOURCE (setFld pHB 0x220 0 16 0 s)
  let s2 := { s1 with hb := { s1.hb with iChg := 0, loss := 0, dwell := 0, mode := some (hbMode s) } }
  let st := if hbA s 0x100 5 1 = 1 then 1 else 0
  let x := if st = 1 then minI (hbS s 0x120 0) (hbCeiling s).1 else (hbCeiling s).1
  hbGive true (hbIstar s) (setRg pHB 0x21C ((2 ^ 16 + 1) * uns 16 (hbIstar s)) (hbSetIn x (setFld pHB 0x210 16 3 st s2)))

/-- R384: `START` of `DF.0` in VLINK mode, at entry to IDLE and then at most once every 20 000 cycles. -/
def hbStartDf (s : State) : State :=
  let due : Bool := match s.hb.since with | none => true | some n => decide (20000 ≤ n)
  let s1 := { s with hb := { s.hb with since := if due then some 0 else s.hb.since } }
  let s2 := if due then
      dfWrite internalAcc 0 0x08 0x00020002 (setDfH 0 { dfH s1 0 with hbBat := false, hbTgt := hbVbk s } s1)
    else s1
  if dfState s2 0 = dfRUN then hbGo hbSUPPORT s2 else s2

/-! ## Qualification and loss (R385, R386) -/

/-- R385: do the conditions of qualification hold? -/
def hbGood (vd : Int) (s : State) : Bool :=
  decide (hbS s 0x104 0 ≤ vd ∧ vd ≤ hbS s 0x104 16) && hbFreqOk s && hbTrk s == trVALID && (! hbMode s || hbPilotOk s)

/-- R385: the count's limit in the mode in force. -/
def hbReq (s : State) : Nat := hbA s 0x110 (if hbMode s then 0 else 16) 16

/-- R384, R385: a cycle in IDLE or SUPPORT. -/
def hbQualify (vd : Int) (s : State) : State :=
  let n := fld s pHB 0x220 0 16
  let lim := hbReq s
  let n' := if ¬ hbGood vd s then 0 else if lim ≤ n then lim else n + 1
  let s1 := setFld pHB 0x220 0 16 n' s
  let qual : Bool := hbGood vd s && decide (lim ≤ n')
  if qual ∧ (devState s).running then hbEnterSource s1
  else if hbState s = hbSUPPORT then hbGive false (hbVbk s) s1
  else if ¬ qual ∧ hbA s 0x100 6 1 = 1 ∧ dfByHb s 0 ∧ (devState s).running then hbStartDf s1
  else s1

/-- R386, R396: is the present cycle of SOURCE a source loss, and the count of consecutive loss cycles after it? -/
def hbLost (vd : Int) (s : State) : Bool × Nat :=
  let grid := hbMode s
  let bad := decide (vd < hbS s 0x10C 16) || ! hbFreqOk s || (hbTrk s != trVALID && hbTrk s != trCOAST)
  let n := if bad then s.hb.loss + 1 else 0
  let leg := (List.range 32).any (fun m => rbit s pHB 0x44 m && rbit s (pLEG m) 0x94 2)
  let mode : Bool := match s.hb.mode with | some m => m != grid | none => false
  ((bad && decide (hbA s 0x10C 0 8 ≤ n)) || (grid && (! hbPilotOk s || ! rbit s pPILOT 0x08 1)) || leg || mode, n)

/-! ## Battery charge (R397 to R401) -/

/-- `CHG_STAT`: the phase, 1 TRICKLE to 5 TERMINATION. -/
def chgPhase (s : State) : Nat := fld s pHB 0x200 0 3

/-- R397: the programmed current, the exit voltage, and the time of a phase of `CHG_STAT`. -/
def chgI (s : State) (ph : Nat) : Int := hbS s (0x180 + 0x10 * (ph - 1)) 0
def chgV (s : State) (ph : Nat) : Int := hbS s (0x184 + 0x10 * (ph - 1)) 0
def chgNp (s : State) (ph : Nat) : Nat := hbA s (0x188 + 0x10 * (ph - 1)) 0 16 * 20000

/-- R397: `I_MAX`, and `V_CV`. -/
def chgImax (s : State) : Int := hbS s 0x1DC 0
def chgVcv (s : State) : Int := minI (chgV s 4) (hbS s 0x1DC 16)

/-- R398: is the thermal limit in force? -/
def chgThermal (s : State) : Bool :=
  (chgRunning s && hbA s 0x1E0 16 1 == 1 && decide (chgImax s < chgI s (chgPhase s))) || hbDer s

/-- R397: entry to a phase. -/
def chgEnter (ph : Nat) (s : State) : State :=
  let s1 := setRg pHB 0x20C 0 (setRg pHB 0x208 0 (setRg pHB 0x204 0 (setFld pHB 0x200 0 3 ph s)))
  flag pHB 1 { s1 with hb := { s1.hb with term := 0, therm := false, iCv := s1.hb.iChg } }

/-- R397: the first phase whose entry condition holds for a battery voltage. -/
def chgFirst (v : Int) (s : State) : Nat :=
  if v < chgV s 1 then 1 else if v < chgV s 2 then 2 else if v < chgVcv s then 3 else 4

/-- The charge Q of the phase. -/
def chgQ (s : State) : Nat := rg s pHB 0x204 + 2 ^ 32 * fld s pHB 0x208 0 16

/-- R400: the cycle's counts: N every cycle, Q every non-lost cycle. -/
def chgCount (lost : Bool) (s : State) : State :=
  if ¬ chgRunning s then s
  else
    let s1 := setRg pHB 0x20C (satN (2 ^ 32 - 1) (rg s pHB 0x20C + 1)) s
    if lost then s1
    else
      let q := satN (2 ^ 48 - 1) (chgQ s + (maxI (-(hbBel s 24)) 0).toNat)
      setFld pHB 0x208 0 16 (q / 2 ^ 32) (setRg pHB 0x204 (q % 2 ^ 32) s1)

/-- R398 to R401: the cause that ends the charge in the present cycle, the lowest code first (log entry 31). -/
def chgCause (s : State) : Option Nat :=
  let ph := chgPhase s
  if hbA s 0x1E0 17 1 = 0 then some 4
  else if hbA s 0x1E4 0 16 ≤ fld s pHB 0x220 16 16 then some 5
  else if hbS s 0x1D0 0 ≤ hbBel s 20 then some 6
  else if chgI s ph * chgNp s ph ≤ chgQ s then some 8
  else if 3 * chgNp s ph ≤ rg s pHB 0x20C then some 9
  else none

/-- R397, R398: the exit of a phase, the charge current, and the end of TERMINATION. -/
def chgStep (s : State) : State :=
  let ph := chgPhase s
  let v := hbBel s 20
  let next := (ph ≤ 2 && decide (chgV s ph ≤ v)) || (ph == 3 && decide (chgVcv s ≤ v))
  if next then chgEnter (ph + 1) s
  else if ph ≤ 3 then { s with hb := { s.hb with iChg := minI (chgI s ph) (chgImax s) } }
  else if ph = 4 then
    let i := clampI 0 (minI (chgI s 4) (chgImax s)) (s.hb.iCv + rneDiv (hbS s 0x1D4 0 * (chgVcv s - v)) (2 ^ 15))
    let n := if i ≤ hbS s 0x1B0 16 then s.hb.term + 1 else 0
    let s1 := { s with hb := { s.hb with iCv := i, iChg := i, term := n } }
    if i ≤ hbS s 0x1B0 16 ∧ hbA s 0x1D4 16 16 ≤ n then chgEnter 5 s1 else s1
  else
    let i := maxI 0 (s.hb.iChg - hbA s 0x1D8 0 16)
    let s1 := { s with hb := { s.hb with iChg := i } }
    if i = 0 then chgEnd 2 s1 else s1

/-- R397 to R401: the charge in a non-lost cycle of SOURCE. -/
def chgCycle (s : State) : State :=
  if ¬ chgRunning s then s
  else
    let th := chgThermal s
    let s1 := { s with hb := { s.hb with therm := s.hb.therm || th } }
    match chgCause s1 with
    | some c => chgEnd c s1
    | none => chgStep s1

/-! ## Sharing and forage (R389 to R391) -/

/-- R389: the sharing integrator and the target of `DF.0`. -/
def hbSharing (s : State) : State :=
  let v := hbMel s (fld s pHB 0x40 16 4)
  let es := hbS s 0x114 0 - hbS s 0x118 0 - v
  let x := if hbA s 0x100 4 1 = 0 then (0, false)
    else satS 16 (clampI 0 (s.hb.iChg + hbS s 0x11C 0) (hbShare s + rneDiv (hbS s 0x118 16 * es) (2 ^ 15)))
  let t := satS 16 (x.1 - s.hb.iChg)
  hbGive true t.1 (hbArith (2 * b2n (x.2 || t.2)) (setRg pHB 0x21C (uns 16 t.1 + 2 ^ 16 * uns 16 x.1) s))

/-- The forage state. -/
def fgState (s : State) : Nat := fld s pHB 0x210 16 3
def fgGo (st : Nat) (s : State) : State := setFld pHB 0x210 16 3 st { s with hb := { s.hb with dwell := 0 } }

/-- R390, R153: `I_IN` takes a sum, which saturates. -/
def fgIn (x : Int) (s : State) : State := let y := satS 16 x; hbArith (2 * b2n y.2) (hbSetIn y.1 s)

/-- R390: a step of `I_IN`: `E216` and the count. -/
def fgStep (x : Int) (s : State) : State := flag pHB 4 (incSat pHB 0x210 24 8 1 (fgIn x s))

/-- R390: a violation in RISE or HOLD. -/
def fgBack (s : State) : State :=
  let x := maxI (hbIn s - hbS s 0x124 16) (hbS s 0x120 0)
  fgGo 3 (setFld pHB 0x214 0 16 (uns 16 (satS 16 x).1) (flag pHB 4 (fgIn x s)))

/-- R390: one cycle of the forage search under the ceiling `c`. -/
def forage (vd iin c : Int) (s : State) : State :=
  let st := fgState s
  if hbA s 0x100 5 1 = 0 then hbSetIn c (if st = 0 then s else fgGo 0 s)
  else if st = 0 then hbSetIn (hbS s 0x120 0) (fgGo 1 s)
  else
    let n := s.hb.dwell + 1
    let viol : Bool := decide (vd < s.hb.vdRef - hbS s 0x128 0) || decide (hbOmega s + hbA s 0x128 16 16 < s.hb.fRef)
    let s1 := { s with hb := { s.hb with dwell := n } }
    if st = 1 then
      hbSetIn (hbS s 0x120 0)
        (if hbA s 0x12C 0 16 ≤ n then fgGo 2 { s1 with hb := { s1.hb with vdRef := vd, fRef := hbOmega s } } else s1)
    else if viol then fgBack s1
    else if st = 2 then
      (if n < hbA s 0x12C 0 16 then s1
       else if c ≤ hbIn s then fgGo 3 s1
       else if hbIn s - hbS s 0x130 0 ≤ iin then
         (let x := minI (hbIn s + hbS s 0x124 0) c
          fgGo (if c ≤ x then 3 else 2) (fgStep x s1))
       else fgGo 2 s1)
    else if hbA s 0x12C 16 16 * 100 ≤ n then fgGo 2 s1 else s1

/-- R390, R391: the forage search and the ceiling of a cycle in SOURCE. -/
def hbForage (vd iin : Int) (s : State) : State :=
  let c := (hbCeiling s).1
  let s1 := forage vd iin c s
  if c < hbIn s1 then hbSetIn c s1 else s1

/-! ## The cycle -/

/-- R380, R386 to R391: a non-lost cycle in SOURCE. -/
def hbSource (vd iin : Int) (s : State) : State :=
  let l := hbLost vd s
  let s1 := { s with hb := { s.hb with loss := l.2, mode := some (hbMode s) } }
  if l.1 then hbLoss s1 else hbForage vd iin (hbSharing (chgCycle s1))

/-- R381: the outputs of a cycle, in its tick C + 8. -/
def hbOutputs (vd : Int) (s : State) : State :=
  let ws := [if hbState s = hbSOURCE then 0x7FFF else 0, fld s pHB 0x210 0 16, hbA s 0x114 0 16, uns 16 vd, fgState s,
    uns 16 (hbCeiling s).1, 0, 0]
  { s with hb := { s.hb with outPrev := if s.hb.outAt < s.tick then s.hb.out else s.hb.outPrev, out := ws, outAt := s.tick } }

/-- R384, R399: what every cycle counts: the freshness counter, and the cycles since the last `START` of `DF.0`. -/
def hbFresh (s : State) : State :=
  incSat pHB 0x220 16 16 1 { s with hb := { s.hb with since := s.hb.since.map (fun n => satN 20000 (n + 1)) } }

/-- R404: the thermal limit and the ceiling that a cycle has in force. -/
def hbLimits (s : State) : State :=
  let c := hbCeiling s
  setBit pHB 0x200 16 (chgThermal s) (setFld pHB 0x214 16 16 (uns 16 c.1) (hbArith (2 * b2n c.2) s))

/-- R380: the decisions of a non-lost cycle. -/
def hbFull (s : State) : State :=
  let vd := hbVd s
  let i := hbIin s
  let s1 := hbArith (2 * b2n (vd.2 || i.2)) (setRg pHB 0x218 (uns 16 vd.1 + 2 ^ 16 * uns 16 i.1) (chgCount false (hbFresh s)))
  let s2 := if hbState s1 = hbSOURCE then hbSource vd.1 i.1 s1
    else if hbState s1 = hbIDLE ∨ hbState s1 = hbSUPPORT then hbQualify vd.1 s1
    else if hbState s1 = hbHANDOVER then hbGive false (hbVbk s1) (setFld pHB 0x220 0 16 0 s1)
    else s1
  hbOutputs vd.1 (hbLimits (pilotSwitch s2))

/-- R380: what a cycle latches in tick C + 1. -/
def hbLatch (due : Nat) (s : State) : HbLatch :=
  let words := fun (k : Nat) => (List.range 10).map (fun w => rg s pSETS (recOff k w))
  { due := due, mrec := words (hbMset s), brec := words (hbBset s), omega := speedOf s 2, cp := fld s pPILOT 0x48 0 3,
    lim := rg s pPILOT 0x5C, istar := dfTotal s 0, der := rbit s (pDF 0) 0x200 18, bank := (List.range 58).map (fun j => act s pHB (0x100 + 4 * j)) }

/-- R380: a completion of the mains set in the previous tick. Its decisions follow in tick C + 8; a reduced cycle makes none. -/
def hbCycle (s : State) : State :=
  match (setH s (hbMset s)).doneAt with
  | none => s
  | some c =>
    if c + 1 ≠ s.tick ∨ s.hb.last = some c then s
    else if (match s.hb.last with | some l => decide (c ≤ l + 7) | none => false) then
      detBreach 1 pHB (incSat pHB 0x228 24 8 1 s)
    else
      let s1 := { s with hb := { s.hb with last := some c } }
      if rbit s pSETS (recOff (hbMset s) 9) 0 then incSat pHB 0x228 16 8 1 (chgCount true (hbFresh s1))
      else { s1 with hb := { s1.hb with lat := some (hbLatch (c + 8) s1) } }

/-- R380, R387: what a tick brings: the first delivery of `DF.0` under VLINK, and the decisions of the cycle whose tick C + 8 it is. -/
def hbTick (s : State) : State :=
  let s1 := match s.hb.sup with
    | some t =>
      if s.tick < t then s
      else
        let s1 := { s with hb := { s.hb with sup := none } }
        if hbState s1 = hbHANDOVER ∧ dfState s1 0 = dfRUN then hbGo hbSUPPORT s1 else s1
    | none => s
  match s1.hb.lat with
  | some l =>
    if s1.tick < l.due then s1
    else
      let s2 := { s1 with hb := { s1.hb with lat := none, use := some l } }
      let s3 := if pageEn s1 pHB then hbFull s2 else s2
      { s3 with hb := { s3.hb with use := none } }
  | none => s1

/-! ## Writes of the `HB` page (R402, R404, R405) -/

/-- The checks of a write to `HB`. -/
def hbChk (s : State) (o v : Nat) (_old new : Nat) : Option Reason :=
  let en := pageEn s pHB
  let st := hbState s
  if o = 0x08 then
    let start := cmdBit v 1
    let stop := cmdBit v 2
    let ack := cmdBit v 3
    let block := rbit s pHB 0x200 17
    let zero := (List.range 5).any (fun p => hbA s (0x180 + 0x10 * p) 0 16 == 0 || hbA s (0x188 + 0x10 * p) 0 16 == 0)
    firstReason [((cmdBit v 0 && ! en && decide (13 < fld s pHB 0x40 12 4)) || (start && zero), .value),
      (start && ! (devState s).running, .devstate),
      ((start && (st == hbOFF || chgRunning s || block)) || (stop && ! chgRunning s) || (ack && (! block || chgRunning s)), .state),
      (start && (st == hbIDLE || hbA s 0x1E0 17 1 == 0 || decide (hbA s 0x1E4 0 16 ≤ fld s pHB 0x220 16 16)), .resource),
      (start && (st == hbHANDOVER || st == hbSUPPORT || ! dfByHb s 0), .conflict)]
  else if o = 0x40 ∨ o = 0x44 then firstReason [(en, .state)]
  else if o = 0x100 then firstReason [(bits new 0 2 == 3 || bits new 2 2 == 3, .value)]
  else if o = 0x10C then firstReason [(bits new 0 8 == 0, .value)]
  else if o = 0x1E4 then firstReason [(new == 0, .value)]
  else none

/-- R383: `EN` is set or cleared. -/
def hbEnable (on : Bool) (s : State) : State :=
  hbGo (if on then hbIDLE else hbOFF) (setFld pHB 0x220 0 16 0 { s with hb := { s.hb with lat := none } })

/-- R381, R383: the overrides of every source leg end with `EN`, and as no further cycle comes, the run code is 0 for every start after
the present tick. -/
def hbDisable (s : State) : State :=
  let s1 := hbEnable false s
  let was := if s1.hb.outAt < s.tick then s1.hb.out else s1.hb.outPrev
  { s1 with hb := { s1.hb with outPrev := was, out := s1.hb.out.set 0 0, outAt := s.tick } }

/-- The effects of a write to `HB`, `was` being `EN` before it. A write that clears `EN` leaves Honeybee in OFF whatever it commands
beside (R383, R397). -/
def hbEff (o v : Nat) (was : Bool) (s : State) : State :=
  if o = 0x08 then
    let s1 := if cmdBit v 1 then chgEnter (chgFirst (hbBel s 20) s) { s with hb := { s.hb with iChg := 0 } } else s
    let s2 := if cmdBit v 2 then chgEnd 1 s1 else s1
    let s3 := if cmdBit v 3 then pilotSwitch (setBit pHB 0x200 17 false s2) else s2
    if pageEn s pHB = was then s3 else if was then hbDisable s3 else hbEnable true s3
  else s

/-- A write to a register of `HB`. -/
def hbWrite (acc : Access) (o v : Nat) (s : State) : State :=
  if o = 0x224 then clearArith pHB o v s else busStore acc pHB o v (hbChk s o v) (hbEff o v (pageEn s pHB)) s

/-! ## The pilot (R392 to R396, R406) -/

/-- R392: the pilot state of a high level in 10 mV: 0 A to 5 F, 6 invalid. -/
def cpClass (hi : Int) : Nat :=
  if 1100 ≤ hi ∧ hi ≤ 1300 then 0 else if 800 ≤ hi ∧ hi ≤ 1000 then 1 else if 500 ≤ hi ∧ hi ≤ 700 then 2
  else if 200 ≤ hi ∧ hi ≤ 400 then 3 else if -100 ≤ hi ∧ hi ≤ 100 then 4 else if -1300 ≤ hi ∧ hi ≤ -1100 then 5 else 6

/-- R393: the pilot limit of a duty in 0.1 %, in 0.1 A. -/
def cpLimit (d : Nat) : Nat :=
  if d < 80 then 0 else if d < 100 then 60 else if d ≤ 850 then d * 6 / 10
  else if d ≤ 960 then (d - 640) * 25 / 10 else if d ≤ 970 then 800 else 0

/-- R394: the cable limit of a resistance in Ω, in 0.1 A; 0xFFFF is open. -/
def ppLimit (r : Nat) : Nat :=
  if 2200 < r then 0 else if 1000 ≤ r then 130 else if 400 ≤ r then 200 else if 150 ≤ r then 320 else if 75 ≤ r then 630 else 0

/-- R394: `GRID_LIM`, the state-C switch (R395), and what re-plugging brings (R401). -/
def pilotShow (s : State) : State :=
  let st := fld s pPILOT 0x48 0 3
  let m := [fld s pPILOT 0x4C 0 16, fld s pPILOT 0x4C 16 16, rg s pPILOT 0x58].foldl (fun a b => if b < a then b else a) 630
  pilotSwitch (setRg pPILOT 0x5C (if 3 ≤ st then 0 else m) s)

/-- R401: in grid mode, state A or an open `PP` clears `BLOCK`. -/
def pilotUnblock (grid : Bool) (s : State) : State :=
  if grid ∧ (fld s pPILOT 0x48 0 3 = 0 ∨ rg s pPILOT 0x50 = 0xFFFF) then setBit pHB 0x200 17 false s else s

/-- R392: a pilot period: high and low level in 10 mV, duty in 0.1 %, period in µs. With `DIODE` the state counts as invalid at once. -/
def pilotPeriod (hi lo : Int) (d per : Nat) (s : State) : State :=
  if ¬ pageEn s pPILOT then s
  else
    let freq : Bool := per < 980 || 1020 < per
    let diode : Bool := decide (0 < d ∧ d < 1000) && decide (-1100 < lo)
    let st := if diode then 6 else cpClass hi
    let dig : Bool := ! freq && decide (30 ≤ d ∧ d ≤ 70)
    let old := rg s pPILOT 0x44
    let new := d % 2 ^ 10 + 2 ^ 16 * satN 0xFFFF per
    let s1 := setRg pPILOT 0x44 new (setRg pPILOT 0x40 (uns 16 hi + 2 ^ 16 * uns 16 lo) s)
    let s2 := setBit pPILOT 0x48 4 dig (setBit pPILOT 0x48 5 diode (setBit pPILOT 0x48 6 freq s1))
    let s3 := flagIf (bits old 0 10 ≠ bits new 0 10) pPILOT 1
      (setFld pPILOT 0x4C 0 16 (if freq then 0 else cpLimit d) s2)
    let cp := fld s pPILOT 0x48 0 3
    let s3 := if diode ∧ cp ≠ 6 then flag pPILOT 0 (setFld pPILOT 0x48 0 3 6 s3) else s3
    let h := s3.hb
    let h1 := if st = fld s3 pPILOT 0x48 0 3 then { h with cpNew := none }
      else if h.cpNew = some st then h else { h with cpNew := some st, cpAt := s.tick }
    pilotShow { s3 with hb := h1 }

/-- R392: a new state has held for `CP_FILT` ms. -/
def pilotAccept (s : State) : State :=
  match s.hb.cpNew with
  | none => s
  | some st =>
    if ¬ pageEn s pPILOT ∨ s.tick < s.hb.cpAt + fld s pPILOT 0x54 0 8 * msT then s
    else
      let s1 := setFld pPILOT 0x48 0 3 st { s with hb := { s.hb with cpNew := none } }
      pilotShow (pilotUnblock (hbGrid s) (flag pPILOT 0 s1))

/-- R394: a change of the resistance of `PP`. -/
def ppChange (r : Nat) (s : State) : State :=
  let v := satN 0xFFFF (if 4500 < r then 0xFFFF else r)
  let bad : Bool := decide (2200 < r ∧ r ≤ 4500) || decide (r < 75)
  let grid := hbGrid s
  let s1 := setFld pPILOT 0x4C 16 16 (ppLimit r) (setRg pPILOT 0x50 v s)
  pilotShow (pilotUnblock grid (flagIf bad pPILOT 3 (flag pPILOT 2 s1)))

/-- The checks of a write to `PILOT` (R406). -/
def pilotChk (o : Nat) (_old new : Nat) : Option Reason :=
  if o = 0x54 then firstReason [(bits new 0 8 == 0, .value)]
  else if o = 0x58 then firstReason [(decide (new < 60) || decide (630 < new), .value)]
  else none

/-- A write to a register of `PILOT`. -/
def pilotWrite (acc : Access) (o v : Nat) (s : State) : State := busStore acc pPILOT o v (pilotChk o) pilotShow s

/-! ## Rows -/

/-- R383: a write that sets `HB:PAGE_CTRL.EN`. -/
def execHbEnable (acc : Access) (s : State) : Host.Outcome State Fault Refusal :=
  .next (onBus acc pHB 0x08 (hbWrite acc 0x08 0x00010001) s)

/-- R383: a write that clears `EN`. -/
def execHbDisable (acc : Access) (s : State) : Host.Outcome State Fault Refusal :=
  .next (onBus acc pHB 0x08 (hbWrite acc 0x08 0x00010000) s)

/-- R380: the cycle of tick C + 1. -/
def execHbCycle (s : State) : Host.Outcome State Fault Refusal :=
  .next (if powered s ∧ pageEn s pHB then hbCycle s else s)

/-- R402: `CHG_START`. -/
def execChgStart (acc : Access) (s : State) : Host.Outcome State Fault Refusal :=
  .next (onBus acc pHB 0x08 (hbWrite acc 0x08 0x00020002) s)

/-- R402: `CHG_STOP`. -/
def execChgStop (acc : Access) (s : State) : Host.Outcome State Fault Refusal :=
  .next (onBus acc pHB 0x08 (hbWrite acc 0x08 0x00040004) s)

/-- R402: `CHG_ACK`. -/
def execChgAck (acc : Access) (s : State) : Host.Outcome State Fault Refusal :=
  .next (onBus acc pHB 0x08 (hbWrite acc 0x08 0x00080008) s)

/-- R392: a period of the pilot is measured. -/
def execPilotPeriod (hi : Int) (lo : Int) (d : Fin 1001) (per : Nat) (s : State) : Host.Outcome State Fault Refusal :=
  .next (if powered s then pilotPeriod hi lo d per s else s)

/-- R392: a pilot state has held for `CP_FILT`. -/
def execPilotStateChange (s : State) : Host.Outcome State Fault Refusal :=
  .next (if powered s then pilotAccept s else s)

/-- R394: the resistance of `PP` to `PE`, in Ω, has changed. -/
def execPpChange (ohms : Nat) (s : State) : Host.Outcome State Fault Refusal :=
  .next (if powered s then ppChange ohms s else s)

end Sys2Proof.Machine
end

