-- ==== Sys2Proof/Machine/Actuator.lean ====
section
/-! DEFINITION. The actuator drive units (R407 to R419): the unit cycle with its position and current loops, overcurrent and
cross-check, the park lock, and the writes of the `ADU` pages. -/
namespace Sys2Proof.Machine

/-! ## Configuration -/

/-- A field, and a signed 16-bit field, of the active copy of a register of `ADU.u`. -/
def aduA (s : State) (u o lo w : Nat) : Nat := actFld s (pADU u) o lo w
def aduS (s : State) (u o lo : Nat) : Int := sgn 16 (aduA s u o lo 16)

/-- `SRC.SET`, `SRC.TRK`, `SRC.EXEC`, the first current element and the SENT input (R407). -/
def aduSet (s : State) (u : Nat) : Nat := fld s (pADU u) 0x40 12 3
def aduTrk (s : State) (u : Nat) : Nat := fld s (pADU u) 0x40 5 3
def aduExec (s : State) (u : Nat) : Bool := rbit s (pADU u) 0x40 8

/-- R408: p, the calibrated fast channel 1 of the unit's SENT input, as the cycle has latched it, else as it is. -/
def aduPos (s : State) (u : Nat) : Int :=
  match (aduH s u).use with
  | some l => l.pos
  | none => let i := fld s (pADU u) 0x40 20 2; (calibrate s (0x88 + i) (sentRaw s i)).1

/-- R408: the track's state and angle as the cycle has latched them, else as they are. -/
def aduTrkGood (s : State) (u : Nat) : Bool := match (aduH s u).use with | some l => l.good | none => trackGood s (aduTrk s u)
def aduAng (s : State) (u : Nat) : Nat := match (aduH s u).use with | some l => l.ang | none => angleNow s (aduTrk s u)

/-- R407: the current element of the unit's leg `j` in the latched record; `ADU.2` has one element. -/
def aduCur (s : State) (u j : Nat) : Int :=
  let e := fld s (pADU u) 0x40 16 4 + (if u = 2 then 0 else j)
  match (aduH s u).use with
  | some l => sgn 16 (bits (nth l.rec_ (e / 2) 0) (16 * (e % 2)) 16)
  | none => recEl s (aduSet s u) e

/-- R413: the largest magnitude among the unit's current elements. -/
def aduPeak (s : State) (u : Nat) : Nat :=
  (List.range (if u = 2 then 1 else 3)).foldl (fun a j => if a < (aduCur s u j).natAbs then (aduCur s u j).natAbs else a) 0

/-- R410: the Hall sector of the unit's track's source. -/
def aduSector (s : State) (u : Nat) : Nat :=
  match (aduH s u).use with
  | some l => l.sector
  | none => fld s pENC (0x80 + 4 * trackInst s (aduTrk s u)) 4 3

/-- R410: the legs (h, l) of a sector, as offsets, for the sign of i*. -/
def aduPair (k : Nat) (neg : Bool) : Option (Nat × Nat) :=
  match [(0, 1), (0, 2), (1, 2), (1, 0), (2, 0), (2, 1)][k]? with
  | some (h, l) => some (if neg then (l, h) else (h, l))
  | none => none

/-- `IREF`: i* and the largest current; `POS`: p and p_r. -/
def aduRef (s : State) (u : Nat) : Int := sgn 16 (fld s (pADU u) 0x204 0 16)
def aduShow (u : Nat) (i : Int) (s : State) : State :=
  let h := aduH s u
  setRg (pADU u) 0x200 (uns 16 (aduPos s u) + 2 ^ 16 * uns 16 (h.pr / 256))
    (setRg (pADU u) 0x204 (uns 16 i + 2 ^ 16 * (aduPeak s u % 2 ^ 16)) s)

/-- R411, R413: HICCUP, or FAULT where the count is exceeded; `cause` 2 overcurrent, 3 cross-check. -/
def aduHiccup (u cause : Nat) (s : State) : State :=
  let h := aduH s u
  let win := aduA s u 0x60 16 16 * 1000 * msT
  let hics := s.tick :: h.hics.filter (fun t => s.tick ≤ t + win)
  let s1 := incSat (pADU u) 0x20C 0 8 1 (setAduH u { h with hics := hics, hicAt := s.tick, eng := none } s)
  aduEnter u (if aduA s u 0x60 0 4 + 1 ≤ hics.length then aduFAULT else aduHICCUP) (some cause) s1

/-- R413: an overcurrent, or a cycle handled as one. -/
def aduOver (u : Nat) (s : State) : State := aduHiccup u 2 (flag (pADU u) 2 s)

/-- R411, R413, R415: RUN is entered, from `START` or from HICCUP. -/
def aduRunEntry (u : Nat) (s : State) : State :=
  let h := aduH s u
  let p := aduPos s u
  let h1 := { h with pr := p * 256, pPrev := p, x := 0, sector := 7, xcN := 0, xcP := p, xcA := aduAng s u,
                     xcSum := 0, trN := 0, told := false, tgt := aduS s u 0x48 0, eng := none, startAt := s.tick }
  let s1 := if u = 2 then
      setFld (pADU 2) 0x204 0 16 (aduA s 2 0x64 0 16) (setFld (pADU 2) 0x208 3 2 1 (setFld (pADU 2) 0x208 0 2 0 s))
    else s
  aduEnter u aduRUN none (setAduH u h1 s1)

/-- R412, R416: `STOP`: IDLE, and on `ADU.2` the watch for the engagement of the pawl. -/
def aduStop (u cause : Nat) (s : State) : State :=
  let s1 := aduEnter u aduIDLE (some cause) s
  if u = 2 then setAduH 2 { aduH s1 2 with eng := some s.tick, trN := 0 } s1 else s1

/-! ## The current loop inside the unit (R410) -/

/-- R410: the loop on leg offset `hl` with reference magnitude `i`: the integrator, and the compare value delivered in tick
C + 6. -/
def aduLoop (u hl : Nat) (i : Int) (s : State) : State :=
  let h := aduH s u
  let e := (i.natAbs : Int) - aduCur s u hl
  let x := (satS 16 (h.x + rneDiv (aduS s u 0x54 16 * e) (2 ^ 15))).1
  let d := (satS 16 (x + rneDiv (aduS s u 0x54 0 * e) (2 ^ 15))).1
  let m := aduLeg s u + hl
  let p := carRange s (legCar s m)
  let c := (clampI 0 p (rdiv (Rnd.ofCode (aduA s u 0x44 0 2)) ((p : Int) * (if d < 0 then 0 else d)) 32768)).toNat
  deliver 4 m false c s.tick (setAduH u { h with x := x } s)

/-- Set a leg's override if it differs. -/
def aduSetOvr (m code : Nat) (s : State) : State := if (legH s m).ovr = code then s else setOvr m code s

/-- R410: EXEC 1 on `ADU.0` and `ADU.1`. A sector no legs are given for leaves every leg OFF (log entry 33). -/
def aduCommutate (u : Nat) (i : Int) (s : State) : State :=
  let k := aduSector s u
  let h := aduH s u
  let s1 := setAduH u { h with sector := k, x := if h.sector = k then h.x else 0 } s
  let b := aduLeg s u
  match aduPair k (i < 0) with
  | none => forRange 3 (fun j s => aduSetOvr (b + j) 1 s) s1
  | some (hl, ll) =>
    let s2 := forRange 3 (fun j s => aduSetOvr (b + j) (if j = hl then 0 else if j = ll then 2 else 1) s) s1
    aduLoop u hl i s2

/-- R410: the internal current loop of a cycle in RUN. -/
def aduInternal (u : Nat) (i : Int) (s : State) : State :=
  if ¬ aduExec s u then s
  else if u = 2 then aduLoop 2 0 i (aduSetOvr (aduLeg s 2 + 1) 2 (aduSetOvr (aduLeg s 2) 0 s))
  else aduCommutate u i s

/-! ## Positioning (R413, R414) -/

/-- R413: p_r one cycle on. -/
def slewTo (r t d : Int) : Int := if r < t then (if t ≤ r + d then t else r + d) else (if r - d ≤ t then t else r - d)

/-- R413: the position loop: p_r, i*, and `TGT`. -/
def aduPosition (u : Nat) (s : State) : State :=
  let h := aduH s u
  let p := aduPos s u
  let t := aduS s u 0x48 0
  let h0 := if t = h.tgt then h else { h with tgt := t, told := false, trN := 0 }
  let pr := slewTo h.pr (t * 256) (aduA s u 0x4C 0 16)
  let dp := p - h.pPrev
  let lim := aduS s u 0x58 0
  let i := clampI (-lim) lim (rneDiv (aduS s u 0x50 0 * (pr - p * 256) - aduS s u 0x50 16 * dp * 256) (2 ^ 20))
  let near : Bool := decide (pr = t * 256) && decide ((t - p).natAbs ≤ aduA s u 0x44 16 16)
  let n := if near then h0.trN + 1 else 0
  let held : Bool := near && decide (aduA s u 0x44 8 8 ≤ n)
  let hit : Bool := held && ! h0.told
  let s1 := setAduH u { h0 with pr := pr, pPrev := p, trN := n, told := near && (h0.told || hit) } s
  aduInternal u i (aduShow u i (flagIf hit (pADU u) 1 s1))

/-- R414: the cross-check of a cycle: none where no comparison is due, else whether it fails. -/
def aduCross (u : Nat) (s : State) : State × Bool :=
  let h := aduH s u
  let a := aduAng s u
  let sum := h.xcSum + angDiff a h.xcA
  let g := aduA s u 0x5C 0 16
  let p := aduPos s u
  if aduA s u 0x5C 16 8 = 0 ∨ h.xcN + 1 < aduA s u 0x5C 16 8 then (setAduH u { h with xcA := a, xcSum := sum, xcN := h.xcN + 1 } s, false)
  else
    let bad : Bool := g ≠ 0 && decide (aduA s u 0x5C 24 8 < ((p - h.xcP) - rneDiv (sum * g) (2 ^ 40)).natAbs)
    (setAduH u { h with xcA := a, xcSum := 0, xcN := 0, xcP := p } s, bad)

/-- R413, R414: a cycle of `ADU.0` or `ADU.1` in RUN: the track, overcurrent, the cross-check, then the loop (log
entry 33). -/
def aduRun (u : Nat) (s : State) : State :=
  if ¬ aduTrkGood s u then aduEnter u aduIDLE (some 4) (flag (pADU u) 4 (aduShow u (aduRef s u) s))
  else if aduS s u 0x58 16 ≤ aduPeak s u then aduShow u (aduRef s u) (aduOver u s)
  else
    let x := aduCross u s
    if x.2 then aduHiccup u 3 (incSat (pADU u) 0x20C 8 8 1 (flag (pADU u) 3 (flag (pADU u) 2 (aduShow u (aduRef s u) x.1))))
    else aduPosition u x.1

/-! ## Park lock (R415 to R417) -/

/-- `PL_STAT.peak`, `POS_REL` and `POS_ENG`. -/
def plPeak (s : State) : Bool := rbit s (pADU 2) 0x208 3
def plRel (s : State) : Int := aduS s 2 0x6C 16
def plEng (s : State) : Int := aduS s 2 0x6C 0

/-- R415: a cycle of `ADU.2` in RUN. -/
def plRun (s : State) : State :=
  let h := aduH s 2
  let p := aduPos s 2
  if aduS s 2 0x58 16 ≤ aduPeak s 2 then aduShow 2 (aduRef s 2) (aduOver 2 s)
  else
    let good : Bool := if plPeak s then decide (plRel s ≤ p) else decide (p < plRel s)
    let n := if good then h.trN + 1 else 0
    let hit : Bool := good && decide (aduA s 2 0x44 8 8 ≤ n)
    let s1 := setAduH 2 { h with trN := if hit then 0 else n } s
    if hit ∧ ¬ plPeak s then aduOver 2 (setBit (pADU 2) 0x208 4 true (aduShow 2 (aduRef s 2) s1))
    else
      let s2 := if hit then flag (pADU 2) 1 (setBit (pADU 2) 0x208 3 false (setFld (pADU 2) 0x208 0 2 2 s1)) else s1
      let i := if plPeak s2 then aduS s 2 0x64 0 else aduS s 2 0x64 16
      aduInternal 2 i (aduShow 2 i s2)

/-- R416: a cycle of `ADU.2` that watches the engagement. -/
def plWatch (s : State) : State :=
  let h := aduH s 2
  if h.eng = none then aduShow 2 0 s
  else
    let good : Bool := decide (aduPos s 2 ≤ plEng s)
    let n := if good then h.trN + 1 else 0
    if good ∧ aduA s 2 0x44 8 8 ≤ n then
      flag (pADU 2) 1 (setFld (pADU 2) 0x208 0 2 1 (aduShow 2 0 (setAduH 2 { h with eng := none, trN := 0 } s)))
    else aduShow 2 0 (setAduH 2 { h with trN := n } s)

/-! ## The cycle (R408) -/

/-- R410: the words for the engine, in tick C + 6. -/
def aduOutputs (u : Nat) (s : State) : State :=
  let h := aduH s u
  let ws := [if aduState s u = aduRUN then 0x7FFF else 0, fld s (pADU u) 0x204 0 16, uns 16 (aduPos s u), aduSector s u, 0, 0, 0, 0]
  setAduH u { h with outPrev := if h.outAt < s.tick then h.out else h.outPrev, out := ws, outAt := s.tick } s

/-- R408: what a cycle latches in tick C + 1. -/
def aduLatch (u due : Nat) (s : State) : AduLatch :=
  { due := due, st := aduState s u, rec_ := (List.range 8).map (fun w => rg s pSETS (recOff (aduSet s u) w)), pos := aduPos s u,
    good := aduTrkGood s u, ang := aduAng s u, omega := speedOf s (aduTrk s u), sector := aduSector s u }

/-- R408: a completion of `SRC.SET` in the previous tick. Its outputs follow in tick C + 6. -/
def aduCycle (u : Nat) (s : State) : State :=
  match (setH s (aduSet s u)).doneAt with
  | none => s
  | some c =>
    let h := aduH s u
    if c + 1 ≠ s.tick ∨ h.last = some c then s
    else if (match h.last with | some l => decide (c ≤ l + 5) | none => false) then incSat (pADU u) 0x20C 24 8 1 s
    else
      let s1 := setAduH u { h with last := some c } s
      if rbit s pSETS (recOff (aduSet s u) 9) 0 then incSat (pADU u) 0x20C 16 8 1 s1
      else setAduH u { aduH s1 u with lat := some (aduLatch u (c + 6) s1) } s1

/-- R408: the outputs of a cycle. A unit that has entered RUN since tick C + 1 makes its first decision in its next cycle. -/
def aduDecide (u : Nat) (l : AduLatch) (s : State) : State :=
  aduOutputs u (
    if aduState s u = aduRUN then (if l.st ≠ aduRUN then s else if u = 2 then plRun s else aduRun u s)
    else if u = 2 ∧ aduState s 2 = aduIDLE then plWatch s else aduShow u 0 s)

/-- R408: what a tick brings: the outputs of the cycle whose tick C + 6 it is. -/
def aduTick (u : Nat) (s : State) : State :=
  match (aduH s u).lat with
  | some l =>
    if s.tick < l.due then s
    else
      let s1 := setAduH u { aduH s u with lat := none, use := some l } s
      let s2 := if pageEn s (pADU u) then aduDecide u l s1 else s1
      setAduH u { aduH s2 u with use := none } s2
  | none => s

/-! ## Writes of the `ADU` pages (R412, R418, R419) -/

/-- R412: does Scarab report park-lock release permitted? -/
def plPermitted (s : State) : Bool := rbit s (pSC 0) 0x40 18

/-- R410: the `OWNER` of a unit's legs. -/
def aduOwner (s : State) (u : Nat) : Nat := if aduExec s u then 4 else 1

/-- The checks of a write to `ADU.u`, in the order of R87. -/
def aduChk (s : State) (u o v : Nat) (_old new : Nat) : Option Reason :=
  let en := pageEn s (pADU u)
  let st := aduState s u
  if o = 0x08 then
    let start := cmdBit v 1
    let stop := cmdBit v 2
    let lacks := (List.range (aduLegs u)).any (fun j =>
      ! pageEn s (pLEG (aduLeg s u + j)) || legOwner s (aduLeg s u + j) != aduOwner s u) ||
        (u != 2 && trackState s (aduTrk s u) != trVALID)
    let fast := u == 2 && decide (aduA s 2 0x70 0 32 < speedOf s (aduTrk s 2))
    firstReason [((start && stop) || (cmdBit v 0 && ! en && decide (32 < aduLeg s u + aduLegs u)), .value),
      (start && ! (devState s).running, .devstate),
      ((start && st != aduIDLE) || (stop && ((st != aduRUN && st != aduHICCUP) || fast)) || (en && ! bit new 0 && st == aduFAULT), .state),
      (start && lacks, .resource),
      (start && u == 2 && ! plPermitted s, .safety)]
  else if o = 0x40 then firstReason [(en, .state)]
  else if o = 0x44 then firstReason [(bits new 0 2 == 3 || bits new 8 8 == 0, .value)]
  else if o = 0x4C then firstReason [(bits new 0 16 == 0, .value)]
  else none

/-- R410, R411: `EN` is cleared: as no further cycle comes, the run code is 0 for every start after the present tick. -/
def aduDisable (u : Nat) (s : State) : State :=
  let h := aduH s u
  let was := if h.outAt < s.tick then h.out else h.outPrev
  aduEnter u aduOFF (some 7)
    (setAduH u { h with eng := none, lat := none, outPrev := was, out := h.out.set 0 0, outAt := s.tick } s)

/-- The effects of a write to `ADU.u`, `was` being `EN` before it. A write that clears `EN` leaves the unit in OFF whatever it commands
beside (R411). FAULT, which a restart of the main die keeps, is not left (log
entry 114). -/
def aduEff (u o v : Nat) (was : Bool) (s : State) : State :=
  if o = 0x08 then
    let s1 := if cmdBit v 1 then aduRunEntry u s else s
    let s2 := if cmdBit v 2 then aduStop u 1 s1 else s1
    if pageEn s (pADU u) = was then s2
    else if was then aduDisable u s2
    else if aduState s2 u = aduFAULT then aduOverrides u s2 else aduEnter u aduIDLE none s2
  else s

/-- A write to a register of `ADU.u`. -/
def aduWrite (acc : Access) (u o v : Nat) (s : State) : State :=
  busStore acc (pADU u) o v (aduChk s u o v) (aduEff u o v (pageEn s (pADU u))) s

/-! ## Rows -/

/-- R411: a write that sets `ADU.u:PAGE_CTRL.EN`. -/
def execAduEnable (acc : Access) (u : Fin 3) (s : State) : Host.Outcome State Fault Refusal :=
  .next (onBus acc (pADU u) 0x08 (aduWrite acc u 0x08 0x00010001) s)

/-- R411: a write that clears `EN`. -/
def execAduDisable (acc : Access) (u : Fin 3) (s : State) : Host.Outcome State Fault Refusal :=
  .next (onBus acc (pADU u) 0x08 (aduWrite acc u 0x08 0x00010000) s)

/-- R412: `START`; on `ADU.2`, release. -/
def execAduStart (acc : Access) (u : Fin 3) (s : State) : Host.Outcome State Fault Refusal :=
  .next (onBus acc (pADU u) 0x08 (aduWrite acc u 0x08 0x00020002) s)

/-- R412: `STOP`; on `ADU.2`, engage. -/
def execAduStop (acc : Access) (u : Fin 3) (s : State) : Host.Outcome State Fault Refusal :=
  .next (onBus acc (pADU u) 0x08 (aduWrite acc u 0x08 0x00040004) s)

/-- R408: the cycle of tick C + 1. -/
def execAduCycle (u : Fin 3) (s : State) : Host.Outcome State Fault Refusal :=
  .next (if powered s ∧ pageEn s (pADU u) then aduCycle u s else s)

/-- R411: `HIC_OFF` has elapsed in HICCUP. -/
def execAduHiccupRestart (u : Fin 3) (s : State) : Host.Outcome State Fault Refusal :=
  .next (if powered s ∧ aduState s u = aduHICCUP ∧ (aduH s u).hicAt + aduA s u 0x60 8 8 * msT ≤ s.tick then aduRunEntry u s else s)

/-- R415: `T_PEAK` has elapsed before the release was confirmed. -/
def execPeakTimeout (s : State) : Host.Outcome State Fault Refusal :=
  .next (if powered s ∧ aduState s 2 = aduRUN ∧ plPeak s ∧ (aduH s 2).startAt + aduA s 2 0x68 0 16 * msT ≤ s.tick then aduOver 2 s else s)

/-- R416: `T_ENG` has elapsed without a confirmed engagement. -/
def execEngageTimeout (s : State) : Host.Outcome State Fault Refusal :=
  .next (match (aduH s 2).eng with
    | some t =>
      if powered s ∧ t + aduA s 2 0x68 16 16 * msT ≤ s.tick then
        aduEnter 2 aduFAULT none (setAduH 2 { aduH s 2 with eng := none } (flag (pADU 2) 5 s))
      else s
    | none => s)

/-- R416: Scarab has withdrawn park-lock release permission: `ADU.2` acts as on `STOP`, without the speed check. -/
def plWithdrawn (s : State) : State :=
  let h := s.sc
  let s0 := if rbit s (pSC 0) 0x40 18 then setFld (pSC 4) 0x4C 0 2 1 { s with sc := { h with splT := 0, splC := 0, splKeep := false } }
    else s
  let s1 := setBit (pSC 0) 0x40 18 false (setBit (pADU 2) 0x208 2 false s0)
  if aduState s 2 = aduRUN ∨ aduState s 2 = aduHICCUP then aduStop 2 5 s1 else s1

def execReleasePermissionWithdrawn (s : State) : Host.Outcome State Fault Refusal :=
  .next (if powered s then plWithdrawn s else s)

end Sys2Proof.Machine
end

