-- ==== Sys2Proof/Machine/Scarab.lean ====
section
/-! DEFINITION. Scarab (R451 to R479): its states, safety inputs with their test pulses and faults, safety outputs, speed and its
cross-check, the zones with STO, SBC, SS1, SLS, SDI and SPL, and the commissioned set they follow (R475, R491, R496). -/
namespace Sys2Proof.Machine

/-! ## The working copy of the set (R491) -/

/-- The little-endian number of `n` bytes at offset `o` of a set. -/
def setNum (w : List Nat) (o n : Nat) : Nat := (List.range n).foldl (fun a j => a + w.getD (o + j) 0 * 2 ^ (8 * j)) 0

/-- A field of the word at offset `o` of Scarab's working copy. -/
def scF (s : State) (o lo w : Nat) : Nat := bits (setNum s.sc.work o 4) lo w

/-- Store what Scarab holds beside its windows. -/
def setSc (h : ScHid) (s : State) : State := { s with sc := h }

/-- R453: the states, and `SC_STATE.STATE`. -/
def scINIT : Nat := 0
def scCHECK : Nat := 1
def scHOLD : Nat := 2
def scOPERATE : Nat := 3
def scFAULT : Nat := 4
def scState (s : State) : Nat := fld s (pSC 0) 0x40 0 3

/-- Does Scarab run its functions? -/
def scRuns (s : State) : Bool := scState s == scOPERATE && s.sc.bad.isNone

/-- R478, R479: a pulse of `E246` to `E250`, its count, and `LAST` with the zone or input concerned. -/
def scEvent (n arg : Nat) (s : State) : State :=
  let s1 := if n = 250 then incWrap (pSC 0) 0x4C 0 8 1 s else incWrap (pSC 0) 0x48 (8 * (n - 246)) 8 1 s
  pulse n (pSC 0) (setRg (pSC 0) 0x50 (n + 2 ^ 8 * (arg % 2 ^ 8) + 2 ^ 16 * (s.tick % 2 ^ 16)) s1)

/-- An event where the condition holds. -/
def scEventIf (c : Bool) (n arg : Nat) (s : State) : State := if c then scEvent n arg s else s

/-! ## Gate enables and outputs (R451, R453, R460, R464, R466) -/

/-- R465: is zone `z` in STO? -/
def zoneSto (s : State) (z : Nat) : Bool := rbit s (pSC 4) 0x40 z

/-- R464, R491: the tiles of a zone (bit 8: the brake). -/
def zoneTiles (s : State) (z : Nat) : Nat := scF s (0x54 + 16 * z) 0 9

/-- R453, R464: `GEN_S` of tile `t`, or of the brake (8). -/
def scWants (s : State) (t : Nat) : Bool :=
  let named := (List.range 4).any (fun z => zoneSto s z && bit (zoneTiles s z) t)
  if s.sc.bad.isSome ∨ scState s = scINIT then false
  else if scState s = scOPERATE then ! named
  else t == 8

/-- R451: `GEN_S` reaches the tiles and the brake drive. -/
def scGen (s : State) : State :=
  let g := (List.range 9).foldl (fun a t => a + b2n (scWants s t) * 2 ^ t) 0
  if g = s.genS then s else brakeDrive (refreshTiles (setFld (pSC 0) 0x44 0 9 g { s with genS := g }))

/-- R460: the outputs a Scarab cycle commands on. -/
def soutCommanded (s : State) (n : Nat) : Bool :=
  let c := setNum s.sc.work (0x94 + 4 * n) 4
  scState s == scOPERATE && (bits c 0 2 == 1 || bits c 0 2 == 2) && ! zoneSto s (bits c 4 2)

/-- R29, R460, R461: `SOUT_ST`: on while commanded, not faulted, and `VSAFE` is at least 16 V. -/
def scOutputs (s : State) : State :=
  let flt := fld s (pSC 2) 0x40 4 4
  let cmd := (List.range 4).foldl (fun a n => a + b2n (soutCommanded s n) * 2 ^ n) 0
  let on := if s.dev.vsafeLow then 0 else clrN cmd flt
  setRg (pSC 2) 0x40 (on + 16 * flt + 256 * cmd) s

/-- R453: FAULT: gate drive withdrawn, zones in STO with their outputs open, the park-lock release permission withdrawn with them,
`E250`, LATCHED (log entry 35); in SELFTEST it shows in bit 6 of `SELFTEST` (R93). -/
def scFail (code : Nat) (s : State) : State :=
  let s1 := setFld (pSC 0) 0x40 8 8 code (setFld (pSC 0) 0x40 0 3 scFAULT (setFld (pSC 4) 0x40 0 4 0xF s))
  let s2 := scOutputs (scGen s1)
  scarabTested (goLatched 250 (scEvent 250 0 (if rbit s2 (pSC 0) 0x40 18 then plWithdrawn s2 else s2)))

/-! ## Safety inputs (R454 to R459) -/

/-- `SIN_CFG_i`: type, `FILT`, `DISC`, `STUT`, and the output a channel names. -/
def sinCfg (s : State) (i lo w : Nat) : Nat := scF s (0x10 + 4 * i) lo w
def sinType (s : State) (i : Nat) : Nat := sinCfg s i 0 2
def sinTp (s : State) (i : Nat) (b : Bool) : Nat := sinCfg s i (if b then 6 else 2) 4

def sinH (s : State) (i : Nat) : SinHid := nth s.sc.sin i {}
def setSinH (i : Nat) (x : SinHid) (s : State) : State := setSc { s.sc with sin := s.sc.sin.set i x } s

/-- R454: is an input in demand? -/
def sinDemand (s : State) (i : Nat) : Bool := (sinType s i == 1 || sinType s i == 2) && ! rbit s (pSC 1) 0x40 i

/-- The inputs in demand now, as a mask. -/
def demandNow (s : State) : Nat := (List.range 16).foldl (fun a i => a + b2n (sinDemand s i) * 2 ^ i) 0

/-- R473: the inputs that were in demand at some time in the present Scarab cycle. -/
def demandMask (s : State) : Nat := orN s.sc.seen (demandNow s)

/-- R457: an input takes a fault. -/
def sinFault (i code : Nat) (s : State) : State :=
  let s1 := setFld (pSC 1) (0x60 + 4 * i) 0 3 code (incSat (pSC 1) (0x60 + 4 * i) 8 8 1 s)
  let s2 := setBit (pSC 1) 0x40 i false (setBit (pSC 1) 0x44 i true s1)
  scEvent 248 i (setSinH i { sinH s2 i with dOk := false, dem := 0 } s2)

/-- R456: `TP_W` in ticks, and whether output `n` is in its pulse, at the last sample inside it, or masked. -/
def tpWidth (s : State) : Nat := scF s 0x50 0 4 * 100 * usT
def tpPhase (s : State) (n : Nat) : Bool × Bool × Bool :=
  match nth s.sc.tp n none with
  | none => (false, false, false)
  | some t =>
    let d := s.tick - t
    (decide (d < tpWidth s), decide (d < tpWidth s ∧ tpWidth s ≤ d + 50 * usT), decide (d < tpWidth s + 100 * usT))

/-- R456, R459: is a channel masked in the present sample? A reset input has no test pulse. -/
def chanMasked (s : State) (i : Nat) (b : Bool) : Bool :=
  sinType s i != 3 && decide (sinTp s i b < 8) && (tpPhase s (sinTp s i b)).2.2

/-- R455: the filter of a channel: the filtered level and the count after a sample. Its span runs from the first sample of a
level to the last. -/
def filterChan (filt : Nat) (masked level old : Bool) (n : Nat) : Bool × Nat :=
  if masked then (old, n) else if level = old then (old, 0)
  else if 2 * filt + 1 ≤ n + 1 then (level, 0) else (old, n + 1)

/-- R455: the samples that have established a channel's filtered level: until the first samples have spanned `FILT`, what
`SIN_FILT` shows is no level that was read. -/
def filterHeld (filt : Nat) (masked level new : Bool) (h : Nat) : Nat :=
  if masked ∨ 2 * filt + 1 ≤ h then h else if level = new then h + 1 else 0

/-- R456, R457: what a sample inside a pulse of output `n` shows of a channel. The last sample must read low on the output's own
channel; on another, that was high when the pulse began, a low reading is held until then against the one of the pulse before. -/
def pulseCheck (i : Nat) (b level : Bool) (s : State) : State :=
  forRange 8 (fun n s =>
    let ph := tpPhase s n
    if ¬ ph.1 then s
    else if sinTp s i b = n then (if ph.2.1 ∧ level then sinFault i 2 s else s)
    else
      let x := sinH s i
      let c := if b then x.crossB else x.crossA
      let low := (if b then x.lowB else x.lowA) || (! level && bit s.sc.tpLvl (i + (if b then 16 else 0)))
      if ¬ ph.2.1 then setSinH i (if b then { x with lowB := low } else { x with lowA := low }) s
      else
        let c' := if low then orN c (2 ^ n) else clrN c (2 ^ n)
        let s1 := setSinH i (if b then { x with crossB := c', lowB := false } else { x with crossA := c', lowA := false }) s
        if low ∧ bit c n then sinFault i 3 s1 else s1) s

/-- R454, R457, R458: an equivalent or antivalent input after its channels' filters. -/
def sinJudge (i : Nat) (s : State) : State :=
  let x := sinH s i
  let a := rbit s (pSC 1) 0x4C i
  let b := rbit s (pSC 1) 0x4C (16 + i) != (sinType s i == 2)
  let filt := 2 * sinCfg s i 10 6 + 1
  let both := ! a && ! b && decide (filt ≤ x.ha ∧ filt ≤ x.hb)
  let rel := a && b
  let disc := if a = b then 0 else x.disc + 1
  let dem := if both then x.dem + 1 else 0
  let flt := rbit s (pSC 1) 0x44 i
  let pend := rbit s (pSC 1) 0x48 i
  let clrF := flt && x.dOk && rel
  let clrP := pend && x.sOk && rel
  let x1 := { x with
    disc := disc
    dem := dem
    dOk := flt && ! clrF && (x.dOk || decide (filt ≤ dem))
    sOk := pend && ! clrP && (x.sOk || both) }
  let s1 := setBit (pSC 1) 0x48 i (pend && ! clrP) (setBit (pSC 1) 0x44 i (flt && ! clrF) (setSinH i x1 s))
  let s2 := setBit (pSC 1) 0x40 i (rel && ! (flt && ! clrF) && ! (pend && ! clrP)) s1
  if disc = 100 * sinCfg s i 16 7 + 2 then sinFault i 1 s2 else s2

/-- R459: a reset input: a falling edge after a high phase of 0.1 to 3.0 s. -/
def resetJudge (i : Nat) (was : Bool) (s : State) : State :=
  let x := sinH s i
  let a := rbit s (pSC 1) 0x4C i
  if a then setSinH i { x with high := x.high + 1 } s
  else
    let s1 := setSinH i { x with high := 0 } s
    if was ∧ 2000 ≤ x.high ∧ x.high ≤ 60000 then setSc { s1.sc with resets := orN s1.sc.resets (2 ^ i) } s1 else s1

/-- R455: one input in a sample. -/
def sinSample (a b : Bool) (i : Nat) (s : State) : State :=
  let ty := sinType s i
  if ty = 0 then s
  else
    let x := sinH s i
    let wasA := rbit s (pSC 1) 0x4C i
    let filt := sinCfg s i 10 6
    let ma := chanMasked s i false
    let mb := chanMasked s i true
    let fa := filterChan filt ma a wasA x.na
    let fb := filterChan filt mb b (rbit s (pSC 1) 0x4C (16 + i)) x.nb
    let x1 := { x with na := fa.2, nb := fb.2, ha := filterHeld filt ma a fa.1 x.ha, hb := filterHeld filt mb b fb.1 x.hb }
    let s1 := setBit (pSC 1) 0x4C (16 + i) fb.1 (setBit (pSC 1) 0x4C i fa.1 (setSinH i x1 s))
    if ty = 3 then resetJudge i wasA s1 else sinJudge i (pulseCheck i true b (pulseCheck i false a s1))

/-- R455: a sample of every input. -/
def scSample (a b : Nat) (s : State) : State :=
  if s.sc.work.isEmpty ∨ s.sc.bad.isSome then s
  else
    let s1 := forRange 16 (fun i s => sinSample (bit a i) (bit b i) i s) s
    setSc { s1.sc with seen := orN s1.sc.seen (demandNow s1), left := orN s1.sc.left (fld s1 (pSC 1) 0x40 0 16) } s1

/-- R456, R457: output `n` begins a pulse; `ok` is its own readback. -/
def testPulse (n : Nat) (ok : Bool) (s : State) : State :=
  if s.sc.work.isEmpty ∨ s.sc.bad.isSome then s
  else
    let s1 := setSc { s.sc with tp := s.sc.tp.set n (some s.tick), tpLvl := rg s (pSC 1) 0x4C } s
    if ok then s1
    else forRange 16 (fun i s => if (sinType s i = 1 ∨ sinType s i = 2) ∧ (sinTp s i false = n ∨ sinTp s i true = n) then
        sinFault i 4 s else s) (setBit (pSC 1) 0x50 n true s1)

/-! ## Speed (R462, R463) -/

/-- `TW_j`: f, reverse, direction valid. -/
def twF (s : State) (j : Nat) : Nat := fld s (pSC 3) (0x40 + 4 * j) 0 16

/-- R462: f and standstill of wheel `j`, `a` clocks after its last rising edge. -/
def twSpeed (j a : Nat) (s : State) : State :=
  let p := nth s.sc.twP j 0
  let still : Bool := p == 0 || decide (scF s (0xA4 + 4 * j) 16 10 * 48000 ≤ a)
  let m := if p < a then a else p
  let f := if still then 0 else satN 65535 (rneDiv 480000000 m).toNat
  setBit (pSC 3) (0x40 + 4 * j) 18 still (setFld (pSC 3) (0x40 + 4 * j) 0 16 f s)

/-- R462, R469: a tooth of wheel `j`: its period in clocks, and the width of its pulse in 0.1 µs, which may code the
direction. -/
def scTooth (j p w : Nat) (s : State) : State :=
  if s.sc.bad.isSome then s else
  let o := 0xA4 + 4 * j
  let coded := scF s o 0 1 == 1
  let rev := coded && decide (10 * scF s o 8 8 ≤ w)
  let s1 := setFld (pSC 3) (0x40 + 4 * j) 16 2 (b2n rev + 2 * b2n coded) (setSc { s.sc with twP := s.sc.twP.set j p } s)
  if s.sc.sdiOn ∧ scF s 0xB4 22 1 = j ∧ coded ∧ rev ≠ (scF s 0xB4 16 1 == 1) then setSc { s1.sc with sdi := s1.sc.sdi + 1 } s1 else s1

/-- R463: the cross-check of a millisecond, `a` the clocks since the last edge of each wheel. -/
def crossCheck (a0 a1 : Nat) (s : State) : State :=
  let s0 := twSpeed 1 a1 (twSpeed 0 a0 s)
  let w := scF s 0xB8 0 32
  let f := twF s0 (bits w 24 1)
  let fe := satN 65535 (rneDiv (speedOf s (bits w 0 3) * scF s 0xBC 0 32 : Nat) (2 ^ 24)).toNat
  let n := bits w 16 7
  let cnt := fld s0 (pSC 3) 0x48 24 8
  let dem := rbit s0 (pSC 3) 0x48 16
  let sus : Bool := ! trackGood s (bits w 0 3)
  let tol256 := if scF s 0xC0 0 32 * 256 < fe * bits w 8 8 then fe * bits w 8 8 else scF s 0xC0 0 32 * 256
  let diff := if f < fe then fe - f else f - fe
  let mis : Bool := ! sus && decide (tol256 < diff * 256)
  let susN := if sus ∧ f ≠ 0 then s.sc.xcSus + 1 else 0
  let cnt' := if sus then cnt else if mis then satN 255 (cnt + 1) else 0
  let ok := if sus then s.sc.xcOk else if mis then 0 else satN 255 (s.sc.xcOk + 1)
  let trig : Bool := ! dem && ((mis && decide (n ≤ cnt')) || (decide (sus ∧ f ≠ 0) && decide (n ≤ susN)))
  let dem' := (dem || trig) && ! (! sus && ! mis && decide (n ≤ ok))
  let s1 := setSc { s0.sc with xcOk := ok, xcSus := susN } s0
  let s2 := setRg (pSC 3) 0x48 (fe + 2 ^ 16 * b2n dem' + 2 ^ 17 * b2n sus + 2 ^ 24 * cnt') s1
  scEventIf trig 249 0 s2

/-! ## Scarab Link demands (R484) -/

/-- R483: a field of the entry of connection `c`; `EN`, `DIR`, and its state in `CONN_ST`. -/
def connF (s : State) (c o lo w : Nat) : Nat := scF s (0x100 + 16 * c + o) lo w
def connEn (s : State) (c : Nat) : Bool := connF s c 4 16 1 == 1
def connOut (s : State) (c : Nat) : Bool := connF s c 4 17 1 == 1
def connState (s : State) (c : Nat) : Nat := fld s (pSC 5) (0x40 + 4 * (c / 16)) (2 * (c % 16)) 2
def setConnState (c st : Nat) (s : State) : State := setFld (pSC 5) (0x40 + 4 * (c / 16)) (2 * (c % 16)) 2 st s

/-- The number a sparse map gives a connection. -/
def connGet (l : List (Nat × Nat)) (c : Nat) : Nat := sget (fun _ => 0) l c
def connPut (c v : Nat) (l : List (Nat × Nat)) : List (Nat × Nat) := sset (fun _ => 0) l c v

/-- R484: what connection `c` demands: bit 0 STO, bit 1 SS1. -/
def connDemand (s : State) (c : Nat) : Nat :=
  if ¬ connEn s c ∨ connOut s c then 0
  else if connState s c = 1 then (if connF s c 4 18 2 = 0 then 1 else 2)
  else if connState s c = 2 then connGet s.sc.dem c
  else 0

/-- Does a connection mapped to zone `z` demand STO (0) or SS1 (1)? -/
def linkDemand (s : State) (z b : Nat) : Bool :=
  bit s.sc.link (z + 4 * b) ||
    (! s.sc.work.isEmpty && (List.range 128).any (fun c => connF s c 4 (20 + z) 1 == 1 && bit (connDemand s c) b))

/-- R473, R488: connection `c` demands `d` in the present Scarab cycle, whatever is released in it. -/
def linkNote (c d : Nat) (s : State) : State :=
  let z := connF s c 4 20 4
  setSc { s.sc with link := orN s.sc.link (b2n (bit d 0) * z + b2n (bit d 1) * (16 * z)) } s

/-! ## The safety functions of a cycle -/

/-- R468: SLS. -/
def slsCycle (s : State) : State :=
  let w := scF s 0xAC 0 32
  let active := bit w 16 || (bits w 0 16 &&& demandMask s) != 0
  let f := twF s (bits w 26 1)
  let fast : Bool := decide (scF s 0xB0 0 32 < f)
  let mism := rbit s (pSC 3) 0x48 16
  let n := if active ∧ fast then s.sc.slsN + 1 else 0
  let was := rbit s (pSC 4) 0x48 1
  let viol := active && (decide (bits w 17 4 + 1 ≤ n) || mism || (was && fast))
  let s1 := setBit (pSC 4) 0x48 1 viol (setBit (pSC 4) 0x48 0 active (setSc { s.sc with slsN := n } s))
  scEventIf (viol && ! was) 246 0 s1

/-- R469: SDI. -/
def sdiCycle (s : State) : State :=
  let w := scF s 0xB4 0 32
  let active := (bits w 0 16 &&& demandMask s) != 0
  let n := if active ∧ s.sc.sdiOn then s.sc.sdi else 0
  let was := rbit s (pSC 4) 0x48 3
  let viol := active && (was || decide (bits w 24 8 < n))
  let s1 := setBit (pSC 4) 0x48 3 viol (setBit (pSC 4) 0x48 2 active (setSc { s.sc with sdi := n, sdiOn := active } s))
  scEventIf (viol && ! was) 246 0 s1

/-- R470: `FN_SPL`, the zone, and the permission. -/
def splCode (s : State) : Nat := fld s (pSC 4) 0x4C 0 2
def splZone (s : State) : Nat := scF s 0xC4 8 2
def splPerm (s : State) : Bool := rbit s (pSC 0) 0x40 18

/-- R470: an SPL fault. -/
def splFault (s : State) : State :=
  scEvent 246 (splZone s) (setBit (pSC 4) 0x40 (4 + splZone s) true (setFld (pSC 4) 0x4C 0 2 3 s))

/-- R470: may Scarab grant the permission: the park input released, and `SPL_ZONE` not in STO? -/
def splMay (s : State) : Bool :=
  let i := scF s 0xC4 0 4
  rbit s (pSC 1) 0x40 i && ! bit (demandMask s) i && ! zoneSto s (splZone s)

/-- R470: the pawl input of a withdrawn permission. -/
def splPawl (s : State) : State :=
  let pawl := bit (demandMask s) (scF s 0xC4 4 4)
  if splCode s = 1 then
    (if pawl then (if sinDemand s (scF s 0xC4 4 4) then setFld (pSC 4) 0x4C 0 2 2 s else splFault s)
     else if 4 * scF s 0xCC 0 32 ≤ s.sc.splC + 1 then splFault s
     else setSc { s.sc with splC := s.sc.splC + 1 } s)
  else if splCode s = 2 ∧ (¬ pawl ∨ bit s.sc.left (scF s 0xC4 4 4)) then splFault s
  else s

/-- R470: the park-lock release permission in one cycle, before the zones: what the park input and the pawl ask. The speed
compared with `SPL_VMAX` is that of the zone's source (log entry 36). -/
def splCycle (s : State) : State :=
  let park := bit (demandMask s) (scF s 0xC4 0 4)
  let z := splZone s
  let may := splMay s
  let f := twF s (scF s (0x54 + 16 * z) 14 1)
  if splPerm s then
    if may then setSc { s.sc with splT := 0, splKeep := false } s
    else if park ∧ ¬ zoneSto s z ∧ scF s 0xC8 0 16 < f ∧ s.sc.splT < 4 * scF s 0xC8 16 16 then
      setSc { s.sc with splT := s.sc.splT + 1, splKeep := true } s
    else plWithdrawn s
  else if may then s
  else splPawl s

/-- R470: no permission while `SPL_ZONE` is in STO. -/
def splHold (s : State) : State := if splPerm s ∧ zoneSto s (splZone s) then plWithdrawn s else s

/-- R470: the permission once the zones of the cycle are settled; `may` says that the pawl was not yet asked in it. -/
def splGrant (may : Bool) (s : State) : State :=
  if splPerm s then splHold s
  else if splMay s ∧ splCode s ≠ 3 then setFld (pSC 4) 0x4C 0 2 0 (setBit (pSC 0) 0x40 18 true (setBit (pADU 2) 0x208 2 true s))
  else if may then splPawl s else s

/-- R467 to R470: is SS1 of zone `z` demanded? -/
def ss1Demand (s : State) (z : Nat) : Bool :=
  (scF s (0x58 + 16 * z) 16 16 &&& demandMask s) != 0 ||
    (rbit s (pSC 3) 0x48 16 && scF s 0xB8 (4 + z) 1 == 1) ||
    (rbit s (pSC 4) 0x48 1 && scF s 0xAC (21 + z) 1 == 1 && scF s 0xAC 25 1 == 0) ||
    (rbit s (pSC 4) 0x48 3 && scF s 0xB4 (17 + z) 1 == 1 && scF s 0xB4 21 1 == 0) ||
    (s.sc.splKeep && splZone s == z) || linkDemand s z 1

/-- R467: `FN_SS1` of a zone: 0 idle, 1 running, 2 completed. -/
def ss1Code (s : State) (z : Nat) : Nat := fld s (pSC 4) 0x44 (2 * z) 2
def setSs1 (z c : Nat) (s : State) : State := setFld (pSC 4) 0x44 (2 * z) 2 c s

/-- R465, R479: the causes of STO of zone `z`, as `ZONE_CAUSE_z` shows them. -/
def zoneCause (s : State) (z : Nat) : Nat :=
  let sbc := (List.range 4).any (fun n =>
    let c := setNum s.sc.work (0x94 + 4 * n) 4
    bits c 0 2 == 1 && bits c 4 2 == z && rbit s (pSC 2) 0x40 (4 + n))
  (scF s (0x58 + 16 * z) 0 16 &&& demandMask s) + 2 ^ 16 * b2n (ss1Code s z == 2) +
    2 ^ 17 * b2n (rbit s (pSC 4) 0x48 1 && scF s 0xAC (21 + z) 1 == 1 && scF s 0xAC 25 1 == 1) +
    2 ^ 18 * b2n (rbit s (pSC 4) 0x48 3 && scF s 0xB4 (17 + z) 1 == 1 && scF s 0xB4 21 1 == 1) +
    2 ^ 19 * b2n (splCode s == 3 && splZone s == z) + 2 ^ 20 * b2n (linkDemand s z 0) +
    2 ^ 21 * b2n (bit s.sc.discZ z) + 2 ^ 22 * b2n sbc

/-- R467, R473: SS1 of a zone in one cycle; a direct STO leaves none running. A completed SS1 ends when its demand is gone. -/
def ss1Cycle (z : Nat) (s : State) : State :=
  let d := ss1Demand s z
  let c := ss1Code s z
  if c = 0 then
    (if d ∧ zoneCause s z = 0 then
      scEvent 246 z (setSs1 z 1 (setSc { s.sc with ss1At := s.sc.ss1At.set z s.sc.cyc, ss1N := s.sc.ss1N.set z 0 } s))
     else s)
  else if c = 1 then
    let n := if twF s (scF s (0x54 + 16 * z) 14 1) ≤ scF s (0x60 + 16 * z) 0 32 then nth s.sc.ss1N z 0 + 1 else 0
    let s1 := setSc { s.sc with ss1N := s.sc.ss1N.set z n } s
    if 4 ≤ n then setSs1 z 2 s1 else s1
  else if d then s else setSs1 z 0 s

/-- R465: STO of a zone begins; SS1 that ran is ended (R473). -/
def zoneStart (z : Nat) (s : State) : State :=
  let s1 := setBit (pSC 4) 0x40 (8 + z) false (setBit (pSC 4) 0x40 z true s)
  scEvent 247 z (scEvent 246 z (if ss1Code s1 z = 1 then setSs1 z 0 s1 else s1))

/-- R471: a zone is released. -/
def zoneRelease (z : Nat) (s : State) : State :=
  scEvent 246 z (setBit (pSC 4) 0x40 (8 + z) false (setBit (pSC 4) 0x40 z false s))

/-- R465, R471, R473: a zone in one cycle. A reset counts only in a cycle after the one in which the last cause cleared. -/
def zoneCycle (z : Nat) (s : State) : State :=
  let c := zoneCause s z
  let s1 := setRg (pSC 4) (0x50 + 4 * z) c s
  let w := scF s (0x54 + 16 * z) 0 32
  if c ≠ 0 then
    (if zoneSto s z then
      (let s2 := setBit (pSC 4) 0x40 (8 + z) false s1
       if ss1Code s2 z = 1 then setSs1 z 0 s2 else s2)
     else zoneStart z s1)
  else if ¬ zoneSto s z then s1
  else if ¬ bit w 9 then zoneRelease z s1
  else if rbit s (pSC 4) 0x40 (8 + z) then (if bit s.sc.resets (bits w 10 4) then zoneRelease z s1 else s1)
  else setBit (pSC 4) 0x40 (8 + z) true s1

/-- R472: the channel discrepancy of tile `t`. -/
def discCycle (t : Nat) (s : State) : State :=
  let held := (List.range 4).any (fun z => zoneSto s z && bit (zoneTiles s z) t)
  if fld s (pSTAG 0) 0x40 0 3 ≠ 0 ∧ held ∧ genP s t then s
  else
    let n := if held ∧ genP s t then nth s.sc.discN t 0 + 1 else 0
    let s1 := setSc { s.sc with discN := s.sc.discN.set t n } s
    if n < 4 * scF s 0xD0 0 32 + 1 then s1
    else forRange 4 (fun z s =>
      if zoneSto s z ∧ bit (zoneTiles s z) t ∧ ¬ bit s.sc.discZ z then
        scEvent 247 z (setRg (pSC 4) (0x50 + 4 * z) (orN (rg s (pSC 4) (0x50 + 4 * z)) (2 ^ 21))
          (setBit (pSC 4) 0x40 (4 + z) true (setSc { s.sc with discZ := orN s.sc.discZ (2 ^ z) } s)))
      else s) s1

/-- R451: one Scarab cycle, `a0` and `a1` the clocks since the last edge of each wheel. -/
def scCycle (a0 a1 : Nat) (s : State) : State :=
  let s0 := setSc { s.sc with cyc := s.sc.cyc + 1 } s
  if ¬ scRuns s then s0
  else
    let s1 := splCycle (sdiCycle (slsCycle (twSpeed 1 a1 (twSpeed 0 a0 s0))))
    let s2 := splGrant (! splPerm s0 && splMay s0) (forRange 4 zoneCycle (forRange 4 ss1Cycle s1))
    scOutputs (scGen (forRange 8 discCycle (setSc { s2.sc with resets := 0, seen := 0, left := 0, link := 0 } s2)))

/-! ## States (R453, R496) -/

/-- R458, R484, R485: entry to OPERATE: start-up tests pending, connections waiting or producing, every zone in STO. -/
def scOperate (s : State) : State :=
  let h0 := s.sc
  let h := { h0 with
    sin := h0.sin.map (fun x => { x with sOk := false })
    resets := 0
    seen := 0
    left := 0
    link := 0
    sdiOn := false
    sdi := 0
    slsN := 0
    splT := 0
    splC := 0
    splKeep := false
    discN := List.replicate 8 0
    dem := []
    accAt := []
    prodAt := []
    wait := [] }
  let s1 := setRg (pSC 4) 0x4C 0 (setRg (pSC 4) 0x48 0 (setRg (pSC 4) 0x44 0 (setFld (pSC 4) 0x40 0 4 0xF (setSc h s))))
  let stut := (List.range 16).foldl (fun a i => a + b2n ((sinType s i == 1 || sinType s i == 2) && sinCfg s i 23 1 == 1) * 2 ^ i) 0
  let s2 := setRg (pSC 1) 0x40 (clrN (rg s (pSC 1) 0x40) stut) (setRg (pSC 1) 0x48 stut s1)
  let s3 := forRange 128 (fun c s =>
    if ¬ connEn s c then setConnState c 0 s
    else if connOut s c then
      setConnState c 3 (setRg (pSC 5) (0x80 + 4 * c) 0
        (setSc { s.sc with prodAt := connPut c (s.sc.cyc + 4 * connF s c 8 0 16) s.sc.prodAt } s))
    else setConnState c 1 s) s2
  scOutputs (scGen (setFld (pSC 0) 0x40 0 3 scOPERATE s3))

/-- R495: the base of a Cocoon slot; its header holds a sequence number, L, the check value and the header's CRC, one word each
(log entry 37), and the set follows. -/
def slotBase (i : Nat) : Nat := 0x28050000 + 0x2000 * i

/-- R495, R496: the valid header of a slot: sequence number, L, check value. -/
def slotHeader (s : State) (i : Nat) : Option (Nat × Nat × Nat) :=
  let h := mbytes s.mem (slotBase i) 16
  if setNum h 12 4 = crc32c (h.take 12) ∧ setNum h 4 4 ≤ 0x1000 ∧ setNum h 4 4 ≠ 0 then some (setNum h 0 4, setNum h 4 4, setNum h 8 4)
  else none

/-- R496: the set of a slot, where its recomputed check value equals `COMM_CRC`. -/
def slotSet (s : State) (i : Nat) : Option (Nat × List Nat) :=
  match slotHeader s i with
  | none => none
  | some (q, l, _) =>
    let bs := mbytes s.mem (slotBase i + 16) l
    if crc32c bs = s.nv.commCrc then some (q, bs) else none

/-- R496: HOLD with its cause. -/
def scHold (cause : Nat) (s : State) : State := scOutputs (scGen (setFld (pSC 0) 0x40 4 4 cause (setFld (pSC 0) 0x40 0 3 scHOLD s)))

/-- R453, R496: the check of the commissioned set ends. -/
def scCheck (s : State) : State :=
  let use := match slotSet s 0, slotSet s 1 with
    | none, none => none
    | some a, none => some (0, a.2)
    | none, some b => some (1, b.2)
    | some a, some b => if seqNewer b.1 a.1 then some (1, b.2) else some (0, a.2)
  if s.nv.commCnt = 0 then scHold 1 s
  else match use with
    | none => scEvent 250 0 (scHold 2 s)
    | some (i, bs) =>
      if bs.getD 6 0 ≠ s.variant.code then scHold 3 s
      else scOperate (setRg (pSC 7) 0x50 (setNum bs 8 4) (setFld (pSC 0) 0x40 4 4 0 (setSc { s.sc with work := bs, slot := i } s)))

/-- R453: a power-up of Scarab's functions: INIT, its windows and what it holds as at power-up. `COMM_CRC` and the candidate's
place stay. -/
def scRestart (s : State) : State :=
  let s1 : State := { s with regs := s.regs.filter (fun e => ! (0xC0 ≤ e.1 / 4096 && e.1 / 4096 < 0xC8)), sc := {} }
  scOutputs (scGen s1)

/-- R461: a safety output takes a fault. -/
def soutFault (n code : Nat) (s : State) : State :=
  scEvent 246 (setNum s.sc.work (0x94 + 4 * n) 4 / 16 % 4)
    (scOutputs (setBit (pSC 2) 0x40 (4 + n) true (setFld (pSC 2) (0x44 + 4 * n) 12 4 code s)))

/-! ## Rows -/

/-- R453: Scarab's self-test ends. The code of a failure is not given: a free value. -/
def execScarabSelftestDone (ok : Bool) (s : State) : Host.Outcome State Fault Refusal :=
  .next (if powered s ∧ scState s = scINIT ∧ s.sc.bad.isNone then
    (if ok then scGen (setFld (pSC 0) 0x40 0 3 scCHECK s) else freeStep (scFail (freeNow s % 256) s)) else s)

/-- R453, R496: Scarab's check of the commissioned set ends. -/
def execScarabCheckDone (s : State) : Host.Outcome State Fault Refusal :=
  .next (if powered s ∧ scState s = scCHECK ∧ s.sc.bad.isNone then scCheck s else s)

/-- R52, R453: Scarab's own supply leaves its limits. -/
def execScarabSupplyFault (s : State) : Host.Outcome State Fault Refusal :=
  .next (if powered s ∧ s.sc.bad.isNone then scGen (setSc { s.sc with bad := some s.tick } s) else s)

/-- R453: the supply recovers; after 1 ms or more, Scarab restarts from INIT and requests the reset of R89. -/
def execScarabSupplyRecover (s : State) : Host.Outcome State Fault Refusal :=
  .next (match s.sc.bad with
    | some t =>
      if ¬ powered s then s
      else if t + msT ≤ s.tick then restart 5 false (scRestart s)
      else scGen (setSc { s.sc with bad := none } s)
    | none => s)

/-- R451: the end of a Scarab cycle; `a0` and `a1` are the clocks since the last rising edge of each tooth wheel. -/
def execScarabCycle (a0 : Nat) (a1 : Nat) (s : State) : Host.Outcome State Fault Refusal :=
  .next (if powered s then scCycle a0 a1 s else s)

/-- R467: `T_SS1` has elapsed. -/
def execSs1Timeout (z : Fin 4) (s : State) : Host.Outcome State Fault Refusal :=
  .next (if powered s ∧ scRuns s ∧ ss1Code s z = 1 ∧ nth s.sc.ss1At z 0 + 4 * scF s (0x5C + 16 * z) 0 32 ≤ s.sc.cyc then
    scOutputs (scGen (splHold (zoneCycle z (setSs1 z 2 s)))) else s)

/-- R455: a sample of the 16 safety inputs' channels. -/
def execSafetyInputSample (a b : BitVec 16) (s : State) : Host.Outcome State Fault Refusal :=
  .next (if powered s then scSample a.toNat b.toNat s else s)

/-- R456: a test-pulse output begins its pulse; `ok` says that it passes its readback. -/
def execTestPulse (n : Fin 8) (ok : Bool) (s : State) : Host.Outcome State Fault Refusal :=
  .next (if powered s then testPulse n ok s else s)

/-- R461: the readback of an output's switches, or its load current: the fault found (0 none) and the load in 10 mA. A switch may
read closed while commanded open in any state of Scarab (codes 1 and 2); the test and the load belong to an output that is on. -/
def execSoutSwitchTest (n : Fin 4) (fault : Fin 5) (load : Fin 4096) (s : State) : Host.Outcome State Fault Refusal :=
  .next (let on : Bool := scRuns s && rbit s (pSC 2) 0x40 n
    if ¬ powered s ∨ s.sc.bad.isSome then s
    else
      let s1 := if on then setFld (pSC 2) (0x44 + 4 * n) 0 12 load s else s
      if (fault : Nat) = 1 ∨ (fault : Nat) = 2 ∨ ((fault : Nat) ≠ 0 ∧ on) then soutFault n fault s1 else s1)

/-- R463: a millisecond's comparison of f with the track. -/
def execSpeedCrosscheck (a0 : Nat) (a1 : Nat) (s : State) : Host.Outcome State Fault Refusal :=
  .next (if powered s ∧ scRuns s then crossCheck a0 a1 s else s)

/-- R496: the check values of the working copy and of the Cocoon copy in use are recomputed; `workOk` is the outcome for the
working copy. -/
def execScarabContinuousCheck (workOk : Bool) (s : State) : Host.Outcome State Fault Refusal :=
  .next (if powered s ∧ scRuns s then
    (if ¬ workOk then scFail 0x20 s
     else if slotSet s s.sc.slot = none then scFail 0x21 s
     else incWrap (pSC 7) 0x58 0 16 1 s) else s)

/-- R29: `VSAFE` falls below 16 V: both switches of every output open. -/
def execVsafeLow (s : State) : Host.Outcome State Fault Refusal :=
  .next (let s1 := { s with dev := { s.dev with vsafeLow := true } }
    if powered s then scOutputs s1 else s1)

/-- R29: `VSAFE` is at 16 V or more again. -/
def execVsafeRecovered (s : State) : Host.Outcome State Fault Refusal :=
  .next (let s1 := { s with dev := { s.dev with vsafeLow := false } }
    if powered s then scOutputs s1 else s1)

/-- R202, R462: a rising edge of a tooth wheel, for `ENC` and for Scarab's own copy: the period in 48 MHz clocks and the width of
the tooth pulse in 0.1 µs. -/
def execTwEdge (j : Fin 2) (p : Nat) (w : Nat) (s : State) : Host.Outcome State Fault Refusal :=
  .next (if powered s then scTooth j p w (twEdge j s) else s)

end Sys2Proof.Machine
end

