-- ==== Sys2Proof/Machine/ScarabLink.lean ====
section
/-! DEFINITION. Scarab Link (R480 to R490): reception and its checks, the verdict of Stag-A, time expectation, production; and
commissioning (R491 to R498). -/
namespace Sys2Proof.Machine

/-! ## Counters and rings (R487, R497, R498) -/

/-- R498: a byte of `LINK_CNT`: 0 accepted, 1 expired, 2 rejected; with the flag of `SAFELINK` that follows it. -/
def linkCount (i : Nat) (s : State) : State := flag pSL (if i = 2 then 2 else i) (incWrap (pSC 5) 0x60 (8 * i) 8 1 s)

/-- R498: a PDU is rejected with its cause. -/
def linkReject (ctx cause : Nat) (s : State) : State :=
  linkCount 2 (setRg (pSC 5) 0x64 (ctx % 2 ^ 8 + 2 ^ 8 * cause + 2 ^ 16 * (s.tick % 2 ^ 16)) s)

/-- Bytes written into the registers of a page from offset `o` on. -/
def putRegBytes (p o : Nat) (bs : List Nat) (s : State) : State :=
  (bs.foldl (fun (x : Nat × State) b => (x.1 + 1, setFld p (x.1 / 4 * 4) (8 * (x.1 % 4)) 8 b x.2)) (o, s)).2

/-- R487, R497: a PDU enters the receive ring with the next delivery number. -/
def slDeliver (port : Nat) (pdu : List Nat) (s : State) : State :=
  let num := (fld s pSL 0x48 0 16 + 1) % 2 ^ 16
  let idx := (fld s pSL 0x48 16 4 + 1) % 16
  let b := 0x100 + 0x40 * idx
  let s1 := setRg pSL (b + 4) (tick32 s) (setRg pSL b (num + 2 ^ 16 * (pdu.length % 64) + 2 ^ 24 * port) s)
  setRg pSL 0x48 (num + 2 ^ 16 * idx) (putRegBytes pSL (b + 8) (pdu.take 56) s1)

/-! ## Checks (R486) -/

/-- R420, R490: the data lengths of CAN frames. -/
def canLengths : List Nat := [0, 1, 2, 3, 4, 5, 6, 7, 8, 12, 16, 20, 24, 32, 48, 64]

/-- The PDU within what arrived: on a CAN port the padding is cut off. -/
def slPdu (port : Nat) (bs : List Nat) : List Nat :=
  if port < 4 ∧ 4 ≤ bs.length then bs.take (bs.getD 3 0 + 7) else bs

/-- R486 order 1, R490: are length and padding of what arrived right for its `LEN`? -/
def slLengthOk (port : Nat) (bs : List Nat) : Bool :=
  let n := bs.getD 3 0 + 7
  if 4 ≤ port then bs.length == n
  else n ≤ bs.length && canLengths.find? (fun l => decide (n ≤ l)) == some bs.length && (bs.drop n).all (· == 0)

/-- R481: does `LEN` fit kind and connection? A connection that is DISABLED fixes no length of its own. -/
def slLenField (s : State) (ctx kind n : Nat) : Bool :=
  if kind = 2 then n == 2
  else if kind = 3 then n == 8
  else if 128 ≤ ctx ∨ ¬ connEn s ctx then 1 ≤ n && n ≤ 32
  else if connOut s ctx then n == 4
  else n == connF s ctx 4 10 6

/-- R486 order 1: FORMAT. -/
def slFormatOk (s : State) (port : Nat) (bs : List Nat) : Bool :=
  let ctx := bs.getD 0 0
  let kind := bs.getD 2 0
  decide (7 ≤ bs.length) && slLengthOk port bs && (kind == 1 || kind == 2 || kind == 3) && slLenField s ctx kind (bs.getD 3 0) &&
    (decide (ctx < 128) || ctx == 255) &&
    (kind != 1 || (if ctx < 128 ∧ connEn s ctx ∧ connOut s ctx then decide (bs.getD 5 0 < 64) else decide (bs.getD 4 0 < 4)))

/-- R486 order 2, R495: CONTEXT. The commissioning connection takes COMMISSION alone, once a `LOAD` has started it, and no other
connection takes it. -/
def slContextOk (s : State) (port ctx kind : Nat) : Bool :=
  if ctx = 255 then kind == 3 && s.sc.commS.isSome
  else kind != 3 && connEn s ctx && ! connOut s ctx && connState s ctx != 0 && connF s ctx 7 4 3 == port

/-- R486: s and the sequence window of a connection. -/
def slLast (s : State) (ctx : Nat) : Nat := if ctx = 255 then s.sc.commS.getD 0 else fld s (pSC 5) (0x80 + 4 * ctx) 0 16
def slWindow (s : State) (ctx : Nat) : Nat := if ctx = 255 then 1 else connF s ctx 7 0 4

/-- R486: the sequence number q of a PDU, or none where order 3 rejects it. -/
def slSequence (s : State) (ctx kind : Nat) (pdu : List Nat) : Option Nat :=
  let seql := pdu.getD 1 0
  if kind = 2 then
    (let q := pdu.getD 4 0 + 256 * pdu.getD 5 0
     if connState s ctx = 1 ∧ q % 256 = seql then some q else none)
  else
    let last := slLast s ctx
    let g0 := (seql + 256 - last % 256) % 256
    let g := if g0 = 0 then 256 else g0
    if (ctx ≠ 255 ∧ connState s ctx ≠ 2) ∨ g = 256 ∨ slWindow s ctx < g then none else some ((last + g) % 2 ^ 16)

/-- R482: `CHK` of a PDU body under a connection's identity and a sequence number. -/
def slChk (id seq : Nat) (body : List Nat) : Nat := crc32c (bytesLE id ++ [seq / 256 % 256] ++ body)

/-- R483, R495: the identity of a connection. -/
def slIdentity (s : State) (ctx : Nat) : Nat := if ctx = 255 then Config.otpSerial.toNat else connF s ctx 0 0 32

/-- R486: the first cause that rejects a PDU, or its sequence number. -/
def slCheck (s : State) (port : Nat) (bs : List Nat) : Nat × Nat :=
  let pdu := slPdu port bs
  let ctx := pdu.getD 0 0
  let kind := pdu.getD 2 0
  let n := pdu.getD 3 0
  if ¬ slFormatOk s port bs then (1, 0)
  else if ¬ slContextOk s port ctx kind then (2, 0)
  else match slSequence s ctx kind pdu with
    | none => (3, 0)
    | some q => if slChk (slIdentity s ctx) q (pdu.take (4 + n)) = setNum pdu (4 + n) 4 then (0, q) else (4, 0)

/-- R488: a DATA PDU that demands acts in this Scarab cycle, and no DATA received before it releases what it demands. -/
def slDemands (ctx kind b : Nat) (s : State) : State :=
  if kind ≠ 1 ∨ 128 ≤ ctx then s
  else
    let d := 3 - b % 4
    let s1 := linkNote ctx d s
    let wait := s1.sc.wait.map (fun w => if w.conn = ctx then { w with late := orN w.late d } else w)
    setSc { s1.sc with wait := wait, dem := connPut ctx (orN (connGet s1.sc.dem ctx) d) s1.sc.dem } s1

/-- R453: does the Scarab Link engine of Scarab take PDUs: powered, past CHECK, and not in FAULT. -/
def slListens (s : State) : Bool := (scState s == scHOLD || scState s == scOPERATE) && s.sc.bad.isNone

/-- R486 to R488: a PDU has arrived on a port. -/
def slReceive (port : Nat) (bs : List Nat) (s : State) : State :=
  let pdu := slPdu port bs
  let s1 := slDeliver port pdu s
  if ¬ slListens s then s1
  else
    let ctx := pdu.getD 0 0
    let r := slCheck s port bs
    if r.1 ≠ 0 then linkReject ctx r.1 s1
    else
      let n := pdu.getD 3 0
      let data := (pdu.drop 4).take n
      let w : SlWait := ⟨fld s1 pSL 0x48 0 16, if ctx = 255 then 128 else ctx, r.2, pdu.getD 2 0, data, s.tick, 0⟩
      let s2 := slDemands ctx (pdu.getD 2 0) (data.getD 0 0) s1
      setSc { s2.sc with wait := s2.sc.wait ++ [w] } s2

/-! ## Commissioning: the confirmation (R495) -/

/-- R498: `CAND_STAT`. -/
def candStat (st reason off : Nat) (s : State) : State := setRg (pSC 7) 0x4C (st + 16 * reason + 2 ^ 12 * off) s
def candState (s : State) : Nat := fld s (pSC 7) 0x4C 0 3

/-- R495: why an accepted COMMISSION is refused: 7 or 8, or 0 where it is executed. A candidate whose check is not complete shows no
check value. -/
def commReason (data : List Nat) (s : State) : Nat :=
  if candState s = 1 ∨ s.sc.cand.isEmpty ∨ setNum data 0 4 ≠ rg s (pSC 7) 0x48 ∨ setNum data 4 4 ≠ setNum s.sc.cand 8 4 then 7
  else if (List.range 8).any (genP s) then 8
  else 0

/-- R495: an accepted COMMISSION is executed, or refused with reason 7 or 8. A load or a store under way goes on, and `CAND_STAT`
keeps its state beside the reason (log entry 147). -/
def commission (data : List Nat) (s : State) : State :=
  let r := commReason data s
  candStat (if candState s = 1 ∨ candState s = 5 then candState s else if r = 0 then 5 else 3) r 0 s

/-! ## The verdict (R487) -/

/-- R487: a PDU is accepted. -/
def slAccept (w : SlWait) (s : State) : State :=
  let s1 := linkCount 0 s
  if w.conn = 128 then commission w.data (setSc { s1.sc with commS := some w.seq } s1)
  else if scState s ≠ scOPERATE then s
  else
    let h := s1.sc
    let s2 := setSc { h with accAt := connPut w.conn h.cyc h.accAt } s1
    let s3 := setRg (pSC 5) (0x280 + 4 * w.conn) (setNum w.data 0 4) (setRg (pSC 5) (0x80 + 4 * w.conn) w.seq s2)
    if w.kind = 2 then setConnState w.conn 2 s3
    else setSc { s3.sc with dem := connPut w.conn (orN w.late (3 - w.data.getD 0 0 % 4)) s3.sc.dem } s3

/-- R486, R487: Stag-A's verdict on delivery `num`. A late one, or one during a recovery or a debug
halt of Stag-A (R527), is ignored. -/
def slVerdict (num v : Nat) (s : State) : State :=
  match s.sc.wait.find? (fun w => w.num == num) with
  | none => s
  | some w =>
    if s.sc.bad.isSome ∨ w.at_ + msT < s.tick ∨ fld s (pSTAG 0) 0x40 0 3 ≠ 0 then s
    else
      let s1 := setSc { s.sc with wait := s.sc.wait.filter (fun x => x.num != num) } s
      if v = 1 then slAccept w s1 else linkReject (if w.conn = 128 then 255 else w.conn) 5 s1

/-- R486: the PDUs that have had no verdict within 1.0 ms of their delivery are rejected. -/
def slTimeouts (s : State) : State :=
  let late := s.sc.wait.filter (fun w => decide (w.at_ + msT ≤ s.tick))
  let s1 := setSc { s.sc with wait := s.sc.wait.filter (fun w => decide (s.tick < w.at_ + msT)) } s
  late.foldl (fun s w => linkReject (if w.conn = 128 then 255 else w.conn) 5 s) s1

/-! ## Time expectation and production (R485, R489) -/

/-- R489: connection `c` expires. -/
def slExpire (c : Nat) (s : State) : State :=
  let s1 := linkNote c (if connF s c 4 18 2 = 0 then 1 else 2) s
  linkCount 1 (setConnState c 1 s1)

/-- R481: the data of an OUT connection's DATA. -/
def slOutData (s : State) : List Nat :=
  let ss1 := (List.range 4).foldl (fun a z => a + b2n (ss1Code s z == 1) * 2 ^ z) 0
  let rel := fld s (pSC 1) 0x40 0 16
  [fld s (pSC 4) 0x40 0 4 + 16 * ss1, fld s (pSC 4) 0x48 0 4 + 16 * fld s (pSC 4) 0x4C 0 2, rel % 256, rel / 256]

/-- R485, R490: connection `c` produces its next PDU into the transmit ring; on port 4 it goes to Ethernet queue 1,
behind its length (R448). -/
def slProduce (c : Nat) (s : State) : State :=
  let synced := connGet s.sc.accAt c
  let seq := if synced = 0 then 1 else (fld s (pSC 5) (0x80 + 4 * c) 0 16 + 1) % 2 ^ 16
  let data := if synced = 0 then [seq % 256, seq / 256] else slOutData s
  let body := [c, seq % 256, if synced = 0 then 2 else 1, data.length] ++ data
  let pdu := body ++ bytesLE (slChk (connF s c 0 0 32) seq body)
  let num := (fld s (pSC 6) 0x40 0 16 + 1) % 2 ^ 16
  let idx := (fld s (pSC 6) 0x40 16 3 + 1) % 8
  let port := connF s c 7 4 3
  let b := 0x100 + 0x40 * idx
  let h := s.sc
  let s1 := setSc { h with
    accAt := connPut c 1 h.accAt
    prodAt := connPut c (connGet h.prodAt c + 4 * connF s c 8 0 16) h.prodAt } s
  let s2 := setRg (pSC 5) (0x280 + 4 * c) (setNum data 0 4) (setRg (pSC 5) (0x80 + 4 * c) seq s1)
  let s3 := putRegBytes (pSC 6) (b + 4) pdu (setRg (pSC 6) b (num + 2 ^ 16 * pdu.length + 2 ^ 24 * port) s2)
  let s4 := setRg (pSC 6) 0x40 (num + 2 ^ 16 * idx) s3
  if port = 4 ∧ ethEn s4 3 then ethOffer 1 ((bytesLE pdu.length).take 2 ++ pdu) s4 else s4

/-! ## The candidate (R491 to R494) -/

/-- One check of R493: the offset of the field, the reason code, and whether the field breaks it. -/
abbrev SetCheck := Nat × Nat × Bool

/-- A word of a candidate. -/
def cw (c : List Nat) (o lo w : Nat) : Nat := bits (setNum c o 4) lo w

def outside (x lo hi : Nat) : Bool := decide (x < lo ∨ hi < x)

/-- R475, R456: safety input `i`. -/
def checkSin (c : List Nat) (i : Nat) : List SetCheck :=
  let o := 0x10 + 4 * i
  let tpBad := fun (x : Nat) => outside x 0 7 && x != 15
  [(o, 3, tpBad (cw c o 2 4) || tpBad (cw c o 6 4) || outside (cw c o 10 6) 1 40 || outside (cw c o 16 7) 1 100),
    (o, 4, cw c o 2 4 == cw c o 6 4 && cw c o 2 4 != 15)]

/-- R483: connection `i`; the fields of a disabled one are not checked. -/
def checkConn (c : List Nat) (i : Nat) : List SetCheck :=
  let o := 0x100 + 16 * i
  let out := cw c (o + 4) 17 1 == 1
  let enabled := fun (j : Nat) => cw c (0x100 + 16 * j + 4) 16 1 == 1
  if ¬ enabled i then []
  else
    let id := cw c o 0 32
    [(o, 3, id == 0 || (List.range i).any (fun j => enabled j && cw c (0x100 + 16 * j) 0 32 == id)),
     (o + 4, 3, outside (cw c (o + 4) 0 10) 1 1000 || (if out then cw c (o + 4) 10 6 != 4 else outside (cw c (o + 4) 10 6) 1 32)),
     (o + 6, 3, cw c (o + 4) 18 2 != 0 && cw c (o + 4) 18 2 != 1),
     (o + 7, 3, cw c (o + 4) 24 4 == 0 || outside (cw c (o + 4) 28 4) 0 5),
     (o + 8, 3, out && outside (cw c (o + 8) 0 16) 1 1000),
     (o + 10, 3, cw c (o + 8) 16 16 != 0 || cw c (o + 12) 0 32 != 0)]

/-- R493: every check of a candidate of length `len` for the variant. -/
def candChecks (v : Variant) (len : Nat) (c : List Nat) : List SetCheck :=
  [(4, 1, cw c 4 0 16 != len), (0, 2, cw c 0 0 32 != 1)] ++
  (List.range 16).flatMap (checkSin c) ++
  [(0x50, 3, outside (cw c 0x50 0 4) 1 10 || outside (cw c 0x50 16 10) 10 1000),
   (0x50, 4, decide (cw c 0x50 16 10 * 1000 < 8 * (cw c 0x50 0 4 * 100 + 100)))] ++
  (List.range 4).map (fun z => (0x5C + 16 * z, 3, outside (cw c (0x5C + 16 * z) 0 32) 10 10000)) ++
  (List.range 4).map (fun n => (0x94 + 4 * n, 3, outside (cw c (0x94 + 4 * n) 0 2) 0 2)) ++
  (List.range 2).map (fun j => (0xA4 + 4 * j, 3, outside (cw c (0xA4 + 4 * j) 8 8) 1 255 || outside (cw c (0xA4 + 4 * j) 16 10) 10 1000)) ++
  [(0xB4, 3, outside (cw c 0xB4 24 8) 1 255),
   (0xB4, 5, cw c (0xA4 + 4 * cw c 0xB4 22 1) 0 1 == 0),
   (0xB8, 3, outside (cw c 0xB8 16 7) 1 100),
   (0xC8, 3, outside (cw c 0xC8 16 16) 10 10000),
   (0xCC, 3, outside (cw c 0xCC 0 32) 10 2000),
   (0xD0, 3, outside (cw c 0xD0 0 32) 10 100)] ++
  (List.range 128).flatMap (checkConn c) ++
  [(6, 6, c.getD 6 0 != v.code)]

/-- R493, R498: the first failing check, in the order of the reason codes and then of the offsets. -/
def candFault (v : Variant) (len : Nat) (c : List Nat) : Option (Nat × Nat) :=
  let bad := (candChecks v len c).filter (fun k => k.2.2)
  let of := fun (r : Nat) => (bad.filter (fun k => k.2.1 == r)).foldl (fun (m : Option (Nat × Nat)) k =>
    match m with
    | none => some (k.2.1, k.1)
    | some x => if k.1 < x.2 then some (k.2.1, k.1) else some x) none
  (List.range 7).findSome? of

/-- R494: the check of the candidate ends. -/
def candChecked (s : State) : State :=
  let f := candFault s.variant s.sc.cand.length s.sc.cand
  if f.isNone then candStat 2 0 0 (setRg (pSC 7) 0x48 (crc32c s.sc.cand) s)
  else candStat 3 (f.getD (0, 0)).1 (f.getD (0, 0)).2 (setSc { s.sc with cand := [] } s)

/-- R495: the store of a confirmed set ends: the slot that does not hold the newer copy, `COMM_CRC`, the working copy, and HOLD to
CHECK or OPERATE to FAULT. -/
def commStored (s : State) : State :=
  let c := s.sc.cand
  let t := match slotHeader s 0, slotHeader s 1 with
    | none, none => (0, 1)
    | some a, none => (1, (a.1 + 1) % 2 ^ 32)
    | none, some b => (0, (b.1 + 1) % 2 ^ 32)
    | some a, some b => if seqNewer b.1 a.1 then (0, (b.1 + 1) % 2 ^ 32) else (1, (a.1 + 1) % 2 ^ 32)
  let crc := crc32c c
  let hdr := bytesLE t.2 ++ bytesLE c.length ++ bytesLE crc
  let m := mputs (mputs s.mem (slotBase t.1 + 16) c) (slotBase t.1) (hdr ++ bytesLE (crc32c hdr))
  let n := s.nv
  let s1 : State := { s with mem := m, nv := { n with commCrc := crc, commCnt := n.commCnt + 1 } }
  let s2 := candStat 4 0 0 (setRg (pSC 7) 0x50 (setNum c 8 4) (setSc { s1.sc with work := c } s1))
  if scState s = scHOLD then scOutputs (scGen (setFld (pSC 0) 0x40 0 3 scCHECK s2))
  else if scState s = scOPERATE then scFail 0x10 s2
  else s2

/-! ## The page -/

/-- R67: does a range lie in the shared SRAM? -/
def inSram (a n : Nat) : Bool := decide (0x20000000 ≤ a ∧ a + n ≤ 0x20200000)

/-- R494, R497: the checks of a write to `SAFELINK`. -/
def safelinkChk (acc : Access) (s : State) (o v : Nat) (_ _ : Nat) : Option Reason :=
  if o = 0x08 then
    (let len := rg s pSL 0x44
     let a := rg s pSL 0x40
     if ¬ cmdBit v 0 then none
     else firstReason [(outside len 0x900 0x1000 || len % 4 != 0 || a % 4 != 0 || ! inSram a len, .value),
       (devState s != .held, .devstate), (candState s == 1 || candState s == 5, .state)])
  else if o = 0x4C then firstReason [(bits v 16 2 != 1 && bits v 16 2 != 2, .value), (acc.master != .stagA, .conflict)]
  else none

/-- R494: `LOAD`; R497: `VERDICT`. -/
def safelinkEff (o v : Nat) (s : State) : State :=
  if o = 0x08 ∧ cmdBit v 0 then
    candStat 1 0 0 (setRg (pSC 7) 0x48 0
      (setSc { s.sc with cand := mbytes s.mem (rg s pSL 0x40) (rg s pSL 0x44), commS := some 0 } s))
  else if o = 0x4C then slVerdict (bits v 0 16) (bits v 16 2) s
  else s

/-- A write to a register of `SAFELINK`. -/
def safelinkWrite (acc : Access) (o v : Nat) (s : State) : State :=
  busStore acc pSL o v (safelinkChk acc s o v) (safelinkEff o v) s

/-! ## Rows -/

/-- R486, R487: a safety PDU arrives on port 0 to 3 (a CAN bus, with its padding), 4 (UDP) or 5 (the local service path, R30). -/
def execSafetyPduReceived (port : Fin 6) (pdu : List (BitVec 8)) (s : State) : Host.Outcome State Fault Refusal :=
  .next (if powered s ∧ ((port : Nat) ≠ 5 ∨ s.dev.svc) then slReceive port (pdu.map BitVec.toNat) s else s)

/-- R487, R497: a write of `VERDICT`. -/
def execVerdict (acc : Access) (v : BitVec 32) (s : State) : Host.Outcome State Fault Refusal :=
  .next (onBus acc pSL 0x4C (safelinkWrite acc 0x4C v.toNat) s)

/-- R486: 1.0 ms has passed since a delivery without a verdict. -/
def execVerdictTimeout (s : State) : Host.Outcome State Fault Refusal :=
  .next (if powered s ∧ s.sc.bad.isNone then slTimeouts s else s)

/-- R489: `TEX` has elapsed since the last acceptance of connection `c`. -/
def execConnectionExpiry (c : Fin 128) (s : State) : Host.Outcome State Fault Refusal :=
  .next (if powered s ∧ scRuns s ∧ connState s c = 2 ∧ connGet s.sc.accAt c + 4 * connF s c 4 0 10 ≤ s.sc.cyc then slExpire c s else s)

/-- R485: `PERIOD` has elapsed for OUT connection `c`. -/
def execOutPduProduce (c : Fin 128) (s : State) : Host.Outcome State Fault Refusal :=
  .next (if powered s ∧ scRuns s ∧ connState s c = 3 ∧ connGet s.sc.prodAt c ≤ s.sc.cyc then slProduce c s else s)

/-- R494: `SAFELINK:PAGE_CTRL.LOAD`. -/
def execLoad (acc : Access) (s : State) : Host.Outcome State Fault Refusal :=
  .next (onBus acc pSL 0x08 (safelinkWrite acc 0x08 0x00010001) s)

/-- R493, R494: Scarab's check of the candidate ends. -/
def execCandidateChecked (s : State) : Host.Outcome State Fault Refusal :=
  .next (if powered s ∧ s.sc.bad.isNone ∧ candState s = 1 then candChecked s else s)

/-- R495: the store of the confirmed set is complete. -/
def execCommissionStoreDone (s : State) : Host.Outcome State Fault Refusal :=
  .next (if powered s ∧ s.sc.bad.isNone ∧ candState s = 5 then commStored s else s)

end Sys2Proof.Machine
end

