-- ==== Sys2Proof/Machine/Katydid.lean ====
section
/-! DEFINITION. The Katydid CAN FD controllers (R420 to R438): states and error counters, transmit buffers, reception and
filters, sleep and wake, and the error counts of ISO 11898-1 (R430). -/
namespace Sys2Proof.Machine

/-- The states of R424. -/
def kdOFF : Nat := 0
def kdINTEGRATE : Nat := 1
def kdACTIVE : Nat := 2
def kdPASSIVE : Nat := 3
def kdBUSOFF : Nat := 4
def kdRECOVER : Nat := 5
def kdSLEEP : Nat := 6

def kdState (s : State) (k : Nat) : Nat := blockState s (pKD k)

/-- Is the controller ACTIVE or PASSIVE, and does it take part in the bus: not while a protocol exception takes it through bus
integration (R431)? -/
def kdUp (s : State) (k : Nat) : Bool := kdState s k == kdACTIVE || kdState s k == kdPASSIVE
def kdOn (s : State) (k : Nat) : Bool := kdUp s k && ! (kdH s k).integ

/-- A bit of `MODE`. -/
def kdMode (s : State) (k i : Nat) : Bool := rbit s (pKD k) 0x4C i

def setKdState (k st : Nat) (s : State) : State := setBlockState (pKD k) st s

/-! ## Errors and bus-off (R430, R431) -/

/-- R430: a recovery starts; the count's window begins with the first. -/
def kdRecover (k : Nat) (s : State) : State :=
  let h := kdH s k
  let fresh := h.recCnt = 0 ∨ h.recFirst + 10000 * msT < s.tick
  setKdState k kdRECOVER
    (setKdH k (if fresh then { h with recCnt := 1, recFirst := s.tick } else { h with recCnt := h.recCnt + 1 }) s)

/-- R424: the end of a frame whose controller has had `EN` cleared. -/
def kdFrameEnd (k : Nat) (s : State) : State :=
  if ¬ (kdH s k).offPend then s
  else
    let s1 := kdOff k s
    kdStart k s1

/-- R430: entry to BUSOFF. -/
def kdBusOff (k : Nat) (s : State) : State :=
  let flush := kdMode s k 7
  let h := kdH s k
  let s1 := match h.tx with | some (b, _) => setTxStat k b 1 s | none => s
  let s2 := if flush then forRange 3 (fun b s => if txStat s k b = 1 then flag (pKD k) 4 (setTxStat k b 4 s) else s) s1 else s1
  let s3 := flag (pKD k) 8 (incSat (pKD k) 0x74 16 8 1 (setKdState k kdBUSOFF (setKdH k { h with tx := none, sleepPend := false } s2)))
  let n := if h.recCnt = 0 ∨ h.recFirst + 10000 * msT < s.tick then 0 else h.recCnt
  if h.offPend then kdFrameEnd k s3
  else if n < fld s (pKD k) 0x4C 12 4 then kdRecover k s3
  else s3

/-- R424: PASSIVE or ACTIVE, as the counters say. -/
def kdErrorState (k : Nat) (s : State) : State :=
  let high := 128 ≤ fld s (pKD k) 0x70 0 8 ∨ rbit s (pKD k) 0x70 15
  if kdState s k = kdACTIVE ∧ high then flag (pKD k) 7 (setKdState k kdPASSIVE s)
  else if kdState s k = kdPASSIVE ∧ ¬ high then setKdState k kdACTIVE s
  else s

/-- TEC and REC. -/
def kdTec (s : State) (k : Nat) : Nat := fld s (pKD k) 0x70 0 8
def kdRec (s : State) (k : Nat) : Nat := fld s (pKD k) 0x70 8 8

/-- R430, R431: new values of TEC and REC, with what reaching a limit brings. -/
def kdCounters (k tec rec : Nat) (s : State) : State :=
  let old := rg s (pKD k) 0x70
  let was := 96 ≤ bits old 0 8 ∨ 96 ≤ bits old 8 8
  let warn := 96 ≤ tec ∨ 96 ≤ rec
  let s1 := setFld (pKD k) 0x70 8 8 (satN 255 rec) (setFld (pKD k) 0x70 0 8 (satN 255 tec) s)
  let s2 := kdErrorState k (flagIf (warn ∧ ¬ was) (pKD k) 6 s1)
  if 255 < tec ∧ kdUp s2 k then kdBusOff k s2 else s2

/-- R430, R431: an error of code `code` (0 none), in the data phase or not, of a transmitting or receiving controller. ISO 11898-1: it
adds 8 to TEC or 1 to REC, unless `quiet`, and 8 for each of `eights`: a dominant bit after a receiver's flag, a bit error in a
flag, each eight dominant bits more. Log entry 80. -/
def kdError (k : Nat) (tx data : Bool) (code : Nat) (quiet : Bool) (eights : Nat) (s : State) : State :=
  let n := if code = 0 ∨ quiet then 0 else if tx then 8 else 1
  let d := n + 8 * eights
  kdCounters k (kdTec s k + (if tx then d else 0)) (kdRec s k + (if tx then 0 else d))
    (if code = 0 then s else incSat (pKD k) 0x74 0 16 1 (setFld (pKD k) 0x70 (if data then 20 else 16) 3 code s))

/-- R430: REC after a frame received without error, by ISO 11898-1: one less, or from above 127 down to between 119 and 127. -/
def kdRecGood (rec low : Nat) : Nat := if 127 < rec then 119 + low else rec - 1

/-! ## Reception and filtering (R432, R433) -/

/-- R420: the data length of a frame. -/
def kdLength (fdf : Bool) (dlc : Nat) : Nat := if fdf then canLengths.getD dlc 0 else satN 8 dlc

/-- R432: does filter `x` decide the frame? -/
def kdMatch (s : State) (k : Nat) (f : CanFrame) (x : Nat) : Bool :=
  let id := rg s (pKD k) (0x400 + 8 * x)
  let m := rg s (pKD k) (0x404 + 8 * x)
  let cut := fun (v : Nat) => if f.ide then v else v / 2 ^ 18 * 2 ^ 18
  bits m 30 2 != 0 && bit id 29 == f.ide &&
    (cut f.id.toNat &&& bits m 0 29) == (cut (bits id 0 29) &&& bits m 0 29)

/-- The FIFOs. -/
def kdFifo (s : State) (k f : Nat) : List KdRx := if f = 0 then (kdH s k).fifo0 else (kdH s k).fifo1
def setKdFifo (k f : Nat) (l : List KdRx) (s : State) : State :=
  let h := kdH s k
  setKdH k (if f = 0 then { h with fifo0 := l } else { h with fifo1 := l }) s

/-- R437: the head registers and the fill level of FIFO `f`. With the FIFO empty the head registers hold free values. -/
def kdShow (k f : Nat) (s : State) : State :=
  let l := kdFifo s k f
  let b := 0x300 + 0x60 * f
  let s1 := setFld (pKD k) (0x3C0 + 4 * f) 0 6 l.length s
  match l with
  | x :: _ =>
    forRange 16 (fun w s => setRg (pKD k) (b + 0x10 + 4 * w) (x.data.getD w 0) s)
      (setRg (pKD k) (b + 8) x.ts (setRg (pKD k) (b + 4) x.ctl (setRg (pKD k) b x.id s1)))
  | [] =>
    forRange 16 (fun w s => freeStep (setRg (pKD k) (b + 0x10 + 4 * w) (freeNow s) s))
      (forRange 3 (fun j s => freeStep (setRg (pKD k) (b + 4 * j) (freeNow s) s)) s1)

/-- The data words of a frame of `n` bytes; bytes beyond the frame are free values. -/
def kdWords (s : State) (n : Nat) (data : List Nat) : List Nat :=
  (List.range 16).map (fun w =>
    let have_ := if n ≤ 4 * w then 0 else satN 4 (n - 4 * w)
    setNum data (4 * w) 4 % 2 ^ (8 * have_) + (Config.freeWord (s.freeCtr + w)).toNat / 2 ^ (8 * have_) * 2 ^ (8 * have_))

/-- R433: is FIFO `f` full? -/
def kdFull (s : State) (k f : Nat) : Bool := decide (32 ≤ (kdFifo s k f).length)

/-- R433: a frame is stored in FIFO `f`; in a full one it overwrites the oldest. -/
def kdPut (k f : Nat) (r : KdRx) (s : State) : State :=
  let full := kdFull s k f
  let l := (if full then (kdFifo s k f).drop 1 else kdFifo s k f) ++ [r]
  flagIf (! full && l.length == bits (rg s (pKD k) 0x64) (8 * f) 6) (pKD k) f
    (kdShow k f (setKdFifo k f l (incWrap (pKD k) (0x3C0 + 4 * f) 16 16 1 s)))

/-- R433: the end of the tick in which a frame met a full FIFO, after a `POP` of that tick. -/
def kdSettle (k : Nat) (s : State) : State :=
  match (kdH s k).wait with
  | none => s
  | some (f, r) =>
    let s1 := setKdH k { kdH s k with wait := none } s
    if ¬ kdFull s1 k f then kdPut k f r s1
    else
      let s2 := flag (pKD k) 2 (incSat (pKD k) (0x3C0 + 4 * f) 8 8 1 s1)
      if bit (rg s (pKD k) 0x64) (8 * f + 6) then kdPut k f r s2 else s2

/-- R433: a frame arrives at FIFO `f`; `x` is the deciding filter. At a full FIFO it waits for the end of the tick. -/
def kdStore (k f x : Nat) (fr : CanFrame) (ts : Nat) (s : State) : State :=
  let n := if fr.rtr then 0 else kdLength fr.fdf fr.dlc
  let r : KdRx := ⟨fr.id.toNat + 2 ^ 29 * b2n fr.ide,
    fr.dlc + 16 * b2n fr.fdf + 32 * b2n fr.brs + 64 * b2n fr.rtr + 128 * b2n fr.esi + 256 * x, ts,
    kdWords s n (fr.data.map BitVec.toNat)⟩
  let s1 := { s with freeCtr := s.freeCtr + 16 }
  if kdFull s k f then setKdH k { kdH s1 k with wait := some (f, r) } s1 else kdPut k f r s1

/-- R432: a stranger. -/
def kdStranger (k : Nat) (fr : CanFrame) (s : State) : State :=
  let i := (fld s (pKD k) 0x600 16 3 + 1) % 8
  let s1 := setFld (pKD k) 0x600 16 3 i (incSat (pKD k) 0x600 0 16 1 s)
  flag (pKD k) 12 (setRg (pKD k) (0x604 + 4 * i) (fr.id.toNat + 2 ^ 29 * b2n fr.ide) s1)

/-- R432: a frame received without error is filtered; `ts` is the tick of its SOF sample point. -/
def kdFilter (k : Nat) (fr : CanFrame) (ts : Nat) (s : State) : State :=
  match (List.range 64).find? (kdMatch s k fr) with
  | none => kdStranger k fr s
  | some x =>
    let act := fld s (pKD k) (0x404 + 8 * x) 30 2
    let s1 := if act = 1 then kdStore k 0 x fr ts s else if act = 2 then kdStore k 1 x fr ts s else s
    if rbit s (pKD k) (0x400 + 8 * x) 30 then
      slReceive k ((fr.data.map BitVec.toNat).take (if fr.rtr then 0 else kdLength fr.fdf fr.dlc)) s1
    else s1

/-! ## Transmission (R425 to R429) -/

/-- The control word and identifier word of a transmit buffer. -/
def txCtl (s : State) (k b : Nat) : Nat := rg s (pKD k) (0x104 + 0x60 * b)
def txId (s : State) (k b : Nat) : Nat := rg s (pKD k) (0x100 + 0x60 * b)

/-- The frame in a transmit buffer. `ESI` is recessive while error passive (R420). -/
def txFrame (s : State) (k b : Nat) : CanFrame :=
  let c := txCtl s k b
  let n := if bit c 6 then 0 else kdLength (bit c 4) (bits c 0 4)
  { ide := bit (txId s k b) 29
    id := BitVec.ofNat 29 (if bit (txId s k b) 29 then bits (txId s k b) 0 29 else bits (txId s k b) 18 11 * 2 ^ 18)
    fdf := bit c 4
    brs := bit c 5
    rtr := bit c 6
    esi := bit c 4 && kdState s k == kdPASSIVE
    dlc := Fin.ofNat 16 (bits c 0 4)
    data := (List.range n).map (fun j => BitVec.ofNat 8 (fld s (pKD k) (0x110 + 0x60 * b + 4 * (j / 4)) (8 * (j % 4)) 8)) }

/-- R426: the arbitration field of a buffer as a number, lower wins: the eleven leading bits, base before extended (a base frame's
RTR bit before the recessive SRR bit), the rest, then RTR. -/
def txKey (s : State) (k b : Nat) : Nat :=
  let id := bits (txId s k b) 0 29
  let ide := bit (txId s k b) 29
  let rtr := b2n (bit (txCtl s k b) 6 && ! bit (txCtl s k b) 4)
  if ide then id / 2 ^ 18 * 2 ^ 21 + 2 * 2 ^ 19 + id % 2 ^ 18 * 2 + rtr
  else id / 2 ^ 18 * 2 ^ 21 + rtr * 2 ^ 19

/-- R426: the PENDING buffer that starts. -/
def txSelect (s : State) (k : Nat) : Option Nat :=
  let p := (List.range 3).filter (fun b => txStat s k b == 1)
  if kdMode s k 5 then p.head?
  else p.foldl (fun (m : Option Nat) b => match m with
    | none => some b
    | some a => if txKey s k b < txKey s k a then some b else some a) none

/-- R426: a start point: the selected buffer drives SOF. Under `SILENT` the controller drives nothing. -/
def txStart (k : Nat) (s : State) : State :=
  if ¬ kdOn s k ∨ kdMode s k 3 ∨ (kdH s k).tx.isSome ∨ (kdH s k).offPend then s
  else match txSelect s k with
    | none => s
    | some b => setTxStat k b 2 (setKdH k { kdH s k with tx := some (b, s.tick) } s)

/-- R423: the loop delay of the last frame's data phase, where one was measured. -/
def kdDelay (k b : Nat) (tdc : Option (Fin 128)) (s : State) : State :=
  match tdc with
  | some d => if bit (txCtl s k b) 4 ∧ bit (txCtl s k b) 5 ∧ rbit s (pKD k) 0x48 0 then setFld (pKD k) 0x78 0 7 d s else s
  | none => s

/-- R427, R430: an attempt ends: 0 done, 1 arbitration lost, 2 error. ISO 11898-1 takes one off TEC for a frame that is done. -/
def txEnd (k out : Nat) (err : CanErr) (eights : Nat) (tdc : Option (Fin 128)) (age : Nat) (s : State) : State :=
  let h := kdH s k
  match h.tx with
  | none => s
  | some (b, sof) =>
    let s0 := kdDelay k b tdc (setKdH k { h with tx := none } s)
    let dar := kdMode s k 4
    let lim := fld s (pKD k) 0x4C 8 4
    let r := nth h.rty b 0
    let s1 :=
      if out = 0 then
        let fr := txFrame s k b
        let s2 := flag (pKD k) 3 (setRg (pKD k) (0x108 + 0x60 * b) (sof % 2 ^ 32) (setTxStat k b 3 s0))
        if kdMode s k 2 then kdFilter k fr ((s.tick - age) % 2 ^ 32) s2 else s2
      else if dar then flag (pKD k) 5 (setTxStat k b 5 s0)
      else if out = 1 then incSat (pKD k) 0x84 16 8 1 (setTxStat k b 1 s0)
      else if lim ≠ 0 ∧ lim ≤ r then flag (pKD k) 5 (setTxStat k b 5 s0)
      else setTxStat k b 1 (setKdH k { kdH s0 k with rty := h.rty.set b (r + 1) } s0)
    kdFrameEnd k (if out = 0 then kdCounters k (kdTec s k - 1 + 8 * eights) (kdRec s k) s1
      else if out = 1 then kdError k false false 0 true eights s1
      else kdError k true err.data err.code err.quiet eights s1)

/-- R429: the reason for which `REQ` of buffer `b` would be refused. -/
def reqRefused (s : State) (k v b : Nat) : Option Reason :=
  let c := txCtl s k b
  let st := txStat s k b
  firstReason [
    (cmdBit v (4 + b) || (! bit c 4 && decide (8 < bits c 0 4)) || (bit c 4 && bit c 6), .value),
    (! pageEn s (pKD k) || kdState s k == kdSLEEP || st == 1 || st == 2, .state),
    ((bit c 4 && ! kdMode s k 0) || (bit c 5 && ! kdMode s k 1), .resource)]

/-- R428, R429: the reason for which `CANCEL` of buffer `b` would be refused. -/
def cancelRefused (s : State) (k v b : Nat) : Option Reason :=
  firstReason [(cmdBit v b, .value), (txStat s k b != 1, .state)]

/-- R429: the first refused command of a write of `TX_CMD`, in ascending bit order. -/
def txCmdChk (s : State) (k v : Nat) : Option Reason :=
  ((List.range 3).map (fun b => if cmdBit v b then reqRefused s k v b else none) ++
   (List.range 3).map (fun b => if cmdBit v (4 + b) then cancelRefused s k v b else none)).findSome? id

/-- R425, R428: the commands of a write of `TX_CMD`. -/
def txCmdEff (k v : Nat) (s : State) : State :=
  forRange 3 (fun b s =>
    if cmdBit v b then setTxStat k b 1 (setKdH k { kdH s k with rty := (kdH s k).rty.set b 0 } s)
    else if cmdBit v (4 + b) then flag (pKD k) 4 (setTxStat k b 4 s)
    else s) s

/-! ## Sleep and wake (R434, R435) -/

/-- R434: does what the bus shows meet the wake condition? `cfg` holds `WAKE_CFG`, `WAKE_ID`, `WAKE_MSK` and the two data words. -/
def wakeMet (cfg : List Nat) (w : CanWake) : Bool :=
  let c := cfg.getD 0 0
  match w with
  | .dominant len => bits c 0 2 == 1 && decide (50 ≤ len)
  | .frame f rate =>
    let cut := fun (v : Nat) => if f.ide then v else v / 2 ^ 18 * 2 ^ 18
    let m := cfg.getD 2 0
    bits c 0 2 == 2 && bits c 2 2 == (rate : Nat) && ! f.fdf && f.ide == bit c 8 && (f.dlc : Nat) == bits c 4 4 && ! f.rtr &&
      (cut f.id.toNat &&& m) == (cut (cfg.getD 1 0) &&& m) &&
      (List.range (satN 8 f.dlc)).any (fun j =>
        ((f.data.getD j 0).toNat &&& bits (cfg.getD (3 + j / 4) 0) (8 * (j % 4)) 8) != 0)

/-- R434: wake. -/
def kdWake (k : Nat) (s : State) : State := flag (pKD k) 11 (setKdState k kdINTEGRATE s)

/-! ## The page -/

/-- R423: is the bit timing refused when `EN` is set? -/
def kdTimingBad (s : State) (k : Nat) : Bool :=
  let n := rg s (pKD k) 0x40
  let d := rg s (pKD k) 0x44
  let nb := (bits n 0 10 + 1) * (3 + bits n 10 8 + bits n 18 7)
  let db := (bits d 0 5 + 1) * (3 + bits d 8 5 + bits d 16 4)
  decide (bits n 18 7 < bits n 25 7) || decide (bits d 16 4 < bits d 24 4) || decide (nb < db) ||
    (! rbit s (pKD k) 0x48 0 && decide (db < 40))

/-- R423, R425, R434, R437, R438: the checks of a write to `KD.k`. -/
def kdChk (s : State) (k o v : Nat) (_ new : Nat) : Option Reason :=
  let p := pKD k
  let en := pageEn s p
  if o = 0x08 then
    let st := kdState s k
    let sleepBad := cmdBit v 1 && (! kdUp s k || (List.range 3).any (fun b => txStat s k b == 1 || txStat s k b == 2))
    firstReason [
      (bit new 0 && ! en && kdTimingBad s k, .value),
      (sleepBad || (cmdBit v 2 && st != kdSLEEP) || (cmdBit v 3 && st != kdBUSOFF) ||
        (cmdBit v 4 && (kdFifo s k 0).isEmpty) || (cmdBit v 5 && (kdFifo s k 1).isEmpty), .state)]
  else if o = 0x40 then firstReason [(bits new 10 8 == 0, .value), (en, .state)]
  else if o = 0x44 ∨ o = 0x48 ∨ o = 0x4C then firstReason [(en, .state)]
  else if o = 0x50 then firstReason [(bits new 0 2 == 3 || decide (8 < bits new 4 4), .value)]
  else if o = 0x64 then firstReason [(outside (bits new 0 6) 1 32 || outside (bits new 8 6) 1 32, .value)]
  else if o = 0x80 then txCmdChk s k v
  else if 0x100 ≤ o ∧ o < 0x220 then
    (let st := txStat s k ((o - 0x100) / 0x60)
     firstReason [(st == 1 || st == 2, .state)])
  else none

/-- R438: `CLRCNT`. -/
def kdClrCnt (k : Nat) (s : State) : State :=
  let s1 := setFld (pKD k) 0x84 16 8 0 (setRg (pKD k) 0x600 0 (setRg (pKD k) 0x74 0 s))
  setKdH k { kdH s1 k with recCnt := 0 } (forRange 2 (fun f s => setFld (pKD k) (0x3C0 + 4 * f) 8 8 0 s) s1)

/-- R424: `EN` set or cleared. -/
def kdEnable (k : Nat) (was : Bool) (s : State) : State :=
  let en := pageEn s (pKD k)
  let h := kdH s k
  if en = was then s
  else if en then kdStart k s
  else if h.tx.isSome then setKdH k { h with offPend := true, recCnt := 0 } s
  else kdOff k (setKdH k { h with recCnt := 0 } s)

/-- R438: what a write to `KD.k` brings. -/
def kdEff (k o v : Nat) (was : Bool) (s : State) : State :=
  if o = 0x08 then
    let s1 := kdEnable k was s
    let s2 := if cmdBit v 1 ∧ kdUp s1 k then setKdH k { kdH s1 k with sleepPend := true } s1 else s1
    let s3 := if cmdBit v 2 ∧ kdState s2 k = kdSLEEP then kdWake k s2 else s2
    let s4 := if cmdBit v 3 ∧ kdState s3 k = kdBUSOFF then kdRecover k s3 else s3
    let s5 := if cmdBit v 4 then kdShow k 0 (setKdFifo k 0 ((kdFifo s4 k 0).drop 1) s4) else s4
    let s6 := if cmdBit v 5 then kdShow k 1 (setKdFifo k 1 ((kdFifo s5 k 1).drop 1) s5) else s5
    if cmdBit v 6 then kdClrCnt k s6 else s6
  else if o = 0x80 then txCmdEff k v s
  else s

/-- A write to a register of `KD.k`. -/
def kdWrite (acc : Access) (k o v : Nat) (s : State) : State :=
  busStore acc (pKD k) o v (kdChk s k o v) (kdEff k o v (pageEn s (pKD k))) s

/-! ## Rows -/

/-- R424: a write that sets `EN`. -/
def execKdEnable (acc : Access) (k : Fin 4) (s : State) : Host.Outcome State Fault Refusal :=
  .next (onBus acc (pKD k) 0x08 (kdWrite acc k 0x08 0x00010001) s)

/-- R424: a write that clears `EN`. -/
def execKdDisable (acc : Access) (k : Fin 4) (s : State) : Host.Outcome State Fault Refusal :=
  .next (onBus acc (pKD k) 0x08 (kdWrite acc k 0x08 0x00010000) s)

/-- R424, R431: eleven consecutive recessive bits in INTEGRATE, or in the bus integration after a protocol exception. -/
def kdIntegrated (k : Nat) (s : State) : State :=
  if kdState s k = kdINTEGRATE then kdErrorState k (setKdState k kdACTIVE s)
  else if kdUp s k then setKdH k { kdH s k with integ := false } s
  else s

/-- R424: eleven consecutive recessive bits. -/
def execCanIntegrationDone (k : Fin 4) (s : State) : Host.Outcome State Fault Refusal :=
  .next (if powered s then kdIntegrated k s else s)

/-- R429: `REQ` of the buffers `m`. -/
def execTxReq (acc : Access) (k : Fin 4) (m : Fin 8) (s : State) : Host.Outcome State Fault Refusal :=
  .next (onBus acc (pKD k) 0x80 (kdWrite acc k 0x80 (m * 0x10001)) s)

/-- R428: `CANCEL` of the buffers `m`. -/
def execTxCancel (acc : Access) (k : Fin 4) (m : Fin 8) (s : State) : Host.Outcome State Fault Refusal :=
  .next (onBus acc (pKD k) 0x80 (kdWrite acc k 0x80 (m * 0x100010)) s)

/-- R426: a point where a frame may start. -/
def execTxFrameStart (k : Fin 4) (s : State) : Host.Outcome State Fault Refusal :=
  .next (if powered s then txStart k s else s)

/-- R427: an attempt ends (0 done, 1 arbitration lost, 2 error), with the loop delay where it was measured, and the ticks since its SOF
sample point. -/
def execTxAttemptEnd (k : Fin 4) (out : Fin 3) (err : CanErr) (eights : Nat) (tdc : Option (Fin 128)) (age : Nat) (s : State) :
    Host.Outcome State Fault Refusal :=
  .next (if powered s then txEnd k out err eights tdc age s else s)

/-- R430, R432: a frame has been received without error; `age` is the ticks since its SOF sample point. -/
def execCanFrameReceived (k : Fin 4) (f : CanFrame) (low : Fin 9) (age : Nat) (s : State) : Host.Outcome State Fault Refusal :=
  .next (if powered s ∧ kdOn s k then
    kdCounters k (kdTec s k) (kdRecGood (kdRec s k) low) (kdFilter k f ((s.tick - age) % 2 ^ 32) s) else s)

/-- R431: a protocol exception: bus integration without an error frame. -/
def kdException (k : Nat) (s : State) : State :=
  flag (pKD k) 10 (incSat (pKD k) 0x74 24 8 1 (setKdH k { kdH s k with integ := true } s))

/-- R420, R431: an error, of the data phase or not, with its code; or a protocol exception, which without `PXE` is a form error of the
arbitration phase. -/
def execCanError (k : Fin 4) (px data : Bool) (code : Fin 7) (quiet : Bool) (eights : Nat) (s : State) :
    Host.Outcome State Fault Refusal :=
  .next (if powered s ∧ kdOn s k then
    (let tx := (kdH s k).tx.isSome
     if px ∧ kdMode s k 6 then kdException k s
     else if px then kdError k tx false 2 quiet eights s else kdError k tx data code quiet eights s) else s)

/-- R430: 128 occurrences of eleven recessive bits in RECOVER. -/
def execCanRecoveryDone (k : Fin 4) (s : State) : Host.Outcome State Fault Refusal :=
  .next (if powered s ∧ kdState s k = kdRECOVER then
    flag (pKD k) 9 (setKdState k kdACTIVE (setFld (pKD k) 0x70 0 16 0 s)) else s)

/-- R430: `RECOVER`. -/
def execCanRecover (acc : Access) (k : Fin 4) (s : State) : Host.Outcome State Fault Refusal :=
  .next (onBus acc (pKD k) 0x08 (kdWrite acc k 0x08 0x00080008) s)

/-- R433: `POP_f`. -/
def execRxfPop (acc : Access) (k : Fin 4) (f : Fin 2) (s : State) : Host.Outcome State Fault Refusal :=
  .next (onBus acc (pKD k) 0x08 (kdWrite acc k 0x08 (if f = 0 then 0x00100010 else 0x00200020)) s)

/-- R438: `CLRCNT`. -/
def execClrcnt (acc : Access) (k : Fin 4) (s : State) : Host.Outcome State Fault Refusal :=
  .next (onBus acc (pKD k) 0x08 (kdWrite acc k 0x08 0x00400040) s)

/-- R434: `SLEEP`. -/
def execCanSleep (acc : Access) (k : Fin 4) (s : State) : Host.Outcome State Fault Refusal :=
  .next (onBus acc (pKD k) 0x08 (kdWrite acc k 0x08 0x00020002) s)

/-- R434: the bus is idle after `SLEEP`. -/
def execCanSleepEntry (k : Fin 4) (s : State) : Host.Outcome State Fault Refusal :=
  .next (if powered s ∧ (kdH s k).sleepPend ∧ kdUp s k ∧ (kdH s k).tx = none then
    setKdState k kdSLEEP (setKdH k { kdH s k with sleepPend := false, integ := false } s) else s)

/-- R434: a `WAKE` command. -/
def execCanWakeCommand (acc : Access) (k : Fin 4) (s : State) : Host.Outcome State Fault Refusal :=
  .next (onBus acc (pKD k) 0x08 (kdWrite acc k 0x08 0x00040004) s)

/-- R434, R435: what a transceiver in low power sees; from STANDBY, `VIN` in 10 mV and the level of `SVCEN` (R53, R30). -/
def execCanWakeDetected (k : Fin 4) (w : CanWake) (vin : Nat) (svcen : Bool) (s : State) : Host.Outcome State Fault Refusal :=
  .next (if devState s = .standby then
      (match nth s.dev.canArm k none with
       | some c => if wakeMet c w then wakeStart vin (2 ^ (2 + (k : Nat))) svcen s else s
       | none => s)
    else if powered s ∧ kdState s k = kdSLEEP ∧ wakeMet ((List.range 5).map (fun j => rg s (pKD k) (0x50 + 4 * j))) w then kdWake k s
    else s)

end Sys2Proof.Machine
end

