-- ==== Sys2Proof/Machine/Ethernet.lean ====
section
/-! DEFINITION. The Ethernet port (R439 to R441, R443), PTP time (R442, R450), capture streaming (R444), firmware programming
(R447), Scarab Link over UDP (R448) and the `ETH` and `PTP` pages. -/
namespace Sys2Proof.Machine

/-! ## Physical layer (R439) -/

/-- R439: the rate code at which a link can come up now: the one `MODE` fixes, else the one being tried. -/
def phyRate (s : State) : Nat :=
  let m := fld s pETH 0x40 0 2
  if m = 0 then 2 else if m = 1 then 1 else if s.eth.phy100 then 1 else 2

/-- R439: a change of the link; one that drops starts the sequence again at 1000BASE-T1. -/
def phyLink (link sqi : Nat) (s : State) : State :=
  if link = ethLink s ∨ (link ≠ 0 ∧ link ≠ phyRate s) then s
  else
    let s1 := flag pETH 4 (setFld pETH 0x74 8 3 sqi (setFld pETH 0x74 0 2 link s))
    if link = 0 then setEth { s1.eth with phy100 := false, phyAt := s.tick, tx := none } (incSat pETH 0x74 16 16 1 s1)
    else ethKick s1

/-- R439: 500 ms have passed at one rate without a link. -/
def phySwitch (s : State) : State :=
  if rbit s pETH 0x08 0 ∧ fld s pETH 0x40 0 2 = 3 ∧ ethLink s = 0 ∧ s.eth.phyAt + 500 * msT ≤ s.tick then
    setEth { s.eth with phy100 := ! s.eth.phy100, phyAt := s.tick } s
  else s

/-! ## Frames of the software rings -/

/-- R441, R449: the frame in transmission is complete. -/
def ethTxDone (s : State) : State :=
  match s.eth.tx with
  | none => s
  | some (q, _) =>
    let s1 := setEth { s.eth with tx := none } s
    if q = 2 then
      let a := ringEntry s1 0x68 16 + 3
      let s2 : State := { s1 with mem := mset s1.mem a (mget s1.mem a % 128) }
      ethKick (flag pETH 1 (incWrap pETH 0x70 16 5 1 s2))
    else ethKick s1

/-- R442: PTP time, nanoseconds and seconds, as it was `ago` ns before the present. -/
def ptpAgo (s : State) (ago : Nat) : Nat × Nat :=
  let t := s.eth.ptpS * 1000000000 + s.eth.ptpN / 2 ^ 32 - ago
  (t % 1000000000, t / 1000000000)

/-- R440, R443, R449: a frame enters the receive ring, where its next entry is owned by the hardware; `ts` is its timestamp. -/
def ringStore (frame : List Nat) (ts : Option (Nat × Nat)) (s : State) : State :=
  let a := ringEntry s 0x6C 24
  if mget s.mem (a + 3) < 0x80 then ethCount 1 s
  else
    let m := mputs (mputs s.mem a [frame.length % 256, frame.length / 256, 0, 0]) (a + 16) frame
    let m' := match ts with | some (ns, sec) => mputs (mputs m (a + 4) (bytesLE ns)) (a + 8) (bytesLE sec) | none => m
    flag pETH 0 (incWrap pETH 0x70 24 5 1 (bwSeen [3, 6] (16 + frame.length) true { s with mem := m' }))

/-! ## PTP (R442, R443, R450) -/

/-- R442: the advance of one PCLK tick. -/
def ptpTick (s : State) : State :=
  let n : Nat := s.eth.ptpN + 5 * 2 ^ 32
  let n' : Nat := ((n : Int) + sgn 32 (rg s pPTP 0x40)).toNat
  let g : Nat := 1000000000 * 2 ^ 32
  setEth { s.eth with ptpN := n' % g, ptpS := (s.eth.ptpS + n' / g) % 2 ^ 48 } s

/-- R442: `STEP`. -/
def ptpStep (v : Nat) (s : State) : State :=
  let g : Int := 1000000000 * 2 ^ 32
  let n : Int := (s.eth.ptpN : Int) + sgn 32 v * 2 ^ 32
  setEth { s.eth with ptpN := (n % g).toNat, ptpS := uns 48 ((s.eth.ptpS : Int) + n / g) } s

/-- R442: a read of `TIME_NS` latches the rest of the time and TICK. -/
def ptpLatch (s : State) : State :=
  let h := s.eth
  setRg pPTP 0x58 (s.tick / 2 ^ 32 % 2 ^ 32) (setRg pPTP 0x54 (tick32 s)
    (setRg pPTP 0x50 (h.ptpS / 2 ^ 32) (setRg pPTP 0x4C (h.ptpS % 2 ^ 32) (setRg pPTP 0x48 (h.ptpN / 2 ^ 32) s))))

/-- R450: the head of the timestamp FIFO, its fill and `TS_LOST`. With the FIFO empty the head's fields are free values. -/
def tsShow (s : State) : State :=
  let h := s.eth
  let st := 2 ^ 16 * h.ts.length + 2 ^ 24 * h.tsLost
  match h.ts with
  | (ns, sec, id) :: _ => setRg pPTP 0x64 (id + st) (setRg pPTP 0x60 sec (setRg pPTP 0x5C ns s))
  | [] =>
    freeStep (freeStep (freeStep (setRg pPTP 0x64 (freeNow (freeStep (freeStep s)) % 2 ^ 16 + st)
      (setRg pPTP 0x60 (freeNow (freeStep s)) (setRg pPTP 0x5C (freeNow s) s)))))

/-- R443: a transmit timestamp enters the FIFO. -/
def tsPush (ago id : Nat) (s : State) : State :=
  let h := s.eth
  if 4 ≤ h.ts.length then tsShow (setEth { h with tsLost := satN 255 (h.tsLost + 1) } s)
  else
    let t := ptpAgo s ago
    flag pPTP 0 (tsShow (setEth { h with ts := h.ts ++ [(t.1, t.2 % 2 ^ 32, id)] } s))

/-- R450: the checks of a write to `PTP`. -/
def ptpChk (s : State) (o v : Nat) (_ _ : Nat) : Option Reason :=
  if o = 0x08 then firstReason [(cmdBit v 0 && s.eth.ts.isEmpty, .state)] else none

def ptpEff (o v : Nat) (s : State) : State :=
  if o = 0x08 ∧ cmdBit v 0 then tsShow (setEth { s.eth with ts := s.eth.ts.drop 1 } s)
  else if o = 0x44 then ptpStep v s
  else s

/-- A write to a register of `PTP`. -/
def ptpWrite (acc : Access) (o v : Nat) (s : State) : State := busStore acc pPTP o v (ptpChk s o v) (ptpEff o v) s

/-! ## Scarab Link over UDP (R448) -/

/-- R448: the PDUs of a datagram, each behind its length; none where they do not fill it exactly. The count bounds them. -/
def slSplit : Nat → List Nat → Option (List (List Nat))
  | _, [] => some []
  | 0, _ => none
  | n + 1, bs =>
    let l := bs.getD 0 0 + 256 * bs.getD 1 0
    if bs.length < 2 + l ∨ bs.length < 2 then none
    else match slSplit n (bs.drop (2 + l)) with
      | none => none
      | some r => some ((bs.drop 2).take l :: r)

/-- R448: a datagram to `PORTS.SL`. -/
def slDatagram (bs : List Nat) (s : State) : State :=
  match slSplit 8 bs with
  | some (p :: l) => (p :: l).foldl (fun s x => slReceive 4 x s) s
  | some [] | none => ethCount 3 s

/-! ## Firmware (R447) and the page (R449) -/

/-- R68: the base of a flash bank. -/
def bankBase (b : Nat) : Nat := 0x08000000 + 0x400000 * b

/-- R447: `FW_PROG` begins; the bank holds no valid image until it has succeeded. -/
def fwStart (s : State) : State :=
  let b := fld s pETH 0x80 0 1
  let n := s.nv
  let s1 : State := { s with nv := { n with bankBad := b :: n.bankBad.filter (· != b) } }
  setFld pETH 0x80 8 24 0 (setEth { s.eth with fw := true, fwSrc := rg s pETH 0x78, fwLen := rg s pETH 0x7C, fwBank := b } s1)

/-- R447: the run ends. A source that leaves the shared SRAM cannot be read to its end, and the run fails. -/
def fwDone (ok : Bool) (s : State) : State :=
  let h := s.eth
  if ¬ h.fw then s
  else
    let s1 := setEth { h with fw := false } s
    if ok ∧ inSram h.fwSrc h.fwLen then
      let m := mputs s.mem (bankBase h.fwBank) (mbytes s.mem h.fwSrc h.fwLen)
      let n := s.nv
      flag pETH 2 (setFld pETH 0x80 8 24 h.fwLen
        { s1 with mem := m
                  upset := s1.upset.filter (fun c => ! (decide (bankBase h.fwBank ≤ 8 * c.1 ∧ 8 * c.1 < bankBase h.fwBank + h.fwLen)))
                  nv := { n with bankBad := n.bankBad.filter (· != h.fwBank) } })
    else flag pETH 3 s1

/-- R447, R449: the checks of a write to `ETH`. -/
def ethChk (s : State) (o v : Nat) (_ new : Nat) : Option Reason :=
  if o = 0x08 then
    (let len := rg s pETH 0x7C
     if ¬ cmdBit v 4 then none
     else firstReason [
       (len == 0 || decide (0x400000 < len) || len % 8 != 0 || ! inSram (rg s pETH 0x78) 1, .value),
       (devState s != .held && devState s != .ready, .devstate), (s.eth.fw, .state),
       (fld s pETH 0x80 0 1 == fld s pBOOT 0x44 0 1, .conflict)])
  else if 0x40 ≤ o ∧ o ≤ 0x6C then
    firstReason [((o == 0x40 && bits new 0 2 == 2) || ((o == 0x68 || o == 0x6C) && new % 2048 != 0), .value), (rbit s pETH 0x08 0, .state)]
  else none

def ethEff (o v : Nat) (was : Bool) (s : State) : State :=
  if o = 0x08 then
    let on := rbit s pETH 0x08 0
    let s1 := if on ∧ ¬ was then setEth { s.eth with phy100 := false, phyAt := s.tick } s else s
    ethKick (if cmdBit v 4 then fwStart s1 else s1)
  else if o = 0x70 then ethKick s
  else s

/-- A write to a register of `ETH`. While `EN` is 1 the read-only `MAC_LO` and `MAC_HI` refuse it too (R449). -/
def ethWrite (acc : Access) (o v : Nat) (s : State) : State :=
  if (o = 0x44 ∨ o = 0x48) ∧ rbit s pETH 0x08 0 then refuse acc pETH o v .state s
  else busStore acc pETH o v (ethChk s o v) (ethEff o v (rbit s pETH 0x08 0)) s

/-! ## Rows -/

/-- R439: the PHY reports a change of its link: 0 down, 1 at 100, 2 at 1000 Mbit/s, with its signal quality. -/
def execPhyLinkChange (link : Fin 3) (sqi : Fin 8) (s : State) : Host.Outcome State Fault Refusal :=
  .next (if powered s then phyLink link sqi s else s)

/-- R439: 500 ms have passed. -/
def execPhyModeSwitch (s : State) : Host.Outcome State Fault Refusal :=
  .next (if powered s then phySwitch s else s)

/-- R441: the frame in transmission is complete. -/
def execEthTxDone (s : State) : Host.Outcome State Fault Refusal :=
  .next (if powered s then ethTxDone s else s)

/-- R448: a datagram to `PORTS.SL` has been received. -/
def execSlDatagram (payload : List (BitVec 8)) (s : State) : Host.Outcome State Fault Refusal :=
  .next (if powered s ∧ ethEn s 3 then slDatagram (payload.map BitVec.toNat) s else s)

/-- R444: 100 µs have passed since the first record of the datagram being collected. -/
def execStreamDatagramSend (s : State) : Host.Outcome State Fault Refusal :=
  .next (if powered s ∧ s.eth.strAt + 100 * usT ≤ s.tick then streamSend s else s)

/-- R442: a write of `PTP:STEP`. -/
def execPtpStep (acc : Access) (v : BitVec 32) (s : State) : Host.Outcome State Fault Refusal :=
  .next (onBus acc pPTP 0x44 (ptpWrite acc 0x44 v.toNat) s)

/-- R442: a read of `PTP:TIME_NS`. -/
def execTimeNsRead (acc : Access) (s : State) : Host.Outcome State Fault Refusal :=
  .next (onBusRead acc pPTP 0x48 (fun s => s.eth.ptpN / 2 ^ 32) ptpLatch s)

/-- R443: a frame of EtherType 0x88F7 with this sequenceId has been sent; its SFD ended `ago` ns before, as measured. -/
def execPtpTimestamp (ago : Nat) (id : BitVec 16) (s : State) : Host.Outcome State Fault Refusal :=
  .next (if powered s ∧ rbit s pETH 0x08 0 then tsPush ago id.toNat s else s)

/-- R450: `POP`. -/
def execTsPop (acc : Access) (s : State) : Host.Outcome State Fault Refusal :=
  .next (onBus acc pPTP 0x08 (ptpWrite acc 0x08 0x00010001) s)

/-- R447: `FW_PROG`. -/
def execFwProg (acc : Access) (s : State) : Host.Outcome State Fault Refusal :=
  .next (onBus acc pETH 0x08 (ethWrite acc 0x08 0x00100010) s)

/-- R447: the programming run ends. -/
def execFwProgDone (ok : Bool) (s : State) : Host.Outcome State Fault Refusal :=
  .next (if powered s then fwDone ok s else s)

end Sys2Proof.Machine
end

