-- ==== Sys2Proof/Machine/Ledger.lean ====
section
/-! DEFINITION. The lifetime ledger (R499 to R515): measurements and their records, the derivation and adoption of the margin plan;
and the spare mode of the EX-3208 (R512, R513, R516). -/
namespace Sys2Proof.Machine

def setLedNv (h : LedNv) (s : State) : State := { s with nv := { s.nv with led := h } }

/-! ## Baselines (R506, R510) -/

/-- R506: the word of a baseline in its Cocoon block, after a 16-byte header: R_ref of channel i at i, Vth_ref at 48 + i, z_ref of
tile t at 96 + t, C_ref at 102, the delay addition of leg m at 103 + m. 0: none is taken yet. -/
def baseAddr (i : Nat) : Nat := 0x28056010 + 4 * i
def baseline (s : State) (i : Nat) : Nat := mread s.mem (baseAddr i) 4

/-- R506: a baseline is written, the header last. -/
def setBaseline (i v : Nat) (s : State) : State :=
  let m := mwrite s.mem (baseAddr i) v 4
  { s with mem := mwrite m 0x28056000 (mread m 0x28056000 4 + 1) 4 }

/-- The baseline, which the first record after a ledger reset gives. -/
def takeBaseline (i v : Nat) (s : State) : State := if baseline s i = 0 then setBaseline i v s else s

/-! ## Records (R499, R506) -/

/-- R506: a record enters the ring: kind, channel or tile and value in its first word, TICK, `COCOON:SEQ`, and a reserved word. -/
def ledRecord (kind i v : Nat) (s : State) : State :=
  let l := s.nv.led
  let w := (kind + 2 ^ 8 * i + 2 ^ 16 * (v % 2 ^ 16)) % 2 ^ 32
  let m := mputs s.mem (0x28057000 + 16 * l.pos) ([w, tick32 s, rg s pCOCOON 0x44, 0].flatMap bytesLE)
  let s1 := setLedNv { l with pos := (l.pos + 1) % 10496 } { s with mem := m }
  flag pLEDGER 0 (setRg pLEDGER 0x2CC ((rg s pLEDGER 0x2CC + 1) % 2 ^ 32) s1)

/-- A ratio of a value to its baseline in Q2.14, saturating in the unsigned field. -/
def ratioQ14 (v base : Nat) : Nat := satN 65535 (rneDiv ((v : Int) * 16384) base).toNat

/-- R501: the mean tile temperature of the window of channel `c`, Q8.8; without a conversion in it, the present one. -/
def ronTemp (s : State) (c : Nat) : Int :=
  let h := ledChan s c
  if h.tN = 0 then sgn 16 (fld s (pIC (c / 8)) (0x54 + 4 * (c % 8 / 4)) 0 16) else rneDiv h.t h.tN

/-- R501: the mean resistance of a window in µΩ; the manual gives no rounding, so one between two whole numbers is taken up or down (log
entry 121). -/
def ronMean (h : LedChan) (up : Bool) : Nat :=
  if h.ronN = 0 then 0 else h.ron.toNat / h.ronN + b2n (up && h.ron.toNat % h.ronN != 0)

/-- R501: the end of a 1 s window of channel `c`: ρ from the mean resistance. -/
def ronWindow (c : Nat) (up : Bool) (s : State) : State :=
  let h := ledChan s c
  if ¬ ledOn s ∨ devState s ≠ .run ∨ s.tick < h.ronAt + 1000 * msT then s
  else
    let tref := sgn 16 (fld s pLEDGER 0x44 16 16)
    let temp := ronTemp s c
    let r := ronMean h up
    let s0 := setLedChan c { h with ronAt := s.tick, ronN := 0, ron := 0, tN := 0, t := 0 } s
    if h.ronN < 16 ∨ r = 0 ∨ temp < tref - 5 * 256 ∨ tref + 5 * 256 < temp then s0
    else
      let s1 := takeBaseline c r s0
      let rho := ratioQ14 r (baseline s1 c)
      ledRecord 2 c rho (setLedNv { s1.nv.led with rho := s1.nv.led.rho.set c rho } s1)

/-- A list of numbers in ascending order. -/
def ascending (l : List Nat) : List Nat :=
  l.foldl (fun r x => r.takeWhile (fun y => decide (y ≤ x)) ++ x :: r.dropWhile (fun y => decide (y ≤ x))) []

/-- R500: Vth of channel `c` is `v`, in 10 mV. -/
def vthPut (c v : Nat) (s : State) : State :=
  let s1 := takeBaseline (48 + c) v (setLed { s.led with vDone := c :: s.led.vDone } s)
  ledRecord 1 c v (setLedNv { s1.nv.led with vth := s1.nv.led.vth.set c v } s1)

/-- R500: the sample `v` of the present turn-on of channel `c`, in 10 mV, once its main current is measured. After `VTH_N` of them the
median is the channel's Vth; of the two middle ones of an even number either (a free choice). -/
def vthMeasure (c v : Nat) (s : State) : State :=
  let h := ledChan s c
  let x := chanH s c
  let n := fld s pLEDGER 0x40 16 8
  if ¬ ledOn s ∨ devState s ≠ .run ∨ s.led.vDone.contains c ∨ ¬ x.on ∨ h.mAt ≠ some x.onAt ∨ h.vAt = some x.onAt ∨
      fld s pLEDGER 0x40 0 16 ≤ fld s (pIC (c / 8)) (0x180 + 4 * (c % 8)) 0 16 then s
  else
    let l := v :: h.vs
    let s1 := setLedChan c { h with vs := l, vAt := some x.onAt } s
    if l.length < n then s1
    else if n % 2 = 1 then vthPut c (nth (ascending l) (n / 2) 0) s1
    else freeStep (vthPut c (nth (ascending l) (n / 2 - freeNow s1 % 2) 0) s1)

/-- R502: z and θ of tile `t`, one second after STOPPING to READY. -/
def zthRecord (t : Nat) (s : State) : State :=
  match s.led.zAt with
  | none => s
  | some t0 =>
    let a := sgn 16 (nth s.led.zT t 0)
    let b := sgn 16 s.led.zB
    if ¬ ledOn s ∨ s.tick < t0 + 1000 * msT ∨ s.led.zDone.contains t ∨ a - b < 10 * 256 then s
    else
      let now := sgn 16 (fld s (pIC t) 0x54 0 16)
      let z := (satS 16 (rneDiv ((now - b) * 32768) (a - b).toNat)).1
      let s1 := setLed { s.led with zDone := t :: s.led.zDone } s
      let s2 := if 0 < z then takeBaseline (96 + t) z.toNat s1 else s1
      let th := if baseline s2 (96 + t) = 0 then 0x4000 else ratioQ14 z.toNat (baseline s2 (96 + t))
      let l := s2.nv.led
      ledRecord 3 t th (setLedNv { l with theta := l.theta.set t th, z := l.z.set t z } s2)

/-- The high or low (`lo`) channel of pair `j` of tile `t`. -/
def chanOf (t j : Nat) (lo : Bool) : Nat := 8 * t + 2 * j + b2n lo

/-- R503: C in 10 µF from t60 − t20 in nanoseconds. -/
def capOf (dt preR : Nat) : Nat := satN 65535 (rneDiv (dt * 10 ^ 9 : Nat) (preR * 693147180560)).toNat

/-- R503: C and γ of a pre-charge whose results show t20 and t60; the crossings lie `d20` and `d60` ticks before them (log entry 121). -/
def capMeasure (d20 d60 : Nat) (s : State) : State :=
  let r := fld s pLEDGER 0x4C 0 16
  match s.led.pre with
  | some ⟨_, _, some d⟩ =>
    let s0 := setLed { s.led with pre := none } s
    let c := capOf (5 * (d + d20 - d60)) r
    if ¬ ledOn s ∨ r = 0 ∨ c = 0 then s0
    else
      let s1 := takeBaseline 102 c s0
      let g := satN 32767 (rneDiv ((c : Int) * 32768) (baseline s1 102)).toNat
      ledRecord 4 0 c (setLedNv { s1.nv.led with cap := c, gamma := g } s1)
  | _ => s

/-- R504: δ of channel `c` from the window's sums: the mean of the mapped current, of full scale `Config.phaseFs` in 0.1 A, over that of
`ISNS` in 1/256 mA, divided by k in U24.8. -/
def scrDelta (s : State) (c : Nat) : Nat :=
  let h := ledChan s c
  ratioQ14 (h.scrI * Config.phaseFs (scrMap s c) * 200) (h.scrS * rg s pCAL (0x580 + 4 * c))

/-- R504: the end of a 1 s window of channel `c`. -/
def scrWindow (c : Nat) (s : State) : State :=
  let h := ledChan s c
  if ¬ ledOn s ∨ devState s ≠ .run ∨ s.tick < h.scrAt + 1000 * msT then s
  else
    let s0 := setLedChan c { h with scrAt := s.tick, scrN := 0, scrI := 0, scrS := 0 } s
    if h.scrN < 16 ∨ scrMap s c = 0xFF ∨ rg s pCAL (0x400 + 8 * c) = 0 ∨ rg s pCAL (0x580 + 4 * c) = 0 ∨ h.scrS = 0 then s0
    else
      let d := scrDelta s c
      let l := s0.nv.led
      ledRecord 5 c d (setLedNv { l with delta := l.delta.set c d, dUsed := l.dUsed.set c false } s0)

/-- R505: a reading of `PTP:RATE`; 64 of them give a record, in 0.01 ppm. -/
def xtalReading (s : State) : State :=
  if ¬ ledOn s ∨ ¬ rbit s pLEDGER 0x88 0 ∨ s.tick < s.led.xAt + 1000 * msT then s
  else
    let sum := s.led.xSum + sgn 32 (rg s pPTP 0x40)
    if s.led.xN + 1 < 64 then setLed { s.led with xSum := sum, xN := s.led.xN + 1, xAt := s.tick } s
    else
      let d := (satS 16 (rneDiv (-sum * 10 ^ 8) (64 * 5 * 2 ^ 32))).1
      let s1 := setLed { s.led with xSum := 0, xN := 0, xAt := s.tick } s
      ledRecord 6 0 (uns 16 d) (setLedNv { s1.nv.led with drift := d } s1)

/-- R506: `RESET`. The ring is empty when nothing of it is listed. -/
def ledReset (s : State) : State :=
  let m := s.mem.filter (fun c => ! (decide (0x28056010 ≤ c.1 ∧ c.1 < 0x28080000)))
  setLedNv { s.nv.led with
    rho := List.replicate 48 0x4000
    delta := List.replicate 48 0x4000
    dUsed := List.replicate 48 true
    theta := List.replicate 6 0x4000
    gamma := 0x7FFF
    pos := 0 } { s with mem := m }

/-! ## The plan (R507, R508) -/

/-- A margin plan: `PLAN_F_t` words, OVLD targets and loss gains (none: not managed), `PLAN_DLY`, new k0 and `OFS` values, and the
maintenance flags. -/
structure Plan where
  f     : List Nat
  ovld  : List (Option Nat)
  gain  : List (Option Nat)
  dly   : Nat
  k0    : List (Option Nat)
  ofs   : List (Option Int)
  maint : Nat
  deriving DecidableEq, Repr

/-- R507: σ_t in Q1.15. -/
def planSigma (l : LedNv) (t : Nat) : Nat :=
  let worst := (List.range 8).foldl (fun m j => Nat.max m (nth l.rho (8 * t + j) 0x4000)) (nth l.theta t 0x4000)
  satN 32767 (2 * (worst - 0x4000))

/-- R63, R507: `FMIN` and the two fractions, each times 256, exact. While the baseplate level of 85 °C stands they derate. -/
def planFrac (s : State) (g sigma : Nat) : Int :=
  let x := 32768 * 256 - (g : Int) * sigma
  let a := if s.dev.base85 then min x (Config.derate (rg s pSUPPLY 0x64) x) else x
  let lo := sgn 16 (fld s pLEDGER 0x54 0 16) * 256
  if a < lo then lo else a

/-- R507: F_t. -/
def planF (s : State) (t : Nat) : Int :=
  let x := rneDiv (planFrac s (fld s pLEDGER 0x50 0 16) (planSigma s.nv.led t)) 256
  let lo := sgn 16 (fld s pLEDGER 0x54 0 16)
  let y := if 32767 < x then 32767 else x
  if y < lo then lo else y

/-- R507: the carrier cap. -/
def planCap (s : State) (t : Nat) : Int :=
  rneDiv ((fld s pLEDGER 0x58 0 16 : Int) * planFrac s (fld s pLEDGER 0x50 16 16) (planSigma s.nv.led t)) (256 * 32768)

/-- R507: does channel `c` qualify for a dead-time addition? -/
def planSlow (s : State) (c : Nat) : Bool :=
  let v := nth s.nv.led.vth c 0
  let r := baseline s (48 + c)
  v != 0 && r != 0 && decide (v + fld s pLEDGER 0x54 24 8 < r)

/-- R508: the distance of δ_c from 1, in Q1.15. -/
def planDev (l : LedNv) (c : Nat) : Nat :=
  let d := nth l.delta c 0x4000
  2 * (if d < 0x4000 then 0x4000 - d else d - 0x4000)

/-- R506: the plan in force, as a slot holds it: the word of k0 of channel `c`. The slots hold, after a header of epoch, length,
CRC and a reserved word, the plan's words in the order of `planWords`. -/
def planSlot (i : Nat) : Nat := 0x28054000 + 0x1000 * i

/-- R507: k0 × δ_c, where δ_c is near 1. While the register holds what a plan made of its k0 with the present δ_c, that product stands
(log entry 148). -/
def planK0 (s : State) (slot c : Nat) : Option Nat :=
  let k0 := rg s pCAL (0x400 + 8 * c)
  if k0 = 0 ∨ fld s pLEDGER 0x60 0 16 < planDev s.nv.led c then none
  else if nth s.nv.led.dUsed c true ∧ k0 = mread s.mem (planSlot slot + 16 + 4 * (15 + c)) 4 then some k0
  else some (satN (2 ^ 32 - 1) (rneDiv ((k0 : Int) * nth s.nv.led.delta c 0) 16384).toNat)

/-- R507: the offset of input `n`, where its auto-zero was rejected three times alike. -/
def planOfs (s : State) (n : Nat) : Option Int :=
  match (s.nv.led.az.find? (fun e => e.1 == n)).map Prod.snd with
  | some [a, b, c] =>
    let near := fun (x y : Int) => decide ((x - y).natAbs ≤ 8)
    let ofs := sgn 16 (bits (act s pCAL (calReg n)) 0 16)
    let lim := 4 * fld s pCAL 0x60 0 16
    if near a b && near b c && near a c && [a, b, c].all (fun x => decide ((x - ofs).natAbs ≤ lim)) then some a else none
  | some _ | none => none

/-- R508: the maintenance flags. -/
def planMaint (s : State) : Nat :=
  let l := s.nv.led
  let thr := fun (o lo : Nat) => fld s pLEDGER o lo 16
  b2n (l.rho.any (fun r => decide (thr 0x5C 0 ≤ r))) + 2 * b2n (l.theta.any (fun r => decide (thr 0x64 0 ≤ r))) +
    4 * b2n ((List.range 48).any (planSlow s)) + 8 * b2n (decide ((l.gamma : Int) ≤ sgn 16 (thr 0x5C 16))) +
    16 * b2n ((List.range 48).any (fun c => decide (thr 0x60 0 < planDev l c))) +
    32 * b2n (decide (100 * fld s pLEDGER 0x60 16 8 < l.drift.natAbs)) + 64 * b2n l.azRej

/-- R506, R509: the slot that holds the active plan, with its epoch; epoch 0: none was ever written. -/
def planActive (s : State) : Nat × Nat :=
  let e0 := mread s.mem (planSlot 0) 2
  let e1 := mread s.mem (planSlot 1) 2
  if e0 = 0 then (1, e1) else if e1 = 0 then (0, e0)
  else if (e1 + 65536 - e0) % 65536 < 32768 then (1, e1) else (0, e0)

/-- R507, R508: the derivation. -/
def planDerive (s : State) : Plan :=
  let slot := (planActive s).1
  let sig := planSigma s.nv.led
  { f := (List.range 6).map (fun t => uns 16 (planF s t) + 2 ^ 16 * satN 65535 (planCap s t).toNat)
    ovld := (List.range 6).map (fun t =>
      let b := fld s pLEDGER (0x68 + 4 * t) 0 16
      if b = 0 then none else some (rneDiv ((b : Int) * planF s t) 32768).toNat)
    gain := (List.range 2).map (fun i =>
      let b := fld s pLEDGER (0x80 + 4 * i) 0 16
      let worst := (List.range 6).foldl (fun m p =>
        let t := pairTile (legPair s (dfLeg s i p))
        if dfConf s i p ∧ t < 6 then Nat.max m (sig t) else m) 0
      if b = 0 then none else some (satN 65535 (rneDiv ((b : Int) * (32768 + worst)) 32768).toNat))
    dly := (List.range 32).foldl (fun a m =>
      let k := legPair s m
      a + b2n (decide (k < 24) && (planSlow s (2 * k) || planSlow s (2 * k + 1))) * 2 ^ m) 0
    k0 := (List.range 48).map (planK0 s slot)
    ofs := (List.range 48).map (planOfs s)
    maint := planMaint s }

/-- R506: the words of a plan in its slot: an unmanaged value is 0, an `OFS` has bit 31 set. -/
def planWords (p : Plan) : List Nat :=
  p.f ++ p.ovld.map (·.getD 0) ++ p.gain.map (·.getD 0) ++ [p.dly] ++ p.k0.map (·.getD 0) ++
    p.ofs.map (fun o => match o with | some x => 2 ^ 31 + uns 16 x | none => 0)

/-- R508: the maintenance flags of a derivation. -/
def planFlags (p : Plan) (s : State) : State :=
  setRg pLEDGER 0x2A8 p.maint (flagIf (decide (clrN p.maint (rg s pLEDGER 0x2A8) ≠ 0)) pLEDGER 2 s)

/-- R509, R511: the values of a plan that `PLAN_F_t` and `PLAN_DLY` show. -/
def planShow (p : Plan) (s : State) : State :=
  setRg pLEDGER 0x2C8 p.dly (forRange 6 (fun t s => setRg pLEDGER (0x2B0 + 4 * t) (p.f.getD t 0) s) s)

/-- R499, R506, R514: what `LEDGER` shows of the ledger's own results, which outlast a restart, and the active plan's epoch. -/
def ledView (s : State) (o : Nat) : Nat :=
  let l := s.nv.led
  let c := (o - 0x100) / 4
  let v := (o - 0x1C0) / 4
  let t := (o - 0x280) / 4
  if 0x100 ≤ o ∧ o < 0x1C0 then nth l.rho c 0x4000 + 2 ^ 16 * nth l.delta c 0x4000
  else if 0x1C0 ≤ o ∧ o < 0x280 then nth l.vth v 0 % 2 ^ 16 + 2 ^ 16 * (baseline s (48 + v) % 2 ^ 16)
  else if 0x280 ≤ o ∧ o < 0x298 then nth l.theta t 0x4000 + 2 ^ 16 * uns 16 (nth l.z t 0)
  else if o = 0x2A0 then l.cap + 2 ^ 16 * l.gamma
  else if o = 0x2A4 then uns 16 l.drift
  else if o = 0x2AC then putBits (rg s pLEDGER o) 0 16 (planActive s).2
  else rg s pLEDGER o

/-! ## Adoption (R509, R510) -/

/-- R510: the device writes field `lo`, `w` of a class K register, in both banks (`epoch`) where it has two. -/
structure PlanField where
  epoch : Bool
  off   : Nat
  lo    : Nat
  w     : Nat
  val   : Nat
  deriving DecidableEq, Repr

/-- R510: one field of an unlocked page. -/
def planWrite (p : Nat) (x : PlanField) (s : State) : State :=
  let old := rg s p x.off
  let s1 := setFld p x.off x.lo x.w x.val s
  let s2 := if x.epoch then setFld p (x.off + 0x800) x.lo x.w x.val s1 else s1
  if rg s2 p x.off = old then s2 else afterConfigChange p false s2

/-- R78, R85, R510: the plan's fields of one page; where it is locked the first is refused, and none is written. -/
def planPage (p : Nat) (xs : List PlanField) (s : State) : State :=
  match xs with
  | [] => s
  | x :: _ =>
    if locked s p then refuse internalAcc p x.off (putBits (rg s p x.off) x.lo x.w x.val) .locked s
    else xs.foldl (fun s x => planWrite p x s) s

/-- R510: the dead time of leg `m`. -/
def planDelay (dly m : Nat) (s : State) : State :=
  let old := if rbit s (pLEG m) 0x0C 12 then 0 else baseline s (103 + m)
  let new := if bit dly m then fld s pLEDGER 0x54 16 8 else 0
  let put := fun (o : Nat) => PlanField.mk false o 0 12 (clampI 0 4095 ((fld s (pLEG m) o 0 12 : Int) - old + new)).toNat
  let s1 := if old = 0 ∧ new = 0 then s else planPage (pLEG m) [put 0x54, put 0x58] s
  if locked s (pLEG m) ∨ baseline s (103 + m) = new then s1 else setBaseline (103 + m) new s1

/-- R507: the fields of `CAL` a plan gives values. -/
def planCal (p : Plan) : List PlanField :=
  (List.range 48).filterMap (fun c => (nth p.k0 c none).map (fun x => ⟨false, 0x400 + 8 * c, 0, 32, x⟩)) ++
    (List.range 48).filterMap (fun n => (nth p.ofs n none).map (fun x => ⟨true, calReg n, 0, 16, uns 16 x⟩))

/-- R507, R509 step 5: every plan value enters its registers. -/
def planApply (p : Plan) (s : State) : State :=
  let s0 := planShow p s
  let s1 := forRange 6 (fun t s => planPage (pIC t) (match nth p.ovld t none with
    | none => []
    | some x => (List.range 8).map (fun j => ⟨false, 0x108 + 16 * j, 0, 16, x⟩)) s) s0
  let s2 := forRange 2 (fun i s => planPage (pDF i) (match nth p.gain i none with
    | none => []
    | some x => [⟨true, 0x16C, 0, 16, x⟩]) s) s1
  let s3 := planPage pCAL (planCal p) (forRange 32 (planDelay p.dly) s2)
  if locked s pCAL then s3
  else
    let l := s3.nv.led
    setLedNv { l with dUsed := (List.range 48).map (fun c => nth l.dUsed c true || (nth p.k0 c none).isSome) } s3

/-- R509: steps 3 to 5 in the transition from HELD to READY; `ok` is the outcome of the slot write, if one is needed. -/
def planAdopt (ok : Bool) (s : State) : State :=
  if ¬ rbit s pLEDGER 0x08 3 then setFld pLEDGER 0x2AC 16 3 0 s
  else
    let p := planDerive s
    let a := planActive s
    let ws := planWords p
    let same : Bool := a.2 != 0 && (List.range ws.length).all (fun i => mread s.mem (planSlot a.1 + 16 + 4 * i) 4 == ws.getD i 0)
    let s0 := planFlags p s
    if same then setFld pLEDGER 0x2AC 16 3 2 (planApply p s0)
    else if ¬ ok then setFld pLEDGER 0x2AC 17 2 2 s0
    else
      let e := if a.2 = 65535 then 1 else a.2 + 1
      let bs := ws.flatMap bytesLE
      let t := planSlot (1 - a.1)
      let m := mputs (mputs s0.mem (t + 16) bs) t (([e, bs.length, crc32c bs, 0]).flatMap bytesLE)
      setFld pLEDGER 0x2AC 16 3 2 (planApply p { s0 with mem := m })

/-! ## The `LEDGER` page -/

/-- R511, R514: the checks of a write to `LEDGER`. -/
def ledgerChk (s : State) (o v : Nat) (_ new : Nat) : Option Reason :=
  if o = 0x08 then firstReason [((cmdBit v 1 || cmdBit v 2) && devState s != .held && devState s != .ready, .devstate)]
  else if o = 0x40 then firstReason [(decide (bits new 16 8 < 16), .value)]
  else if 0x90 ≤ o ∧ o < 0xC0 then
    firstReason [((List.range 4).any (fun b => decide (48 ≤ bits new (8 * b) 8) && bits new (8 * b) 8 != 0xFF), .value)]
  else none

/-- R505, R511: what a write to `LEDGER` brings; `was` is `SYNC` before it. -/
def ledgerEff (o v : Nat) (was : Bool) (s : State) : State :=
  if o = 0x08 then
    let s1 := if cmdBit v 2 then ledReset s else s
    if cmdBit v 1 then (let p := planDerive s1
     flag pLEDGER 1 (setBit pLEDGER 0x2AC 16 true (planShow p (planFlags p s1)))) else s1
  else if o = 0x88 ∧ (¬ rbit s pLEDGER 0x88 0 ∨ ¬ was) then setLed { s.led with xSum := 0, xN := 0, xAt := s.tick } s
  else s

/-- A write to a register of `LEDGER`. -/
def ledgerWrite (acc : Access) (o v : Nat) (s : State) : State := busStore acc pLEDGER o v (ledgerChk s o v) (ledgerEff o v (rbit s pLEDGER 0x88 0)) s

/-! ## Spare mode (R512, R513) -/

/-- R513: the checks of a write to `SPARE`. -/
def spareChk (acc : Access) (s : State) (o v : Nat) (_ new : Nat) : Option Reason :=
  if o = 0x08 then
    (if ¬ cmdBit v 0 then none
     else firstReason [
       (decide (14 < fld s pSPARE 0x44 0 5), .value), (! (devState s).running, .devstate),
       (! rbit s pSPARE 0x40 0 || fld s pSPARE 0x4C 0 2 == 1, .state), (! rbit s pSUPPLY 0x50 5, .resource),
       (acc.master != .stagA || (List.range 24).any (fun m => m != 23 && legPair s m == 23), .conflict)])
  else if o = 0x48 then firstReason [(outside (bits new 0 16) 1 10000, .value)]
  else none

/-- R353, R512: steps 1 to 3. -/
def spareGo (s : State) : State :=
  let m := fld s pSPARE 0x44 0 5
  let s1 := legWrite internalAcc m 0x44 0x17 (legWrite internalAcc 23 0x44 0x3F (legWrite internalAcc m 0x08 0x00010000 s))
  setRg pSPARE 0x4C (1 + 2 ^ 8 * m) (setLed { s1.led with spAt := s1.tick } s1)

/-- A write to a register of `SPARE`. -/
def spareWrite (acc : Access) (o v : Nat) (s : State) : State :=
  busStore acc pSPARE o v (spareChk acc s o v) (fun s => if o = 0x08 ∧ cmdBit v 0 then spareGo s else s) s

/-- R353, R512: step 5 after the wait: the force is cleared, `EN` set and the substitution declared. -/
def spareDone (s : State) : State :=
  let m := fld s pSPARE 0x4C 8 5
  let s1 := setRg (pLEG m) 0x60 0 (setLegH m { legH s m with force := 0, fwait := [] } s)
  let s2 := legWrite internalAcc m 0x08 0x00010001 s1
  setFld pSPARE 0x4C 0 2 2 (degSetWrite ⟨.stagA, .queen⟩ 0x00100010 s2)

/-! ## Rows -/

/-- R500: the sample of a turn-on of channel `c`, in 10 mV. -/
def execVthMeasurement (c : Fin 48) (v : Fin 65536) (s : State) : Host.Outcome State Fault Refusal := .next (vthMeasure c v s)

/-- R501: a second of a channel is over. -/
def execRonWindow (t : Fin 6) (j : Fin 4) (lo up : Bool) (s : State) : Host.Outcome State Fault Refusal :=
  .next (ronWindow (chanOf t j lo) up s)

/-- R502: one second after STOPPING to READY. -/
def execZthRecord (t : Fin 6) (s : State) : Host.Outcome State Fault Refusal := .next (zthRecord t s)

/-- R503: a pre-charge is complete. -/
def execCapMeasurement (d20 d60 : Fin 200) (s : State) : Host.Outcome State Fault Refusal := .next (capMeasure d20 d60 s)

/-- R504: a second of a channel is over. -/
def execScrDriftWindow (t : Fin 6) (j : Fin 4) (lo : Bool) (s : State) : Host.Outcome State Fault Refusal :=
  .next (scrWindow (chanOf t j lo) s)

/-- R505: a second has passed. -/
def execXtalReading (s : State) : Host.Outcome State Fault Refusal := .next (xtalReading s)

/-- R511: `PREVIEW`. -/
def execPreview (acc : Access) (s : State) : Host.Outcome State Fault Refusal :=
  .next (onBus acc pLEDGER 0x08 (ledgerWrite acc 0x08 0x00020002) s)

/-- R506, R511: `RESET` of the ledger. -/
def execLedgerReset (acc : Access) (s : State) : Host.Outcome State Fault Refusal :=
  .next (onBus acc pLEDGER 0x08 (ledgerWrite acc 0x08 0x00040004) s)

/-- R512, R513: `GO`. -/
def execSpareGo (acc : Access) (s : State) : Host.Outcome State Fault Refusal :=
  .next (onBus acc pSPARE 0x08 (spareWrite acc 0x08 0x00010001) s)

/-- R512: `SP_WAIT` has elapsed. -/
def execSpareWaitDone (s : State) : Host.Outcome State Fault Refusal :=
  .next (if powered s ∧ fld s pSPARE 0x4C 0 2 = 1 ∧ s.led.spAt + rg s pSPARE 0x48 * msT ≤ s.tick then spareDone s else s)

end Sys2Proof.Machine
end

