-- ==== Sys2Proof/Machine/Antline.lean ====
section
/-! DEFINITION. Antline (R517 to R521): cycle and event counters and instruction tagging of the Stag pairs; and the bandwidth
monitor (R522 to R524). The stage offsets and stall causes of a tagged instruction are free values. -/
namespace Sys2Proof.Machine

/-- The index of a Stag pair. -/
def pairIx : PairId → Nat
  | .a => 0
  | .b => 1

def stagH (s : State) (x : Nat) : StagHid := nth s.stag x {}
def setStagH (x : Nat) (h : StagHid) (s : State) : State := { s with stag := s.stag.set x h }

/-- R121: `PAIR_STAT`: 0 running, 1 hot reset, 2 fast reboot, 3 halted by debug, 4 held. -/
def pairStat (s : State) (x : Nat) : Nat := fld s (pSTAG x) 0x40 0 3

/-- R106: the caste of a pair, as its bit in a caste mask: 0 Queen, 1 Worker, 2 Drone. -/
def casteBit (s : State) (x : Nat) : Nat := (stagH s x).status % 4

def antH (s : State) (x : Nat) : AntHid := nth s.ant x {}
def setAntH (x : Nat) (h : AntHid) (s : State) : State := { s with ant := s.ant.set x h }

/-! ## Counters (R517, R518) -/

/-- R517: counter `n` of a pair goes to 0 past 2^48 − 1. -/
def pmcWrap (x n : Nat) (s : State) : State := flag (pANT x) 0 (setBit (pANT x) 0xD0 n true s)

/-- R517: does counter `n` count event `evt` in the present caste? -/
def pmcCounts (s : State) (x evt n : Nat) : Bool :=
  let sel := rg s (pANT x) (0x50 + 16 * n)
  rbit s (pANT x) 0x40 n && bits sel 0 8 == evt && bit (bits sel 8 3) (casteBit s x)

/-- R517: counter `n` of a pair counts on by `k`. Increments of the tick in which software has written it are lost (log entry 138). -/
def antAdd (x n k : Nat) (s : State) : State :=
  let h := antH s x
  let v := nth h.pmc n 0 + k
  let s1 := setAntH x { h with pmc := h.pmc.set n (v % 2 ^ 48) } s
  if h.wrote.contains n then s
  else if 2 ^ 48 ≤ v then pmcWrap x n s1 else s1

/-- R517: an event occurs `k` times in a pair. -/
def antCount (x evt k : Nat) (s : State) : State :=
  forRange 8 (fun n s => if pmcCounts s x evt n then antAdd x n k s else s) s

/-- R111, R518: the events of the pipeline's timing: the stalled cycles of each cause, and the I-cache misses. -/
def pmcTiming (evt : Nat) : Bool := (0x21 ≤ evt && evt ≤ 0x2B) || evt == 0x30

/-- R111, R518: a cycle in which no instruction issues stalls for one cause: 0xA where a correction is owed, else a free one. -/
def stallCycle (x : Nat) (s : State) : State :=
  let h := antH s x
  if 0 < h.owed then antCount x 0x2A 1 (setAntH x { h with owed := h.owed - 1 } s)
  else antCount x (0x21 + freeNow s % 11) 1 (freeStep s)

/-- R517, R518: the two SCLK cycles of a PCLK tick: cycles, the device accesses and denials of the tick, the stalled cycles, and a free
number of I-cache misses. -/
def antTick (x : Nat) (s : State) : State :=
  let h := antH s x
  let done := fun (s : State) => setAntH x { antH s x with issued := 0, dev := 0, den := 0, wrote := [] } s
  if pairStat s x = 3 then done s
  else
    let s1 := antCount x 0x37 h.den (antCount x 0x35 h.dev (antCount x 1 2 (setAntH x { h with cyc := (h.cyc + 2) % 2 ^ 64 } s)))
    let sel := fun (p : Nat → Bool) => (List.range 8).any (fun n => rbit s (pANT x) 0x40 n && p (fld s (pANT x) (0x50 + 16 * n) 0 8))
    let s2 := if sel (fun e => pmcTiming e && e != 0x30) then forRange (2 - h.issued) (fun _ s => stallCycle x s) s1 else s1
    done (if sel (· == 0x30) then freeStep (antCount x 0x30 (freeNow s2 % 3) s2) else s2)

/-- R518: is the code one that a counter can select? -/
def evtOk (e : Nat) : Bool :=
  e ≤ 2 || (0x10 ≤ e && e ≤ 0x16) || (0x21 ≤ e && e ≤ 0x2B) || (0x30 ≤ e && e ≤ 0x37)

/-! ## Tagging (R519 to R521) -/

/-- R519: the down-counter is loaded after 16 shifts of the LFSR. -/
def tagReload (x : Nat) (s : State) : State :=
  let h := antH s x
  let l := lfsrAdvance h.lfsr
  let k := fld s (pANT x) 0xE0 8 5
  setAntH x { h with lfsr := l, ctr := 2 ^ (k - 1) + l * 2 ^ k / 2 ^ 16 } s

/-- R111, R520: the stage offsets of IF2, ID, EX1, EX2 and WB where the stages before them stall for `d` cycles each, saturated. -/
def stageOffsets (d : List Nat) : List Nat :=
  (List.range 5).map (fun i => satN 255 ((d.take (i + 1)).foldl (fun a x => a + x + 1) 0))

/-- R520: the record of a tagged instruction of class `cls` at `pc`, which is discarded or reaches WB. What its stages stall for, and the
causes, are free; its IF1 cycle lies before the present one by the offset at which it leaves. -/
def tagRecord (x pc cls : Nat) (raised gone : Bool) (s : State) : State :=
  let p := pANT x
  let slot := fld s p 0xE4 8 4
  let held := fld s p 0xE4 0 5
  let o := 0x100 + 16 * slot
  let s1 := freeStep s
  let d := (List.range 4).map (fun i => freeNow s / 256 ^ i % 256) ++ [freeNow s1 % 256]
  let offs := stageOffsets d
  let cause := fun (i stall : Nat) => if stall = 0 then 0 else freeNow s1 / 2 ^ (8 + 4 * i) % 11 + 1
  let causes := cause 0 (nth d 0 0 + nth d 1 0) + 2 ^ 4 * cause 1 (nth d 2 0) + 2 ^ 8 * cause 2 (nth d 3 0) + 2 ^ 12 * cause 3 (nth d 4 0)
  let s2 := setRg p (o + 4) (((antH s x).cyc + 2 ^ 64 - nth offs 4 0) % 2 ^ 32) (setRg p o pc (freeStep s1))
  let s3 := setRg p (o + 8) (nth offs 0 0 + 2 ^ 8 * nth offs 1 0 + 2 ^ 16 * nth offs 2 0 + 2 ^ 24 * nth offs 3 0) s2
  let s4 := setRg p (o + 12) ((if gone then 0xFF else nth offs 4 0) + 2 ^ 8 * cls + 2 ^ 11 * casteBit s x + 2 ^ 13 * b2n gone
    + 2 ^ 14 * b2n raised + 2 ^ 16 * causes) s3
  let s5 := setAntH x { antH s4 x with recAt := some (s.tick, slot) }
    (setFld p 0xE4 8 4 (slot + 1) (setFld p 0xE4 0 5 (satN 16 (held + 1)) s4))
  if held = 15 then flag p 1 (setBit p 0xE4 16 (! rbit s p 0xE0 1) s5) else s5

/-- R519: is tagging under way for the present caste? -/
def tagging (s : State) (x : Nat) : Bool :=
  let c := rg s (pANT x) 0xE0
  bit c 0 && bit (bits c 4 3) (casteBit s x) && ! rbit s (pANT x) 0xE4 16

/-- R519, R520: an instruction at `pc` of class `cls` issues and reaches WB, or is discarded by the exception it raises. -/
def tagIssue (x pc cls : Nat) (raised : Bool) (s : State) : State :=
  let h := antH s x
  if ¬ tagging s x then s
  else if h.ctr = 0 then tagReload x (tagRecord x pc cls raised raised s)
  else setAntH x { h with ctr := h.ctr - 1 } s

/-- R521: a hot reset discards the tagged instruction in flight at `pc`, the next of the pair, whose class is free. -/
def tagDiscard (x : Nat) (s : State) : State :=
  if tagging s x ∧ (antH s x).ctr = 0 then tagReload x (tagRecord x (stagH s x).pc (freeNow s % 8) false true (freeStep s)) else s

/-- R521: `TAGCLR`: the buffer is empty, and a record of the present tick becomes record 0. -/
def tagClear (x : Nat) (s : State) : State :=
  let p := pANT x
  match (antH s x).recAt with
  | some (t, k) =>
    if t = s.tick then
      setRg p 0xE4 0x101 (forRange 4 (fun w s' => setRg p (0x100 + 4 * w) (rg s p (0x100 + 16 * k + 4 * w)) s') s)
    else setRg p 0xE4 0 s
  | none => setRg p 0xE4 0 s

/-- R519: the LFSR is loaded as `TAG_CTL.EN` is set. -/
def tagSeed (x : Nat) (s : State) : State :=
  tagReload x (setAntH x { antH s x with lfsr := fld s (pANT x) 0xE0 16 16 } s)

/-! ## The `ANTLINE` pages (R530) -/

/-- R517, R519, R530: the checks of a write to `ANTLINE.x`. -/
def antChk (s : State) (x o : Nat) (old new : Nat) : Option Reason :=
  if 0x50 ≤ o ∧ o < 0xD0 ∧ o % 16 = 0 then
    firstReason [(! evtOk (bits new 0 8), .value), (rbit s (pANT x) 0x40 ((o - 0x50) / 16), .state)]
  else if o = 0xE0 then
    firstReason [(bits new 16 16 == 0 || outside (bits new 8 5) 8 20, .value), (bit old 0 && bit new 0, .state)]
  else none

/-- What a write to `ANTLINE.x` brings. -/
def antEff (x o v : Nat) (tagWas : Bool) (s : State) : State :=
  let h := antH s x
  if o = 0x08 ∧ cmdBit v 0 then tagClear x s
  else if o = 0xE0 ∧ ¬ tagWas ∧ rbit s (pANT x) 0xE0 0 then tagSeed x s
  else if 0x50 ≤ o ∧ o < 0xD0 ∧ o % 16 = 4 then
    (let n := (o - 0x50) / 16
     setAntH x { h with pmc := h.pmc.set n (nth h.pmc n 0 / 2 ^ 32 * 2 ^ 32 + v % 2 ^ 32), wrote := n :: h.wrote } s)
  else if 0x50 ≤ o ∧ o < 0xD0 ∧ o % 16 = 8 then
    (let n := (o - 0x50) / 16
     setAntH x { h with pmc := h.pmc.set n (nth h.pmc n 0 % 2 ^ 32 + v % 2 ^ 16 * 2 ^ 32), wrote := n :: h.wrote } s)
  else s

/-- A write to a register of `ANTLINE.x`. -/
def antWrite (acc : Access) (x o v : Nat) (s : State) : State :=
  busStore acc (pANT x) o v (antChk s x o) (antEff x o v (rbit s (pANT x) 0xE0 0)) s

/-- R517: the low word of `CYCLE` (0) or of `PMC` n − 1, and the latching of its high word by a read. -/
def antLow (s : State) (x n : Nat) : Nat := (if n = 0 then (antH s x).cyc else nth (antH s x).pmc (n - 1) 0) % 2 ^ 32
def antLatch (x n : Nat) (s : State) : State :=
  if n = 0 then setRg (pANT x) 0x48 ((antH s x).cyc / 2 ^ 32) s
  else setRg (pANT x) (0x48 + 16 * n) (nth (antH s x).pmc (n - 1) 0 / 2 ^ 32) s

/-- The offset of a low word. -/
def antLowOff (n : Nat) : Nat := if n = 0 then 0x44 else 0x44 + 16 * n

/-! ## Bandwidth (R523, R524) -/

def bwP (p o : Nat) : Nat := 0x100 + 0x20 * p + o

/-- R523, R524: a window begins at tick `t`, with the transfers that have fallen into it already. -/
def bwStart (t : Nat) (s : State) : State :=
  { s with bw := { at_ := t, thr := (List.range 16).map (fun p => rg s pBWMON (bwP p 0x14)), done := 0, cur := s.bw.nxt } }

/-- R522, R523: what port `p` has carried in the window: what commands have moved through it, with what `counts` adds (transfers that no
command makes: fills of the caches, save and restore). -/
def bwTotal (s : State) (counts : List BwCount) (p : Nat) : BwPort :=
  let c := counts.getD p ⟨0, 0, 0, 0⟩
  let x := nth s.bw.cur p {}
  { x with rd := (x.rd + c.rd.toNat) % 2 ^ 48, wr := (x.wr + c.wr.toNat) % 2 ^ 48
           peakR := satN 65535 (max x.peakR c.peakR.toNat), peakW := satN 65535 (max x.peakW c.peakW.toNat) }

/-- R523: a window ends with its counts. -/
def bwEnd (counts : List BwCount) (s : State) : State :=
  let s1 := forRange 16 (fun p s' =>
    let c := bwTotal s counts p
    setRg pBWMON (bwP p 0x10) (c.peakR + 2 ^ 16 * c.peakW)
      (setRg pBWMON (bwP p 0xC) (c.wr / 2 ^ 32) (setRg pBWMON (bwP p 8) (c.wr % 2 ^ 32)
        (setRg pBWMON (bwP p 4) (c.rd / 2 ^ 32) (setRg pBWMON (bwP p 0) (c.rd % 2 ^ 32) s'))))) s
  bwStart (s.bw.at_ + bwLen s) (flag pBWMON 1 (incWrap pBWMON 0x44 0 16 1 s1))

/-- R524: port `p` has crossed its threshold. -/
def bwCross (p : Nat) (s : State) : State :=
  flag pBWMON 0 (setBit pBWMON 0x48 p true { s with bw := { s.bw with done := orN s.bw.done (2 ^ p) } })

/-- R524: the tick in which a port's running count first exceeds its threshold. -/
def bwTick (s : State) : State :=
  if ¬ rbit s pBWMON 0x08 0 then s
  else forRange 16 (fun p s =>
    let x := nth s.bw.cur p {}
    let sel := fld s pBWMON (bwP p 0x18) 0 2
    let n := if sel = 0 then x.rd + x.wr else if sel = 1 then x.rd else x.wr
    let t := nth s.bw.thr p 0
    if t ≠ 0 ∧ 64 * t < n ∧ ¬ bit s.bw.done p then bwCross p s else s) s

/-- R523, R524, R531: the checks of a write to `BWMON`. -/
def bwChk (s : State) (o : Nat) (_ new : Nat) : Option Reason :=
  let en := rbit s pBWMON 0x08 0
  if o = 0x40 then firstReason [(outside (bits new 0 20) 1 1000000, .value), (en, .state)]
  else if 0x100 ≤ o ∧ o % 0x20 = 0x18 then firstReason [(bits new 0 2 == 3, .value), (en, .state)]
  else none

/-- A write to a register of `BWMON`. -/
def bwWrite (acc : Access) (o v : Nat) (s : State) : State :=
  busStore acc pBWMON o v (bwChk s o) (fun s' =>
    if o = 0x08 ∧ rbit s' pBWMON 0x08 0 ∧ ¬ rbit s pBWMON 0x08 0 then
      bwStart (s'.tick + 1) { s' with bw := { s'.bw with nxt := List.replicate 16 {} } } else s') s

/-! ## Rows -/

/-- R521: `TAGCLR`. -/
def execTagclr (acc : Access) (x : PairId) (s : State) : Host.Outcome State Fault Refusal :=
  .next (onBus acc (pANT (pairIx x)) 0x08 (antWrite acc (pairIx x) 0x08 0x00010001) s)

/-- R517: a counter that counts what the pipeline's timing decides passes 2^48 − 1. -/
def execPmcOverflow (x : PairId) (n : Fin 8) (s : State) : Host.Outcome State Fault Refusal :=
  .next (let i := pairIx x
         let evt := fld s (pANT i) (0x50 + 16 * n) 0 8
         if powered s ∧ pmcCounts s i evt n ∧ pmcTiming evt ∧ pairStat s i ≠ 3 ∧ nth (antH s i).pmc n 0 = 2 ^ 48 - 1 then
           antAdd i n 1 s
         else s)

/-- R517: a read of `CYCLE_LO` (n = 0) or `PMC_LO` n − 1. -/
def execCycleLoRead (acc : Access) (x : PairId) (n : Fin 9) (s : State) : Host.Outcome State Fault Refusal :=
  .next (onBusRead acc (pANT (pairIx x)) (antLowOff n) (fun s => antLow s (pairIx x) n) (antLatch (pairIx x) n) s)

/-- R523: a window ends. -/
def execBwWindowEnd (counts : List BwCount) (s : State) : Host.Outcome State Fault Refusal :=
  .next (if powered s ∧ rbit s pBWMON 0x08 0 ∧ s.bw.at_ + bwLen s ≤ s.tick then bwEnd counts s else s)

/-- R524: the running count of port `p` exceeds its threshold. -/
def execBwThreshold (p : Fin 16) (s : State) : Host.Outcome State Fault Refusal :=
  .next (if powered s ∧ rbit s pBWMON 0x08 0 ∧ nth s.bw.thr p 0 ≠ 0 ∧ ¬ bit s.bw.done p then
    bwCross p s else s)

end Sys2Proof.Machine
end

