-- ==== Sys2Proof/Machine/Checker.lean ====
section
/-! DEFINITION. Lockstep detections, recovery and its counting (R133 to R141), the scrubber (R144), and the `STAG`, `CHECKER` and
`MEMCTL` pages (R121, R145). -/
namespace Sys2Proof.Machine

/-! ## A pair's core (R106, R123, R139) -/

/-- R67: where the model keeps the TCM of a pair: each pair sees only its own at 0x1000_0000. -/
def tcmBase (x : Nat) : Nat := 0x10000000 + 0x08000000 * x

/-- R120, R123: the MPU registers of the `STAG` page are loaded into the cores. -/
def mpuLoad (x : Nat) (s : State) : State :=
  setStagH x { stagH s x with
    mpuCtrl := rg s (pSTAG x) 0x48
    mpu := (List.range 32).map (fun n => (rg s (pSTAG x) (0x100 + 8 * n), rg s (pSTAG x) (0x104 + 8 * n))) } s

/-- R106, R139: a hot reset: system registers take their factory values; the manual gives no value for general and floating-point
registers and the entry, which are free. Stores that have left the buffer complete normally: their bus errors still return (R133). -/
def coreReset (x : Nat) (s : State) : State :=
  let fr := fun (i : Nat) => Config.freeWord (s.freeCtr + i)
  let h : StagHid := {
    g := 0 :: (List.range 31).map fr
    f := (List.range 32).map (fun i => fr (31 + i))
    pc := (fr 63).toNat / 4 * 4
    errs := (stagH s x).errs }
  mpuLoad x (setStagH x h { s with freeCtr := s.freeCtr + 64 })

/-- R139: the TCM is written to zero, with valid check bits. -/
def tcmClear (x : Nat) (s : State) : State :=
  { s with mem := s.mem.filter (fun c => ! (decide (tcmBase x ≤ c.1 ∧ c.1 < tcmBase x + 0x20000)))
           upset := s.upset.filter (fun c => ! (decide (tcmBase x ≤ 8 * c.1 ∧ 8 * c.1 < tcmBase x + 0x20000))) }

/-- R121, R145: `PAIR_STAT` and `STAT` of a pair. -/
def setPair (x pair stat : Nat) (s : State) : State := setFld pCHECKER (0x40 + 4 * x) 0 2 stat (setFld (pSTAG x) 0x40 0 3 pair s)

/-- What a change of a pair's state brings to tiles, legs and degraded conditions. -/
def pairRefresh (s : State) : State := degShow (refreshLegs (refreshTiles s))

/-! ## Detection and recovery (R135 to R141) -/

/-- R135: the event a cause raises. -/
def detEvent (x cause : Nat) : Nat := if cause = 2 then 18 else if cause = 3 then 19 else 16 + x

/-- R141: recoveries of a pair since power-on. -/
def recTotal (s : State) (x : Nat) : Nat := (List.range 4).foldl (fun a c => a + fld s pCHECKER (0x48 + 4 * x) (8 * c) 8) 0

/-- R141: a detection is counted; the third of one cause within 3600 s sets `DEG_LATCH`. -/
def detCount (x cause : Nat) (s : State) : State :=
  let i := 4 * x + cause - 1
  let l := (s.tick :: nth s.chk.last i []).take 3
  let s1 := incSat pCHECKER (0x48 + 4 * x) (8 * (cause - 1)) 8 1 { s with chk := { s.chk with last := s.chk.last.set i l } }
  if l.length = 3 ∧ s.tick ≤ l.getD 2 0 + 3600000 * msT then setBit pSYS 0x44 17 true s1 else s1

/-- R136: a further detection in the tick of one: the lowest code and the lowest segment are recorded, and the one recovery counts
under the code recorded. -/
def detectAgain (x cause seg : Nat) (sweep : Bool) (s : State) : State :=
  let st := 0x40 + 4 * x
  let old := fld s pCHECKER st 4 4
  let s1 := if cause ≤ 2 ∧ (2 < old ∨ seg < fld s pCHECKER st 8 3) then setFld pCHECKER st 8 3 seg s else s
  let s2 := flag pCHECKER (detEvent x cause - 16) (setBit pCHECKER st 11 (sweep || rbit s pCHECKER st 11) s1)
  if old ≤ cause then s2
  else
    let i := 4 * x + old - 1
    let c := s2.chk
    detCount x cause (setFld pCHECKER st 4 4 cause (setFld pCHECKER (0x48 + 4 * x) (8 * (old - 1)) 8
      (fld s2 pCHECKER (0x48 + 4 * x) (8 * (old - 1)) 8 - 1) { s2 with chk := { c with last := c.last.set i (nth c.last i []).tail } }))

/-- R139, R140, R141: a detection starts a recovery; the ninth latches the device and holds the pair. -/
def detect (x cause seg : Nat) (sweep : Bool) (s : State) : State :=
  if nth s.chk.detAt x none = some s.tick then detectAgain x cause seg sweep s
  else if pairStat s x = 4 then s
  else
    let st := 0x40 + 4 * x
    let s1 := setBit pCHECKER st 11 sweep (setFld pCHECKER st 4 4 cause s)
    let s2 := if cause ≤ 2 then setFld pCHECKER st 8 3 seg s1 else s1
    let s3 := flag pCHECKER (detEvent x cause - 16) (detCount x cause s2)
    let at_ := match nth s.chk.recAt x none with | some t => t | none => s.tick
    let s4 := setBit pDEBUG 0x40 (4 + x) false { s3 with chk := { s3.chk with
      recAt := s3.chk.recAt.set x (some at_), detAt := s3.chk.detAt.set x (some s.tick) } }
    let s5 := tcmClear x (coreReset x (setPair x 1 1 (tagDiscard x s4)))
    if 9 ≤ recTotal s5 x then goLatched (detEvent x cause) (pairRefresh (setPair x 4 3 s5))
    else
      let s6 := pairRefresh s5
      if bothRecover s6 then goSafe (detEvent x cause) s6 else s6

/-- R139, R140: the pair is back. A ramp stops, and κ stays as the last start latched it (R259); pages armed meanwhile transfer
again. -/
def pairBack (x : Nat) (s : State) : State :=
  let c := s.chk
  pairRefresh (setPair x 0 0 { s with chk := { c with
    recAt := c.recAt.set x none, coast := c.coast.set x false, lateArm := c.lateArm.set x [] } })

/-! ## The sweep (R138) -/

/-- R138: the length of a pass of the sweep, in ticks. -/
def sweepLen (s : State) : Nat := fld s pCHECKER 0x50 0 16 * usT

/-- R138: the item that the sweep of pair `x` has read last, of the 71 evenly spaced ones of its pass. -/
def sweepPos (s : State) (x : Nat) : Nat := min 70 ((s.tick - nth s.chk.sweepAt x 0) * 71 / sweepLen s)

/-- R138: the value of item `k`: `g1` to `g31`, `f0` to `f31`, then the eight system registers in the order of the rule. -/
def sweepItem (s : State) (x k : Nat) : Nat :=
  let h := stagH s x
  if k < 31 then (nth h.g (k + 1) 0).toNat
  else if k < 63 then (nth h.f (k - 31) 0).toNat
  else nth [h.status, h.estatus, h.epc, h.ecause, h.eaddr, h.vbase, h.fcsr, x] (k - 63) 0

/-- R138: a pass of the sweep ends with its period, and the next begins. R527: a debug halt pauses the sweep, which begins a full period
at the resume. -/
def sweepTick (x : Nat) (s : State) : State :=
  if pairStat s x ≠ 3 ∧ s.tick + 1 < nth s.chk.sweepAt x 0 + sweepLen s then s
  else { s with chk := { s.chk with sweepAt := s.chk.sweepAt.set x (s.tick + 1) } }

/-- R138: the difference in segment 7 is one of the item the sweep passes through it. -/
def sweepFound (s : State) (x : Nat) (c : CmpCycle) : Bool :=
  match c.segs[7]? with
  | some g => pairStat s x != 3 && segDiffers g && g.main.toNat == sweepItem s x (sweepPos s x)
  | none => false

/-! ## Pages -/

/-- R121: the checks of a write to `STAG.x`: `SIZE` below 7, or a `BASE` not aligned to its size. -/
def stagChk (s : State) (x o : Nat) (_ new : Nat) : Option Reason :=
  if 0x100 ≤ o ∧ o < 0x200 then
    (let n := (o - 0x100) / 8
     let base := if o % 8 = 0 then new else rg s (pSTAG x) (0x100 + 8 * n)
     let size := if o % 8 = 4 then bits new 0 5 else fld s (pSTAG x) (0x104 + 8 * n) 0 5
     firstReason [((o % 8 == 4 && decide (size < 7)) || (decide (7 ≤ size) && base % 2 ^ (size + 1) != 0), .value)])
  else none

/-- A write to a register of `STAG.x`. -/
def stagWrite (acc : Access) (x o v : Nat) (s : State) : State := busStore acc (pSTAG x) o v (stagChk s x o) id s

/-- R138, R145: the checks of a write to `CHECKER`. -/
def checkerChk (s : State) (o v : Nat) (_ new : Nat) : Option Reason :=
  if o = 0x08 then firstReason [((List.range 2).any (fun x => cmdBit v x && pairRec s x != 2), .state)]
  else if o = 0x50 then firstReason [(outside (bits new 0 16) 500 4000, .value)]
  else if o = 0x54 then firstReason [(outside (bits new 0 16) 10 10000, .value)]
  else none

/-- A write to a register of `CHECKER`. -/
def checkerWrite (acc : Access) (o v : Nat) (s : State) : State :=
  busStore acc pCHECKER o v (checkerChk s o v)
    (fun s => if o = 0x08 then forRange 2 (fun x s => if cmdBit v x then pairBack x s else s) s else s) s

/-- R5, R145: a write to a register of `MEMCTL`. A W1C write of `ERR_LOG` clears the bits written; with `VALID` it clears both
counts. -/
def memctlWrite (acc : Access) (o v : Nat) (s : State) : State :=
  busStore acc pMEMCTL o v
    (fun _ new => if o = 0x44 then firstReason [(outside (bits new 0 16) 1 6000, .value)] else none)
    (fun s' => if o = 0x50 then
        (let s1 := setRg pMEMCTL 0x50 (clrN (rg s pMEMCTL 0x50) v) s'
         if bit v 31 then setRg pMEMCTL 0x4C 0 (setRg pMEMCTL 0x48 0 s1) else s1)
      else s') s

/-! ## Rows -/

/-- R134, R135, R136: a cycle of the comparator and the delay registers of a pair: every detection of the cycle, the lowest code
first. `sweep`: segment 7 compares the value the sweep passes through it (R138). -/
def execLockstepDetection (x : PairId) (segs : List CmpSeg) (groups : List DelayGroup) (sweep : Bool) (s : State) :
    Host.Outcome State Fault Refusal :=
  let c : CmpCycle := { segs := segs, groups := groups }
  let found := sweep && sweepFound s (pairIx x) c
  .next (if powered s then (cycleDets c).foldl (fun s d => detect (pairIx x) d.1 d.2 (found && d.1 == 1) s) s else s)

/-- R139: the pair starts at its fast-reboot entry. -/
def execFastRebootStart (x : PairId) (s : State) : Host.Outcome State Fault Refusal :=
  .next (if powered s ∧ pairRec s (pairIx x) = 1 then setPair (pairIx x) 2 2 s else s)

/-- R139: `RESUMED`. -/
def execResumed (acc : Access) (x : PairId) (s : State) : Host.Outcome State Fault Refusal :=
  .next (onBus acc pCHECKER 0x08 (checkerWrite acc 0x08 (2 ^ pairIx x * 0x10001)) s)

/-- R140: the pair is not back 5 ms after detection. -/
def execRecoveryCoastStart (x : PairId) (s : State) : Host.Outcome State Fault Refusal :=
  .next (match nth s.chk.recAt (pairIx x) none with
    | some t =>
      if powered s ∧ t + 5 * msT ≤ s.tick then { s with chk := { s.chk with coast := s.chk.coast.set (pairIx x) true } } else s
    | none => s)

/-- R140: the pair is not back 50 ms after detection. -/
def execRecoveryTimeout (x : PairId) (s : State) : Host.Outcome State Fault Refusal :=
  .next (match nth s.chk.recAt (pairIx x) none with
    | some t =>
      if powered s ∧ t + 50 * msT ≤ s.tick ∧ pairStat s (pairIx x) ≠ 4 then
        goSafe (detEvent (pairIx x) (fld s pCHECKER (0x40 + 4 * pairIx x) 4 4)) (pairRefresh (setPair (pairIx x) 4 3 s))
      else s
    | none => s)

/-- R144: the base and size of a scrubbed memory: SRAM, the TCMs, flash, Mantis memories, capture buffer. -/
def scrubAddr (s : State) (r a : Nat) : Bool :=
  rbit s pMEMCTL 0x40 r &&
    (if r = 0 then decide (0x20000000 ≤ a ∧ a < 0x20200000)
     else if r = 1 ∨ r = 2 then decide (0x10000000 ≤ a ∧ a < 0x10020000)
     else if r = 3 then decide (0x08000000 ≤ a ∧ a < 0x08800000)
     else if r = 4 then decide (0x30000000 ≤ a ∧ a < 0x30080000)
     else decide (0x50000000 ≤ a ∧ a < 0x50040000))

/-- R144: the place in the model's memory of an address of memory `r`. -/
def scrubPlace (r a : Nat) : Nat := if r = 1 ∨ r = 2 then tcmBase (r - 1) + (a - 0x10000000) else a

/-- R144: the scrubber reads the word at `addr` of memory `r`; a corrected word is written back, but in flash. -/
def execScrubWord (r : Fin 6) (addr : BitVec 32) (ecc : Ecc) (s : State) : Host.Outcome State Fault Refusal :=
  .next (if powered s ∧ scrubAddr s r addr.toNat then
    (if r = 3 then eccRead else eccWrite) r 0 addr.toNat (scrubPlace r addr.toNat) ecc s else s)

end Sys2Proof.Machine
end

