-- ==== Sys2Proof/Machine/Debug.lean ====
section
/-! DEFINITION. The debug port (R525 to R532): authentication, halt, resume and step of Stag pairs and Mantis engines, and the
registers of a halted pair. -/
namespace Sys2Proof.Machine

/-! ## Authentication (R525) -/

/-- Words of `DEBUG` at consecutive offsets. -/
def debugWords (s : State) (o n : Nat) : List Word := (List.range n).map (fun j => BitVec.ofNat 32 (rg s pDEBUG (o + 4 * j)))

/-- R525: a new nonce is drawn. -/
def newNonce (s : State) : State := forRange 4 (fun j s => freeStep (setRg pDEBUG (0x48 + 4 * j) (freeNow s) s)) s

/-- R525: the signature is verified. -/
def authenticate (s : State) : State :=
  if Config.authOk Config.otpSerial (debugWords s 0x48 4) (debugWords s 0x100 16) then
    newNonce (setBit pDEBUG 0x40 0 true s)
  else newNonce (flag pDEBUG 1 (incSat pDEBUG 0x40 2 2 1 s))

/-! ## Halt (R526 to R528) -/

/-- R526, R532: the target of `HALT_CTL` exists for the command: a pair, or an engine that is not to be stepped. -/
def haltTarget (cmd t : Nat) : Bool := decide (t < 2) || (decide (4 ≤ t) && cmd != 3)

/-- R526: is the target in the state a command needs? -/
def haltStateOk (s : State) (cmd t : Nat) : Bool :=
  if t < 2 then (if cmd = 1 then pairStat s t == 0 else pairStat s t == 3)
  else if cmd = 1 then (mtState s (t - 4) == mtRUN || mtState s (t - 4) == mtIDLE) else mtState s (t - 4) == mtHALTED

/-- R527: a Stag pair halts. -/
def pairHalt (x : Nat) (s : State) : State :=
  pairRefresh (flag pDEBUG 0 (setBit pDEBUG 0x40 (4 + x) true (setFld (pSTAG x) 0x40 0 3 3 s)))

/-- R527: a halted pair resumes. -/
def pairResumeRun (x : Nat) (s : State) : State :=
  pairRefresh (setBit pDEBUG 0x40 (4 + x) false (setFld (pSTAG x) 0x40 0 3 0 (setStagH x { stagH s x with step := false } s)))

/-- R528: an engine halts at the end of the present tick; instructions whose issue has begun complete. -/
def engineHalt (e : Nat) (s : State) : State :=
  let run := mtState s e == mtRUN
  let c := mtNow s e + 4
  let s1 := if run then mtCut e c s else s
  let h := mtH s1 e
  let s2 := setMtH e { h with wasRun := run, leftAt := if run then some s.tick else h.leftAt
                              pBusy := if run then h.pBusy + runCycles s1 e (c - 1) else h.pBusy } s1
  refreshLegs (flag pDEBUG 0 (setBit pDEBUG 0x40 (8 + e) true (setBlockState (pMT e) mtHALTED s2)))

/-- R528: a halted engine resumes: to RUN at its address, or to IDLE. -/
def engineResume (e : Nat) (s : State) : State :=
  let h := mtH s e
  let c := mtNow s e
  let s1 := if h.wasRun then setMtH e { h with wasRun := false, runFrom := s.tick, cycle := if h.cycle < c then c else h.cycle } s else s
  refreshLegs (setBit pDEBUG 0x40 (8 + e) false (if h.wasRun then setBlockState (pMT e) mtRUN s1 else mtIdle e s1))

/-- R526: a command of `HALT_CTL`. -/
def haltCommand (cmd t : Nat) (s : State) : State :=
  if t < 2 then
    (if cmd = 1 then pairHalt t s else if cmd = 2 then pairResumeRun t s else setStagH t { stagH s t with step := true } s)
  else if cmd = 1 then engineHalt (t - 4) s else engineResume (t - 4) s

/-! ## Registers of a halted pair (R527) -/

/-- R532: the register `DBG_RSEL` names and its pair. -/
def dbgSel (s : State) : Nat := fld s pDEBUG 0x58 0 7
def dbgPair (s : State) : Nat := fld s pDEBUG 0x58 8 1

/-- R527: a read of `DBG_RVAL`. -/
def dbgRead (s : State) : Nat :=
  let h := stagH s (dbgPair s)
  let r := dbgSel s
  if pairStat s (dbgPair s) ≠ 3 then 0
  else if r < 32 then (nth h.g r 0).toNat else if r < 64 then (nth h.f (r - 32) 0).toNat else if r = 64 then h.pc else 0

/-- R527: a write of `DBG_RVAL`. g0 reads 0 always (R105), and an instruction address is aligned to a word. -/
def dbgPut (v : Nat) (s : State) : State :=
  let x := dbgPair s
  let h := stagH s x
  let r := dbgSel s
  if r = 0 then s
  else if r < 32 then setStagH x { h with g := h.g.set r (BitVec.ofNat 32 v) } s
  else if r < 64 then setStagH x { h with f := h.f.set (r - 32) (BitVec.ofNat 32 v) } s
  else if r = 64 then setStagH x { h with pc := v % 2 ^ 32 / 4 * 4 } s
  else s

/-! ## The page -/

/-- R525 to R527, R532: the checks of a write to `DEBUG`. -/
def debugChk (acc : Access) (s : State) (o v : Nat) (_ _new : Nat) : Option Reason :=
  if o = 0x08 then
    firstReason [(cmdBit v 0 && devState s != .held, .devstate),
      (cmdBit v 0 && (rbit s pDEBUG 0x40 0 || fld s pDEBUG 0x40 2 2 == 3), .state)]
  else if o = 0x44 then
    (let cmd := bits v 0 8
     let t := bits v 8 3
     firstReason [(cmd == 0 || decide (3 < cmd) || ! haltTarget cmd t, .value),
       (s.variant != .h12d && devState s != .held && devState s != .ready, .devstate),
       (! rbit s pDEBUG 0x40 0 || ! haltStateOk s cmd t, .state), (acc.master != .debug, .conflict)])
  else if o = 0x5C then firstReason [(pairStat s (dbgPair s) != 3, .state)]
  else none

/-- A write to a register of `DEBUG`. -/
def debugWrite (acc : Access) (o v : Nat) (s : State) : State :=
  busStore acc pDEBUG o v (debugChk acc s o v)
    (fun s' =>
      if o = 0x08 then (if cmdBit v 0 then authenticate s' else s')
      else if o = 0x44 then haltCommand (bits v 0 8) (bits v 8 3) s'
      else if o = 0x5C then setRg pDEBUG 0x5C 0 (dbgPut v s')
      else s') s

/-! ## Rows -/

/-- R525: `AUTH`. -/
def execAuth (acc : Access) (s : State) : Host.Outcome State Fault Refusal :=
  .next (onBus acc pDEBUG 0x08 (debugWrite acc 0x08 0x10001) s)

/-- R526: a halt command with target `t`. -/
def execDebugHalt (acc : Access) (t : Fin 8) (s : State) : Host.Outcome State Fault Refusal :=
  .next (onBus acc pDEBUG 0x44 (debugWrite acc 0x44 (1 + 256 * t)) s)

/-- R526: a resume command. -/
def execDebugResume (acc : Access) (t : Fin 8) (s : State) : Host.Outcome State Fault Refusal :=
  .next (onBus acc pDEBUG 0x44 (debugWrite acc 0x44 (2 + 256 * t)) s)

/-- R527: `STEP`: the next instruction of the pair executes, and it halts again. -/
def execDebugStep (acc : Access) (t : Fin 8) (s : State) : Host.Outcome State Fault Refusal :=
  .next (onBus acc pDEBUG 0x44 (debugWrite acc 0x44 (3 + 256 * t)) s)

/-- R527: a write of `DBG_RVAL`. -/
def execDbgRvalWrite (acc : Access) (v : BitVec 32) (s : State) : Host.Outcome State Fault Refusal :=
  .next (onBus acc pDEBUG 0x5C (debugWrite acc 0x5C v.toNat) s)

end Sys2Proof.Machine
end

