-- ==== Sys2Proof/Machine/Hive.lean ====
section
/-! DEFINITION. Hive (R126 to R130): sampling of event lines, routes, pending bits; and the start, abort and end of a DMA channel
(R131, R132). -/
namespace Sys2Proof.Machine

/-! ## DMA channels -/

def dmaH (s : State) (c : Nat) : DmaCh := nth s.dma c {}
def setDmaH (c : Nat) (h : DmaCh) (s : State) : State := { s with dma := s.dma.set c h }

/-- R130: the offset of a register of channel `c`. -/
def dmaOff (c o : Nat) : Nat := 0x800 + 0x20 * c + o

/-- R130: `DMA_STAT_c.BUSY`. -/
def dmaBusy (s : State) (c : Nat) : Bool := rbit s pHIVE (dmaOff c 0x10) 0

/-- R130, R132: a channel starts with the words, addresses and steps its registers hold. -/
def dmaStart (c : Nat) (s : State) : State :=
  setRg pHIVE (dmaOff c 0x10) (1 + 2 ^ 16 * fld s pHIVE (dmaOff c 8) 0 16)
    (setDmaH c { src := rg s pHIVE (dmaOff c 0), dst := rg s pHIVE (dmaOff c 4) } s)

/-- R132: an `ABORT` stops a busy channel; it sets neither `DONE` nor `ERR`. -/
def dmaAbort (c : Nat) (s : State) : State :=
  if dmaBusy s c then setBit pHIVE (dmaOff c 0x10) 0 false s else s

/-- R131: an error of cause `cause` stops the channel. -/
def dmaFail (c cause : Nat) (s : State) : State :=
  flag pHIVE 1 (setFld pHIVE (dmaOff c 0x10) 0 8 (4 + 16 * cause) s)

/-- R131: the transfer is complete. -/
def dmaDone (c : Nat) (s : State) : State :=
  flagIf (rbit s pHIVE (dmaOff c 0xC) 9) pHIVE 0 (setFld pHIVE (dmaOff c 0x10) 0 8 2 s)

/-- R132: a Hive start of channel `c`, where `HWTRIG` enables it. One that finds the channel busy is refused, with master 0. -/
def dmaHiveStart (c : Nat) (s : State) : State :=
  if ¬ rbit s pHIVE (dmaOff c 0xC) 8 then s
  else if dmaBusy s c then refuse internalAcc pHIVE (dmaOff c 0xC) 1 .state s
  else dmaStart c s

/-! ## Routes and pending bits -/

/-- R126: the events that no page header forwards. -/
def routedByHive (n : Nat) : Bool := n == 8 || (decide (246 ≤ n) && decide (n ≤ 250))

/-- R127: the word that holds `PRIO`, `DEST` and `ENG` of event `n` from page `p`. -/
def routeWord (s : State) (n p : Nat) : Nat :=
  let r := rg s pHIVE (0x400 + 4 * n)
  if bit r 31 || routedByHive n then r else rg s p 0x1C

/-- R128: is event `n` pending at pair `x`? -/
def pendBit (s : State) (x n : Nat) : Bool := rbit s pHIVE (0x40 + 0x20 * x + 4 * (n / 32)) (n % 32)
def setPend (x n : Nat) (b : Bool) (s : State) : State := setBit pHIVE (0x40 + 0x20 * x + 4 * (n / 32)) (n % 32) b s

/-- R128, R129: an edge of event `n` in tick `at_` with priority `prio` reaches pair `x`. -/
def hiveLatch (x n at_ prio : Nat) (s : State) : State :=
  if pendBit s x n then setBit pHIVE (0x80 + 4 * (n / 32)) (n % 32) true s
  else setPend x n true { s with hive := { s.hive with edges := s.hive.edges ++ [(x, n, at_, prio)] } }

/-- R77, R128: an edge of event `n` of page `p` in tick `at_` reaches the destination of its route. -/
def hiveDeliver (n p at_ : Nat) (s : State) : State :=
  let r := routeWord s n p
  match bits r 4 3 with
  | 1 => hiveLatch 0 n at_ (bits r 0 4) s
  | 2 => hiveLatch 1 n at_ (bits r 0 4) s
  | 3 => hiveLatch 1 n at_ (bits r 0 4) (hiveLatch 0 n at_ (bits r 0 4) s)
  | 4 => mtRequest (bits r 8 2) 9 s.tick s
  | 5 => dmaHiveStart (fld s pHIVE (0x400 + 4 * n) 12 3) s
  | 6 => bwSeen [15] 16 true (streamRecord [0xEE000000 + n, at_ % 2 ^ 32, at_ / 2 ^ 32 % 2 ^ 32, 0] s)
  | _ => s

/-- R127, R128: Hive samples the line of event `n` as page `p` drives it. -/
def hiveSample (n p : Nat) (s : State) : State :=
  let h := s.hive
  match h.pulses.find? (fun e => e.1 == n && e.2.1 == p && decide (e.2.2 ≤ s.tick)) with
  | some e => hiveDeliver n p e.2.2 { s with hive := { h with pulses := h.pulses.erase e } }
  | none =>
    let q := if n = 8 then 0 else p
    let on := if n = 8 then e008Asserted s else lineAsserted s n p
    if on ∧ ¬ h.seen.contains (n, q) then hiveDeliver n p s.tick { s with hive := { h with seen := h.seen ++ [(n, q)] } } else s

/-- R127, R128: a rising edge of event `n` of page `p`. -/
def execHiveEventEdge (n : Fin 256) (p : Fin 256) (s : State) : Host.Outcome State Fault Refusal :=
  .next (if powered s then hiveSample n p s else s)

/-! ## The page -/

/-- R127, R130, R132: the checks of a write to `HIVE`. -/
def hiveChk (s : State) (o v : Nat) (_ new : Nat) : Option Reason :=
  if 0x400 ≤ o ∧ o < 0x800 then firstReason [(bits new 4 3 == 7, .value)]
  else if 0x800 ≤ o ∧ o < 0x900 then
    (let c := (o - 0x800) / 0x20
     let d := o % 0x20
     if d < 0xC then firstReason [(d == 8 && new == 0, .value), (dmaBusy s c, .state)]
     else if d = 0xC then
       firstReason [(decide (1 < bits new 2 2) || decide (1 < bits new 4 2), .value), (cmdBit v 0 && dmaBusy s c, .state)]
     else none)
  else none

/-- What a write to `HIVE` brings. -/
def hiveEff (o v : Nat) (s : State) : State :=
  if 0x40 ≤ o ∧ o < 0x80 then
    { s with hive := { s.hive with edges := s.hive.edges.filter (fun e => pendBit s e.1 e.2.1) } }
  else if 0x800 ≤ o ∧ o < 0x900 ∧ o % 0x20 = 0xC then
    (let c := (o - 0x800) / 0x20
     let s1 := if cmdBit v 1 then dmaAbort c s else s
     if cmdBit v 0 then dmaStart c s1 else s1)
  else s

/-- A write to a register of `HIVE`. -/
def hiveWrite (acc : Access) (o v : Nat) (s : State) : State := busStore acc pHIVE o v (hiveChk s o v) (hiveEff o v) s

/-- R132: a `START` of channel `c`. -/
def execDmaStart (acc : Access) (c : Fin 8) (s : State) : Host.Outcome State Fault Refusal :=
  .next (onBus acc pHIVE (dmaOff c 0xC) (hiveWrite acc (dmaOff c 0xC) 0x10001) s)

/-- R132: an `ABORT` of channel `c`. -/
def execDmaAbort (acc : Access) (c : Fin 8) (s : State) : Host.Outcome State Fault Refusal :=
  .next (onBus acc pHIVE (dmaOff c 0xC) (hiveWrite acc (dmaOff c 0xC) 0x20002) s)

end Sys2Proof.Machine
end

