-- ==== Sys2Proof/Machine/Startup.lean ====
section
/-! DEFINITION. Start-up and the commands of the device state machine (R15 to R17, R59, R64 to R66, R89 to R104, R552, R554, R555):
the `SYS`, `SUPPLY`, `BOOT` and `COCOON` pages, restore, and the transition from HELD to READY. -/
namespace Sys2Proof.Machine

/-! ## Profiles (R15 to R17) -/

/-- R17, R184, R262, R308, R339, R340: the registers profile `q` loads (false Axle-Standard, true Quad-Wheel), page by page in the
order of R17: page number, and offset and value of each register. -/
def profileTable (q : Bool) : List (Nat × List (Nat × Nat)) :=
  let pick := fun (a b : List Nat) (i : Nat) => nth (if q then b else a) i 0
  let leg := fun (m : Nat) =>
    if q ∧ 3 ≤ m ∧ m < 6 then (0x131, 0x114) else if q ∧ 6 ≤ m ∧ m < 9 then (0x13C, 0x314)
    else if q ∧ 9 ≤ m ∧ m < 12 then (0x13D, 0x714) else (legCfgAxle m, legSafeAxle m)
  (List.range 32).map (fun m => (pLEG m, [(0x44, m), (0x40, (leg m).1), (0x48, (leg m).2)])) ++
  (List.range 8).map (fun n => (pAT n, [(0x40, pick [1, 0x11, 0x45, 6, 3, 0x13, 2, 0] [2, 0x12, 0x45, 0x22, 3, 0x13, 6, 0x32] n)])) ++
  (List.range 4).map (fun e => (pMT e,
    [(0x4C, nth [0x3F, 0xFC0, 0x7F0000, 0xFF000000] e 0), (0x50, if e < 2 then 1 else 2)] ++
    (if e < 2 then [(0x44, pick [0, 0] [0x00040000, 0x00200000] e)] else []))) ++
  (List.range 6).map (fun t => (pIC t,
    [(0x68, pick [0, 0x1100, 0x1111, 0xFFFF, 0xFFFF, 0xFFFF] [0x1000, 0x2211, 0x3332, 0xFFFF, 0xFFFF, 0xFFFF] t)] ++
    (if t = 0 then (List.range 8).map (fun g => (0x200 + 4 * g, pick [0x18, 0x19] [0x18, 0x19, 0x1B, 0x1F] g)) else []))) ++
  [(pADU 2, [(0x40, if q then 0x0026561E else 0x002656DE)])]

/-- R17: the device loads a class K register, an epoch-buffered one in both copies. -/
def profileWord (p o v : Nat) (s : State) : State :=
  let s1 := loadWord (p * 4096 + o) (BitVec.ofNat 32 v) s
  if rg s1 p o = rg s p o ∧ act s1 p o = act s p o then s1 else afterConfigChange p false s1

/-- R17: the registers of one page, or the refusal where the page is locked. -/
def profilePage (e : Nat × List (Nat × Nat)) (s : State) : State :=
  if locked s e.1 then (match e.2 with | (o, v) :: _ => refuse internalAcc e.1 o v .locked s | [] => s)
  else e.2.foldl (fun s r => profileWord e.1 r.1 r.2 s) s

/-- R16: in the transition from HELD to READY. -/
def profileApply (s : State) : State :=
  let prof := fld s pSYS 0x40 0 2
  if fld s pSYS 0x40 4 2 = prof then s
  else
    let t := profileTable (prof == 1)
    let skipped := t.any (fun e => locked s e.1)
    let s1 := t.foldl (fun s e => profilePage e s) s
    afterConfigChange pSYS false (setFld pSYS 0x40 4 2 (if skipped then 3 else prof) s1)

/-! ## HELD to READY (R89, R230, R509) -/

/-- R230: an input is selected for the auto-zero. -/
def azSelected (s : State) (n : Nat) : Bool := if n < 32 then rbit s pCAL 0x58 n else rbit s pCAL 0x5C (n - 32)

/-- R230: the measurement of the selected inputs starts, with the present N; an input that is not enabled is skipped. -/
def azStart (s : State) : State :=
  { s with cal := { s.cal with azN := fld s pCAL 0x40 8 4, az := ((List.range 48).filter (fun n => azSelected s n && sdEn s n)).map (fun n => (n, 0, 0)) } }

/-- R230: every selected input has given its 2^N results, or gives no more. -/
def azReady (s : State) : Bool := s.cal.az.all (fun e => decide (2 ^ s.cal.azN ≤ e.2.2) || ! sdEn s e.1)

/-- R230: the result of one input: within `AUTOZ_LIM` it enters both banks of `OFS`; otherwise it is rejected. -/
def azResult (e : Nat × Int × Nat) (s : State) : State :=
  let n := s.cal.azN
  if e.2.2 < 2 ^ n then s
  else
    let r := rneDiv e.2.1 (2 ^ n)
    let o := calReg e.1
    let ofs := sgn 16 (actFld s pCAL o 0 16)
    if (r - ofs).natAbs ≤ fld s pCAL 0x60 0 16 then
      (let s1 := setFld pCAL (o + 0x800) 0 16 (uns 16 r) (setFld pCAL o 0 16 (uns 16 r) s)
       if rg s1 pCAL o = rg s pCAL o ∧ act s1 pCAL o = act s pCAL o then s1 else afterConfigChange pCAL false s1)
    else
      let was : List Int := match s.nv.led.az.find? (fun x => x.1 == e.1) with | some x => x.2 | none => []
      let keep := s.nv.led.az.filter (fun x => x.1 != e.1)
      flag pCAL 2 (setBit pCAL 0x48 4 true (setLedNv { s.nv.led with az := keep ++ [(e.1, (r :: was).take 3)], azRej := true } s))

/-- R230: the auto-zero ends. An input that is not rejected now has no run of rejections. -/
def azApply (s : State) : State :=
  let s0 := setLedNv { s.nv.led with azRej := false } s
  let s1 := s.cal.az.foldl (fun s e => azResult e s) s0
  let rej := fun (n : Nat) => s.cal.az.any (fun e => e.1 == n &&
    decide (2 ^ s.cal.azN ≤ e.2.2 ∧
      fld s pCAL 0x60 0 16 < (rneDiv e.2.1 (2 ^ s.cal.azN) - sgn 16 (actFld s pCAL (calReg n) 0 16)).natAbs))
  setLedNv { s1.nv.led with az := s1.nv.led.az.filter (fun x => rej x.1) } { s1 with cal := { s1.cal with az := [] } }

/-- The calibration values of R230's last paragraph: `OFS` of the sigma-delta inputs in both banks, and k0. -/
def calValues (s : State) : List Nat :=
  (List.range 48).flatMap (fun n => [rg s pCAL (calReg n), act s pCAL (calReg n), rg s pCAL (0x400 + 8 * n)])

/-- R509, R230, R228: the last steps of the transition, in order; `ok` is the outcome of the plan's slot write. A STORE under way
completes before the automatic one. -/
def readyEnter (ok : Bool) (s : State) : State :=
  let s1 := azApply s
  let s2 := planAdopt ok s1
  let failed := rbit s2 pLEDGER 0x2AC 18 && ! ok
  let s3 := if calValues s2 ≠ calValues s ∧ ¬ failed then calStoreEnd (calStoreStart 2 (calStoreEnd s2)) else s2
  enterState .ready 0 true (calCompare s3)

/-- R230: the transition from HELD to READY ends. -/
def execAutoZeroDone (ok : Bool) (s : State) : Host.Outcome State Fault Refusal :=
  .next (if devState s = .held ∧ s.dev.goReady ∧ azReady s then readyEnter ok s else s)

/-! ## `SYS` -/

/-- R94: a tile counts for RUN. -/
def tileCounts (s : State) (t : Nat) : Bool :=
  pageEn s (pIC t) ||
    (List.range 32).any (fun m => pageEn s (pLEG m) && decide (legPair s m < 32) && pairTile (legPair s m) == t)

/-- R94: Scarab withholds `GEN_S` from a tile that counts. -/
def runUnsafe (s : State) : Bool := (List.range 8).any (fun t => tileCounts s t && ! genSOf s t)

/-- R90: a RESET that was due in the state in which the present tick's first transition began comes before it. -/
def resetFirst (s : State) : Bool :=
  match s.now.trans with
  | some (a, _) => (DevState.ofCode a).shutOk && decide (DevState.rank .boot < (devState s).rank)
  | none => false

/-- R15, R58, R89, R90, R99, R102, R164, R552, R554: the checks of a write to `SYS`. -/
def sysChk (s : State) (o v : Nat) (_ new : Nat) : Option Reason :=
  let d := devState s
  if o = 0x08 then firstReason [(cmdBit v 0 && d != .held, .devstate)]
  else if o = 0x40 then firstReason [(decide (2 ≤ bits new 0 2), .value), (d != .held, .devstate)]
  else if o = 0x48 then
    (match v with
     | 1 => firstReason [(d != .held, .devstate), (! s.dev.goReady && fld s (pSC 0) 0x40 0 3 != 3, .safety)]
     | 2 => firstReason [(d != .ready, .devstate), (runUnsafe s, .safety)]
     | 3 => firstReason [(! d.running, .devstate)]
     | 4 => firstReason [(d != .safe, .devstate), ((safeHolds s).isSome, .state)]
     | 5 => firstReason [(d != .stopping, .devstate)]
     | 0x5A => firstReason [(! (d.shutOk || resetFirst s) || s.dev.brownOut, .devstate)]
     | _ => some .value)
  else if o = 0x68 then firstReason [(decide (bits new 0 16 < 10), .value)]
  else none

/-- R90: a STOP that was due in the state in which the present tick's first transition began comes before DEGRADED. -/
def stopFrom (s : State) : State :=
  match s.now.trans with
  | some (a, c) =>
    if (DevState.ofCode a).running ∧ DevState.rank .stopping < (devState s).rank then unTransit a c s else s
  | none => s

/-- R89, R16, R509: an executed command of `STATE_CMD`. GO_READY starts the transition with the profile and the auto-zero. -/
def stateCommand (v : Nat) (s : State) : State :=
  match v with
  | 1 => if s.dev.goReady then s else azStart (profileApply { s with dev := { s.dev with goReady := true } })
  | 2 => enterState (if degLatch s then .degraded else .run) 0 true s
  | 3 => enterState .stopping 0 true (stopFrom s)
  | 4 => enterHeld true (endDecisions s)
  | 5 => stopComplete s
  | 0x5A => restart 3 true s
  | _ => s

/-- R90: a command of `STATE_CMD`, kept as the cause of the tick's transition. -/
def stateCmd (acc : Access) (v : Nat) (s : State) : State :=
  let t := stateCommand v s
  if devState t = devState s then t
  else { t with now := { t.now with trans := t.now.trans.map (fun x => (x.1, some (acc, v))) } }

/-- A write to a register of `SYS`. -/
def sysWrite (acc : Access) (o v : Nat) (s : State) : State :=
  if o = 0x58 then detClear v s
  else if o = 0x60 then degSetWrite acc v s
  else busStore acc pSYS o v (sysChk s o v) (fun s' =>
    if o = 0x08 then (if cmdBit v 0 then transferPages (armed s) s' else s')
    else if o = 0x48 then stateCmd acc v s'
    else s') s

/-! ## `SUPPLY` -/

/-- R59, R65, R66: the checks of a write to `SUPPLY`. -/
def supplyChk (s : State) (o v : Nat) (old new : Nat) : Option Reason :=
  if o = 0x48 then
    (let set := clrN new old
     let d := devState s
     firstReason [(set != 0 && (d == .boot || d == .selftest || d == .restore), .devstate),
       (set != 0 && (band s == 2 || band s == 3 || band s == 4), .state)])
  else if o = 0x4C then
    firstReason [((List.range 6).any (fun t => bits new (4 * t) 2 == 3 || bits new (4 * t + 2) 2 == 3), .value),
      ((List.range 6).any (fun t => bits new (4 * t) 4 != bits old (4 * t) 4 && rbit s pSUPPLY 0x48 t), .state)]
  else if o = 0x60 then firstReason [(v != 0xA5, .value), (! (devState s).shutOk, .devstate)]
  else none

/-- R62, R66: power good and overload of converters that were stopped; `OVLD` stands until then (log entry 101). -/
def tileStop (off : Nat) (s : State) : State :=
  if off = 0 then s else refreshTiles (setRg pSUPPLY 0x50 (clrN (rg s pSUPPLY 0x50) (off + off % 2 ^ 8 * 2 ^ 16)) s)

/-- A write to a register of `SUPPLY`. -/
def supplyWrite (acc : Access) (o v : Nat) (s : State) : State :=
  busStore acc pSUPPLY o v (supplyChk s o v) (fun s' =>
    if o = 0x48 then tileStop (clrN (rg s pSUPPLY 0x48) (rg s' pSUPPLY 0x48)) s'
    else if o = 0x60 then shutdown s'
    else s') s

/-! ## `BOOT` -/

/-- R97: `TRIAL_ACT`. -/
def trialAct (s : State) : Bool := rbit s pBOOT 0x44 3

/-- R97, R104: the checks of a write to `BOOT`. -/
def bootChk (s : State) (o v : Nat) (_ _new : Nat) : Option Reason :=
  let d := devState s
  if o = 0x54 then
    firstReason [(v != 0x3C && v != 0xC3, .value), (v == 0xC3 && decide (64 < s.dev.imgVer), .value),
      (d != .held && d != .ready, .devstate), (trialAct s != (v == 0x3C), .state)]
  else none

/-- R97: `CONFIRM` makes the trial bank preferred; the trial is over. -/
def confirm (s : State) : State :=
  let b := fld s pBOOT 0x44 0 1
  setBit pBOOT 0x44 3 false (setBootRec b { s with nv := { s.nv with trialRun := false } })

/-- R97: `ADVANCE` raises the rollback counter to the version of the running image. -/
def advance (s : State) : State :=
  let v := if s.nv.rollback < s.dev.imgVer then s.dev.imgVer else s.nv.rollback
  setRg pBOOT 0x48 v { s with nv := { s.nv with rollback := v } }

/-- A write to a register of `BOOT`. `BANK_SEL` is the boot record itself (R104). -/
def bootWrite (acc : Access) (o v : Nat) (s : State) : State :=
  let s := if o = 0x40 then setRg pBOOT 0x40 (bootRec s) s else s
  busStore acc pBOOT o v (bootChk s o v) (fun s' =>
    if o = 0x40 then setBootRec (rg s' pBOOT 0x40) s'
    else if o = 0x54 then (if v = 0x3C then confirm s' else advance s')
    else s') s

/-! ## `COCOON` -/

/-- R101: the checks of a write to `COCOON`. -/
def cocoonChk (s : State) (o v : Nat) (_ _new : Nat) : Option Reason :=
  if o = 0x08 then
    firstReason [(cmdBit v 0 && ! (match devState s with
        | .held | .ready | .run | .degraded | .safe | .latched => true
        | .off | .standby | .boot | .selftest | .restore | .stopping => false), .devstate),
      (cmdBit v 0 && saveBusy s, .state)]
  else none

/-- A write to a register of `COCOON`. -/
def cocoonWrite (acc : Access) (o v : Nat) (s : State) : State :=
  busStore acc pCOCOON o v (cocoonChk s o v) (fun s' => if o = 0x08 ∧ cmdBit v 0 then saveStart 1 s' else s') s

/-! ## RESTORE (R99, R227, R555) -/

/-- R99: the record of page `p` in an image, where its `PAGE_ID` matches the page and the CRC of its values equals its `CHECK`. -/
def goodRec (s : State) (img : Image) (p : Nat) : Option PageRec :=
  (img.recs.find? (fun r => r.page == p)).filter (fun r => r.id == rg s p 0 && checkNow (loadPage p r.values s) p == r.check)

/-- R79, R99: a page takes the values of its record; without one, its factory values and `FACT`. -/
def restorePage (r : Option PageRec) (p : Nat) (s : State) : State :=
  let s1 := match r with | some r => loadPage p r.values (setBit p 0x0C 12 false s) | none => setBit p 0x0C 12 true (factoryPage p s)
  if s1.regs = s.regs then s1
  else match r with
    | none | some ⟨_, _, [], _⟩ => { s1 with regs := sdel (p * 4096 + 0x2C) s1.regs }
    | some r => setRg p 0x2C r.check s1

/-- R16, R79, R99, R102: the restore; `bad` names the pages whose record the read of Cocoon finds damaged. -/
def restoreImage (bad : List Nat) (s : State) : State :=
  match newest s.nv with
  | none =>
    let s1 := restorePages.foldl (fun s p => restorePage none p s) s
    flag pSYS 0 (setRg pSYS 0x50 0xC0000000 s1)
  | some (slot, img) =>
    let rec_ := fun p => if bad.contains p then none else goodRec s img p
    let failed := restorePages.filter (fun p => (rec_ p).isNone)
    let s1 := restorePages.foldl (fun s p => restorePage (rec_ p) p s) s
    let s2 := if failed.contains 0 ∧ failed.length < restorePages.length then afterConfigChange pSYS false (setFld pSYS 0x40 4 2 3 s1) else s1
    match failed with
    | [] => setRg pSYS 0x50 (slot * 2 ^ 24) s2
    | f :: _ => flag pSYS 0 (setRg pSYS 0x50 (2 ^ 31 + slot * 2 ^ 24 + satN 255 failed.length * 2 ^ 16 + f) s2)

/-- R227, R228: the calibration after RESTORE. -/
def calRestore (s : State) : State :=
  if rbit s pCAL 0x0C 12 ∧ (newestCal s).isSome then setBit pCAL 0x48 2 true (calRecall s) else calCompare (calShow s)

/-- R555: the enable fields of class K in `PAGE_CTRL`: the pages of each block, the enables, and the write that sets one. -/
def enablePages : List (Nat × Nat × (Nat → State → State)) :=
  [(pBWMON, 1, bwWrite internalAcc 8), (pLEDGER, 9, ledgerWrite internalAcc 8)] ++
  (List.range 8).map (fun n => (pAT n, 1, atWrite internalAcc n 8)) ++
  (List.range 6).map (fun g => (pSDG g, 1, sdgWrite internalAcc g 8)) ++
  (List.range 4).map (fun n => (pSAR n, 3, sarWrite internalAcc n 8)) ++
  (List.range 2).map (fun r => (pRSV r, 1, rsvWrite internalAcc r 8)) ++
  [(pENC, 0x3FFF, encWrite internalAcc 8), (pHVS, 0xFF, hvsWrite internalAcc 8)] ++
  (List.range 4).map (fun e => (pMT e, 1, mtWrite internalAcc e 8)) ++
  [(pMTS, 1, mtsWrite internalAcc 8), (pPILOT, 1, pilotWrite internalAcc 8)]

/-- R555: one enable that reads 1 is acted on as a write that sets it; a refused write leaves it 0. The page's check value and
`CHKB` are those of the restored values, but for an enable that stays 0 (R79). -/
def enableRestart (p i : Nat) (w : Nat → State → State) (s : State) : State :=
  if ¬ rbit s p 0x08 i then s
  else
    let t := w (2 ^ (16 + i) + 2 ^ i) (setBit p 0x08 i false s)
    setBit p 0x0C 11 (rbit s p 0x0C 11 || ! rbit t p 0x08 i) t

/-- R555: in the tick in which the device enters HELD. -/
def enablesRestart (s : State) : State :=
  forRange 2 (fun x s => if rbit s (pANT x) 0xE0 0 then tagSeed x s else s)
    (enablePages.foldl (fun s e => forRange 16 (fun i s => if bit e.2.1 i then enableRestart e.1 i e.2.2 s else s) s) s)

/-- R365, R411: a unit whose FAULT a restart of the main die has kept holds its legs, which the restored registers name, off. -/
def faultsHold (s : State) : State :=
  forRange 3 (fun u s => if aduState s u = aduFAULT then aduOverrides u s else s)
    (forRange 2 (fun i s => if dfState s i = dfFAULT then dfOverrides i s else s) s)

/-- R99: RESTORE is complete. -/
def restoreComplete (bad : List Nat) (s : State) : State :=
  if devState s ≠ .restore then s
  else enablesRestart (enterHeld false (faultsHold (forRange 2 mpuLoad (mtsTransferred s (calRestore (restoreImage bad s))))))

/-! ## Rows -/

/-- R99: the restore of class K is complete; the records of the pages `bad` fail. -/
def execRestoreComplete (bad : List (Fin 256)) (s : State) : Host.Outcome State Fault Refusal :=
  .next (restoreComplete (bad.map (fun p => (p : Nat))) s)

/-- R15: a write of `SYS:PROFILE`. -/
def execProfileWrite (acc : Access) (v : BitVec 32) (s : State) : Host.Outcome State Fault Refusal :=
  .next (onBus acc pSYS 0x40 (sysWrite acc 0x40 v.toNat) s)

/-- R89: `STATE_CMD` GO_READY. -/
def execGoReady (acc : Access) (s : State) : Host.Outcome State Fault Refusal := .next (onBus acc pSYS 0x48 (sysWrite acc 0x48 1) s)

/-- R89: `STATE_CMD` RUN. -/
def execRun (acc : Access) (s : State) : Host.Outcome State Fault Refusal := .next (onBus acc pSYS 0x48 (sysWrite acc 0x48 2) s)

/-- R89: `STATE_CMD` STOP. -/
def execStop (acc : Access) (s : State) : Host.Outcome State Fault Refusal := .next (onBus acc pSYS 0x48 (sysWrite acc 0x48 3) s)

/-- R89, R537: `STATE_CMD` ACK. -/
def execAck (acc : Access) (s : State) : Host.Outcome State Fault Refusal := .next (onBus acc pSYS 0x48 (sysWrite acc 0x48 4) s)

/-- R554: `STATE_CMD` STOP_DONE. -/
def execStopDone (acc : Access) (s : State) : Host.Outcome State Fault Refusal := .next (onBus acc pSYS 0x48 (sysWrite acc 0x48 5) s)

/-- R89: `STATE_CMD` RESET. -/
def execReset (acc : Access) (s : State) : Host.Outcome State Fault Refusal := .next (onBus acc pSYS 0x48 (sysWrite acc 0x48 0x5A) s)

/-- R552: `PRIME`. -/
def execPrime (acc : Access) (s : State) : Host.Outcome State Fault Refusal := .next (onBus acc pSYS 0x08 (sysWrite acc 0x08 0x10001) s)

/-- R164: a W1C write of `DET_STAT`. -/
def execDetStatClear (acc : Access) (v : BitVec 32) (s : State) : Host.Outcome State Fault Refusal :=
  .next (onBus acc pSYS 0x58 (sysWrite acc 0x58 v.toNat) s)

/-- R59: a write of `SUPPLY:SHUTDOWN`. -/
def execShutdown (acc : Access) (v : BitVec 32) (s : State) : Host.Outcome State Fault Refusal :=
  .next (onBus acc pSUPPLY 0x60 (supplyWrite acc 0x60 v.toNat) s)

/-- R65: a write of `SUPPLY:TILE_RAIL`. -/
def execTileRailWrite (acc : Access) (v : BitVec 32) (s : State) : Host.Outcome State Fault Refusal :=
  .next (onBus acc pSUPPLY 0x4C (supplyWrite acc 0x4C v.toNat) s)

/-- R66: a masked write of `SUPPLY:TILE_EN`. -/
def execTileEnWrite (acc : Access) (v : BitVec 32) (s : State) : Host.Outcome State Fault Refusal :=
  .next (onBus acc pSUPPLY 0x48 (supplyWrite acc 0x48 v.toNat) s)

/-- R64: a read of `VIN_MEAS` restarts the lowest value. -/
def vinRestart (s : State) : State := setFld pSUPPLY 0x40 16 16 (fld s pSUPPLY 0x40 0 16) s

/-- R64: a read of `VIN_MEAS`. -/
def execVinMeasRead (acc : Access) (s : State) : Host.Outcome State Fault Refusal :=
  .next (onBusRead acc pSUPPLY 0x40 (fun s => rg s pSUPPLY 0x40) vinRestart s)

/-- R97: `BOOT:CMD` CONFIRM. -/
def execConfirm (acc : Access) (s : State) : Host.Outcome State Fault Refusal :=
  .next (onBus acc pBOOT 0x54 (bootWrite acc 0x54 0x3C) s)

/-- R97: `BOOT:CMD` ADVANCE. -/
def execAdvance (acc : Access) (s : State) : Host.Outcome State Fault Refusal :=
  .next (onBus acc pBOOT 0x54 (bootWrite acc 0x54 0xC3) s)

/-- R104: a write of `BOOT:BANK_SEL`. -/
def execBankSelWrite (acc : Access) (v : BitVec 32) (s : State) : Host.Outcome State Fault Refusal :=
  .next (onBus acc pBOOT 0x40 (bootWrite acc 0x40 v.toNat) s)

/-- R101: `COCOON:PAGE_CTRL.SAVE`. -/
def execSave (acc : Access) (s : State) : Host.Outcome State Fault Refusal :=
  .next (onBus acc pCOCOON 0x08 (cocoonWrite acc 0x08 0x10001) s)

end Sys2Proof.Machine
end

