-- ==== Sys2Proof/Machine/Bus.lean ====
section
/-! DEFINITION. The bus (R67 to R87, R122 to R125): the common header, writes and reads of every register page, and the accesses of
every master to the memories of the address map. -/
namespace Sys2Proof.Machine

/-! ## The common header (R72 to R83) -/

/-- R107, R122: is the access made by Queen of a Stag pair? -/
def isQueen (acc : Access) : Bool := (acc.master == .stagA || acc.master == .stagB) && acc.caste == .queen

/-- R75, R76, R129: a W1C write of `EVT_FLAGS`; a flag that hardware has set in the same tick remains 1. -/
def evtClear (p v : Nat) (s : State) : State := forgetLines p (setRg p 0x10 (clrN (rg s p 0x10) (clrN v (flagsNow s p))) s)

/-- R76: a write of `EVT_SET` sets flags as hardware would; reserved flags are not set. -/
def evtSet (k : PageKind) (p v : Nat) (s : State) : State :=
  let m := v &&& (flagMask k + 2 ^ 31)
  let n := (List.range 32).foldl (fun n i => if bit m i then noteFlag p i n else n) s.now
  setRg p 0x10 (orN (rg s p 0x10) m) { s with now := n }

/-- R86: a write of `REJECT`; a refusal of the same tick is recorded, with `OVR` 0. -/
def rejectClear (p v : Nat) (s : State) : State :=
  if ¬ bit v 31 then s else if s.now.rej.contains p then setBit p 0x20 12 false s else setRg p 0x20 0 s

/-- R78: a write of `LOCK`. -/
def lockWrite (acc : Access) (p v : Nat) (s : State) : State :=
  if bit v 0 then setBit p 0x24 0 true s
  else if ¬ locked s p then s
  else if isQueen acc ∧ v / 2 ^ 16 = 0x51A6 then setBit p 0x24 0 false s
  else refuse acc p 0x24 v .locked s

/-- R81, R175, R218, R226, R278: the checks of a write to `EPOCH`. -/
def epochChk (s : State) (k : PageKind) (p v : Nat) (_ _new : Nat) : Option Reason :=
  let arm := bit v 16
  let bad := match k with
    | .slots => slotsBad s p
    | .sets => setsBad s
    | .mtshared => mtsBad s
    | _ => false
  firstReason [(arm && (bit v 17 || bad), .value), (arm && k == .cal && blockState s pCAL == 1, .state)]

/-- R81, R83, R140: `ARM` and `DISARM`. -/
def epochEff (p v : Nat) (s : State) : State :=
  if bit v 16 ∧ armed s p then
    (if s.armNow.contains p ∨ s.now.rearm.contains p then s else { s with now := { s.now with rearm := p :: s.now.rearm } })
  else if bit v 16 then
    noteLate p (setBit p 0x28 18 true { s with armNow := s.armNow ++ [p] })
  else if bit v 17 ∧ armed s p then
    dropLate p (setBit p 0x28 18 false { s with
      disNow := if s.armNow.contains p ∨ isLate s p then s.disNow else s.disNow ++ [p]
      armNow := s.armNow.filter (· != p)
      now := { s.now with rearm := s.now.rearm.filter (· != p) } })
  else s

/-- R81: a write of `EPOCH` of page `p`, instance `i` of its block. -/
def epochWrite (acc : Access) (k : PageKind) (i p v : Nat) (s : State) : State :=
  busStore acc p 0x28 v (epochChk s k (if k = .slots then i else p) v) (epochEff p v) s

/-- R72: a write to the common header, `PAGE_CTRL` left out. -/
def headerWrite (acc : Access) (k : PageKind) (i p o v : Nat) (s : State) : State :=
  if o = 0x10 then evtClear p v s
  else if o = 0x14 then busStore acc p o v noChk (dropFallen p) s
  else if o = 0x18 then evtSet k p v s
  else if o = 0x1C then busStore acc p o v (fun _ new => firstReason [(bits new 4 3 == 7, .value)]) id s
  else if o = 0x20 then rejectClear p v s
  else if o = 0x24 then lockWrite acc p v s
  else if o = 0x28 then epochWrite acc k i p v s
  else s

/-! ## `PACT` (R123 to R125) -/

/-- R124: is entry `p` fixed? -/
def pactFixed (p : Nat) : Bool := p == 5 || (decide (0xC0 ≤ p) && decide (p < 0xC8))

/-- R124: the checks of a write to `PACT`. -/
def pactChk (o : Nat) (_ _new : Nat) : Option Reason :=
  if 0x400 ≤ o ∧ o < 0x800 then firstReason [(pactFixed ((o - 0x400) / 4), .value)] else none

/-- R5, R125: a write to a register of `PACT`. A W1C write of `VIOL` clears the bits written; with `VALID` it clears the count. -/
def pactWrite (acc : Access) (o v : Nat) (s : State) : State :=
  if o = 0x40 then
    (let s1 := setRg pPACT 0x40 (clrN (rg s pPACT 0x40) v) s
     if bit v 31 then setRg pPACT 0x44 0 s1 else s1)
  else busStore acc pPACT o v (pactChk o) id s

/-! ## Page writes -/

/-- R69, R87: a write of `v` to the register at offset `o` of page `p`, which has passed PACT. -/
def pageWrite (acc : Access) (p o v : Nat) (s : State) : State :=
  match pageOf p with
  | none => s
  | some (k, i) =>
    if k = .scarab then s
    else if o < 0x40 ∧ o ≠ 0x08 then headerWrite acc k i p o v s
    else match k with
      | .sys => sysWrite acc o v s
      | .clk => busStore acc p o v noChk id s
      | .supply => supplyWrite acc o v s
      | .boot => bootWrite acc o v s
      | .cocoon => cocoonWrite acc o v s
      | .pact => pactWrite acc o v s
      | .hive => hiveWrite acc o v s
      | .debug => debugWrite acc o v s
      | .antline => antWrite acc i o v s
      | .bwmon => bwWrite acc o v s
      | .ledger => ledgerWrite acc o v s
      | .spare => spareWrite acc o v s
      | .stag => stagWrite acc i o v s
      | .checker => checkerWrite acc o v s
      | .memctl => memctlWrite acc o v s
      | .at => atWrite acc i o v s
      | .slots => slotsWrite acc i o v s
      | .sdg => sdgWrite acc i o v s
      | .sar => sarWrite acc i o v s
      | .rsv => rsvWrite acc i o v s
      | .enc => encWrite acc o v s
      | .hvs => hvsWrite acc o v s
      | .sets => setsWrite acc o v s
      | .cal => calWrite acc o v s
      | .mt => mtWrite acc i o v s
      | .mtshared => mtsWrite acc o v s
      | .car => carWrite acc i o v s
      | .ffleg => legWrite acc i o v s
      | .ic => icWrite acc i o v s
      | .brake => brakeWrite acc o v s
      | .df => dfWrite acc i o v s
      | .hb => hbWrite acc o v s
      | .pilot => pilotWrite acc o v s
      | .adu => aduWrite acc i o v s
      | .kd => kdWrite acc i o v s
      | .eth => ethWrite acc o v s
      | .ptp => ptpWrite acc o v s
      | .scarab => s
      | .safelink => safelinkWrite acc o v s

/-! ## Page reads -/

/-- R261: the views of an engine's registers. -/
def mtView (s : State) (e o : Nat) : Nat :=
  let h := mtH s e
  if 0x400 ≤ o ∧ o < 0x600 then
    (let r := nth h.vr ((o - 0x400) / 0x20) []
     let w := o % 0x20 / 4
     uns 16 (nth r (2 * w) 0) + 2 ^ 16 * uns 16 (nth r (2 * w + 1) 0))
  else if 0x600 ≤ o ∧ o < 0x680 then
    (let a := nth h.acc ((o - 0x600) / 8) 0
     if o % 8 = 0 then uns 32 a else uns 32 (a / 2 ^ 32))
  else if 0x680 ≤ o ∧ o < 0x6C0 then nth h.duty ((o - 0x680) / 4) 0
  else if o = 0x88 then shownPc s e
  else rg s (pMT e) o

/-- R478, R495: what the windows of Scarab show beside their stored fields. -/
def scView (s : State) (i o : Nat) : Nat :=
  let w := rg s (pSC i) o
  if i = 0 ∧ o = 0x40 then putBits (putBits w 16 1 (b2n s.sc.bad.isNone)) 17 1 (b2n (! s.dev.vsafeLow))
  else if i = 0 ∧ o = 0x44 then putBits w 16 8 ((List.range 8).foldl (fun a t => a + b2n (genP s t) * 2 ^ t) 0)
  else if i = 7 ∧ o = 0x44 then s.nv.commCrc
  else if i = 7 ∧ o = 0x54 then
    s.nv.commCnt % 2 ^ 16 + 2 ^ 16 * b2n (slotSet s 0).isSome + 2 ^ 17 * b2n (slotSet s 1).isSome + 2 ^ 18 * s.sc.slot
  else w

/-- R320: `OVLD_A_c`; without tracking, and on a channel whose `SCR_K_c` is 0, the effective code is that of `PROT_c`. -/
def icView (s : State) (i o : Nat) : Nat :=
  let p := pIC i
  if i < 6 ∧ 0x100 ≤ o ∧ o < 0x180 ∧ o % 16 = 8 ∧
      (¬ rbit s p (o - 8) 25 ∨ rg s pCAL (0x580 + 4 * (8 * i + (o - 0x100) / 16)) = 0) then
    putBits (rg s p o) 16 8 (fld s p (o - 8) 16 8)
  else rg s p o

/-- R212: `PAGE_STATE.STATE` of a sense page; none on the other pages, which hold their code. -/
def senseState (s : State) (k : PageKind) (p : Nat) : Option Nat :=
  match k with
  | .sdg => some (if ¬ pageEn s p then 0 else if rg s p 0x50 = 0 then 1 else 2)
  | .sar => some (if ¬ pageEn s p then 0 else if rbit s p 0x08 1 then 2 else 1)
  | .rsv => some (if ¬ pageEn s p then 0 else if rg s p 0x4C = 0 then 1 else 2)
  | .hvs => some (if rg s p 0x80 = 0 then 1 else 2)
  | .enc => some (if fld s p 0x08 0 14 = 0 then 0 else if rg s p 0xD0 = 0 then 1 else 2)
  | .sets => some (
      if (List.range 8).any (fun n => rbit s p (0x114 + 0x20 * n) 0) then 2
      else if (List.range 8).any (fun n => bit (act s p (0x100 + 0x20 * n)) 0) then 1 else 0)
  | .sys | .clk | .supply | .boot | .cocoon | .pact | .hive | .debug | .antline | .bwmon | .ledger | .spare | .stag | .checker
  | .memctl | .at | .slots | .cal | .mt | .mtshared | .car | .ffleg | .ic | .brake | .df | .hb | .pilot | .adu | .kd | .eth | .ptp
  | .scarab | .safelink => none

/-- R74: `PAGE_STATE`, with the mirrors of `ARMED` and `LCK`. -/
def stateView (s : State) (k : PageKind) (p : Nat) : Nat :=
  let w := putBits (putBits (rg s p 0x0C) 9 1 (b2n (armed s p))) 10 1 (b2n (locked s p))
  match senseState s k p with
  | some c => putBits w 0 8 c
  | none => w

/-- The value that a read of the register at offset `o` of page `p` returns. -/
def pageView (s : State) (p o : Nat) : Nat :=
  match pageOf p with
  | none => 0
  | some (k, i) =>
    if o = 0x0C then stateView s k p
    else match k with
      | .sys => if o = 0x5C then degCond s else rg s p o
      | .boot => if o = 0x40 then bootRec s else rg s p o
      | .supply => if o = 0x5C then freeNow s % 2 ^ 16 else rg s p o
      | .debug => if o = 0x5C then dbgRead s else rg s p o
      | .antline => match (List.range 9).find? (fun n => antLowOff n == o) with
          | some n => antLow s i n
          | none => rg s p o
      | .at => if o = 0x200 then angleNow s i else rg s p o
      | .mt => mtView s i o
      | .ic => icView s i o
      | .adu => if i = 2 ∧ o = 0x208 then putBits (rg s p o) 2 1 (b2n (rbit s (pSC 0) 0x40 18)) else rg s p o
      | .ptp => if o = 0x48 then s.eth.ptpN / 2 ^ 32 else rg s p o
      | .scarab => scView s i o
      | .df => dfView s i o
      | .ledger => ledView s o
      | .clk | .cocoon | .pact | .hive | .bwmon | .spare | .stag | .checker | .memctl | .slots | .sdg | .sar
      | .rsv | .enc | .hvs | .sets | .cal | .mtshared | .car | .ffleg | .brake | .hb | .pilot | .kd | .eth
      | .safelink => rg s p o

/-- R163: a read by a Stag pair or DMA of an engine's state memory or register views while the engine runs. -/
def liveRead (acc : Access) (e : Nat) (s : State) : State :=
  if (acc.master = .stagA ∨ acc.master = .stagB ∨ acc.master = .dma) ∧ mtState s e = mtRUN then detBreach 2 (pMT e) s else s

/-- What a read of the register at offset `o` of page `p` brings. -/
def pageReadEff (acc : Access) (p o : Nat) (s : State) : State :=
  match pageOf p with
  | some (.at, n) => if o = 0x200 then posLatch n s else s
  | some (.rsv, r) => if o = 0x50 then angleLatch r s else s
  | some (.enc, _) => if 0xB0 ≤ o ∧ o < 0xC0 then setBit pENC o 31 false s else s
  | some (.supply, _) => if o = 0x40 then vinRestart s else if o = 0x5C then freeStep s else s
  | some (.ptp, _) => if o = 0x48 then ptpLatch s else s
  | some (.antline, x) => match (List.range 9).find? (fun n => antLowOff n == o) with
      | some n => antLatch x n s
      | none => s
  | some (.mt, e) => if 0x400 ≤ o ∧ o < 0x6C0 then liveRead acc e s else s
  | some _ | none => s

/-! ## The address map (R67, R68) -/

/-- The ranges of R67. -/
inductive Region where
  | rom | flash | tcm | sram | cocoon | mantis | page | capture | none
  deriving DecidableEq, Repr

/-- R67: the range an address lies in. -/
def regionOf (a : Nat) : Region :=
  if a < 0x10000 then .rom
  else if 0x08000000 ≤ a ∧ a < 0x08800000 then .flash
  else if 0x10000000 ≤ a ∧ a < 0x10020000 then .tcm
  else if 0x20000000 ≤ a ∧ a < 0x20200000 then .sram
  else if 0x28000000 ≤ a ∧ a < 0x28080000 then .cocoon
  else if 0x30000000 ≤ a ∧ a < 0x30080000 then .mantis
  else if 0x40000000 ≤ a ∧ a < 0x40100000 then .page
  else if 0x50000000 ≤ a ∧ a < 0x50040000 then .capture
  else .none

/-- The pair that makes an access, if one does. -/
def accPair (acc : Access) : Option Nat :=
  match acc.master with
  | .stagA => some 0
  | .stagB => some 1
  | .internal | .mantis | .dma | .eth | .debug | .lsp => none

/-- R30, R31, R67, R88: is the access answered with a bus error before any page check? -/
def busRefuses (s : State) (acc : Access) (a n : Nat) (wr : Bool) : Bool :=
  ! powered s || (acc.master == .debug && ! rbit s pDEBUG 0x40 0 && a != 0x40007044) || (acc.master == .lsp && ! s.dev.svc) ||
    a % n != 0 ||
    (match regionOf a with
     | .none => true
     | .rom | .flash => wr
     | .tcm => (accPair acc).isNone
     | .cocoon => decide (a < 0x28040000)
     | .page | .sram | .mantis | .capture => false)

/-- The place in the model's memory of an address that is not in the pages or windows. -/
def memPlace (acc : Access) (a : Nat) : Nat :=
  match regionOf a, accPair acc with
  | .tcm, some x => tcmBase x + (a - 0x10000000)
  | _, _ => a

/-- R68: the value and effect of a read in the window of an engine. -/
def windowRead (acc : Access) (e off n : Nat) (s : State) : State :=
  let v := if off < 0x10800 then mread s.mem (mtBase e + off) n else 0
  let s1 := if 0x10000 ≤ off ∧ off < 0x10800 then liveRead acc e s else s
  { s1 with reply := ⟨v, false⟩ }

/-- R142, R145: the memory of `ERR_LOG` that an address lies in, where it is one with check bits. -/
def eccMemory (acc : Access) (a : Nat) : Option Nat :=
  match regionOf a with
  | .sram => some 0
  | .tcm => (accPair acc).map (1 + ·)
  | .flash => some 3
  | .mantis => if a % 0x20000 < 0x10800 then some 4 else none
  | .capture => some 5
  | .rom | .cocoon | .page | .none => none

/-- R145: the finder code of a master; the debug port and the local service path have none, and the code is then free
(log entry 95). -/
def finderOf (acc : Access) (s : State) : Nat :=
  match acc.master with
  | .stagA => 1 | .stagB => 2 | .mantis => 3 | .dma => 4 | .eth => 5
  | .internal | .debug | .lsp => freeNow s % 8

/-- R143: the masters whose accesses bring no outcome of their own: what they meet is what stands in the memory. -/
def meetsUpsets (acc : Access) : Bool := acc.master == .eth || acc.master == .debug || acc.master == .lsp

/-- R143: the check bits a master meets as it reads (`wr` false) or writes the word at `a`. -/
def busEcc (acc : Access) (a : Nat) (wr : Bool) (s : State) : State :=
  match eccMemory acc a with
  | some m => if wr then eccWrite m (finderOf acc s) a (memPlace acc a) .good s else eccRead m (finderOf acc s) a (memPlace acc a) .good s
  | none => s

/-- R143: does a master without an outcome of its own meet an uncorrectable word? -/
def busEccBad (acc : Access) (a : Nat) (s : State) : Bool :=
  meetsUpsets acc && (eccMemory acc a).isSome && eccBad (eccMeet s (memPlace acc a) .good)

/-- R522: the ports of a target on the fabric: the TCM is not on it. -/
def regionPort (a : Nat) : List Nat :=
  match regionOf a with
  | .sram => [6] | .flash => [if a < 0x08400000 then 7 else 8] | .cocoon => [9] | .page => [10] | .mantis => [11] | .capture => [12]
  | .rom => [14] | .tcm => [] | .none => []

/-- R118: is the address in a device region by its place in the map? -/
def deviceRegion (a : Nat) : Bool :=
  match regionOf a with
  | .page | .mantis | .capture | .cocoon => true
  | .rom | .flash | .tcm | .sram | .none => false

/-- What the monitors see of an access outside the pages; TCM accesses do not reach the fabric. -/
def tallyAt (acc : Access) (a n : Nat) (wr : Bool) (s : State) : State :=
  if regionOf a = .tcm then s else tally acc (regionPort a) n wr (deviceRegion a) s

/-- R67 to R70: a read of `n` bytes at address `a`, with its answer in `reply`. A byte or halfword access of a register page ends in a
bus error after PACT has granted it (R70, R87, R123). -/
def busRead (acc : Access) (a n : Nat) (s0 : State) : State :=
  if busRefuses s0 acc a n false then busErr s0
  else
  let s := if meetsUpsets acc then busEcc acc a false s0 else s0
  if busEccBad acc a s0 then busErr s
  else match regionOf a with
    | .page =>
      let p := (a - 0x40000000) / 4096
      if n ≠ 4 then (let t := onBusRead acc p (a % 4096) (fun _ => 0) id s; { t with reply := ⟨0, true⟩ })
      else onBusRead acc p (a % 4096) (fun s => pageView s p (a % 4096)) (pageReadEff acc p (a % 4096)) s
    | .mantis => tallyAt acc a n false (windowRead acc ((a - 0x30000000) / 0x20000) (a % 0x20000) n s)
    | .none => busErr s
    | .rom | .flash | .tcm | .sram | .cocoon | .capture =>
      { tallyAt acc a n false s with reply := ⟨mread s.mem (memPlace acc a) n, false⟩ }

/-- R67 to R70: a write of `n` bytes at address `a`. -/
def busWrite (acc : Access) (a n v : Nat) (s0 : State) : State :=
  if busRefuses s0 acc a n true then busErr s0
  else
  let s := if meetsUpsets acc then busEcc acc a true s0 else s0
  if busEccBad acc a s0 then busErr s
  else match regionOf a with
    | .page => if n ≠ 4 then (let t := onBus acc ((a - 0x40000000) / 4096) (a % 4096) id s; { t with reply := ⟨0, true⟩ }) else onBus acc ((a - 0x40000000) / 4096) (a % 4096) (pageWrite acc ((a - 0x40000000) / 4096) (a % 4096) v) s
    | .mantis => { tallyAt acc a n true (windowWrite acc ((a - 0x30000000) / 0x20000) (a % 0x20000) v n s) with reply := ⟨0, false⟩ }
    | .cocoon => { tallyAt acc a n true s with mem := mwrite s.mem a v n, reply := ⟨0, false⟩ }
    | .rom | .flash | .none => busErr s
    | .tcm | .sram | .capture => { tallyAt acc a n true s with mem := mwrite s.mem (memPlace acc a) v n, reply := ⟨0, false⟩ }

/-! ## Rows -/

/-- R67, R85: a 32-bit write of a master. -/
def execRegisterWrite (acc : Access) (a v : BitVec 32) (s : State) : Host.Outcome State Fault Refusal :=
  .next (busWrite acc a.toNat 4 v.toNat s)

/-- The write of a header register of a page. -/
def headerRow (acc : Access) (p o v : Nat) (s : State) : State := onBus acc p o (pageWrite acc p o v) s

/-- R75, R129: a W1C write of `EVT_FLAGS`. -/
def execEvtFlagsClear (acc : Access) (p : Fin 256) (v : BitVec 32) (s : State) : Host.Outcome State Fault Refusal :=
  .next (headerRow acc p 0x10 v.toNat s)

/-- R76: a write of `EVT_SET`. -/
def execEvtSet (acc : Access) (p : Fin 256) (v : BitVec 32) (s : State) : Host.Outcome State Fault Refusal :=
  .next (headerRow acc p 0x18 v.toNat s)

/-- R86: a write of 1 to `REJECT` bit 31. -/
def execRejectClear (acc : Access) (p : Fin 256) (s : State) : Host.Outcome State Fault Refusal :=
  .next (headerRow acc p 0x20 0x80000000 s)

/-- R78: a write of 1 to `LOCK.LCK`. -/
def execLockSet (acc : Access) (p : Fin 256) (s : State) : Host.Outcome State Fault Refusal :=
  .next (headerRow acc p 0x24 1 s)

/-- R78: a write of 0 to `LOCK.LCK`, `key` in bits 31:16. -/
def execLockClear (acc : Access) (p : Fin 256) (key : BitVec 16) (s : State) : Host.Outcome State Fault Refusal :=
  .next (headerRow acc p 0x24 (key.toNat * 2 ^ 16) s)

/-- R81: the value of an `EPOCH` write that leaves `DOM` as it is. -/
def epochWord (s : State) (p c : Nat) : Nat := fld s p 0x28 24 3 * 2 ^ 24 + c

/-- R81, R83: `EPOCH.ARM`. -/
def execArm (acc : Access) (p : Fin 256) (s : State) : Host.Outcome State Fault Refusal :=
  .next (headerRow acc p 0x28 (epochWord s p 0x10000) s)

/-- R81, R83: `EPOCH.DISARM`. -/
def execDisarm (acc : Access) (p : Fin 256) (s : State) : Host.Outcome State Fault Refusal :=
  .next (headerRow acc p 0x28 (epochWord s p 0x20000) s)

/-- R79: the page's check value has been recomputed. -/
def execCheckUpdate (p : Fin 256) (s : State) : Host.Outcome State Fault Refusal :=
  .next (if powered s ∧ rbit s p 0x0C 11 then setBit p 0x0C 11 false (setRg p 0x2C (checkNow s p) s) else s)

/-- R123, R124: a write to a PACT entry. -/
def execPactEntryWrite (acc : Access) (p : Fin 256) (v : BitVec 32) (s : State) : Host.Outcome State Fault Refusal :=
  .next (onBus acc pPACT (0x400 + 4 * p) (pageWrite acc pPACT (0x400 + 4 * p) v.toNat) s)

end Sys2Proof.Machine
end

