-- ==== Sys2Proof/Machine/StagFp.lean ====
section
/-! DEFINITION. The arithmetic of a Stag pair (R105, R109): the integer operations of classes 0 and 1, and the FPU in IEEE 754
binary32 with its flags and rounding modes (R106). -/
namespace Sys2Proof.Machine

/-! ## Integers -/

/-- R109: a shift; `k` is 0 left, 1 right, 2 arithmetic right. The manual states no result for 32 or more. -/
def shiftVal (k : Nat) (a b : Word) : Word :=
  if 32 ≤ b.toNat then Config.shiftOver k a b
  else if k = 0 then a <<< b.toNat else if k = 1 then a >>> b.toNat else a.sshiftRight b.toNat

/-- R109: the result of a class 0 operation on its sources. -/
def aluVal (op : AluOp) (a b : Word) : Word :=
  match op with
  | .add => a + b
  | .sub => a - b
  | .and_ => a &&& b
  | .or_ => a ||| b
  | .xor_ => a ^^^ b
  | .sll => shiftVal 0 a b
  | .srl => shiftVal 1 a b
  | .sra => shiftVal 2 a b
  | .slt => if a.slt b then 1 else 0
  | .mov => a
  | .lui => b <<< 16

/-- R109: the two halves of a product, `MULH` of the signed one. -/
def mulVal (high : Bool) (a b : Word) : Word :=
  if high then BitVec.ofInt 32 (a.toInt * b.toInt / 2 ^ 32) else a * b

/-- R109: a division. The manual states no result for a divisor of 0 and for −2^31 by −1. -/
def divVal (op : DivOp) (a b : Word) : Word :=
  let ovf : Bool := a == 0x80000000#32 && b == 0xFFFFFFFF#32
  match op with
  | .div => if b = 0 ∨ ovf then Config.divCorner 0 a b else BitVec.ofInt 32 (a.toInt.tdiv b.toInt)
  | .divu => if b = 0 then Config.divCorner 1 a b else a / b
  | .rem => if b = 0 ∨ ovf then Config.divCorner 2 a b else BitVec.ofInt 32 (a.toInt.tmod b.toInt)

/-! ## Binary32 -/

/-- A result of the FPU with the flags it raises: a word, a quiet NaN of free sign and payload, or a free word. Flags are NV, DZ,
OF, UF, NX in bits 0 to 4. -/
inductive FpRes where
  | val (w flags : Nat)
  | nan (flags : Nat)
  | free (flags : Nat)
  deriving DecidableEq, Repr

def fpNeg (w : Nat) : Bool := bit w 31
def fpNan (w : Nat) : Bool := bits w 23 8 == 255 && bits w 0 23 != 0
def fpSNan (w : Nat) : Bool := fpNan w && ! bit w 22
def fpInf (w : Nat) : Bool := bits w 23 8 == 255 && bits w 0 23 == 0
def fpZero (w : Nat) : Bool := bits w 0 31 == 0

/-- The significand and exponent of a finite word: its magnitude is significand × 2^exponent. -/
def fpSig (w : Nat) : Nat := if bits w 23 8 = 0 then bits w 0 23 else 2 ^ 23 + bits w 0 23
def fpExp (w : Nat) : Int := if bits w 23 8 = 0 then -149 else (bits w 23 8 : Int) - 150

/-- A word of a sign and a magnitude word. -/
def fpWord (neg : Bool) (m : Nat) : Nat := b2n neg * 2 ^ 31 + m

/-- R106: rounding away `k` bits of `n` (a non-zero rest below is told by `sticky`), and whether it was inexact. The modes are 0
nearest-even, 1 toward zero, 2 up, 3 down. -/
def fpRoundAt (rm : Nat) (neg : Bool) (n k : Nat) (sticky : Bool) : Nat × Bool :=
  let q := n / 2 ^ k
  let r := n % 2 ^ k
  let ix := r ≠ 0 || sticky
  let above : Bool := decide (2 ^ k < 2 * r) || (decide (2 ^ k = 2 * r) && sticky)
  let tie : Bool := decide (2 ^ k = 2 * r) && ! sticky
  let up : Bool := match rm with
    | 0 => above || (tie && q % 2 == 1)
    | 1 => false
    | 2 => ix && ! neg
    | _ => ix && neg
  (q + b2n up, ix)

/-- The same at a position: `n` × 2^`e` rounded to a multiple of 2^`t`. -/
def fpRoundTo (rm : Nat) (neg : Bool) (n : Nat) (e t : Int) (sticky : Bool) : Nat × Bool :=
  if t ≤ e then (n * 2 ^ (e - t).toNat, sticky) else fpRoundAt rm neg n (t - e).toNat sticky

/-- The binary32 word of the non-zero magnitude `n` × 2^`e`, with the flags OF, UF and NX. -/
def fpRound (rm : Nat) (neg : Bool) (n : Nat) (e : Int) (sticky : Bool) : FpRes :=
  let l : Int := Nat.log2 n + 1
  let t0 : Int := if e + l - 24 < -149 then -149 else e + l - 24
  let x := fpRoundTo rm neg n e t0 sticky
  let q := if x.1 = 2 ^ 24 then 2 ^ 23 else x.1
  let t : Int := if x.1 = 2 ^ 24 then t0 + 1 else t0
  if 104 < t then
    let inf : Bool := rm == 0 || (rm == 2 && ! neg) || (rm == 3 && neg)
    .val (fpWord neg (if inf then 0x7F800000 else 0x7F7FFFFF)) 0x14
  else
    let m := if q < 2 ^ 23 then q else (t + 150).toNat * 2 ^ 23 + (q - 2 ^ 23)
    let before : Bool := decide (e + l ≤ -126)
    let carries : Bool := decide (e + l = -126) && (fpRoundTo rm neg n e (e + l - 24) sticky).1 == 2 ^ 24
    let tiny := before && (Config.tinyBefore || ! carries)
    .val (fpWord neg m) (16 * b2n x.2 + 8 * b2n (x.2 && tiny))

/-- A NaN result of operands of which one is a NaN: NV for a signalling one. -/
def fpQuiet (ws : List Nat) (nv : Bool) : FpRes := .nan (b2n (nv || ws.any fpSNan))

/-- The sum of two finite magnitudes with signs. -/
def fpSum (rm : Nat) (na : Bool) (ma : Nat) (ea : Int) (nb : Bool) (mb : Nat) (eb : Int) : FpRes :=
  let e := if ea ≤ eb then ea else eb
  let x : Int := (if na then -1 else 1) * ((ma * 2 ^ (ea - e).toNat : Nat) : Int)
  let y : Int := (if nb then -1 else 1) * ((mb * 2 ^ (eb - e).toNat : Nat) : Int)
  let z := x + y
  if z = 0 then .val (fpWord (if na = nb then na else rm == 3) 0) 0 else fpRound rm (decide (z < 0)) z.natAbs e false

/-- `FADD`. -/
def fpAdd (rm a b : Nat) : FpRes :=
  if fpNan a ∨ fpNan b then fpQuiet [a, b] false
  else if fpInf a ∧ fpInf b then (if fpNeg a = fpNeg b then .val a 0 else .nan 1)
  else if fpInf a then .val a 0
  else if fpInf b then .val b 0
  else fpSum rm (fpNeg a) (fpSig a) (fpExp a) (fpNeg b) (fpSig b) (fpExp b)

/-- A word with its sign reversed. -/
def fpNegate (w : Nat) : Nat := fpWord (! fpNeg w) (bits w 0 31)

/-- `FSUB`. -/
def fpSub (rm a b : Nat) : FpRes := if fpNan b then fpQuiet [a, b] false else fpAdd rm a (fpNegate b)

/-- `FMUL`. -/
def fpMul (rm a b : Nat) : FpRes :=
  let neg := fpNeg a != fpNeg b
  if fpNan a ∨ fpNan b then fpQuiet [a, b] false
  else if (fpInf a ∧ fpZero b) ∨ (fpZero a ∧ fpInf b) then .nan 1
  else if fpInf a ∨ fpInf b then .val (fpWord neg 0x7F800000) 0
  else if fpZero a ∨ fpZero b then .val (fpWord neg 0) 0
  else fpRound rm neg (fpSig a * fpSig b) (fpExp a + fpExp b) false

/-- `FMA`: a × b + c, rounded once. -/
def fpFma (rm a b c : Nat) : FpRes :=
  let neg := fpNeg a != fpNeg b
  let inv : Bool := (fpInf a && fpZero b) || (fpZero a && fpInf b)
  if fpNan a ∨ fpNan b then fpQuiet [a, b, c] false
  else if inv then (if fpNan c then fpQuiet [c] Config.fmaInvalid else .nan 1)
  else if fpNan c then fpQuiet [c] false
  else if fpInf a ∨ fpInf b then (if fpInf c ∧ fpNeg c ≠ neg then .nan 1 else .val (fpWord neg 0x7F800000) 0)
  else if fpInf c then .val c 0
  else fpSum rm neg (fpSig a * fpSig b) (fpExp a + fpExp b) (fpNeg c) (fpSig c) (fpExp c)

/-- `FDIV`. -/
def fpDiv (rm a b : Nat) : FpRes :=
  let neg := fpNeg a != fpNeg b
  if fpNan a ∨ fpNan b then fpQuiet [a, b] false
  else if (fpInf a ∧ fpInf b) ∨ (fpZero a ∧ fpZero b) then .nan 1
  else if fpInf a then .val (fpWord neg 0x7F800000) 0
  else if fpInf b ∨ fpZero a then .val (fpWord neg 0) 0
  else if fpZero b then .val (fpWord neg 0x7F800000) 2
  else fpRound rm neg (fpSig a * 2 ^ 60 / fpSig b) (fpExp a - fpExp b - 60) (fpSig a * 2 ^ 60 % fpSig b ≠ 0)

/-- The integer square root, one binary digit a step. -/
def isqrt (n : Nat) : Nat → Nat → Nat
  | 0, r => r
  | i + 1, r => isqrt n i (if (r + 2 ^ i) * (r + 2 ^ i) ≤ n then r + 2 ^ i else r)

/-- `FSQRT`. -/
def fpSqrt (rm a : Nat) : FpRes :=
  if fpNan a then fpQuiet [a] false
  else if fpZero a then .val a 0
  else if fpNeg a then .nan 1
  else if fpInf a then .val a 0
  else
    let k : Nat := if fpExp a % 2 = 0 then 60 else 61
    let n := fpSig a * 2 ^ k
    let r := isqrt n 44 0
    fpRound rm false r ((fpExp a - (k : Int)) / 2) (r * r ≠ n)

/-- `FCVT` to a signed integer. A NaN and a value outside the format raise NV, and the manual states no result. -/
def fpToInt (rm a : Nat) : FpRes :=
  if fpNan a ∨ fpInf a then .free 1
  else
    let x := fpRoundTo rm (fpNeg a) (fpSig a) (fpExp a) 0 false
    let z : Int := if fpNeg a then -(x.1 : Int) else x.1
    if z < -(2 ^ 31) ∨ 2 ^ 31 ≤ z then .free 1 else .val (uns 32 z) (16 * b2n x.2)

/-- `FCVT` from a signed integer. -/
def fpOfInt (rm a : Nat) : FpRes :=
  let z := sgn 32 a
  if z = 0 then .val 0 0 else fpRound rm (decide (z < 0)) z.natAbs 0 false

/-- A finite or infinite word as an order key. -/
def fpKey (w : Nat) : Int := if fpNeg w then -(bits w 0 31 : Int) else bits w 0 31

/-- `FCMP`: equal is quiet, the ordered relations raise NV for any NaN. -/
def fpCmp (quiet : Bool) (r : Int → Int → Bool) (a b : Nat) : FpRes :=
  if fpNan a ∨ fpNan b then .val (Config.fcmpWord false).toNat (b2n (! quiet || fpSNan a || fpSNan b))
  else .val (Config.fcmpWord (r (fpKey a) (fpKey b))).toNat 0

/-- R109: the result of an operation of class 5 on `d`, `a` and `b`. -/
def fpuVal (op : FpuOp) (rm d a b : Nat) : FpRes :=
  match op with
  | .fadd => fpAdd rm a b
  | .fsub => fpSub rm a b
  | .fmul => fpMul rm a b
  | .fma => fpFma rm a b d
  | .fcvt true => fpToInt rm a
  | .fcvt false => fpOfInt rm a
  | .feq => fpCmp true (· == ·) a b
  | .flt => fpCmp false (fun x y => decide (x < y)) a b
  | .fle => fpCmp false (fun x y => decide (x ≤ y)) a b
  | .fmov => .val a 0

/-- The flags a result raises. -/
def FpRes.flags : FpRes → Nat
  | .val _ f | .nan f | .free f => f

/-- The word written for a result, given a free word. A NaN is quiet. -/
def fpWritten (r : FpRes) (fr : Nat) : Nat :=
  match r with
  | .val w _ => w
  | .nan _ => orN 0x7FC00000 fr % 2 ^ 32
  | .free _ => fr

end Sys2Proof.Machine
end

