-- ==== Sys2Proof/Machine/Stag.lean ====
section
/-! DEFINITION. The Stag pairs (R105 to R120): the fetch and its checks, exception entry and double fault, the MPU, the instructions
of each class, and interrupt entry. An instruction comes as a command; its fetch is checked at the pair's program counter. -/
namespace Sys2Proof.Machine

/-! ## The pair -/

/-- R106: the caste of a pair. -/
def casteOf (s : State) (x : Nat) : Caste := if casteBit s x = 0 then .queen else if casteBit s x = 1 then .worker else .drone

/-- R86, R122: an access of pair `x`. -/
def stagAcc (s : State) (x : Nat) : Access := ⟨if x = 0 then .stagA else .stagB, casteOf s x⟩

/-- R105: a general register; `g0` reads 0. -/
def gReg (s : State) (x : Nat) (r : Fin 32) : Word := if r = 0 then 0 else nth (stagH s x).g r 0

/-- R105: a write to a general register; `g0` ignores it. -/
def setGReg (x : Nat) (r : Fin 32) (v : Word) (s : State) : State :=
  if r = 0 then s else setStagH x { stagH s x with g := (stagH s x).g.set r v } s

def fReg (s : State) (x : Nat) (r : Fin 32) : Word := nth (stagH s x).f r 0
def setFReg (x : Nat) (r : Fin 32) (v : Word) (s : State) : State :=
  setStagH x { stagH s x with f := (stagH s x).f.set r v } s

/-- The program counter of a pair, aligned to a word (R105). -/
def stagPc (s : State) (x : Nat) : Nat := (stagH s x).pc
def setStagPc (x pc : Nat) (s : State) : State := setStagH x { stagH s x with pc := pc % 2 ^ 32 / 4 * 4 } s

/-- R139, R527: does the pair execute: it runs, or is in its fast reboot, or halted with one step to make? -/
def stagRuns (s : State) (x : Nat) : Bool :=
  powered s && (pairStat s x == 0 || pairStat s x == 2 || (pairStat s x == 3 && (stagH s x).step))

/-- R527: does the pair execute without a debug halt? -/
def stagFree (s : State) (x : Nat) : Bool := stagRuns s x && pairStat s x != 3

/-- R527: a step has been made and the pair halts again. -/
def stepMade (x : Nat) (s : State) : State :=
  if (stagH s x).step then flag pDEBUG 0 (setStagH x { stagH s x with step := false } s) else s

/-! ## Exceptions (R112 to R116) -/

/-- R106, R113: what an exception writes to `ECAUSE`, and the address for `EADDR` where it has one. -/
structure Exc where
  code  : Nat
  event : Nat := 0
  pact  : Bool := false
  wr    : Bool := false
  fetch : Bool := false
  addr  : Option Nat := none
  deriving DecidableEq, Repr

/-- R114: exception entry with resume address `epc`: saves `STATUS`, writes `EPC`, `ECAUSE` and `EADDR`, sets Queen and `EXL`, and
goes to the vector. `EADDR` of an exception without an address is a free value (log entry 41). -/
def excEntry (x : Nat) (e : Exc) (epc : Nat) (s : State) : State :=
  let h := stagH s x
  let s1 := if e.addr.isNone then freeStep s else s
  setStagPc x (h.vbase / 4096 * 4096 + 64 * e.code) (setStagH x { h with
    estatus := h.status
    epc := epc % 2 ^ 32
    ecause := e.code + 2 ^ 8 * e.event + 2 ^ 16 * b2n e.pact + 2 ^ 17 * b2n e.wr + 2 ^ 18 * b2n e.fetch
    eaddr := match e.addr with | some a => a | none => freeNow s
    status := putBits (putBits h.status 0 2 0) 3 1 1 } s1)

/-- R115: a synchronous exception; raised while `EXL` is 1 it is a double fault, which stops the pair and starts its recovery. -/
def excRaise (x : Nat) (e : Exc) (epc : Nat) (s : State) : State :=
  if bit (stagH s x).status 3 then detect x 4 0 false s else antCount x 0x33 1 (excEntry x e epc s)

/-- R113: the illegal instruction. -/
def excIllegal : Exc := { code := 5 }

/-! ## MPU (R120) -/

/-- R120: does region (BASE, ATTR) cover the address? -/
def regionHas (a : Nat) (r : Nat × Nat) : Bool :=
  bit r.2 31 && decide (r.1 / 256 * 256 ≤ a) && decide (a < r.1 / 256 * 256 + 2 ^ (bits r.2 0 5 + 1))

/-- R120: the attributes of the region that decides: the highest-numbered enabled one. -/
def mpuRegion (s : State) (x a : Nat) : Option Nat := ((stagH s x).mpu.reverse.find? (regionHas a)).map Prod.snd

/-- R120, R121: does the MPU allow the access? `k` is the lowest attribute bit of its kind: 8 read, 11 write, 16 execute. -/
def mpuAllows (s : State) (x k a : Nat) : Bool :=
  if ¬ bit (stagH s x).mpuCtrl 0 then true
  else match mpuRegion s x a with
    | some t => bit t (k + casteBit s x)
    | none => casteBit s x == 0 && bit (stagH s x).mpuCtrl 1

/-- R120: an MPU fault raises `E022`. -/
def mpuFault (x : Nat) (s : State) : State := flag (pSTAG x) 0 s

/-- R118: is the address normal memory that the D-cache holds? A region marked device, or not cacheable, is not. -/
def dcacheable (s : State) (x a : Nat) : Bool :=
  (regionOf a == .sram || regionOf a == .flash) &&
    (if bit (stagH s x).mpuCtrl 0 then
      (match mpuRegion s x a with
       | some t => bit t 21 && ! bit t 20
       | none => true)
     else true)

/-! ## Check bits and the bus as a pair meets them (R142, R143) -/

/-- R142: what the check bits of the word at `a` show pair `x`. -/
def stagMeet (s : State) (x a : Nat) (e : Ecc) : Ecc :=
  if (eccMemory (stagAcc s x) a).isSome then eccMeet s (memPlace (stagAcc s x) a) e else .good

/-- R143, R518: a corrected word stalls its fetch or load for a cycle of cause 0xA. -/
def stallEcc (x : Nat) (s : State) : State := setAntH x { antH s x with owed := (antH s x).owed + 1 } s

/-- R143: the check bits of the word at `a` as pair `x` reads (`wr` false) or writes it, with R518's counts of corrections and of the
stalls of code 0xA of a corrected fetch or load. -/
def stagEcc (x a : Nat) (wr : Bool) (e : Ecc) (s : State) : State :=
  match eccMemory (stagAcc s x) a with
  | none => s
  | some m =>
    let s1 := match stagMeet s x a e with | .corrected _ => antCount x 0x36 1 (if wr then s else stallEcc x s) | .good | .uncorrectable _ => s
    (if wr then eccWrite else eccRead) m (1 + x) a (memPlace (stagAcc s x) a) e s1

/-- R143: is the word at `a` uncorrectable? -/
def stagEccBad (s : State) (x a : Nat) (e : Ecc) : Bool := eccBad (stagMeet s x a e)

/-- R122: would PACT deny pair `x` the access? -/
def stagDenied (s : State) (x a : Nat) (wr : Bool) : Bool :=
  regionOf a == .page && (pageOf ((a - 0x40000000) / 4096)).isSome
    && ! pactAllows s (stagAcc s x) ((a - 0x40000000) / 4096) wr

/-- R67, R70, R122: does an access of pair `x` complete with a bus error? -/
def stagBusErr (s : State) (x a n : Nat) (wr : Bool) : Bool :=
  busRefuses s (stagAcc s x) a n wr || (regionOf a == .page && (n != 4 || (pageOf ((a - 0x40000000) / 4096)).isNone)) || stagDenied s x a wr

/-- R118: does an MPU region mark normal memory at `a` device? -/
def mpuDevice (s : State) (x a : Nat) : Bool :=
  ! deviceRegion a && bit (stagH s x).mpuCtrl 0 && (match mpuRegion s x a with | some t => bit t 20 | none => false)

/-- R122, R517: a bus error of pair `x`; a PACT denial is recorded and counted. -/
def stagBusFail (x a : Nat) (wr : Bool) (s : State) : State :=
  if stagDenied s x a wr then pactDeny (stagAcc s x) ((a - 0x40000000) / 4096) (a % 4096) wr s else s

/-! ## Issue and retirement -/

/-- R113: what an instruction comes to: an exception with its resume address, or completion with the next program counter and
what takes effect once it has retired. -/
inductive Eff where
  | exc (e : Exc) (resume : Nat) (s : State)
  | done (s : State) (pc : Nat) (late : State → State)
  | wait (s : State)

/-- R113: the checks of the fetch at `pc`, in their priority. -/
def fetchExc (x pc : Nat) (ecc : Ecc) (s : State) : Option Exc × State :=
  let s1 := stagEcc x pc false ecc s
  if stagEccBad s x pc ecc then (some { code := 1, fetch := true, addr := some pc }, s1)
  else if ¬ mpuAllows s1 x 16 pc then (some { code := 3, fetch := true, addr := some pc }, mpuFault x s1)
  else if stagBusErr s1 x pc 4 false then
    (some { code := 2, pact := stagDenied s1 x pc false, fetch := true, addr := some pc }, stagBusFail x pc false s1)
  else (none, s1)

/-- R113, R519: an instruction of class `cls` of pair `x` ends as `r` says. -/
def settle (x cls pc : Nat) (r : Eff) : State :=
  let issued := fun (s : State) => setAntH x { antH s x with issued := (antH s x).issued + 1 } s
  match r with
  | .exc e resume s => excRaise x e resume (tagIssue x pc cls true (issued s))
  | .done s next late => late (setStagPc x next (antCount x (0x10 + cls) 1 (antCount x 2 1 (tagIssue x pc cls false (issued s)))))
  | .wait s => s

/-- A pair issues an instruction of class `cls`: its fetch is checked at the program counter, then `body` runs with the pair and
the program counter. -/
def issue (f : Fetch) (cls : Nat) (body : Nat → Nat → State → Eff) (s : State) : Host.Outcome State Fault Refusal :=
  .next (
    let x := pairIx f.pair
    let pc := stagPc s x
    if ¬ stagRuns s x then s
    else match fetchExc x pc f.ecc s with
      | (some e, s1) => stepMade x (settle x cls pc (.exc e pc s1))
      | (none, s1) => (match body x pc s1 with
        | .wait s2 => s2
        | r => stepMade x (settle x cls pc r)))

/-- An instruction that completes at the next address with nothing left to do. -/
def ran (pc : Nat) (s : State) : Eff := .done s (pc + 4) id

/-! ## Classes 0 and 1 -/

/-- R112: the value of a class 0 source. -/
def aluSrc (s : State) (x : Nat) : AluSrc → Word
  | .reg b => gReg s x b
  | .imm v true => v.signExtend 32
  | .imm v false => v.zeroExtend 32

/-- R109: class 0. -/
def execStagAlu (f : Fetch) (op : AluOp) (d a : Fin 32) (b : AluSrc) (s : State) : Host.Outcome State Fault Refusal :=
  issue f 0 (fun x pc s => ran pc (setGReg x d (aluVal op (gReg s x a) (aluSrc s x b)) s)) s

/-- R109: `MUL` and `MULH`. -/
def execStagMul (f : Fetch) (high : Bool) (d a b : Fin 32) (s : State) : Host.Outcome State Fault Refusal :=
  issue f 1 (fun x pc s => ran pc (setGReg x d (mulVal high (gReg s x a) (gReg s x b)) s)) s

/-- R109: `DIV`, `DIVU` and `REM`. -/
def execStagDiv (f : Fetch) (op : DivOp) (d a b : Fin 32) (s : State) : Host.Outcome State Fault Refusal :=
  issue f 1 (fun x pc s => ran pc (setGReg x d (divVal op (gReg s x a) (gReg s x b)) s)) s

/-! ## Loads and stores (classes 2 and 3) -/

/-- R109: the size of a load in bytes. -/
def loadSize : LoadOp → Nat
  | .ldw | .fld => 4
  | .ldh | .ldhu => 2
  | .ldb | .ldbu => 1

/-- R109: the size of a store in bytes. -/
def storeSize : StoreOp → Nat
  | .stw | .fst => 4
  | .sth => 2
  | .stb => 1

/-- R112: the address of an M format: the base plus the signed byte offset. -/
def dataAddr (s : State) (x : Nat) (a : Fin 32) (off : BitVec 16) : Nat := (gReg s x a + off.signExtend 32).toNat

/-- R109: the bytes read, extended to a word. -/
def loadedWord (k : LoadOp) (v : Nat) : Word :=
  match k with
  | .ldh => (BitVec.ofNat 16 v).signExtend 32
  | .ldb => (BitVec.ofNat 8 v).signExtend 32
  | .ldw | .fld | .ldhu | .ldbu => BitVec.ofNat 32 v

/-- The bytes the D-cache of pair `x` holds, where it holds all `n` from `a` on. -/
def dcacheRead (s : State) (x a n : Nat) : Option (List Byte) :=
  ((List.range n).map (fun i => (stagH s x).dc.lookup (a + i))).foldr
    (fun b r => match b, r with | some v, some l => some (v :: l) | _, _ => none) (some [])

/-- The D-cache takes the bytes of a load. -/
def dcacheFill (x a n : Nat) (s : State) : State :=
  let h := stagH s x
  setStagH x { h with dc := (List.range n).foldl (fun l i => sins (a + i) (BitVec.ofNat 8 (mget s.mem (a + i))) l) h.dc } s

/-- R118: a store changes the bytes that the write-through D-cache holds. -/
def dcacheStore (x a n v : Nat) (s : State) : State :=
  let h := stagH s x
  let put := fun (l : List Host.Cell) (i : Nat) =>
    if (l.lookup (a + i)).isSome then sins (a + i) (BitVec.ofNat 8 (v / 256 ^ i)) l else l
  setStagH x { h with dc := (List.range n).foldl put h.dc } s

/-- Bytes as a little-endian number (R68). -/
def leBytes : List Byte → Nat
  | [] => 0
  | b :: l => b.toNat + 256 * leBytes l

/-- R110, R118: the value of a load of `n` bytes that has passed its checks. A cacheable line is answered by the D-cache where it
holds the bytes and `hit` says so; else by the memory. The value is left in `reply`. -/
def stagRead (x a n : Nat) (hit : Bool) (s : State) : State :=
  if dcacheable s x a then
    (match (if hit then dcacheRead s x a n else none) with
     | some bs => { s with reply := ⟨leBytes bs, false⟩ }
     | none => dcacheFill x a n (busRead (stagAcc s x) a n (antCount x 0x31 1 s)))
  else busRead (stagAcc s x) a n (if mpuDevice s x a then antCount x 0x35 1 s else s)

/-- R109, R112: the register that a load writes. -/
def loadPut (k : LoadOp) (x : Nat) (t : Fin 32) (v : Word) (s : State) : State :=
  if k = .fld then setFReg x t v s else setGReg x t v s

/-- R110, R113, R143: a load: misaligned, MPU, bus error and uncorrectable word in their priority, then the register. -/
def loadBody (k : LoadOp) (t a : Fin 32) (off : BitVec 16) (hit : Bool) (ecc : Ecc) (x pc : Nat) (s : State) : Eff :=
  let n := loadSize k
  let addr := dataAddr s x a off
  let cached : Bool := dcacheable s x addr && hit && (dcacheRead s x addr n).isSome
  let s1 := if cached then s else stagEcc x addr false ecc s
  if addr % n ≠ 0 then .exc { code := 4, addr := some addr } pc s
  else if ¬ mpuAllows s x 8 addr then .exc { code := 3, addr := some addr } pc (mpuFault x s)
  else if stagBusErr s x addr n false then
    .exc { code := 2, pact := stagDenied s x addr false, addr := some addr } pc (stagBusFail x addr false s)
  else if ¬ cached ∧ stagEccBad s x addr ecc then .exc { code := 1, addr := some addr } pc s1
  else
    let s2 := stagRead x addr n hit s1
    ran pc (loadPut k x t (loadedWord k s2.reply.value) s2)

/-- R109, R110: a load. -/
def execStagLoad (f : Fetch) (k : LoadOp) (t a : Fin 32) (off : BitVec 16) (hit : Bool) (ecc : Ecc) (s : State) :
    Host.Outcome State Fault Refusal :=
  issue f 2 (loadBody k t a off hit ecc) s

/-- R113: the bus error of a store waits to return. -/
def storeErr (x next a : Nat) (pact : Bool) (s : State) : State :=
  setStagH x { stagH s x with errs := (stagH s x).errs ++ [(next, a, pact)] } s

/-- R110, R118, R123, R143: a store leaves the store buffer. An uncorrectable word is left unchanged. A bus error returns later
(R113). -/
def storeOut (x next a n v : Nat) (ecc : Ecc) (acc : Access) (s : State) : State :=
  let s1 := if mpuDevice s x a then antCount x 0x35 1 s else s
  if busRefuses s1 acc a n true ∨ (regionOf a = .page ∧ (pageOf ((a - 0x40000000) / 4096)).isNone) then storeErr x next a false s1
  else if regionOf a = .page ∧ ¬ pactAllows s1 acc ((a - 0x40000000) / 4096) true then
    storeErr x next a true (pactDeny acc ((a - 0x40000000) / 4096) (a % 4096) true s1)
  else if regionOf a = .page ∧ n ≠ 4 then storeErr x next a false s1
  else if stagEccBad s1 x a ecc then storeErr x next a false (stagEcc x a true ecc s1)
  else busWrite acc a n v (dcacheStore x a n v (stagEcc x a true ecc s1))

/-- R109, R112: the word that a store writes. -/
def storedWord (k : StoreOp) (s : State) (x : Nat) (t : Fin 32) : Word := if k = .fst then fReg s x t else gReg s x t

/-- R110, R113: a store: misaligned and MPU checks, then it enters the store buffer and retires. -/
def storeBody (k : StoreOp) (t a : Fin 32) (off : BitVec 16) (ecc : Ecc) (x pc : Nat) (s : State) : Eff :=
  let n := storeSize k
  let addr := dataAddr s x a off
  if addr % n ≠ 0 then .exc { code := 4, wr := true, addr := some addr } pc s
  else if ¬ mpuAllows s x 11 addr then .exc { code := 3, wr := true, addr := some addr } pc (mpuFault x s)
  else .done s (pc + 4) (storeOut x ((pc + 4) % 2 ^ 32) addr n ((storedWord k s x t).toNat % 256 ^ n) ecc (stagAcc s x))

/-- R109, R110: a store. -/
def execStagStore (f : Fetch) (k : StoreOp) (t a : Fin 32) (off : BitVec 16) (ecc : Ecc) (s : State) :
    Host.Outcome State Fault Refusal :=
  issue f 3 (storeBody k t a off ecc) s

/-- R113: the bus error of the oldest such store returns: `EPC` names the instruction after the store, and `WR` is 1. -/
def storeBusError (x : Nat) (s : State) : State :=
  match (stagH s x).errs with
  | [] => s
  | (next, a, pact) :: l =>
    excRaise x { code := 2, pact := pact, wr := true, addr := some a } next (setStagH x { stagH s x with errs := l } s)

/-- R113: the bus error of a store returns to a pair that runs. -/
def execStoreBusError (x : PairId) (s : State) : Host.Outcome State Fault Refusal :=
  .next (if stagFree s (pairIx x) then storeBusError (pairIx x) s else s)

/-! ## Branches (class 4) -/

/-- R112: the target of a word offset from the program counter. -/
def branchTo (pc : Nat) (off : Int) : Nat := (((pc : Int) + 4 * off) % 2 ^ 32).toNat

/-- R105, R109, R112: whether a branch is taken, and its target. -/
def branchTarget (s : State) (x pc : Nat) (op : BranchOp) : Option Nat :=
  match op with
  | .beq a b off => if gReg s x a = gReg s x b then some (branchTo pc off.toInt) else none
  | .bne a b off => if gReg s x a = gReg s x b then none else some (branchTo pc off.toInt)
  | .blt a b off => if (gReg s x a).slt (gReg s x b) then some (branchTo pc off.toInt) else none
  | .bge a b off => if (gReg s x a).slt (gReg s x b) then none else some (branchTo pc off.toInt)
  | .j off | .jal off => some (branchTo pc off.toInt)
  | .jr a | .jalr a => some (gReg s x a).toNat

/-- R105: does the branch write its return address to `g31`? -/
def linking : BranchOp → Bool
  | .jal _ | .jalr _ => true
  | .beq _ _ _ | .bne _ _ _ | .blt _ _ _ | .bge _ _ _ | .j _ | .jr _ => false

/-- R109: a branch or jump. -/
def branchBody (op : BranchOp) (x pc : Nat) (s : State) : Eff :=
  let s1 := if linking op then setGReg x 31 (BitVec.ofNat 32 (pc + 4)) s else s
  match branchTarget s x pc op with
  | some t => .done (antCount x 0x32 1 s1) t id
  | none => ran pc s1

def execStagBranch (f : Fetch) (op : BranchOp) (s : State) : Host.Outcome State Fault Refusal := issue f 4 (branchBody op) s

/-! ## FPU (class 5) -/

/-- R106, R113: the result of an FPU operation is written to `f` register `d` and its flags to `FCSR`, unless a flag traps. -/
def fpFinish (x pc : Nat) (d : Fin 32) (r : FpRes) (s : State) : Eff :=
  let h := stagH s x
  if r.flags &&& bits h.fcsr 5 5 ≠ 0 then .exc { code := 6 } pc s
  else
    let s1 := match r with | .val _ _ => s | .nan _ | .free _ => freeStep s
    ran pc (setFReg x d (BitVec.ofNat 32 (fpWritten r (freeNow s))) (setStagH x { h with fcsr := orN h.fcsr r.flags } s1))

/-- R106: the operation of class 5 runs only while `FPE` is 1. -/
def fpuBody (d : Fin 32) (r : State → Nat → Nat → FpRes) (x pc : Nat) (s : State) : Eff :=
  if ¬ bit (stagH s x).status 8 then .exc excIllegal pc s else fpFinish x pc d (r s x (bits (stagH s x).fcsr 10 2)) s

/-- R109: an FPU operation. -/
def execStagFpu (f : Fetch) (op : FpuOp) (d a b : Fin 32) (s : State) : Host.Outcome State Fault Refusal :=
  issue f 5 (fpuBody d (fun s x rm => fpuVal op rm (fReg s x d).toNat (fReg s x a).toNat (fReg s x b).toNat)) s

/-- R109: `FDIV` and `FSQRT`. -/
def execStagFdiv (f : Fetch) (sqrt : Bool) (d a b : Fin 32) (s : State) : Host.Outcome State Fault Refusal :=
  issue f 5 (fpuBody d (fun s x rm =>
    if sqrt then fpSqrt rm (fReg s x a).toNat else fpDiv rm (fReg s x a).toNat (fReg s x b).toNat)) s

/-! ## System instructions (class 6) -/

/-- R107: is an instruction of Queen alone refused to the present caste? -/
def notQueen (s : State) (x : Nat) : Bool := casteBit s x != 0

/-- R106: the value of a system register. -/
def sysReg (s : State) (x r : Nat) : Nat :=
  let h := stagH s x
  match r with
  | 0 => h.status
  | 1 => h.estatus
  | 2 => h.epc
  | 3 => h.ecause
  | 4 => h.eaddr
  | 5 => h.vbase
  | 6 => h.fcsr
  | 7 => x
  | 8 => s.tick % 2 ^ 32
  | 9 => h.tickHi
  | _ => 0

/-- R106: a read of `TICKLO` latches `TICKHI`. -/
def sysLatch (x r : Nat) (s : State) : State :=
  if r = 8 then setStagH x { stagH s x with tickHi := s.tick / 2 ^ 32 % 2 ^ 32 } s else s

/-- R106, R107: `MFS`. A number that the table does not list is illegal (log entry 103). -/
def mfsBody (d : Fin 32) (r : Nat) (x pc : Nat) (s : State) : Eff :=
  if 10 ≤ r ∨ (r < 6 ∧ notQueen s x) then .exc excIllegal pc s
  else ran pc (setGReg x d (BitVec.ofNat 32 (sysReg s x r)) (sysLatch x r s))

def execMfs (f : Fetch) (d : Fin 32) (sreg : BitVec 12) (s : State) : Host.Outcome State Fault Refusal :=
  issue f 6 (mfsBody d sreg.toNat) s

/-- R106, R107: a write of a system register; a read-only one ignores it. `RETX` is the only way down, so a write of `STATUS` leaves
the caste as it is (log entry 104); `ESTATUS` takes every `CASTE` (log entry 105). -/
def putSysReg (x r v : Nat) (s : State) : State :=
  let h := stagH s x
  match r with
  | 0 => setStagH x { h with status := v % 2 ^ 9 / 4 * 4 + h.status % 4 } s
  | 1 => setStagH x { h with estatus := v % 2 ^ 9 } s
  | 2 => setStagH x { h with epc := v % 2 ^ 32 } s
  | 5 => setStagH x { h with vbase := v % 2 ^ 32 / 4096 * 4096 } s
  | 6 => setStagH x { h with fcsr := v % 2 ^ 12 } s
  | _ => s

/-- R106, R107: is the `MTS` illegal? A number that the table does not list is (log entry 103). -/
def mtsIllegal (s : State) (x r v : Nat) : Bool :=
  decide (10 ≤ r) || (r != 6 && notQueen s x) || (r == 0 && v % 4 == 3)

/-- R106, R107: `MTS`. -/
def mtsBody (a : Fin 32) (r : Nat) (x pc : Nat) (s : State) : Eff :=
  let v := (gReg s x a).toNat
  if mtsIllegal s x r v then .exc excIllegal pc s else .done s (pc + 4) (putSysReg x r v)

def execMts (f : Fetch) (a : Fin 32) (sreg : BitVec 12) (s : State) : Host.Outcome State Fault Refusal :=
  issue f 6 (mtsBody a sreg.toNat) s

/-- R107, R113: `TRAP` enters exception 0x7, to resume after it. -/
def execTrap (f : Fetch) (s : State) : Host.Outcome State Fault Refusal :=
  issue f 6 (fun _ pc s => .exc { code := 7 } (pc + 4) s) s

/-- R107, R114: `RETX`; with `CASTE` 3 in `ESTATUS` it is illegal (log entry 105). -/
def retxBody (x pc : Nat) (s : State) : Eff :=
  let h := stagH s x
  if notQueen s x ∨ h.estatus % 4 = 3 then .exc excIllegal pc s
  else .done s h.epc (fun s => setStagH x { stagH s x with status := h.estatus } s)

def execRetx (f : Fetch) (s : State) : Host.Outcome State Fault Refusal := issue f 6 retxBody s

/-- R118, R123: `BAR` waits for the stores whose response is still to return, and loads the MPU registers as it retires. -/
def barBody (x pc : Nat) (s : State) : Eff := if (stagH s x).errs ≠ [] then .wait s else .done s (pc + 4) (mpuLoad x)

def execBar (f : Fetch) (s : State) : Host.Outcome State Fault Refusal := issue f 6 barBody s

/-- R111: `WFE` waits until an event is pending at the pair. -/
def wfeBody (x pc : Nat) (s : State) : Eff := if (List.range 256).any (pendBit s x) then ran pc s else .wait s

def execWfe (f : Fetch) (s : State) : Host.Outcome State Fault Refusal := issue f 6 wfeBody s

/-- R107, R118: `CINV` invalidates the D-cache. -/
def cinvBody (x pc : Nat) (s : State) : Eff :=
  if notQueen s x then .exc excIllegal pc s else ran pc (setStagH x { stagH s x with dc := [] } s)

def execCinv (f : Fetch) (s : State) : Host.Outcome State Fault Refusal := issue f 6 cinvBody s

/-- R105, R107, R118: `CFLUSH` finds every store of the write-through D-cache already in memory. -/
def cflushBody (x pc : Nat) (s : State) : Eff := if notQueen s x then .exc excIllegal pc s else ran pc s

def execCflush (f : Fetch) (s : State) : Host.Outcome State Fault Refusal := issue f 6 cflushBody s

/-- R109: `NOP`. -/
def execNop (f : Fetch) (s : State) : Host.Outcome State Fault Refusal := issue f 6 (fun _ pc s => ran pc s) s

/-- R112, R113: an illegal instruction word. -/
def execIllegalInstruction (f : Fetch) (s : State) : Host.Outcome State Fault Refusal :=
  issue f 7 (fun _ pc s => .exc excIllegal pc s) s

/-! ## Interrupts (R116, R128) -/

/-- The record of an edge at a pair: its event, its TICK and its priority. -/
abbrev Edge := Nat × Nat × Nat

/-- R116: the edges of pair `x` that may interrupt: pending, with a priority of 1 or more that is above `IPL`. -/
def takeable (s : State) (x : Nat) : List Edge :=
  (s.hive.edges.filter (fun e => e.1 == x && pendBit s x e.2.1 && decide (1 ≤ e.2.2.2)
    && decide (bits (stagH s x).status 4 4 < e.2.2.2))).map Prod.snd

/-- R116: the highest priority first, at equal priority the lowest event number. -/
def firstEdge : List Edge → Option Edge
  | [] => none
  | e :: l => match firstEdge l with
    | none => some e
    | some m => if m.2.2 < e.2.2 ∨ (m.2.2 = e.2.2 ∧ e.1 ≤ m.1) then some e else some m

/-- R114, R128: interrupt entry for an edge: its pending bit is cleared and the TICK of the edge latched. -/
def interruptFor (x : Nat) (e : Edge) (s : State) : State :=
  let s1 := setPend x e.1 false { s with hive := { s.hive with
    edges := s.hive.edges.filter (fun c => ! (c.1 == x && c.2.1 == e.1)) } }
  let s2 := setRg pHIVE (0xA0 + 4 * x) (e.2.1 % 2 ^ 32) s1
  let s3 := excEntry x { code := 8, event := e.1 } (stagPc s x) (antCount x 0x34 1 s2)
  setStagH x { stagH s3 x with status := putBits (stagH s3 x).status 4 4 e.2.2 } s3

/-- R116: the interrupt that is due, where the pair takes one. -/
def interruptDue (s : State) (x : Nat) : Option Edge :=
  if stagFree s x && bit (stagH s x).status 2 && ! bit (stagH s x).status 3 then firstEdge (takeable s x) else none

/-- R114, R116: interrupt entry. -/
def execInterruptEntry (x : PairId) (s : State) : Host.Outcome State Fault Refusal :=
  .next (match interruptDue s (pairIx x) with
    | some e => interruptFor (pairIx x) e s
    | none => s)

end Sys2Proof.Machine
end

