-- ==== Sys2Proof/Machine/Dma.lean ====
section
/-! DEFINITION. The words that a DMA channel moves (R131, R132, R143). -/
namespace Sys2Proof.Machine

/-- R86, R131: an access of a DMA channel. -/
def dmaAcc : Access := ⟨.dma, .queen⟩

/-- R131: may a channel reach the address? -/
def dmaReach (a : Nat) (wr : Bool) : Bool :=
  match regionOf a with
  | .sram | .capture | .page => true
  | .mantis => decide (a % 0x20000 < 0xC000)
  | .flash => ! wr
  | .rom | .tcm | .cocoon | .none => false

/-- R130, R131: the cause code of an access that fails: 4 not reachable, 1 PACT denial, 2 bus error; 0 where it succeeds. -/
def dmaCause (s : State) (a : Nat) (wr : Bool) : Nat :=
  let p := (a - 0x40000000) / 4096
  let page := regionOf a == .page
  if ¬ dmaReach a wr then 4
  else if busRefuses s dmaAcc a 4 wr ∨ (page ∧ (pageOf p).isNone) then 2
  else if page ∧ ¬ pactAllows s dmaAcc p wr then 1
  else 0

/-- R143: the check bits of the word a channel reads (`wr` false) or writes. -/
def dmaEcc (a : Nat) (wr : Bool) (ecc : Ecc) (s : State) : State :=
  match eccMemory dmaAcc a with
  | some m => (if wr then eccWrite else eccRead) m 4 a a ecc s
  | none => s

/-- R143: is the word a channel meets uncorrectable? -/
def dmaEccBad (s : State) (a : Nat) (ecc : Ecc) : Bool := (eccMemory dmaAcc a).isSome && eccBad (eccMeet s a ecc)

/-- R131: the address after one word; step code 1 adds 4 bytes. -/
def dmaStep (a code : Nat) : Nat := if code = 1 then (a + 4) % 2 ^ 32 else a

/-- R130, R131: a word has been moved. -/
def dmaNext (c : Nat) (s : State) : State :=
  let h := dmaH s c
  let ctl := rg s pHIVE (dmaOff c 0xC)
  let left := fld s pHIVE (dmaOff c 0x10) 16 16 - 1
  let s1 := setFld pHIVE (dmaOff c 0x10) 16 16 left
    (setDmaH c { h with src := dmaStep h.src (bits ctl 2 2), dst := dmaStep h.dst (bits ctl 4 2) } s)
  if left = 0 then dmaDone c s1 else s1

/-- R131, R143: a channel reads a word and writes it, with what their check bits show; an access that fails stops the channel. -/
def dmaWord (c : Nat) (ecc : WordEcc) (s : State) : State :=
  let h := dmaH s c
  let rc := dmaCause s h.src false
  let s1 := if rc = 4 then s else busRead dmaAcc h.src 4 (if rc = 0 then dmaEcc h.src false ecc.rd s else s)
  let v := s1.reply.value
  let wc := dmaCause s1 h.dst true
  if rc ≠ 0 then dmaFail c rc s1
  else if dmaEccBad s h.src ecc.rd then dmaFail c 3 s1
  else if wc = 0 ∧ dmaEccBad s1 h.dst ecc.wr then dmaFail c 3 (dmaEcc h.dst true ecc.wr s1)
  else
    let s2 := if wc = 4 then s1 else busWrite dmaAcc h.dst 4 v (if wc = 0 then dmaEcc h.dst true ecc.wr s1 else s1)
    if wc ≠ 0 then dmaFail c wc s2 else dmaNext c s2

/-- R131: the channel served next: the first with words to move, in ascending order from the turn on. -/
def dmaNextTurn (s : State) : Option Nat :=
  ((List.range 8).map (fun j => (s.dmaTurn + j) % 8)).find? (fun c => dmaBusy s c && fld s pHIVE (dmaOff c 0x10) 16 16 != 0)

/-- R131: the channels with work move a word each in turn until channel `c` has moved `n` words or stopped; `ecc` is what the words that
it moves show, in their order. -/
def dmaMove (c : Nat) : List WordEcc → Nat → Nat → State → State
  | _, 0, _, s => s
  | _, _, 0, s => s
  | ecc, fuel + 1, n + 1, s =>
    match dmaNextTurn s with
    | none => s
    | some d =>
      if ¬ dmaBusy s c then s
      else
        let s1 := dmaWord d (if d = c then ecc.headD {} else {}) { s with dmaTurn := (d + 1) % 8 }
        dmaMove c (if d = c then ecc.tail else ecc) fuel (if d = c then n else n + 1) s1

/-- R131: channel `c` moves its next `n` words, the other channels with work theirs in turn; it is complete when no word remains. -/
def execDmaComplete (c : Fin 8) (n : Nat) (ecc : List WordEcc) (s : State) : Host.Outcome State Fault Refusal :=
  .next (if ¬ powered s ∨ ¬ dmaBusy s c then s
    else if fld s pHIVE (dmaOff c 0x10) 16 16 = 0 then dmaDone c s
    else dmaMove c ecc (8 * n) n s)

end Sys2Proof.Machine
end

