-- ==== Sys2Proof/Machine/Remote.lean ====
section
/-! DEFINITION. Reception on the Ethernet port (R440): the destination of a frame, and the remote register service (R445, R446). -/
namespace Sys2Proof.Machine

/-! ## The remote register service -/

/-- R86, R445: an access of the remote service. -/
def remoteAcc : Access := ⟨.eth, .queen⟩

/-- R446: the ranges the service does not reach. -/
def remoteShut (a : Nat) : Bool :=
  match regionOf a with
  | .flash | .cocoon | .tcm | .rom => true
  | .sram | .mantis | .page | .capture | .none => false

/-- R445: one access: a read of `a`, or a write of `v` to it. Its answer is left in `reply`. -/
def remoteAccess (wr : Bool) (a v : Nat) (s : State) : State :=
  if remoteShut a then busErr s else if wr then busWrite remoteAcc a 4 v s else busRead remoteAcc a 4 s

/-- Word `i` of a payload, little-endian (R68). -/
def payWord (bs : List Nat) (i : Nat) : Nat :=
  (List.range 4).foldl (fun a j => a + bs.getD (4 * i + j) 0 * 256 ^ j) 0

/-- R445: the accesses of a request of `n` from access `i` on, with the reply's words and the bits of word 1. -/
def remoteRun (bs : List Nat) (wr : Bool) : Nat → Nat → List Nat × Nat → State → (List Nat × Nat) × State
  | _, 0, r, s => (r, s)
  | i, k + 1, r, s =>
    let s1 := if wr then remoteAccess true (payWord bs (1 + 2 * i)) (payWord bs (2 + 2 * i)) s
      else remoteAccess false (payWord bs (1 + i)) 0 s
    remoteRun bs wr (i + 1) k (r.1 ++ [if wr then 0 else s1.reply.value], r.2 + b2n s1.reply.busError * 2 ^ i) s1

/-- R445: word 0 of a reply. -/
def replyHead (bs : List Nat) (status : Nat) : Nat := payWord bs 0 % 2 ^ 24 + 2 ^ 24 * status

/-- R445: is the request malformed? -/
def remoteBad (bs : List Nat) : Bool :=
  let n := bits (payWord bs 0) 16 8
  let op := bits (payWord bs 0) 24 8
  outside n 1 32 || (op != 1 && op != 2) || bs.length != 4 + 4 * op * n

/-- R445, R446: a request to the service. -/
def remoteRequest (bs : List Nat) (s : State) : State :=
  let n := bits (payWord bs 0) 16 8
  let seq := payWord bs 0 % 2 ^ 16
  if (devState s).code < 5 then ethOffer 0 ([replyHead bs 2, 0].flatMap bytesLE) s
  else if s.eth.seq = some seq then ethOffer 0 s.eth.reply s
  else if remoteBad bs then ethOffer 0 ([replyHead bs 1, 0].flatMap bytesLE) s
  else
    let r := remoteRun bs (bits (payWord bs 0) 24 8 == 2) 0 n ([], 0) s
    let out := (replyHead bs 0 :: r.1.2 :: r.1.1).flatMap bytesLE
    ethOffer 0 out (setEth { r.2.eth with seq := some seq, reply := out } r.2)

/-- R445: a request from the permitted peer. -/
def execRemoteRequest (payload : List (BitVec 8)) (s : State) : Host.Outcome State Fault Refusal :=
  .next (if powered s ∧ ethEn s 1 then remoteRequest (payload.map BitVec.toNat) s else s)

/-! ## Frames (R440) -/

/-- A big-endian number of `n` bytes from byte `i` of a frame. -/
def beField (bs : List Nat) (i n : Nat) : Nat := ((bs.drop i).take n).foldl (fun a b => 256 * a + b) 0

/-- The Internet checksum's sum of a list of bytes, in 16-bit words with end-around carry. -/
def inetSum : List Nat → Nat → Nat
  | a :: b :: l, t => inetSum l (t + 256 * a + b)
  | [a], t => t + 256 * a
  | [], t => t

/-- The sum folded to 16 bits; a correct checksum makes it 0xFFFF. -/
def inetOk (t : Nat) : Bool := t % 65535 == 0 && t != 0

/-- R440: an IPv4 datagram to `IP_ADDR` from `RS_PEER`, without options, not fragmented, carrying UDP to port `port`. -/
def udpFor (s : State) (bs : List Nat) (port : Nat) : Bool :=
  let udp := beField bs 38 2
  rg s pETH 0x4C != 0 && beField bs 12 2 == 0x0800 && beField bs 14 1 == 0x45 && beField bs 20 2 % 0x4000 == 0 &&
    beField bs 23 1 == 17 && beField bs 30 4 == rg s pETH 0x4C && beField bs 26 4 == rg s pETH 0x54 &&
    beField bs 36 2 == port && decide (8 ≤ udp) && decide (34 + udp ≤ bs.length) && beField bs 16 2 == 20 + udp

/-- R440: are the IP and UDP checksums of the datagram right? A UDP checksum of 0 is none. -/
def sumsOk (bs : List Nat) : Bool :=
  let udp := beField bs 38 2
  inetOk (inetSum ((bs.drop 14).take 20) 0) &&
    (beField bs 40 2 == 0 || inetOk (inetSum ((bs.drop 34).take udp) (inetSum ((bs.drop 26).take 8) (17 + udp))))

/-- The payload of a UDP datagram. -/
def udpPayload (bs : List Nat) : List Nat := (bs.drop 42).take (beField bs 38 2 - 8)

/-- R440: a frame without its FCS goes to the first destination whose condition it meets. -/
def frameIn (bs : List Nat) (fcs : Bool) (ago : Nat) (s : State) : State :=
  if ¬ fcs ∨ bs.length + 4 < 64 ∨ 1522 < bs.length + 4 then ethCount 0 s
  else if beField bs 12 2 = 0x88F7 then ringStore bs (some (ptpAgo s ago)) s
  else if ethEn s 1 ∧ udpFor s bs (fld s pETH 0x50 0 16) then
    (if sumsOk bs then remoteRequest (udpPayload bs) s else ethCount 0 s)
  else if ethEn s 3 ∧ udpFor s bs (fld s pETH 0x50 16 16) then
    (if sumsOk bs then slDatagram (udpPayload bs) s else ethCount 0 s)
  else ringStore bs none s

/-- R440: a frame is received. -/
def execEthFrameReceived (frame : List (BitVec 8)) (fcs : Bool) (ago : Nat) (s : State) : Host.Outcome State Fault Refusal :=
  .next (if powered s ∧ rbit s pETH 0x08 0 ∧ ethLink s ≠ 0 then frameIn (frame.map BitVec.toNat) fcs ago s else s)

end Sys2Proof.Machine
end

