-- ==== Sys2Proof/Machine/Dispatch.lean ====
section
/-! DEFINITION. The dispatch of every command to its meaning. -/
namespace Sys2Proof.Machine

def exec (i : Instr) (s : State) : Host.Outcome State Fault Refusal :=
  match i with
  | .registerWrite acc a v => Sys2Proof.Machine.execRegisterWrite acc a v s
  | .evtFlagsClear acc p v => Sys2Proof.Machine.execEvtFlagsClear acc p v s
  | .evtSet acc p v => Sys2Proof.Machine.execEvtSet acc p v s
  | .rejectClear acc p => Sys2Proof.Machine.execRejectClear acc p s
  | .lockSet acc p => Sys2Proof.Machine.execLockSet acc p s
  | .lockClear acc p key => Sys2Proof.Machine.execLockClear acc p key s
  | .arm acc p => Sys2Proof.Machine.execArm acc p s
  | .disarm acc p => Sys2Proof.Machine.execDisarm acc p s
  | .checkUpdate p => Sys2Proof.Machine.execCheckUpdate p s
  | .profileWrite acc v => Sys2Proof.Machine.execProfileWrite acc v s
  | .wakeStart vin src svcen => Sys2Proof.Machine.execWakeStart vin src svcen s
  | .keyInactive => Sys2Proof.Machine.execKeyInactive s
  | .vinFull vin => Sys2Proof.Machine.execVinFull vin s
  | .vinReduced vin => Sys2Proof.Machine.execVinReduced vin s
  | .vinCritical vin => Sys2Proof.Machine.execVinCritical vin s
  | .brownOut vin => Sys2Proof.Machine.execBrownOut vin s
  | .brownOutSaveDone ok => Sys2Proof.Machine.execBrownOutSaveDone ok s
  | .vinOver vin => Sys2Proof.Machine.execVinOver vin s
  | .shutdown acc v => Sys2Proof.Machine.execShutdown acc v s
  | .shutdownComplete ok => Sys2Proof.Machine.execShutdownComplete ok s
  | .tileRailWrite acc v => Sys2Proof.Machine.execTileRailWrite acc v s
  | .tileEnWrite acc v => Sys2Proof.Machine.execTileEnWrite acc v s
  | .tilePowerGood t => Sys2Proof.Machine.execTilePowerGood t s
  | .tilePowerLimit t => Sys2Proof.Machine.execTilePowerLimit t s
  | .sensorSupplyFault ix => Sys2Proof.Machine.execSensorSupplyFault ix s
  | .vsafeLow => Sys2Proof.Machine.execVsafeLow s
  | .baseplateWarn temp => Sys2Proof.Machine.execBaseplateWarn temp s
  | .baseplateSs1 temp => Sys2Proof.Machine.execBaseplateSs1 temp s
  | .clockLost => Sys2Proof.Machine.execClockLost s
  | .imageVerified resA resB verA verB => Sys2Proof.Machine.execImageVerified resA resB verA verB s
  | .bootNoImage resA resB verA verB => Sys2Proof.Machine.execBootNoImage resA resB verA verB s
  | .serviceImageLoad image res ver => Sys2Proof.Machine.execServiceImageLoad image res ver s
  | .selftestPass => Sys2Proof.Machine.execSelftestPass s
  | .selftestFail tests inj => Sys2Proof.Machine.execSelftestFail tests inj s
  | .restoreComplete bad => Sys2Proof.Machine.execRestoreComplete bad s
  | .goReady acc => Sys2Proof.Machine.execGoReady acc s
  | .autoZeroDone ok => Sys2Proof.Machine.execAutoZeroDone ok s
  | .run acc => Sys2Proof.Machine.execRun acc s
  | .stop acc => Sys2Proof.Machine.execStop acc s
  | .stopDone acc => Sys2Proof.Machine.execStopDone acc s
  | .stopTimeout => Sys2Proof.Machine.execStopTimeout s
  | .ack acc => Sys2Proof.Machine.execAck acc s
  | .reset acc => Sys2Proof.Machine.execReset acc s
  | .scarabResetRequest => Sys2Proof.Machine.execScarabResetRequest s
  | .dbgnrstLow => Sys2Proof.Machine.execDbgnrstLow s
  | .degConditionRise event => Sys2Proof.Machine.execDegConditionRise event s
  | .degConditionClear => Sys2Proof.Machine.execDegConditionClear s
  | .degSetWrite acc v => Sys2Proof.Machine.execDegSetWrite acc v s
  | .confirm acc => Sys2Proof.Machine.execConfirm acc s
  | .advance acc => Sys2Proof.Machine.execAdvance acc s
  | .bankSelWrite acc v => Sys2Proof.Machine.execBankSelWrite acc v s
  | .save acc => Sys2Proof.Machine.execSave acc s
  | .saveComplete ok => Sys2Proof.Machine.execSaveComplete ok s
  | .prime acc => Sys2Proof.Machine.execPrime acc s
  | .detStatClear acc v => Sys2Proof.Machine.execDetStatClear acc v s
  | .stagAlu f op d a b => Sys2Proof.Machine.execStagAlu f op d a b s
  | .stagMul f high d a b => Sys2Proof.Machine.execStagMul f high d a b s
  | .stagDiv f op d a b => Sys2Proof.Machine.execStagDiv f op d a b s
  | .stagLoad f k t a off hit ecc => Sys2Proof.Machine.execStagLoad f k t a off hit ecc s
  | .stagStore f k t a off ecc => Sys2Proof.Machine.execStagStore f k t a off ecc s
  | .stagBranch f op => Sys2Proof.Machine.execStagBranch f op s
  | .stagFpu f op d a b => Sys2Proof.Machine.execStagFpu f op d a b s
  | .stagFdiv f sqrt d a b => Sys2Proof.Machine.execStagFdiv f sqrt d a b s
  | .mfs f d sreg => Sys2Proof.Machine.execMfs f d sreg s
  | .mts f a sreg => Sys2Proof.Machine.execMts f a sreg s
  | .trap f => Sys2Proof.Machine.execTrap f s
  | .retx f => Sys2Proof.Machine.execRetx f s
  | .bar f => Sys2Proof.Machine.execBar f s
  | .wfe f => Sys2Proof.Machine.execWfe f s
  | .cinv f => Sys2Proof.Machine.execCinv f s
  | .cflush f => Sys2Proof.Machine.execCflush f s
  | .nop f => Sys2Proof.Machine.execNop f s
  | .storeBusError x => Sys2Proof.Machine.execStoreBusError x s
  | .interruptEntry x => Sys2Proof.Machine.execInterruptEntry x s
  | .pactEntryWrite acc p v => Sys2Proof.Machine.execPactEntryWrite acc p v s
  | .hiveEventEdge n p => Sys2Proof.Machine.execHiveEventEdge n p s
  | .dmaStart acc c => Sys2Proof.Machine.execDmaStart acc c s
  | .dmaAbort acc c => Sys2Proof.Machine.execDmaAbort acc c s
  | .dmaComplete c n ecc => Sys2Proof.Machine.execDmaComplete c n ecc s
  | .lockstepDetection x cause seg sweep => Sys2Proof.Machine.execLockstepDetection x cause seg sweep s
  | .fastRebootStart x => Sys2Proof.Machine.execFastRebootStart x s
  | .resumed acc x => Sys2Proof.Machine.execResumed acc x s
  | .recoveryCoastStart x => Sys2Proof.Machine.execRecoveryCoastStart x s
  | .recoveryTimeout x => Sys2Proof.Machine.execRecoveryTimeout x s
  | .scrubWord r addr ecc => Sys2Proof.Machine.execScrubWord r addr ecc s
  | .trackEnable acc n => Sys2Proof.Machine.execTrackEnable acc n s
  | .trackDisable acc n => Sys2Proof.Machine.execTrackDisable acc n s
  | .reacq acc n => Sys2Proof.Machine.execReacq acc n s
  | .trackCorrection n => Sys2Proof.Machine.execTrackCorrection n s
  | .trackSourceTimeout n => Sys2Proof.Machine.execTrackSourceTimeout n s
  | .trackCoastExpire n => Sys2Proof.Machine.execTrackCoastExpire n s
  | .hallStandstill n => Sys2Proof.Machine.execHallStandstill n s
  | .slotFire ix => Sys2Proof.Machine.execSlotFire ix s
  | .slotReseatDone ix => Sys2Proof.Machine.execSlotReseatDone ix s
  | .slotActions => Sys2Proof.Machine.execSlotActions s
  | .lockEvent n => Sys2Proof.Machine.execLockEvent n s
  | .setComplete k ws => Sys2Proof.Machine.execSetComplete k ws s
  | .sdRawResult n w => Sys2Proof.Machine.execSdRawResult n w s
  | .sdStuck n => Sys2Proof.Machine.execSdStuck n s
  | .sdClockFault g => Sys2Proof.Machine.execSdClockFault g s
  | .sarScanStart n => Sys2Proof.Machine.execSarScanStart n s
  | .sarConversionDone n uv => Sys2Proof.Machine.execSarConversionDone n uv s
  | .hvsResult ix mv fault => Sys2Proof.Machine.execHvsResult ix mv fault s
  | .resolverSample r sn cs ph => Sys2Proof.Machine.execResolverSample r sn cs ph s
  | .resolverAngleDelivery r => Sys2Proof.Machine.execResolverAngleDelivery r s
  | .resolverFault r b => Sys2Proof.Machine.execResolverFault r b s
  | .encoderEdge ix a b z => Sys2Proof.Machine.execEncoderEdge ix a b z s
  | .encoderDelivery n => Sys2Proof.Machine.execEncoderDelivery n s
  | .hallEdge ix code => Sys2Proof.Machine.execHallEdge ix code s
  | .twEdge j p w => Sys2Proof.Machine.execTwEdge j p w s
  | .sentFrame ix p st ns slow => Sys2Proof.Machine.execSentFrame ix p st ns slow s
  | .zero acc => Sys2Proof.Machine.execZero acc s
  | .zeroDone => Sys2Proof.Machine.execZeroDone s
  | .calStore acc => Sys2Proof.Machine.execCalStore acc s
  | .calStoreDone => Sys2Proof.Machine.execCalStoreDone s
  | .recall acc => Sys2Proof.Machine.execRecall acc s
  | .scrKCompute => Sys2Proof.Machine.execScrKCompute s
  | .engineEnable acc e => Sys2Proof.Machine.execEngineEnable acc e s
  | .engineDisable acc e => Sys2Proof.Machine.execEngineDisable acc e s
  | .mtStart acc e x => Sys2Proof.Machine.execMtStart acc e x s
  | .mtClear acc e => Sys2Proof.Machine.execMtClear acc e s
  | .engineStart e => Sys2Proof.Machine.execEngineStart e s
  | .engineHeldStart e => Sys2Proof.Machine.execEngineHeldStart e s
  | .lds e => Sys2Proof.Machine.execLds e s
  | .ldx e ecc => Sys2Proof.Machine.execLdx e ecc s
  | .sts e => Sys2Proof.Machine.execSts e s
  | .mvm e => Sys2Proof.Machine.execMvm e s
  | .mvmz e => Sys2Proof.Machine.execMvmz e s
  | .vadd e => Sys2Proof.Machine.execVadd e s
  | .vsub e => Sys2Proof.Machine.execVsub e s
  | .vmul e => Sys2Proof.Machine.execVmul e s
  | .acv e => Sys2Proof.Machine.execAcv e s
  | .scs e => Sys2Proof.Machine.execScs e s
  | .rot e => Sys2Proof.Machine.execRot e s
  | .lim e => Sys2Proof.Machine.execLim e s
  | .clamp e => Sys2Proof.Machine.execClamp e s
  | .duty e => Sys2Proof.Machine.execDuty e s
  | .commit e => Sys2Proof.Machine.execCommit e s
  | .inj e => Sys2Proof.Machine.execInj e s
  | .cap e => Sys2Proof.Machine.execCap e s
  | .waite e => Sys2Proof.Machine.execWaite e s
  | .waiteTimeout e => Sys2Proof.Machine.execWaiteTimeout e s
  | .br e => Sys2Proof.Machine.execBr e s
  | .brf e => Sys2Proof.Machine.execBrf e s
  | .loop e => Sys2Proof.Machine.execLoop e s
  | .halt e => Sys2Proof.Machine.execHalt e s
  | .profWindowEnd => Sys2Proof.Machine.execProfWindowEnd s
  | .commitArrival e => Sys2Proof.Machine.execCommitArrival e s
  | .carrierEnable acc n => Sys2Proof.Machine.execCarrierEnable acc n s
  | .carrierZeroEvent n => Sys2Proof.Machine.execCarrierZeroEvent n s
  | .carrierPeriodEvent n => Sys2Proof.Machine.execCarrierPeriodEvent n s
  | .chainResync n => Sys2Proof.Machine.execChainResync n s
  | .gcommit acc n => Sys2Proof.Machine.execGcommit acc n s
  | .legEnable acc m => Sys2Proof.Machine.execLegEnable acc m s
  | .debtclr acc m => Sys2Proof.Machine.execDebtclr acc m s
  | .force acc m v => Sys2Proof.Machine.execForce acc m v s
  | .forceApply m => Sys2Proof.Machine.execForceApply m s
  | .bootstrapRefresh m => Sys2Proof.Machine.execBootstrapRefresh m s
  | .genpSet acc t => Sys2Proof.Machine.execGenpSet acc t s
  | .gateEnableWithdrawn t bySafety => Sys2Proof.Machine.execGateEnableWithdrawn t bySafety s
  | .channelUvlo c r => Sys2Proof.Machine.execChannelUvlo c r s
  | .channelUvloRecover c r => Sys2Proof.Machine.execChannelUvloRecover c r s
  | .bootstrapLow j v => Sys2Proof.Machine.execBootstrapLow j v s
  | .hardTrip c ovld => Sys2Proof.Machine.execHardTrip c ovld s
  | .ovldTrip c => Sys2Proof.Machine.execOvldTrip c s
  | .softTurnoffEnd c => Sys2Proof.Machine.execSoftTurnoffEnd c s
  | .hiccupRestart k => Sys2Proof.Machine.execHiccupRestart k s
  | .pairResume k => Sys2Proof.Machine.execPairResume k s
  | .faultWindowClose g => Sys2Proof.Machine.execFaultWindowClose g s
  | .channelMeasurement c isns vds => Sys2Proof.Machine.execChannelMeasurement c isns vds s
  | .ntcConversion n ohms => Sys2Proof.Machine.execNtcConversion n ohms s
  | .brakeEnable acc n on => Sys2Proof.Machine.execBrakeEnable acc n on s
  | .brakeOnCrossing n => Sys2Proof.Machine.execBrakeOnCrossing n s
  | .brakeOffCrossing n => Sys2Proof.Machine.execBrakeOffCrossing n s
  | .brakeEnergyUpdate => Sys2Proof.Machine.execBrakeEnergyUpdate s
  | .dcLinkOvTrip => Sys2Proof.Machine.execDcLinkOvTrip s
  | .dcLinkOvRelease => Sys2Proof.Machine.execDcLinkOvRelease s
  | .dcLinkUv => Sys2Proof.Machine.execDcLinkUv s
  | .dfEnable acc ix => Sys2Proof.Machine.execDfEnable acc ix s
  | .dfDisable acc ix => Sys2Proof.Machine.execDfDisable acc ix s
  | .dfStart acc ix => Sys2Proof.Machine.execDfStart acc ix s
  | .dfStop acc ix => Sys2Proof.Machine.execDfStop acc ix s
  | .dfClear acc ix => Sys2Proof.Machine.execDfClear acc ix s
  | .dfCycle ix => Sys2Proof.Machine.execDfCycle ix s
  | .dfSlotDraw ix => Sys2Proof.Machine.execDfSlotDraw ix s
  | .dfTargetReached ix => Sys2Proof.Machine.execDfTargetReached ix s
  | .dfHiccupRestart ix => Sys2Proof.Machine.execDfHiccupRestart ix s
  | .hbEnable acc => Sys2Proof.Machine.execHbEnable acc s
  | .hbCycle => Sys2Proof.Machine.execHbCycle s
  | .chgStart acc => Sys2Proof.Machine.execChgStart acc s
  | .chgStop acc => Sys2Proof.Machine.execChgStop acc s
  | .chgAck acc => Sys2Proof.Machine.execChgAck acc s
  | .pilotPeriod hi lo d per => Sys2Proof.Machine.execPilotPeriod hi lo d per s
  | .pilotStateChange => Sys2Proof.Machine.execPilotStateChange s
  | .ppChange ohms => Sys2Proof.Machine.execPpChange ohms s
  | .aduEnable acc u => Sys2Proof.Machine.execAduEnable acc u s
  | .aduStart acc u => Sys2Proof.Machine.execAduStart acc u s
  | .aduStop acc u => Sys2Proof.Machine.execAduStop acc u s
  | .aduCycle u => Sys2Proof.Machine.execAduCycle u s
  | .aduHiccupRestart u => Sys2Proof.Machine.execAduHiccupRestart u s
  | .peakTimeout => Sys2Proof.Machine.execPeakTimeout s
  | .engageTimeout => Sys2Proof.Machine.execEngageTimeout s
  | .releasePermissionWithdrawn => Sys2Proof.Machine.execReleasePermissionWithdrawn s
  | .kdEnable acc k => Sys2Proof.Machine.execKdEnable acc k s
  | .kdDisable acc k => Sys2Proof.Machine.execKdDisable acc k s
  | .canIntegrationDone k => Sys2Proof.Machine.execCanIntegrationDone k s
  | .txReq acc k m => Sys2Proof.Machine.execTxReq acc k m s
  | .txCancel acc k m => Sys2Proof.Machine.execTxCancel acc k m s
  | .txFrameStart k => Sys2Proof.Machine.execTxFrameStart k s
  | .txAttemptEnd k out err eights tdc age => Sys2Proof.Machine.execTxAttemptEnd k out err eights tdc age s
  | .canFrameReceived k f low age => Sys2Proof.Machine.execCanFrameReceived k f low age s
  | .canError k px data code quiet eights => Sys2Proof.Machine.execCanError k px data code quiet eights s
  | .canRecoveryDone k => Sys2Proof.Machine.execCanRecoveryDone k s
  | .canRecover acc k => Sys2Proof.Machine.execCanRecover acc k s
  | .rxfPop acc k f => Sys2Proof.Machine.execRxfPop acc k f s
  | .clrcnt acc k => Sys2Proof.Machine.execClrcnt acc k s
  | .canSleep acc k => Sys2Proof.Machine.execCanSleep acc k s
  | .canSleepEntry k => Sys2Proof.Machine.execCanSleepEntry k s
  | .canWakeCommand acc k => Sys2Proof.Machine.execCanWakeCommand acc k s
  | .canWakeDetected k w vin svcen => Sys2Proof.Machine.execCanWakeDetected k w vin svcen s
  | .phyLinkChange link sqi => Sys2Proof.Machine.execPhyLinkChange link sqi s
  | .phyModeSwitch => Sys2Proof.Machine.execPhyModeSwitch s
  | .ethFrameReceived frame fcs ago => Sys2Proof.Machine.execEthFrameReceived frame fcs ago s
  | .ethTxDone => Sys2Proof.Machine.execEthTxDone s
  | .remoteRequest payload => Sys2Proof.Machine.execRemoteRequest payload s
  | .slDatagram payload => Sys2Proof.Machine.execSlDatagram payload s
  | .streamDatagramSend => Sys2Proof.Machine.execStreamDatagramSend s
  | .ptpStep acc v => Sys2Proof.Machine.execPtpStep acc v s
  | .timeNsRead acc => Sys2Proof.Machine.execTimeNsRead acc s
  | .ptpTimestamp ago id => Sys2Proof.Machine.execPtpTimestamp ago id s
  | .tsPop acc => Sys2Proof.Machine.execTsPop acc s
  | .fwProg acc => Sys2Proof.Machine.execFwProg acc s
  | .fwProgDone ok => Sys2Proof.Machine.execFwProgDone ok s
  | .scarabSelftestDone ok => Sys2Proof.Machine.execScarabSelftestDone ok s
  | .scarabCheckDone => Sys2Proof.Machine.execScarabCheckDone s
  | .scarabSupplyFault => Sys2Proof.Machine.execScarabSupplyFault s
  | .scarabSupplyRecover => Sys2Proof.Machine.execScarabSupplyRecover s
  | .scarabCycle a0 a1 => Sys2Proof.Machine.execScarabCycle a0 a1 s
  | .ss1Timeout z => Sys2Proof.Machine.execSs1Timeout z s
  | .safetyInputSample a b => Sys2Proof.Machine.execSafetyInputSample a b s
  | .testPulse n ok => Sys2Proof.Machine.execTestPulse n ok s
  | .soutSwitchTest n fault load => Sys2Proof.Machine.execSoutSwitchTest n fault load s
  | .speedCrosscheck a0 a1 => Sys2Proof.Machine.execSpeedCrosscheck a0 a1 s
  | .scarabContinuousCheck workOk => Sys2Proof.Machine.execScarabContinuousCheck workOk s
  | .safetyPduReceived port pdu => Sys2Proof.Machine.execSafetyPduReceived port pdu s
  | .verdict acc v => Sys2Proof.Machine.execVerdict acc v s
  | .verdictTimeout => Sys2Proof.Machine.execVerdictTimeout s
  | .connectionExpiry c => Sys2Proof.Machine.execConnectionExpiry c s
  | .outPduProduce c => Sys2Proof.Machine.execOutPduProduce c s
  | .load acc => Sys2Proof.Machine.execLoad acc s
  | .candidateChecked => Sys2Proof.Machine.execCandidateChecked s
  | .commissionStoreDone => Sys2Proof.Machine.execCommissionStoreDone s
  | .vthMeasurement c v => Sys2Proof.Machine.execVthMeasurement c v s
  | .ronWindow t j lo up => Sys2Proof.Machine.execRonWindow t j lo up s
  | .zthRecord t => Sys2Proof.Machine.execZthRecord t s
  | .capMeasurement d20 d60 => Sys2Proof.Machine.execCapMeasurement d20 d60 s
  | .scrDriftWindow t j lo => Sys2Proof.Machine.execScrDriftWindow t j lo s
  | .xtalReading => Sys2Proof.Machine.execXtalReading s
  | .preview acc => Sys2Proof.Machine.execPreview acc s
  | .ledgerReset acc => Sys2Proof.Machine.execLedgerReset acc s
  | .spareGo acc => Sys2Proof.Machine.execSpareGo acc s
  | .spareWaitDone => Sys2Proof.Machine.execSpareWaitDone s
  | .tagclr acc x => Sys2Proof.Machine.execTagclr acc x s
  | .pmcOverflow x n => Sys2Proof.Machine.execPmcOverflow x n s
  | .cycleLoRead acc x n => Sys2Proof.Machine.execCycleLoRead acc x n s
  | .bwWindowEnd counts => Sys2Proof.Machine.execBwWindowEnd counts s
  | .bwThreshold p => Sys2Proof.Machine.execBwThreshold p s
  | .auth acc => Sys2Proof.Machine.execAuth acc s
  | .debugHalt acc t => Sys2Proof.Machine.execDebugHalt acc t s
  | .debugResume acc t => Sys2Proof.Machine.execDebugResume acc t s
  | .debugStep acc t => Sys2Proof.Machine.execDebugStep acc t s
  | .dbgRvalWrite acc v => Sys2Proof.Machine.execDbgRvalWrite acc v s
  | .posRead acc n => Sys2Proof.Machine.execPosRead acc n s
  | .angleRead acc r => Sys2Proof.Machine.execAngleRead acc r s
  | .sentDataRead acc ix => Sys2Proof.Machine.execSentDataRead acc ix s
  | .vinMeasRead acc => Sys2Proof.Machine.execVinMeasRead acc s
  | .clockRestored => Sys2Proof.Machine.execClockRestored s
  | .vsafeRecovered => Sys2Proof.Machine.execVsafeRecovered s
  | .baseplateLevelClear temp => Sys2Proof.Machine.execBaseplateLevelClear temp s
  | .compareCrossing m rise frac => Sys2Proof.Machine.execCompareCrossing m rise frac s
  | .carrierDisable acc n => Sys2Proof.Machine.execCarrierDisable acc n s
  | .legDisable acc m => Sys2Proof.Machine.execLegDisable acc m s
  | .hbDisable acc => Sys2Proof.Machine.execHbDisable acc s
  | .aduDisable acc u => Sys2Proof.Machine.execAduDisable acc u s
  | .illegalInstruction f => Sys2Proof.Machine.execIllegalInstruction f s

end Sys2Proof.Machine
end

