-- ==== Sys2Proof/Machine/Tick.lean ====
section
/-! DEFINITION. What a PCLK tick brings to every block by itself (R8, R165, R176, R281, R332, R367, R442, R517). -/
namespace Sys2Proof.Machine

/-- R165, R176, R294, R417: the end of the present tick: the decisions of `ADU.2`, which a withdrawal of Scarab's in the tick precedes,
corrections that wait, slot residuals on the angles before the advance, track
positions, the calibration of sets that are complete, carrier events, leg edges and counters, gate channels, brake outputs, current references, frames at full FIFOs, PTP time, the cycles
of the pairs and the passes of their sweeps. -/
def tickEnd (s : State) : State :=
  let s1 := setsTick (forRange 8 trackTick (slotsTick (forRange 8 correct (aduTick 2 s))))
  let s2 := brakeTick (ironTick (fireflyTick s1))
  forRange 2 sweepTick <| forRange 4 mtTickEnd <| bwTick (forRange 2 antTick (ptpTick (forRange 4 kdSettle (forRange 2 dfTick s2))))

/-- R182, R193, R238, R285, R294, R301, R380, R408: the beginning of a tick: SAR results that are ready, ends of Mantis runs, legs whose
causes have all cleared wait for a zero event, carriers enabled in the last tick start, lock events deliver, chained resyncs act, values
and forces due in the tick reach their legs, the safe states whose causes arose in the last tick are entered, and the decisions of Honeybee and of `ADU.0` and `ADU.1` due in the tick are
made. -/
def tickBegin (s : State) : State :=
  forRange 2 aduTick <| hbTick <| safeLegs <| forRange 32 legBegin <| chainSync <| forRange 8 lockDeliver <| carStarts <|
    forRange 32 safeClear <| forRange 4 mtSync <| forRange 4 sarDue s

/-- R8, R83: one tick of PCLK: the present tick ends, and with it the coincidences that count as one tick; TICK advances. Without
power only time passes. -/
def pclk (s : State) : State :=
  if powered s then
    (let s1 := tickEnd s
     tickBegin { s1 with armNow := [], disNow := [], now := {}, tick := (s1.tick + 1) % 2 ^ 64 })
  else { s with now := {}, tick := (s.tick + 1) % 2 ^ 64 }

end Sys2Proof.Machine
end

