-- ==== Sys2Proof/Safety.lean ====
section
/-! DEFINITION. The terms the statements use: an access that reaches its page, a command that gives a next state with a property, and
what a command leaves as it was. -/
namespace Sys2Proof.Machine

/-- The command answers a next state that has the property. -/
def Gives (c : Instr) (s : State) (P : State → Prop) : Prop := ∃ t, exec c s = .next t ∧ P t

/-- R67, R31, R70, R122: an access to offset `o` of page `p` reaches the page: the logic is powered, the debug port is not shut, the
page exists and PACT grants the access. -/
abbrev Reaches (s : State) (acc : Access) (p o : Nat) (wr : Bool) : Prop :=
  powered s = true ∧ portShut s acc p o = false ∧ (pageOf p).isSome = true ∧ pactAllows s acc p wr = true

/-- What stands outside the registers and the blocks' own state is as it was: every byte of memory, the non-volatile parts, the
registers of the Stag pairs, the time, the queue and the ordering code. -/
def SameCore (s t : State) : Prop :=
  (∀ a, mget t.mem a = mget s.mem a) ∧ t.nv = s.nv ∧ t.stag = s.stag ∧ t.tick = s.tick ∧ t.pending = s.pending ∧ t.variant = s.variant

/-- Every register is as it was. -/
def SameRegs (s t : State) : Prop := ∀ p o, rg t p o = rg s p o

/-- Every register but those listed, as (page, offset), is as it was. -/
def OnlyRegs (ws : List (Nat × Nat)) (s t : State) : Prop := ∀ p o, o < 4096 → (p, o) ∉ ws → rg t p o = rg s p o

/-- Every register of the system pages (below 0x20) but those listed is as it was. -/
def OnlySystem (ws : List (Nat × Nat)) (s t : State) : Prop :=
  ∀ p o, p < 0x20 → o < 4096 → (p, o) ∉ ws → rg t p o = rg s p o

/-- Every register outside the pages listed is as it was. -/
def OnlyPages (ps : List Nat) (s t : State) : Prop := ∀ p o, o < 4096 → p ∉ ps → rg t p o = rg s p o

/-- R85, R86: the state of a refused write: `REJECT` and `REJ` of the page, and nothing else, with no bus error; the
monitors of Antline and BWMON have seen the access (R518, R523). -/
def Refused (acc : Access) (p o v : Nat) (r : Reason) (s t : State) : Prop :=
  t = { refuse acc p o v r s with reply := ⟨0, false⟩, bw := t.bw, ant := t.ant }

/-- R90: no transition of the device state has begun in the present tick. -/
abbrev Settled (s : State) : Prop := s.now.trans = none

/-- Every byte of memory is as it was. -/
def SameMem (s t : State) : Prop := ∀ a, mget t.mem a = mget s.mem a

/-- The command leaves the state as it was. -/
def Idle (c : Instr) (s : State) : Prop := exec c s = .next s

/-! ## Groups of pages -/

def atPages : List Nat := List.range' 0x20 8
def slotPages : List Nat := [0x28, 0x29]
def carPages : List Nat := List.range' 0x50 16
def legPages : List Nat := List.range' 0x60 32
def icPages : List Nat := List.range' 0x80 8

/-- The pages of the drives: the legs, their tiles, the Dragonfly instances, Honeybee and the pilot unit. -/
def drivePages : List Nat := legPages ++ icPages ++ [pDF 0, pDF 1, pHB, pPILOT]

/-- The pages that a change of the device state can reach: the drives, the actuator units, the CAN controllers enabled before HELD, the
substitution, a programming run and the device state itself. -/
def statePages : List Nat :=
  drivePages ++ [pADU 0, pADU 1, pADU 2, pKD 0, pKD 1, pKD 2, pKD 3, pSPARE, pETH, pSYS]

/-- The pages of the tracks, and of what follows a track: its slots and the carriers it locks. -/
def trackPages : List Nat := atPages ++ slotPages ++ carPages

/-- What stands outside the registers and the blocks' own state, but for memory. -/
def SameRest (s t : State) : Prop :=
  t.nv = s.nv ∧ t.stag = s.stag ∧ t.tick = s.tick ∧ t.pending = s.pending ∧ t.variant = s.variant

/-! ## The Stag pairs -/

/-- R108, R113: the pair of `f` executes and its fetch finds a good word that the MPU, PACT and the map let it have; no word of any
memory is upset (R142). -/
abbrev Issues (f : Fetch) (s : State) : Prop :=
  f.ecc = .good ∧ s.upset = [] ∧ pairIx f.pair < s.stag.length ∧ stagRuns s (pairIx f.pair) = true ∧
    mpuAllows s (pairIx f.pair) 16 (stagPc s (pairIx f.pair)) = true ∧
    stagBusErr s (pairIx f.pair) (stagPc s (pairIx f.pair)) 4 false = false

/-- A command of pair `x` leaves the other pair, the non-volatile parts, time, queue and ordering code as they were. -/
def PairOnly (x : Nat) (s t : State) : Prop :=
  (∀ y, y ≠ x → stagH t y = stagH s y) ∧ t.nv = s.nv ∧ t.tick = s.tick ∧ t.pending = s.pending ∧ t.variant = s.variant

/-- An instruction of pair `x` has retired: the pair holds `h` with the word-aligned next program counter and no debug step left to
make, memory is as it was, and of the registers only Antline's counters and tags (R517, R519) and the flag of a debug step (R527)
have changed. -/
def Retired (x next : Nat) (h : StagHid) (s t : State) : Prop :=
  stagH t x = { h with pc := next % 2 ^ 32 / 4 * 4, step := false } ∧ SameMem s t ∧ OnlyPages [pANT x, pDEBUG] s t ∧ PairOnly x s t

/-- R114: pair `x` has entered exception `code`, to resume at `epc`: `STATUS` copied to `ESTATUS`, the caste Queen, `EXL` 1, the
program counter at the vector, `ECAUSE` written; its other registers but `EADDR` as they were. -/
def Entered (x code event : Nat) (pact wr fetch : Bool) (epc : Nat) (s t : State) : Prop :=
  stagH t x = { stagH s x with
    estatus := (stagH s x).status, epc := epc % 2 ^ 32, pc := ((stagH s x).vbase / 4096 * 4096 + 64 * code) % 2 ^ 32 / 4 * 4
    ecause := code + 2 ^ 8 * event + 2 ^ 16 * b2n pact + 2 ^ 17 * b2n wr + 2 ^ 18 * b2n fetch
    eaddr := (stagH t x).eaddr, status := putBits (putBits (stagH s x).status 0 2 0) 3 1 1
    errs := (stagH t x).errs, step := (stagH t x).step } ∧ PairOnly x s t

/-! ## The Mantis engines -/

/-- R238, R242, R243: engine `e` is in RUN, its next instruction, whose turn comes in the present tick, is the word `w` of opcode `op`,
not at the last program address, and no word of any memory is upset (R142). -/
abbrev MtReady (e op w : Nat) (s : State) : Prop :=
  powered s = true ∧ e < s.mt.length ∧ mtIssues s e = true ∧ s.upset = [] ∧ w = progWord s e (mtPc s e) ∧ w / 2 ^ 58 = op ∧ mtPc s e < 4095

/-- R143, R239: engine `e` has met an uncorrectable word: `E021` stands, issue has ended, and the run ends, or has ended, with an engine error
of cause 4. -/
abbrev MtWordError (e : Nat) (s t : State) : Prop :=
  rbit t pMEMCTL 0x10 1 = true ∧ mtIssues t e = false ∧
  ((mtH t e).ending.map MtEnd.err = some 4 ∨ (mtState t e = mtERROR ∧ fld t (pMT e) 0x9C 0 4 = 4)) ∧ SameRest s t

/-- R243: an instruction of engine `e` has issued: in `u` its results `effs` wait for its retire cycle behind those that waited before, and
no loop ending here, the engine goes on to the next address; nothing else has changed. What has then retired before the present tick
takes effect. -/
def MtIssued (e : Nat) (effs : List MtEff) (s t : State) : Prop :=
  ∃ u, t = mtSettle e u ∧ (mtH u e).pend.getLast?.map MtPend.effs = some effs ∧ (mtH u e).pend.dropLast = (mtH s e).pend ∧
    (loopAt (mtH s e) (mtPc s e) = none → mtPc u e = mtPc s e + 1) ∧ (∀ f, f ≠ e → mtH u f = mtH s f) ∧
    OnlyRegs [(pMT e, 0x88)] s u ∧ SameCore s u

end Sys2Proof.Machine
end

