-- ==== Sys2Proof/Certificates/Slice0/Obligations.lean ====
section
/-! DEFINITION. The statements for the provers. Each says which next state a command gives, under hypotheses on the state and the
operands alone, and what it leaves as it was. -/
open Sys2Proof Sys2Proof.Machine

/-- For every state and every access that reaches SYS:PROFILE. In HELD, on an unlocked page, a value whose PROF is 0b00 or 0b01
becomes PROF, the other fields as they were, with no bus error. In every state but HELD, and for the values 0b10 and 0b11 in
every state, PROF (the whole register) keeps its previous value, SYS:REJECT records the refusal (VALID, the offset, the low
byte of the value written), REJ is set, no other register changes and there is no bus error. Memory, non-volatile parts, the
pairs, time and queue stay as they were. -/
def Obligations.ProfileIsWrittenOnlyInHeld : Prop :=
  ∀ (s : State) (acc : Access) (v : BitVec 32), Reaches s acc pSYS 0x40 true →
    (devState s = .held → bits v.toNat 0 2 < 2 → locked s pSYS = false → Gives (.profileWrite acc v) s fun t =>
      fld t pSYS 0x40 0 2 = bits v.toNat 0 2 ∧ fld t pSYS 0x40 4 2 = fld s pSYS 0x40 4 2 ∧ t.reply = ⟨0, false⟩ ∧
        OnlyRegs [(pSYS, 0x40), (pSYS, 0x0C), (pSYS, 0x8C), (pCOCOON, 0x60), (pCOCOON, 0x40)] s t ∧ SameCore s t) ∧
    (devState s ≠ .held ∨ 2 ≤ bits v.toNat 0 2 → Gives (.profileWrite acc v) s fun t =>
      rg t pSYS 0x40 = rg s pSYS 0x40 ∧ rbit t pSYS 0x20 31 = true ∧ fld t pSYS 0x20 0 12 = 0x40 ∧ fld t pSYS 0x20 16 8 = v.toNat % 256 ∧
        rbit t pSYS 0x10 31 = true ∧ t.reply = ⟨0, false⟩ ∧ OnlyRegs [(pSYS, 0x20), (pSYS, 0x10)] s t ∧ SameCore s t)

/-- For every command and state, a step of the state with the command put at the front of its queue is the command's execution on
that state, whose queue is the rest. -/
def Obligations.StepRunsTheFrontCommand : Prop :=
  ∀ (c : Instr) (s : State), step { s with pending := c :: s.pending } = exec c s

/-- On an empty queue a step answers the state after one tick of PCLK; where the logic is not powered, TICK advances, modulo 2^64,
the record of the tick's events starts empty, and nothing else changes. That time passes on an empty queue is the model's own
choice (log entry 38). -/
def Obligations.EmptyQueueLetsATickPass : Prop :=
  ∀ s : State, s.pending = [] → step s = .next (pclk s) ∧
    (powered s = false → step s = .next { s with now := {}, tick := (s.tick + 1) % 2 ^ 64 })

/-- From every state whose memory is in canonical form (addresses strictly rising, no byte listed that equals what an unlisted
address reads as), a step that answers a next state answers one whose memory is in canonical form, whatever command is
executed. -/
def Obligations.MemoryStaysCanonical : Prop :=
  ∀ s t : State, Memory.wf s.mem = true → step s = .next t → Memory.wf t.mem = true

/-- A step that answers a next state leaves as queue exactly what stood behind the front command, and leaves the part's ordering
code as it was, whatever command is executed: no command posts, drops or reorders another, and no command makes the part
another variant. -/
def Obligations.QueueIsFirstInFirstOut : Prop :=
  ∀ s t : State, step s = .next t → t.pending = s.pending.tail ∧ t.variant = s.variant

/-- In the reset state the device is in OFF and not powered, the queue is empty, the memory is in canonical form and lists
nothing, every register of every page reads its factory value, and both image slots are empty. (That the non-volatile memories
are blank is the model's choice, log entry 8.) -/
def Obligations.ResetIsAPartWithoutPower : Prop :=
  devState State.reset = .off ∧ powered State.reset = false ∧ State.reset.pending = [] ∧ State.reset.mem = [] ∧
    Memory.wf State.reset.mem = true ∧ State.reset.nv.slot0 = none ∧ State.reset.nv.slot1 = none ∧
    ∀ p o, rg State.reset p o = factoryAt 1 (p * 4096 + o) % 2 ^ 32

/-- For a page other than the windows of Scarab and an access that reaches it: EVT_FLAGS_CLEAR leaves the flags with the bits
written cleared, but for those hardware has set in the same tick; EVT_SET sets those of the page's flags that the value names;
REJECT_CLEAR leaves REJECT 0, or, where the page has recorded a refusal in the same tick, that refusal with OVR 0; LOCK_SET
leaves LCK 1; LOCK_CLEAR by a Queen with the key 0x51A6 leaves LCK 0, and by any other master, or with another key, on a
locked page it is refused with reason LOCKED. Each ends without a bus error, changes the one register named and leaves memory,
the non-volatile parts, the Stag pairs, time and queue as they were. -/
def Obligations.HeaderWritesActOnTheirPage : Prop :=
  ∀ (s : State) (acc : Access) (p : Fin 256) (k : PageKind) (i : Nat), pageOf p = some (k, i) → k ≠ .scarab →
    (∀ v : BitVec 32, Reaches s acc p 0x10 true → Gives (.evtFlagsClear acc p v) s fun t =>
      rg t p 0x10 = clrN (rg s p 0x10) (clrN v.toNat (flagsNow s p)) ∧ t.reply = ⟨0, false⟩ ∧ OnlyRegs [(p, 0x10)] s t ∧ SameCore s t) ∧
    (∀ v : BitVec 32, Reaches s acc p 0x18 true → Gives (.evtSet acc p v) s fun t =>
      rg t p 0x10 = orN (rg s p 0x10) (v.toNat &&& (flagMask k + 2 ^ 31)) ∧ t.reply = ⟨0, false⟩ ∧ OnlyRegs [(p, 0x10)] s t ∧
        SameCore s t) ∧
    (Reaches s acc p 0x20 true → Gives (.rejectClear acc p) s fun t =>
      (s.now.rej.contains (p : Nat) = false → rg t p 0x20 = 0) ∧ rbit t p 0x20 12 = false ∧ t.reply = ⟨0, false⟩ ∧ OnlyRegs [(p, 0x20)] s t ∧ SameCore s t) ∧
    (Reaches s acc p 0x24 true → Gives (.lockSet acc p) s fun t =>
      locked t p = true ∧ t.reply = ⟨0, false⟩ ∧ OnlyRegs [(p, 0x24)] s t ∧ SameCore s t) ∧
    (∀ key : BitVec 16, Reaches s acc p 0x24 true → Gives (.lockClear acc p key) s fun t =>
      (isQueen acc = true → key = 0x51A6#16 → locked t p = false ∧ OnlyRegs [(p, 0x24)] s t) ∧
      (locked s p = true → isQueen acc = false ∨ key ≠ 0x51A6#16 → Refused acc p 0x24 (key.toNat * 2 ^ 16) .locked s t) ∧
      t.reply = ⟨0, false⟩ ∧ SameCore s t)

/-- On a page other than a window of Scarab, for an access that reaches it, ARM leaves ARMED 1 where the page's own check of the
pending values passes (every page but SLOTS, SETS, MTSHARED and CAL has none), and DISARM leaves ARMED 0. CHECK_UPDATE of a
page whose CHKB is 1 stores the recomputed check value and clears CHKB. PACT_ENTRY_WRITE to an entry that is not fixed, on a
PACT page that is not locked, stores the grants in the entry; to a fixed entry it is refused with VALUE. Memory, the non-
volatile parts, the Stag pairs, time and queue stay as they were. -/
def Obligations.EpochArmAndDisarm : Prop :=
  ∀ (s : State) (acc : Access) (p : Fin 256) (k : PageKind) (i : Nat), pageOf p = some (k, i) →
    (k ≠ .scarab ∧ Reaches s acc p 0x28 true →
      (epochChk s k (if k = .slots then i else p) (epochWord s p 0x10000) 0 0 = none →
        Gives (.arm acc p) s fun t => armed t p = true ∧ t.reply = ⟨0, false⟩ ∧ OnlyRegs [(p, 0x28)] s t ∧ SameCore s t) ∧
      (Gives (.disarm acc p) s fun t => armed t p = false ∧ t.reply = ⟨0, false⟩ ∧ OnlyRegs [(p, 0x28)] s t ∧ SameCore s t)) ∧
    (powered s = true ∧ rbit s p 0x0C 11 = true → Gives (.checkUpdate p) s fun t =>
      rg t p 0x2C = checkNow s p % 2 ^ 32 ∧ rbit t p 0x0C 11 = false ∧ OnlyRegs [(p, 0x0C), (p, 0x2C)] s t ∧ SameCore s t) ∧
    (∀ v : BitVec 32, Reaches s acc pPACT (0x400 + 4 * p) true → Gives (.pactEntryWrite acc p v) s fun t =>
      t.reply = ⟨0, false⟩ ∧ SameCore s t ∧
      (pactFixed p = false → locked s pPACT = false → rg t pPACT (0x400 + 4 * p) &&& 0x3FF3F3F = v.toNat &&& 0x3FF3F3F) ∧
      (pactFixed p = true → locked s pPACT = false → Refused acc pPACT (0x400 + 4 * p) v.toNat .value s t))

/-- With the logic powered, a 32-bit write of any master but a locked debug port to an aligned address of SRAM ends without a bus
error, stores the bytes of the value with the least significant at the lowest address, leaves every other byte of memory and
every register as they were. -/
def Obligations.MemoryWritesAreLittleEndian : Prop :=
  ∀ (s : State) (acc : Access) (a v : BitVec 32), powered s = true → (acc.master = .debug → rbit s pDEBUG 0x40 0 = true) →
    0x20000000 ≤ a.toNat → a.toNat < 0x20200000 → a.toNat % 4 = 0 →
    Gives (.registerWrite acc a v) s fun t =>
      (∀ j, j < 4 → mget t.mem (a.toNat + j) = v.toNat / 256 ^ j % 256) ∧
      (∀ b, b < a.toNat ∨ a.toNat + 4 ≤ b → mget t.mem b = mget s.mem b) ∧
      SameRegs s t ∧ t.reply = ⟨0, false⟩ ∧ t.nv = s.nv ∧ t.stag = s.stag ∧ t.tick = s.tick

/-- With the logic powered: VIN_FULL from REDUCED or OVER leaves the band FULL; VIN_REDUCED from FULL, CRITICAL or OVER leaves it
REDUCED with flag 1 set; VIN_OVER from FULL or REDUCED leaves it OVER with flag 4 set; each records the measured VIN.
VIN_CRITICAL from FULL, REDUCED or OVER leaves it CRITICAL with flag 2 set and takes a device in HELD, READY, RUN, DEGRADED or
STOPPING, where no other transition meets it in the tick, to SAFE with cause 3. KEY_INACTIVE sets flag 5 of SUPPLY and nothing
else. The other registers of the system pages, memory, the non-volatile parts, the Stag pairs, time and queue stay as they
were. -/
def Obligations.SupplyBandsFollowVin : Prop :=
  ∀ (s : State) (vin : Nat), powered s = true →
    (band s = 1 ∨ band s = 4 → Gives (.vinFull vin) s fun t =>
      band t = 0 ∧ fld t pSUPPLY 0x40 0 16 = vin % 2 ^ 16 ∧ OnlySystem [(pSUPPLY, 0x40), (pSUPPLY, 0x44)] s t ∧ SameCore s t) ∧
    (band s = 0 ∨ band s = 2 ∨ band s = 4 → Gives (.vinReduced vin) s fun t =>
      band t = 1 ∧ rbit t pSUPPLY 0x10 1 = true ∧ fld t pSUPPLY 0x40 0 16 = vin % 2 ^ 16 ∧
        OnlySystem [(pSUPPLY, 0x40), (pSUPPLY, 0x44), (pSUPPLY, 0x10)] s t ∧ SameCore s t) ∧
    (band s = 0 ∨ band s = 1 → Gives (.vinOver vin) s fun t =>
      band t = 4 ∧ rbit t pSUPPLY 0x10 4 = true ∧ fld t pSUPPLY 0x40 0 16 = vin % 2 ^ 16 ∧
        OnlySystem [(pSUPPLY, 0x40), (pSUPPLY, 0x44), (pSUPPLY, 0x10)] s t ∧ SameCore s t) ∧
    (band s = 0 ∨ band s = 1 ∨ band s = 4 → Gives (.vinCritical vin) s fun t =>
      band t = 2 ∧ rbit t pSUPPLY 0x10 2 = true ∧ SameCore s t ∧
        OnlySystem [(pSUPPLY, 0x40), (pSUPPLY, 0x44), (pSUPPLY, 0x10), (pSYS, 0x44), (pSYS, 0x10), (pSYS, 0x20), (pSYS, 0x5C), (pSPARE, 0x4C)] s t ∧
        (devState s = .held ∨ devState s = .ready ∨ devState s = .run ∨ devState s = .degraded ∨ devState s = .stopping → Settled s →
          devState t = .safe ∧ fld t pSYS 0x44 8 8 = 3)) ∧
    (Gives .keyInactive s fun t => rbit t pSUPPLY 0x10 5 = true ∧ OnlyRegs [(pSUPPLY, 0x10)] s t ∧ SameCore s t)

/-- An unpowered device wakes into BOOT when VIN is at least 11.5 V (1150 in 10 mV) and an armed wake source is active. A brown-
out of a device that has reached HELD starts the save of origin 3 and leaves the band BROWN-OUT; when that save ends the
device is OFF. The save of an orderly shutdown, executed in HELD, READY, SAFE or LATCHED, ends in STANDBY where a wake source
is enabled and in OFF otherwise. A commanded save that succeeds leaves SAVE_STAT showing success, one that fails shows
failure. What stands in flash and Cocoon memory survives each, and none draws on time or the queue. -/
def Obligations.PowerComesAndGoes : Prop :=
  ∀ (s : State) (vin : Nat) (ok : Bool),
    (∀ (src : Nat) (svcen : Bool), powered s = false → 1150 ≤ vin → src &&& s.dev.armedWake ≠ 0 →
      Gives (.wakeStart vin src svcen) s fun t =>
        devState t = .boot ∧ powered t = true ∧ t.dev.svc = svcen ∧ SameCore s t) ∧
    (powered s = true → band s ≠ 3 → saveBusy s = false → s.dev.heldOnce = true → Gives (.brownOut vin) s fun t =>
      band t = 3 ∧ saveBusy t = true ∧ fld t pCOCOON 0x40 4 2 = 3 ∧ t.dev.brownOut = true ∧ SameCore s t) ∧
    (s.dev.brownOut = true → saveBusy s = true → Gives (.brownOutSaveDone ok) s fun t =>
      devState t = .off ∧ t.nv = (saveEnd ok s).nv ∧ (∀ a, nonVolatile a = true → mget t.mem a = mget s.mem a) ∧
        t.pending = s.pending) ∧
    (s.dev.shutPend = true → s.dev.shutQueued = false → s.dev.brownOut = false → saveBusy s = true →
      (devState s).shutOk = true → Gives (.shutdownComplete ok) s fun t =>
        devState t = (if rg s pSUPPLY 0x58 ≠ 0 then .standby else .off) ∧
        (∀ a, nonVolatile a = true → mget t.mem a = mget s.mem a) ∧ t.pending = s.pending) ∧
    (saveBusy s = true → s.dev.brownOut = false → s.dev.shutPend = false → s.dev.shutQueued = false →
      Gives (.saveComplete ok) s fun t =>
        fld t pCOCOON 0x40 0 3 = (if ok then 2 else 4) ∧ rbit t pCOCOON 0x10 (if ok then 0 else 1) = true ∧
        OnlyPages [pCOCOON] s t ∧ (∀ a, mget t.mem a = mget s.mem a) ∧ t.stag = s.stag ∧ t.tick = s.tick ∧ t.pending = s.pending)

/-- In BOOT, IMAGE_VERIFIED and BOOT_NO_IMAGE take the device to SELFTEST where some bank verifies and otherwise leave it in BOOT,
BOOT_NO_IMAGE recording an outcome for both banks; either clears TRIAL in the boot record. SERVICE_IMAGE_LOAD of an image of
at most 4 MiB over the enabled service path, both banks having been rejected, stores the image in flash bank A and takes the
device to SELFTEST where bank A then verifies. In SELFTEST, SELFTEST_PASS with no failed test and Scarab neither in INIT nor
in FAULT takes it to RESTORE with all 32 injections shown detected; SELFTEST_FAIL records the failed tests, among them test 0
where an injection was not detected as it should be and test 6 where Scarab is in FAULT, and stays. In RESTORE with no cause
of a SAFE row, RESTORE_COMPLETE takes it to HELD. The queue and time stay as they were, and but for RESTORE_COMPLETE so do the
Stag pairs. -/
def Obligations.BootVerifiesTestsAndRestores : Prop :=
  ∀ s : State,
    (∀ (resA resB : Fin 6) (verA verB : Nat), devState s = .boot →
      Gives (.imageVerified resA resB verA verB) s fun t =>
        devState t = (if someBank resA resB verA verB s then .selftest else .boot) ∧
        (∀ a, a < 0x28040000 ∨ 0x28040004 ≤ a → mget t.mem a = mget s.mem a) ∧ bit (bootRec t) 8 = false ∧
        t.stag = s.stag ∧ t.tick = s.tick ∧ t.pending = s.pending) ∧
    (∀ (resA resB : Fin 6) (verA verB : Nat), devState s = .boot →
      Gives (.bootNoImage resA resB verA verB) s fun t =>
        devState t = (if someBank resA resB verA verB s then .selftest else .boot) ∧
        (someBank resA resB verA verB s = false →
          fld t pBOOT 0x44 8 4 = imageResult s 0 resA verA ∧ fld t pBOOT 0x44 12 4 = imageResult s 1 resB verB ∧
          OnlyPages [pBOOT] s t ∧ t.nv = { s.nv with trialRun := false }) ∧
        (∀ a, a < 0x28040000 ∨ 0x28040004 ≤ a → mget t.mem a = mget s.mem a) ∧ bit (bootRec t) 8 = false ∧
        t.stag = s.stag ∧ t.tick = s.tick ∧ t.pending = s.pending) ∧
    (∀ (image : List (BitVec 8)) (res : Fin 6) (ver : Nat), devState s = .boot → s.dev.svc = true → fld s pBOOT 0x44 8 4 ≠ 0 →
      fld s pBOOT 0x44 12 4 ≠ 0 → image.length ≤ 0x400000 → Gives (.serviceImageLoad image res ver) s fun t =>
        devState t = (if imageResult (serviceStore image s) 0 res ver = 0 then .selftest else .boot) ∧
        (∀ a, a < 0x08000000 ∨ 0x08000000 + image.length ≤ a → mget t.mem a = mget s.mem a) ∧
        (∀ j, j < image.length → mget t.mem (0x08000000 + j) = (image.getD j 0).toNat) ∧
        t.stag = s.stag ∧ t.tick = s.tick ∧ t.pending = s.pending) ∧
    (devState s = .selftest → rg s pSYS 0x54 = 0 → fld s (pSC 0) 0x40 0 3 ≠ 0 → fld s (pSC 0) 0x40 0 3 ≠ 4 → Gives .selftestPass s fun t =>
      devState t = .restore ∧ rg t pCHECKER 0x58 = 0xFFFFFFFF ∧ rbit t pSYS 0x10 1 = true ∧ SameCore s t) ∧
    (∀ (tests : Fin 128) (inj : List (Fin 32 × CmpCycle)), devState s = .selftest → failedTests tests inj s ≠ 0 →
      Gives (.selftestFail tests inj) s fun t =>
      devState t = .selftest ∧ rg t pSYS 0x54 = orN (rg s pSYS 0x54) (failedTests tests inj s) ∧ rg t pCHECKER 0x58 = injStat inj ∧
        OnlyRegs [(pSYS, 0x54), (pCHECKER, 0x58)] s t ∧ SameCore s t) ∧
    (∀ bad : List (Fin 256), devState s = .restore → safeHolds s = none → Gives (.restoreComplete bad) s fun t =>
      devState t = .held ∧ t.tick = s.tick ∧ t.pending = s.pending)

/-- With the logic powered: an enabled converter that reaches power good outside BROWN-OUT shows its power-good bit, a tile
converter at its limit shows its overload bit, a short on a sensor supply shows its bit and sets flag 0. A baseplate
temperature from 85.0 °C up is recorded and the first time sets flag 6; one from 100.0 °C up is recorded and the first time
sets flag 7 and is handled as a class C fault, which takes RUN and DEGRADED to STOPPING; a level clears 5.0 °C below its
threshold. Memory, the non-volatile parts, the Stag pairs, time and queue stay as they were. -/
def Obligations.SupplyMonitorsReport : Prop :=
  ∀ s : State, powered s = true →
    (∀ c : Fin 10, rbit s pSUPPLY 0x48 c = true → band s ≠ 3 → Gives (.tilePowerGood c) s fun t =>
      rbit t pSUPPLY 0x50 c = true ∧ OnlySystem [(pSUPPLY, 0x50)] s t ∧ SameCore s t) ∧
    (∀ c : Fin 8, rbit s pSUPPLY 0x48 c = true → Gives (.tilePowerLimit c) s fun t =>
      rbit t pSUPPLY 0x50 (16 + c) = true ∧ OnlyRegs [(pSUPPLY, 0x50)] s t ∧ SameCore s t) ∧
    (∀ i : Fin 3, Gives (.sensorSupplyFault i) s fun t =>
      rbit t pSUPPLY 0x54 i = true ∧ rbit t pSUPPLY 0x10 0 = true ∧ OnlyRegs [(pSUPPLY, 0x54), (pSUPPLY, 0x10)] s t ∧ SameCore s t) ∧
    (∀ temp : Nat, 85 * 256 ≤ temp → temp < 2 ^ 15 → Gives (.baseplateWarn temp) s fun t =>
      rg t pSUPPLY 0x64 = temp ∧ t.dev.base85 = true ∧ (s.dev.base85 = false → rbit t pSUPPLY 0x10 6 = true) ∧
        (s.dev.base85 = true → OnlyRegs [(pSUPPLY, 0x64)] s t) ∧ OnlyRegs [(pSUPPLY, 0x64), (pSUPPLY, 0x10)] s t ∧ SameCore s t) ∧
    (∀ temp : Nat, 100 * 256 ≤ temp → temp < 2 ^ 15 → Gives (.baseplateSs1 temp) s fun t =>
      rg t pSUPPLY 0x64 = temp ∧ t.dev.base100 = true ∧ SameCore s t ∧
        (s.dev.base100 = false → Settled s → rbit t pSUPPLY 0x10 7 = true ∧ (devState s = .run ∨ devState s = .degraded → devState t = .stopping)) ∧
        (s.dev.base100 = true → OnlyRegs [(pSUPPLY, 0x64)] s t)) ∧
    (∀ temp : Nat, Gives (.baseplateLevelClear temp) s fun t =>
      rg t pSUPPLY 0x64 = temp % 2 ^ 16 ∧ (sgn 16 temp < 80 * 256 → t.dev.base85 = false) ∧
        (sgn 16 temp < 95 * 256 → t.dev.base100 = false) ∧ OnlyRegs [(pSUPPLY, 0x64)] s t ∧ SameCore s t)

/-- With the logic powered: a lost clock is noted, sets the flag of CLK and takes HELD, READY, RUN, DEGRADED and STOPPING to SAFE
(no other transition in the tick); a restored clock is noted. In a tick that has seen no other transition: STOP_TMO elapsed
since the entry to STOPPING completes the stop, in SAFE where a class C fault has met it and in READY or SAFE otherwise. A
degraded condition in force in RUN leads to DEGRADED; all conditions clear with DEG_LATCH 0 leads from DEGRADED to RUN.
Outside a brown-out Scarab's reset request, and DBGNRST on EX-6416-H12-D, restart the main die into BOOT with their cause in
RESET_CAUSE; the non-volatile parts and what stands in flash and Cocoon memory survive. -/
def Obligations.ClocksStopsAndRestarts : Prop :=
  ∀ s : State, powered s = true →
    (s.dev.clockLost = false → Gives .clockLost s fun t =>
      t.dev.clockLost = true ∧ rbit t pCLK 0x10 0 = true ∧ SameCore s t ∧
        (devState s = .held ∨ devState s = .ready ∨ devState s = .run ∨ devState s = .degraded ∨ devState s = .stopping → Settled s →
          devState t = .safe)) ∧
    (s.dev.clockLost = true → Gives .clockRestored s fun t => t.dev.clockLost = false ∧ OnlySystem [] s t ∧ SameCore s t) ∧
    (devState s = .stopping → Settled s → s.dev.stopTick + fld s pSYS 0x68 0 16 * msT ≤ s.tick → Gives .stopTimeout s fun t =>
      (devState t = .ready ∨ devState t = .safe) ∧ (s.dev.stopC = true → devState t = .safe) ∧ rbit t pSYS 0x44 16 = false ∧
        SameCore s t) ∧
    (∀ e : Fin 256, devState s = .run → Settled s → degCond s ≠ 0 → Gives (.degConditionRise e) s fun t =>
      devState t = .degraded ∧ fld t pSYS 0x44 8 8 = e ∧ SameCore s t) ∧
    (devState s = .degraded → Settled s → degCond s = 0 → degLatch s = false → Gives .degConditionClear s fun t =>
      devState t = .run ∧ SameCore s t) ∧
    (s.dev.brownOut = false → Gives .scarabResetRequest s fun t =>
      devState t = .boot ∧ rg t pSYS 0x4C = 2 ^ 5 ∧ t.nv = s.nv ∧ (∀ a, nonVolatile a = true → mget t.mem a = mget s.mem a) ∧
        t.tick = s.tick ∧ t.pending = s.pending) ∧
    (s.variant = .h12d → s.dev.brownOut = false → Gives .dbgnrstLow s fun t =>
      devState t = .boot ∧ rg t pSYS 0x4C = 2 ^ 4 ∧ t.nv = s.nv ∧ (∀ a, nonVolatile a = true → mget t.mem a = mget s.mem a) ∧
        t.tick = s.tick ∧ t.pending = s.pending)

/-- For an access that reaches STATE_CMD: in HELD with Scarab in OPERATE, GO_READY starts the transition and stays in HELD;
AUTO_ZERO_DONE of a started transition whose inputs are measured ends it in READY; in READY with GEN_S of every tile that
counts, RUN enters RUN, or DEGRADED with DEG_LATCH set; STOP takes RUN and DEGRADED to STOPPING; STOP_DONE completes a stop,
in SAFE where a class C fault has met it and in READY or SAFE otherwise; ACK takes SAFE, no cause of a SAFE row holding, to
HELD; RESET in HELD, READY, SAFE or LATCHED restarts through BOOT with cause bit 3. A command writes no memory, and RESET
keeps the non-volatile parts. -/
def Obligations.StateCommandsMoveTheDevice : Prop :=
  ∀ (s : State) (acc : Access),
    (Reaches s acc pSYS 0x48 true →
      (devState s = .held → fld s (pSC 0) 0x40 0 3 = 3 → Gives (.goReady acc) s fun t =>
        t.dev.goReady = true ∧ devState t = .held ∧ t.reply = ⟨0, false⟩ ∧ SameCore s t) ∧
      (devState s = .ready → runUnsafe s = false → Gives (.run acc) s fun t =>
        devState t = (if degLatch s then .degraded else .run) ∧ t.reply = ⟨0, false⟩ ∧ SameCore s t) ∧
      (devState s = .run ∨ devState s = .degraded → Gives (.stop acc) s fun t =>
        devState t = .stopping ∧ t.dev.stopC = false ∧ t.reply = ⟨0, false⟩ ∧ SameCore s t) ∧
      (devState s = .stopping → Gives (.stopDone acc) s fun t =>
        (devState t = .ready ∨ devState t = .safe) ∧ (s.dev.stopC = true → devState t = .safe) ∧ t.reply = ⟨0, false⟩ ∧
          SameCore s t) ∧
      (devState s = .safe → safeHolds s = none → Gives (.ack acc) s fun t =>
        devState t = .held ∧ rbit t pSYS 0x44 16 = true ∧ t.reply = ⟨0, false⟩ ∧ SameCore s t) ∧
      ((devState s).shutOk = true → s.dev.brownOut = false → Settled s → Gives (.reset acc) s fun t =>
        devState t = .boot ∧ rg t pSYS 0x4C = 2 ^ 3 ∧ t.reply = ⟨0, false⟩ ∧ t.nv = s.nv ∧
          (∀ a, nonVolatile a = true → mget t.mem a = mget s.mem a) ∧ t.tick = s.tick ∧ t.pending = s.pending)) ∧
    (∀ ok : Bool, devState s = .held → s.dev.goReady = true → azReady s = true → Gives (.autoZeroDone ok) s fun t =>
      devState t = .ready ∧ t.tick = s.tick ∧ t.pending = s.pending)

/-- For an access that reaches the register: the key 0xA5 in SHUTDOWN starts an orderly shutdown in HELD, READY, SAFE or LATCHED;
TILE_RAIL takes legal codes while no tile converter is enabled and the page is not locked; TILE_EN takes the bits its mask
enables, where no start is asked for in BOOT, SELFTEST or RESTORE or outside FULL and REDUCED; VIN_MEAS is returned and its
lowest value restarts; CONFIRM of a trial clears TRIAL_ACT and makes the running bank preferred; ADVANCE outside a trial
raises the rollback counter to the running image's version; BANK_SEL becomes the boot record; SAVE starts a save of origin 1
where none runs. -/
def Obligations.SupplyAndBootRegistersTakeCommands : Prop :=
  ∀ (s : State) (acc : Access),
    ((devState s).shutOk = true → s.dev.shutPend = false → Reaches s acc pSUPPLY 0x60 true → Gives (.shutdown acc 0xA5#32) s fun t =>
      t.dev.shutPend = true ∧ rg t pSUPPLY 0x48 = 0 ∧ saveBusy t = true ∧ t.dev.shutQueued = (s.dev.shutQueued || saveBusy s) ∧
        t.reply = ⟨0, false⟩ ∧ SameCore s t) ∧
    (∀ v : BitVec 32, (∀ i, i < 12 → bits v.toNat (2 * i) 2 ≠ 3) → (∀ i, i < 6 → rbit s pSUPPLY 0x48 i = false) →
      locked s pSUPPLY = false → Reaches s acc pSUPPLY 0x4C true → Gives (.tileRailWrite acc v) s fun t =>
        fld t pSUPPLY 0x4C 0 24 = bits v.toNat 0 24 ∧ t.reply = ⟨0, false⟩ ∧ SameCore s t) ∧
    (∀ v : BitVec 32, (devState s ≠ .boot ∧ devState s ≠ .selftest ∧ devState s ≠ .restore ∧ band s ≤ 1) ∨
        mEnable v.toNat &&& v.toNat &&& 0x3FF = 0 → Reaches s acc pSUPPLY 0x48 true → Gives (.tileEnWrite acc v) s fun t =>
      (∀ i, i < 10 → rbit t pSUPPLY 0x48 i = if bit v.toNat (16 + i) then bit v.toNat i else rbit s pSUPPLY 0x48 i) ∧
        t.reply = ⟨0, false⟩ ∧ SameCore s t) ∧
    (Reaches s acc pSUPPLY 0x40 false → Gives (.vinMeasRead acc) s fun t =>
      t.reply = ⟨rg s pSUPPLY 0x40, false⟩ ∧ fld t pSUPPLY 0x40 16 16 = fld s pSUPPLY 0x40 0 16 ∧
        fld t pSUPPLY 0x40 0 16 = fld s pSUPPLY 0x40 0 16 ∧ OnlyRegs [(pSUPPLY, 0x40)] s t ∧ SameCore s t) ∧
    (devState s = .held ∨ devState s = .ready → trialAct s = true → Reaches s acc pBOOT 0x54 true → Gives (.confirm acc) s fun t =>
      trialAct t = false ∧ rg t pBOOT 0x40 = fld s pBOOT 0x44 0 1 ∧ t.nv = { s.nv with trialRun := false } ∧
        bootRec t = fld s pBOOT 0x44 0 1 ∧ (∀ a, a < 0x28040000 ∨ 0x28040004 ≤ a → mget t.mem a = mget s.mem a) ∧
        t.reply = ⟨0, false⟩ ∧ OnlyRegs [(pBOOT, 0x40), (pBOOT, 0x44)] s t) ∧
    (devState s = .held ∨ devState s = .ready → trialAct s = false → s.dev.imgVer ≤ 64 → s.nv.rollback ≤ 64 →
      Reaches s acc pBOOT 0x54 true → Gives (.advance acc) s fun t =>
        t.nv.rollback = max s.nv.rollback s.dev.imgVer ∧ rg t pBOOT 0x48 = max s.nv.rollback s.dev.imgVer ∧ t.reply = ⟨0, false⟩ ∧
          OnlyRegs [(pBOOT, 0x48)] s t ∧ t.mem = s.mem) ∧
    (∀ v : BitVec 32, Reaches s acc pBOOT 0x40 true → Gives (.bankSelWrite acc v) s fun t =>
      rg t pBOOT 0x40 &&& 0x101 = v.toNat &&& 0x101 ∧ t.nv = s.nv ∧ bootRec t = rg t pBOOT 0x40 ∧ t.reply = ⟨0, false⟩ ∧
        OnlyRegs [(pBOOT, 0x40)] s t ∧ (∀ a, a < 0x28040000 ∨ 0x28040004 ≤ a → mget t.mem a = mget s.mem a)) ∧
    (saveBusy s = false → devState s = .held ∨ devState s = .ready ∨ devState s = .run ∨ devState s = .degraded ∨ devState s = .safe ∨
        devState s = .latched → Reaches s acc pCOCOON 0x08 true → Gives (.save acc) s fun t =>
      saveBusy t = true ∧ fld t pCOCOON 0x40 4 2 = 1 ∧ t.reply = ⟨0, false⟩ ∧ OnlyRegs [(pCOCOON, 0x40)] s t ∧ SameCore s t)

/-- For an access that reaches the register: PROFILE takes 0 or 1 in HELD where the page is not locked; PRIME in HELD leaves no
page armed; a write of DET_STAT that clears no page bit clears its kind bits at once, and one that clears page bits waits for
their boundaries and leaves the register as it was; DEG_SET by Stag-A, outside BOOT, SELFTEST and RESTORE, without LATCH and
without a Quad-Wheel condition under Axle-Standard, takes the bits its mask enables and shows them in DEG_COND. -/
def Obligations.SystemPageTakesItsOtherCommands : Prop :=
  ∀ (s : State) (acc : Access),
    (∀ v : BitVec 32, bits v.toNat 0 2 < 2 → devState s = .held → locked s pSYS = false → Reaches s acc pSYS 0x40 true →
      Gives (.profileWrite acc v) s fun t =>
        fld t pSYS 0x40 0 2 = bits v.toNat 0 2 ∧ t.reply = ⟨0, false⟩ ∧ SameCore s t) ∧
    (devState s = .held → Reaches s acc pSYS 0x08 true → Gives (.prime acc) s fun t =>
      (∀ p ∈ allPages, p ≠ pSYS → armed t p = false) ∧ t.reply = ⟨0, false⟩ ∧ t.pending = s.pending ∧ t.tick = s.tick) ∧
    (∀ v : BitVec 32, Reaches s acc pSYS 0x58 true → Gives (.detStatClear acc v) s fun t =>
      t.reply = ⟨0, false⟩ ∧ SameCore s t ∧ OnlyRegs [(pSYS, 0x58)] s t ∧
        (v.toNat &&& rg s pSYS 0x58 &&& 0xFF0000 = 0 → rg t pSYS 0x58 = clrN (rg s pSYS 0x58) (v.toNat &&& rg s pSYS 0x58 &&& 0xF) ∧ t.det = s.det) ∧
        (v.toNat &&& rg s pSYS 0x58 &&& 0xFF0000 ≠ 0 → SameRegs s t ∧ t.det.length = s.det.length + 1)) ∧
    (∀ v : BitVec 32, acc.master = .stagA → devState s ≠ .boot → devState s ≠ .selftest → devState s ≠ .restore →
      bit v.toNat 24 = false → bits v.toNat 2 2 &&& bits v.toNat 18 2 = 0 → Reaches s acc pSYS 0x60 true →
      Gives (.degSetWrite acc v) s fun t =>
        (∀ i, i < 8 → rbit t pSYS 0x60 i = if bit v.toNat (16 + i) then bit v.toNat i else rbit s pSYS 0x60 i) ∧
        fld t pSYS 0x5C 8 8 = fld t pSYS 0x60 0 8 ∧ t.reply = ⟨0, false⟩ ∧ OnlyRegs [(pSYS, 0x60), (pSYS, 0x5C)] s t ∧ SameCore s t)

/-- For an instruction that issues: a class 0 instruction, a multiply and a divide write their result to d (g0 stays 0) and go on
to the next word; a divide by 0, and a quotient outside the format, leave a value the manual does not state (log entry 30). A
branch goes to its target where it is taken and on where it is not; JAL and JALR write the return address to g31. NOP does
nothing but go on. Memory, the other pair, the non-volatile parts, time and queue, and every register outside the pair's
ANTLINE page and DEBUG are as they were. -/
def Obligations.StagComputesAndBranches : Prop :=
  ∀ (s : State) (f : Fetch), Issues f s → ∀ x, x = pairIx f.pair → ∀ h, h = stagH s x → ∀ pc, pc = stagPc s x →
    (∀ (op : AluOp) (d a : Fin 32) (b : AluSrc), Gives (.stagAlu f op d a b) s fun t =>
      Retired x (pc + 4) { h with g := if d = 0 then h.g else h.g.set d (aluVal op (gReg s x a) (aluSrc s x b)) } s t) ∧
    (∀ d a b : Fin 32,
      (Gives (.stagMul f false d a b) s fun t =>
        Retired x (pc + 4) { h with g := if d = 0 then h.g else h.g.set d (gReg s x a * gReg s x b) } s t) ∧
      (Gives (.stagMul f true d a b) s fun t => Retired x (pc + 4) { h with
        g := if d = 0 then h.g else h.g.set d (BitVec.ofInt 32 ((gReg s x a).toInt * (gReg s x b).toInt / 2 ^ 32)) } s t) ∧
      (∀ op : DivOp, Gives (.stagDiv f op d a b) s fun t =>
        Retired x (pc + 4) { h with g := if d = 0 then h.g else h.g.set d (divVal op (gReg s x a) (gReg s x b)) } s t)) ∧
    (∀ (a b : Fin 32) (off : BitVec 16),
      (Gives (.stagBranch f (.beq a b off)) s fun t =>
        Retired x (if gReg s x a = gReg s x b then branchTo pc off.toInt else pc + 4) h s t) ∧
      (Gives (.stagBranch f (.bne a b off)) s fun t =>
        Retired x (if gReg s x a = gReg s x b then pc + 4 else branchTo pc off.toInt) h s t) ∧
      (Gives (.stagBranch f (.blt a b off)) s fun t =>
        Retired x (if (gReg s x a).toInt < (gReg s x b).toInt then branchTo pc off.toInt else pc + 4) h s t) ∧
      (Gives (.stagBranch f (.bge a b off)) s fun t =>
        Retired x (if (gReg s x a).toInt < (gReg s x b).toInt then pc + 4 else branchTo pc off.toInt) h s t)) ∧
    (∀ (off : BitVec 26) (a : Fin 32),
      (Gives (.stagBranch f (.j off)) s fun t => Retired x (branchTo pc off.toInt) h s t) ∧
      (Gives (.stagBranch f (.jal off)) s fun t =>
        Retired x (branchTo pc off.toInt) { h with g := h.g.set 31 (BitVec.ofNat 32 (pc + 4)) } s t) ∧
      (Gives (.stagBranch f (.jr a)) s fun t => Retired x (gReg s x a).toNat h s t) ∧
      (Gives (.stagBranch f (.jalr a)) s fun t =>
        Retired x (gReg s x a).toNat { h with g := h.g.set 31 (BitVec.ofNat 32 (pc + 4)) } s t)) ∧
    (Gives (.nop f) s fun t => Retired x (pc + 4) h s t)

/-- For a load that issues, aligned, allowed by the MPU, answered without a bus error and with a word that is not uncorrectable,
the instruction completes. From SRAM, the D-cache not answering it, LDW, LDH, LDHU, LDB, LDBU and FLD write the little-endian
datum at the computed address, extended as the mnemonic says, to the register (g0 stays 0). A store that issues, aligned and
allowed, completes; to SRAM with no uncorrectable word it writes the low bytes of the register, least significant at the
lowest address, and no other byte. A load stores nothing. The bus error of a store returned to a running pair with EXL 0
enters exception 0x2 with WR 1 and EPC behind the store. -/
def Obligations.StagLoadsAndStores : Prop :=
  ∀ (s : State) (f : Fetch), Issues f s → ∀ x, x = pairIx f.pair → ∀ h, h = stagH s x → ∀ pc, pc = stagPc s x →
    (∀ (k : LoadOp) (t a : Fin 32) (off : BitVec 16) (hit : Bool) (e : Ecc), ∀ addr, addr = dataAddr s x a off →
      addr % loadSize k = 0 → mpuAllows s x 8 addr = true → stagBusErr s x addr (loadSize k) false = false → eccBad e = false →
      Gives (.stagLoad f k t a off hit e) s fun u =>
        u.pending = s.pending ∧ u.nv = s.nv ∧ SameMem s u ∧ u.tick = s.tick ∧
        (0x20000000 ≤ addr → addr < 0x20200000 → hit = false →
          (k = .fld → (stagH u x).f = h.f.set t (BitVec.ofNat 32 (mread s.mem addr 4)) ∧ (stagH u x).g = h.g) ∧
          (k ≠ .fld → (stagH u x).f = h.f ∧ (stagH u x).g = if t = 0 then h.g else h.g.set t (match k with
            | .ldh => (BitVec.ofNat 16 (mread s.mem addr 2)).signExtend 32
            | .ldb => (BitVec.ofNat 8 (mread s.mem addr 1)).signExtend 32
            | .ldhu => BitVec.ofNat 32 (mread s.mem addr 2)
            | .ldbu => BitVec.ofNat 32 (mread s.mem addr 1)
            | .ldw | .fld => BitVec.ofNat 32 (mread s.mem addr 4))) ∧
          stagPc u x = (pc + 4) % 2 ^ 32 / 4 * 4 ∧ OnlyPages [pANT x, pDEBUG, pMEMCTL] s u ∧ PairOnly x s u)) ∧
    (∀ (k : StoreOp) (t a : Fin 32) (off : BitVec 16) (e : Ecc), ∀ addr, addr = dataAddr s x a off →
      addr % storeSize k = 0 → mpuAllows s x 11 addr = true → Gives (.stagStore f k t a off e) s fun u =>
        u.pending = s.pending ∧ u.tick = s.tick ∧ u.variant = s.variant ∧
        (0x20000000 ≤ addr → addr < 0x20200000 → eccBad e = false →
          (∀ j, j < storeSize k → mget u.mem (addr + j) = (if k = .fst then fReg s x t else gReg s x t).toNat / 256 ^ j % 256) ∧
          (∀ b, b < addr ∨ addr + storeSize k ≤ b → mget u.mem b = mget s.mem b) ∧ (stagH u x).g = h.g ∧ (stagH u x).f = h.f ∧
          stagPc u x = (pc + 4) % 2 ^ 32 / 4 * 4 ∧ OnlyPages [pANT x, pDEBUG, pMEMCTL] s u ∧ PairOnly x s u)) ∧
    (∀ e, e = h.errs.headD (0, 0, false) → h.errs ≠ [] → pairStat s x ≠ 3 → bit h.status 3 = false → Gives (.storeBusError f.pair) s fun u =>
      Entered x 2 0 e.2.2 true false e.1 s u ∧ (stagH u x).eaddr = e.2.1 ∧ (stagH u x).errs = h.errs.tail ∧ SameMem s u ∧ OnlyPages [pANT x] s u)

/-- For an instruction that issues: MFS of a register of the table that the caste may read writes its value to d, TICKLO latching
TICKHI; MTS of a register the caste may write changes STATUS (but for its caste, log entry 104), ESTATUS, EPC, VBASE or FCSR
and leaves a read-only register as it was; BAR with no store response outstanding loads the MPU from the STAG page and with
one leaves the state as it was; WFE with an event pending at the pair goes on and without one leaves the state as it was; CINV
by Queen empties the D-cache; CFLUSH by Queen goes on. Each of these goes on to the next word; memory, the other pair, non-
volatile parts, time and queue are as they were. With EXL 0, MFS and MTS of a number outside the table or a register the caste
may not name, MTS of STATUS with caste code 3 (log entry 105), and CINV and CFLUSH by another caste enter exception 0x5 at the
instruction. -/
def Obligations.StagSystemInstructions : Prop :=
  ∀ (s : State) (f : Fetch), Issues f s → ∀ x, x = pairIx f.pair → ∀ h, h = stagH s x → ∀ pc, pc = stagPc s x →
    (∀ (d : Fin 32) (r : BitVec 12), r.toNat < 10 → casteBit s x = 0 ∨ 6 ≤ r.toNat → Gives (.mfs f d r) s fun t =>
      ∀ v, v = [h.status, h.estatus, h.epc, h.ecause, h.eaddr, h.vbase, h.fcsr, x, s.tick % 2 ^ 32, h.tickHi].getD r.toNat 0 →
      Retired x (pc + 4) { h with
        g := if d = 0 then h.g else h.g.set d (BitVec.ofNat 32 v),
        tickHi := if r.toNat = 8 then s.tick / 2 ^ 32 % 2 ^ 32 else h.tickHi } s t) ∧
    (∀ (a : Fin 32) (r : BitVec 12), ∀ v, v = (gReg s x a).toNat → r.toNat < 10 → casteBit s x = 0 ∨ r.toNat = 6 →
      ¬ (r.toNat = 0 ∧ v % 4 = 3) → Gives (.mts f a r) s fun t =>
        Retired x (pc + 4) { h with
          status := if r.toNat = 0 then v % 2 ^ 9 / 4 * 4 + h.status % 4 else h.status,
          estatus := if r.toNat = 1 then v % 2 ^ 9 else h.estatus,
          epc := if r.toNat = 2 then v else h.epc,
          vbase := if r.toNat = 5 then v / 4096 * 4096 else h.vbase,
          fcsr := if r.toNat = 6 then v % 2 ^ 12 else h.fcsr } s t) ∧
    (h.errs = [] → Gives (.bar f) s fun t =>
      Retired x (pc + 4) { h with mpuCtrl := rg s (pSTAG x) 0x48, mpu := (stagH t x).mpu } s t ∧
      ∀ i, i < 32 → (stagH t x).mpu.getD i (0, 0) = (rg s (pSTAG x) (0x100 + 8 * i), rg s (pSTAG x) (0x104 + 8 * i))) ∧
    (h.errs ≠ [] → Idle (.bar f) s) ∧
    (∀ e : Fin 256, pendBit s x e = true → Gives (.wfe f) s fun t => Retired x (pc + 4) h s t) ∧
    ((∀ e : Fin 256, pendBit s x e = false) → Idle (.wfe f) s) ∧
    (casteBit s x = 0 → Gives (.cinv f) s fun t => Retired x (pc + 4) { h with dc := [] } s t) ∧
    (casteBit s x = 0 → Gives (.cflush f) s fun t => Retired x (pc + 4) h s t) ∧
    (bit h.status 3 = false →
      (∀ (d : Fin 32) (r : BitVec 12), 10 ≤ r.toNat ∨ (casteBit s x ≠ 0 ∧ r.toNat < 6) → Gives (.mfs f d r) s fun t =>
        Entered x 5 0 false false false pc s t ∧ SameMem s t) ∧
      (∀ (a : Fin 32) (r : BitVec 12), 10 ≤ r.toNat ∨ (casteBit s x ≠ 0 ∧ r.toNat ≠ 6) ∨ (r.toNat = 0 ∧ (gReg s x a).toNat % 4 = 3) →
        Gives (.mts f a r) s fun t => Entered x 5 0 false false false pc s t ∧ SameMem s t) ∧
      (casteBit s x ≠ 0 → Gives (.cinv f) s fun t => Entered x 5 0 false false false pc s t ∧ SameMem s t) ∧
      (casteBit s x ≠ 0 → Gives (.cflush f) s fun t => Entered x 5 0 false false false pc s t ∧ SameMem s t))

/-- For an FPU instruction that issues with FPE 1 and whose result raises no flag enabled in FCSR, the f register d takes the
result (the free value of the state where the manual gives none, log entry 30), FCSR takes the flags beside those it holds,
and the pair goes on. FMOV copies. An enabled flag enters exception 0x6, and FPE 0 exception 0x5, at the instruction itself,
EXL being 0. Memory, the other pair, non-volatile parts, time and queue are as they were. -/
def Obligations.StagFloatingPoint : Prop :=
  ∀ (s : State) (f : Fetch), Issues f s → ∀ x, x = pairIx f.pair → ∀ h, h = stagH s x → ∀ pc, pc = stagPc s x →
    ∀ rm, rm = bits h.fcsr 10 2 → ∀ d a b : Fin 32,
    (∀ op : FpuOp, ∀ r, r = fpuVal op rm (fReg s x d).toNat (fReg s x a).toNat (fReg s x b).toNat →
      (bit h.status 8 = true → r.flags &&& bits h.fcsr 5 5 = 0 → Gives (.stagFpu f op d a b) s fun t =>
        Retired x (pc + 4) { h with f := h.f.set d (BitVec.ofNat 32 (fpWritten r (freeNow s))), fcsr := orN h.fcsr r.flags } s t) ∧
      (bit h.status 8 = true → r.flags &&& bits h.fcsr 5 5 ≠ 0 → bit h.status 3 = false → Gives (.stagFpu f op d a b) s fun t =>
        Entered x 6 0 false false false pc s t ∧ SameMem s t) ∧
      (bit h.status 8 = false → bit h.status 3 = false → Gives (.stagFpu f op d a b) s fun t =>
        Entered x 5 0 false false false pc s t ∧ SameMem s t)) ∧
    (bit h.status 8 = true → Gives (.stagFpu f .fmov d a b) s fun t => Retired x (pc + 4) { h with f := h.f.set d (fReg s x a) } s t) ∧
    (∀ q : Bool, ∀ r, r = (if q then fpSqrt rm (fReg s x a).toNat else fpDiv rm (fReg s x a).toNat (fReg s x b).toNat) →
      (bit h.status 8 = true → r.flags &&& bits h.fcsr 5 5 = 0 → Gives (.stagFdiv f q d a b) s fun t =>
        Retired x (pc + 4) { h with f := h.f.set d (BitVec.ofNat 32 (fpWritten r (freeNow s))), fcsr := orN h.fcsr r.flags } s t) ∧
      (bit h.status 8 = true → r.flags &&& bits h.fcsr 5 5 ≠ 0 → bit h.status 3 = false → Gives (.stagFdiv f q d a b) s fun t =>
        Entered x 6 0 false false false pc s t ∧ SameMem s t) ∧
      (bit h.status 8 = false → bit h.status 3 = false → Gives (.stagFdiv f q d a b) s fun t =>
        Entered x 5 0 false false false pc s t ∧ SameMem s t))

/-- TRAP of a pair with EXL 0 enters exception 0x7, resuming behind it; an illegal instruction enters 0x5 at itself; an interrupt
that is due enters 0x8 with IPL at the event's priority, its pending bit cleared. Each entry copies STATUS to ESTATUS and the
resume address to EPC, writes ECAUSE and EADDR, sets CASTE to Queen and EXL to 1, and goes to the vector. RETX by Queen copies
ESTATUS to STATUS and resumes at EPC. (That TRAP resumes behind itself, and that EADDR without an address is free, are the
model's readings, log entries 30 and 41.) -/
def Obligations.ExceptionEntryAndReturn : Prop :=
  ∀ (s : State) (f : Fetch), ∀ x, x = pairIx f.pair → ∀ h, h = stagH s x → ∀ pc, pc = stagPc s x →
    (Issues f s → bit h.status 3 = false → Gives (.trap f) s fun t =>
      Entered x 7 0 false false false (pc + 4) s t ∧ (stagH t x).eaddr = freeNow s ∧ SameMem s t ∧ OnlyPages [pANT x, pDEBUG] s t) ∧
    (Issues f s → bit h.status 3 = false → Gives (.illegalInstruction f) s fun t =>
      Entered x 5 0 false false false pc s t ∧ (stagH t x).eaddr = freeNow s ∧ SameMem s t ∧ OnlyPages [pANT x, pDEBUG] s t) ∧
    (∀ e : Edge, interruptDue s x = some e → x < s.stag.length → e.1 < 256 → Gives (.interruptEntry f.pair) s fun t =>
      (stagH t x).estatus = h.status ∧ (stagH t x).epc = pc % 2 ^ 32 ∧ (stagH t x).ecause = 8 + 256 * e.1 ∧
        (stagH t x).eaddr = freeNow s ∧ (stagH t x).status = putBits (putBits (putBits h.status 0 2 0) 3 1 1) 4 4 e.2.2 ∧
        stagPc t x = (h.vbase / 4096 * 4096 + 0x200) % 2 ^ 32 / 4 * 4 ∧ (stagH t x).g = h.g ∧ (stagH t x).f = h.f ∧
        pendBit t x e.1 = false ∧ rg t pHIVE (0xA0 + 4 * x) = e.2.1 % 2 ^ 32 ∧ SameMem s t ∧ OnlyPages [pANT x, pHIVE] s t ∧
        PairOnly x s t) ∧
    (Issues f s → casteBit s x = 0 → h.estatus % 4 ≠ 3 → Gives (.retx f) s fun t =>
      Retired x h.epc { h with status := h.estatus } s t)

/-- For a Worker or Drone pair with EXL 0 whose instruction issues: RETX, CINV, CFLUSH, MTS to any register but FCSR and MFS of
the first six registers enter exception 0x5 at the instruction and change no register of the pair but those of the entry. Each
of these entries leaves the caste Queen. The ALU, multiply, divide and branch instructions, NOP, MFS of registers 6 to 9, MTS
of FCSR and, with no store response outstanding, BAR leave STATUS as it was. -/
def Obligations.OnlyQueenReturnsAndOnlyTrapRises : Prop :=
  ∀ (s : State) (f : Fetch), Issues f s → ∀ x, x = pairIx f.pair → ∀ pc, pc = stagPc s x → casteBit s x ≠ 0 → bit (stagH s x).status 3 = false →
    ∀ (d a : Fin 32) (r : BitVec 12),
    (Gives (.retx f) s fun t => Entered x 5 0 false false false pc s t ∧ casteBit t x = 0 ∧ SameMem s t) ∧
    (Gives (.cinv f) s fun t => Entered x 5 0 false false false pc s t ∧ casteBit t x = 0 ∧ SameMem s t) ∧
    (Gives (.cflush f) s fun t => Entered x 5 0 false false false pc s t ∧ casteBit t x = 0 ∧ SameMem s t) ∧
    (r.toNat ≠ 6 → Gives (.mts f a r) s fun t => Entered x 5 0 false false false pc s t ∧ casteBit t x = 0 ∧ SameMem s t) ∧
    (r.toNat < 6 → Gives (.mfs f d r) s fun t => Entered x 5 0 false false false pc s t ∧ casteBit t x = 0 ∧ SameMem s t) ∧
    (Gives (.nop f) s fun t => (stagH t x).status = (stagH s x).status) ∧
    (∀ (b : AluSrc) (op : AluOp), Gives (.stagAlu f op d a b) s fun t => (stagH t x).status = (stagH s x).status) ∧
    (∀ (b : Fin 32) (high : Bool), Gives (.stagMul f high d a b) s fun t => (stagH t x).status = (stagH s x).status) ∧
    (∀ (b : Fin 32) (op : DivOp), Gives (.stagDiv f op d a b) s fun t => (stagH t x).status = (stagH s x).status) ∧
    (∀ op : BranchOp, Gives (.stagBranch f op) s fun t => (stagH t x).status = (stagH s x).status) ∧
    (6 ≤ r.toNat → r.toNat < 10 → Gives (.mfs f d r) s fun t => (stagH t x).status = (stagH s x).status) ∧
    (r.toNat = 6 → Gives (.mts f a r) s fun t => (stagH t x).status = (stagH s x).status) ∧
    ((stagH s x).errs = [] → Gives (.bar f) s fun t => (stagH t x).status = (stagH s x).status)

/-- With the logic powered, a line that a page asserts (E008 is one line of all pages) and Hive has not yet seen asserted, or a
pulse of one tick that has come, is a rising edge of its event. By its route (ROUTE_n where OVR is 1 or the event has no page
header, else EVT_ROUTE of its page): DEST 1 or 2 leaves the event's bit in that pair's PEND array set, DEST 3 in both; where
the bit was pending already, the MERGE bit is set; DEST 0 changes no register. A line seen before or not asserted, without a
pulse, is no edge. Only HIVE's registers change; memory, non-volatile parts, the pairs, time and queue do not. -/
def Obligations.HiveRoutesEdges : Prop :=
  ∀ (s : State) (n p : Fin 256), powered s = true → ∀ on, on = (if n = 8 then e008Asserted s else lineAsserted s n p) →
    ∀ q : Nat, q = (if n = 8 then 0 else p.val) →
    ∀ pulse, pulse = s.hive.pulses.any (fun e => e.1 == n.val && e.2.1 == p.val && decide (e.2.2 ≤ s.tick)) →
    (pulse = true ∨ (on = true ∧ ¬ (n.val, q) ∈ s.hive.seen) → Gives (.hiveEventEdge n p) s fun t =>
      ∀ d, d = bits (if rbit s pHIVE (0x400 + 4 * n) 31 || routedByHive n then rg s pHIVE (0x400 + 4 * n) else rg s p 0x1C) 4 3 →
        (∀ x, x < 2 → d = x + 1 ∨ d = 3 → pendBit t x n = true ∧
          (pendBit s x n = true → rbit t pHIVE (0x80 + 4 * (n / 32)) (n % 32) = true)) ∧
        (∀ x, x < 2 → d ≠ x + 1 → d ≠ 3 → pendBit t x n = pendBit s x n) ∧
        (d ≤ 3 → OnlyPages [pHIVE] s t) ∧ (d = 0 → SameRegs s t) ∧ SameCore s t) ∧
    (pulse = false → on = false ∨ (n.val, q) ∈ s.hive.seen → Idle (.hiveEventEdge n p) s)

/-- For an access that reaches the channel's DMA_CTRL on an unlocked page with legal step codes: START of an idle channel leaves
it BUSY with DMA_CNT words remaining, START of a busy one is refused with STATE, ABORT leaves BUSY 0 and neither DONE nor ERR
newly set. A busy channel with words remaining, no other channel busy and no word of memory upset, that moves one good word
from SRAM to SRAM leaves that word at the destination, every other byte as it was, and one word fewer; after the last it is
DONE and not BUSY. A source outside the reachable regions stops it with ERR, cause 4 and the flag of E014, nothing stored. -/
def Obligations.DmaChannelsMoveWords : Prop :=
  ∀ (s : State) (acc : Access) (c : Fin 8), ∀ st, st = dmaOff c 0x10 →
    (Reaches s acc pHIVE (dmaOff c 0xC) true → locked s pHIVE = false → fld s pHIVE (dmaOff c 0xC) 2 2 ≤ 1 →
      fld s pHIVE (dmaOff c 0xC) 4 2 ≤ 1 →
      (dmaBusy s c = false → Gives (.dmaStart acc c) s fun t =>
        rg t pHIVE st = 1 + 65536 * fld s pHIVE (dmaOff c 8) 0 16 ∧ t.reply = ⟨0, false⟩ ∧
          OnlyPages [pHIVE, pCOCOON, pSYS] s t ∧ SameCore s t) ∧
      (dmaBusy s c = true → Gives (.dmaStart acc c) s fun t => Refused acc pHIVE (dmaOff c 0xC) 0x10001 .state s t) ∧
      (Gives (.dmaAbort acc c) s fun t => dmaBusy t c = false ∧ fld t pHIVE st 1 31 = fld s pHIVE st 1 31 ∧ t.reply = ⟨0, false⟩ ∧
          OnlyPages [pHIVE, pCOCOON, pSYS] s t ∧ SameCore s t)) ∧
    (powered s = true → dmaBusy s c = true → 0 < fld s pHIVE st 16 16 →
      ((∀ d, d < 8 → d ≠ c.val → dmaBusy s d = false) → s.upset = [] → ∀ src, src = (dmaH s c).src → ∀ dst, dst = (dmaH s c).dst →
        0x20000000 ≤ src → src < 0x20200000 → src % 4 = 0 → 0x20000000 ≤ dst → dst < 0x20200000 → dst % 4 = 0 →
        ∀ ecc : List WordEcc, ecc.headD {} = {} → Gives (.dmaComplete c 1 ecc) s fun t =>
          (∀ j, j < 4 → mget t.mem (dst + j) = mget s.mem (src + j)) ∧ (∀ a, a < dst ∨ dst + 4 ≤ a → mget t.mem a = mget s.mem a) ∧
          fld t pHIVE st 16 16 = fld s pHIVE st 16 16 - 1 ∧
          (fld s pHIVE st 16 16 = 1 → dmaBusy t c = false ∧ rbit t pHIVE st 1 = true ∧ rbit t pHIVE st 2 = false) ∧
          OnlyRegs [(pHIVE, st), (pHIVE, 0x10)] s t ∧ t.nv = s.nv ∧ t.stag = s.stag ∧ t.tick = s.tick ∧ t.pending = s.pending) ∧
      ((∀ d, d < 8 → d ≠ c.val → dmaBusy s d = false) → (dmaH s c).src < 0x08000000 → ∀ (n : Nat) (e : List WordEcc), 0 < n → Gives (.dmaComplete c n e) s fun t =>
        fld t pHIVE st 0 8 = 0x44 ∧ rbit t pHIVE 0x10 1 = true ∧ OnlyRegs [(pHIVE, st), (pHIVE, 0x10)] s t ∧ SameCore s t))

/-- With the logic powered: a cycle of a pair's comparator and delay registers in which a segment differs, delivers a code other
than 01 and 10, or a group's parity fails is a detection, and any other leaves the state as it was. A detection in a pair that
is not held records the lowest cause, the sweep, and for causes 1 and 2 the lowest segment, counts, raises the cause's flag,
clears the pair's TCM and no other byte, and puts the pair in hot reset, or, at the ninth recovery, holds it; a further
detection in the same tick only lowers the recorded cause. FAST_REBOOT_START moves a pair from hot reset to fast reboot;
RESUMED by an access that reaches CHECKER, for a pair in fast reboot, leaves it running. At 5 ms from detection the recovery
coast begins; at 50 ms the pair is held and a device in HELD, READY, RUN, DEGRADED or STOPPING goes to SAFE. The scrubber logs
what it finds and changes no byte. -/
def Obligations.CheckerStopsAndRestoresPairs : Prop :=
  ∀ (s : State) (y : PairId), powered s = true → s.chk.detAt.length = 2 → ∀ x, x = pairIx y →
    (∀ (segs : List CmpSeg) (groups : List DelayGroup) (sw : Bool), ∀ ds, ds = cycleDets ⟨segs, groups⟩ →
      (ds = [] → Idle (.lockstepDetection y segs groups sw) s) ∧
      (∀ d, ds.head? = some d → s.chk.detAt.getD x none = some s.tick → Gives (.lockstepDetection y segs groups sw) s fun t =>
        fld t pCHECKER (0x40 + 4 * x) 4 4 = min (fld s pCHECKER (0x40 + 4 * x) 4 4) d.1 ∧
        pairStat t x = pairStat s x ∧ devState t = devState s ∧ SameCore s t) ∧
      (∀ d, ds.head? = some d → pairStat s x ≠ 4 → s.chk.detAt.getD x none ≠ some s.tick →
      Gives (.lockstepDetection y segs groups sw) s fun t =>
      fld t pCHECKER (0x40 + 4 * x) 4 4 = d.1 ∧
      rbit t pCHECKER (0x40 + 4 * x) 11 = (sw && sweepFound s x ⟨segs, groups⟩ && d.1 == 1) ∧
      (d.1 ≤ 2 → fld t pCHECKER (0x40 + 4 * x) 8 3 = ds.foldl (fun m e => if e.1 ≤ 2 then min m e.2 else m) d.2) ∧
      rbit t pCHECKER 0x10 (if d.1 = 2 then 2 else if d.1 = 3 then 3 else x) = true ∧
      fld t pCHECKER (0x48 + 4 * x) (8 * (d.1 - 1)) 8 = min 255 (fld s pCHECKER (0x48 + 4 * x) (8 * (d.1 - 1)) 8 + 1) ∧
      (recTotal t x < 9 → pairStat t x = 1) ∧ (9 ≤ recTotal t x → pairStat t x = 4) ∧
      (∀ a, tcmBase x ≤ a → a < tcmBase x + 0x20000 → mget t.mem a = 0) ∧
      (∀ a, a < tcmBase x ∨ tcmBase x + 0x20000 ≤ a → mget t.mem a = mget s.mem a) ∧
      t.nv = s.nv ∧ t.tick = s.tick ∧ t.pending = s.pending ∧ stagH t (1 - x) = stagH s (1 - x))) ∧
    (pairRec s x = 1 → Gives (.fastRebootStart y) s fun t => pairRec t x = 2 ∧ pairStat t x = 2 ∧
      OnlyRegs [(pCHECKER, 0x40 + 4 * x), (pSTAG x, 0x40)] s t ∧ SameCore s t) ∧
    (∀ acc : Access, Reaches s acc pCHECKER 0x08 true → pairRec s x = 2 → Gives (.resumed acc y) s fun t =>
      pairRec t x = 0 ∧ pairStat t x = 0 ∧ t.reply = ⟨0, false⟩ ∧ SameCore s t) ∧
    (∀ at_, s.chk.recAt.getD x none = some at_ →
      (at_ + 5 * 200000 ≤ s.tick → Gives (.recoveryCoastStart y) s fun t =>
        t.chk.coast = s.chk.coast.set x true ∧ SameRegs s t ∧ SameCore s t) ∧
      (at_ + 50 * 200000 ≤ s.tick → pairStat s x ≠ 4 → Settled s → Gives (.recoveryTimeout y) s fun t =>
        pairStat t x = 4 ∧ SameCore s t ∧
        (devState s = .held ∨ devState s = .ready ∨ devState s = .run ∨ devState s = .degraded ∨ devState s = .stopping →
          devState t = .safe))) ∧
    (∀ (r : Fin 6) (a : BitVec 32) (e : Ecc), Gives (.scrubWord r a e) s fun t =>
      OnlyRegs [(pMEMCTL, 0x10), (pMEMCTL, 0x48), (pMEMCTL, 0x4C), (pMEMCTL, 0x50), (pMEMCTL, 0x54)] s t ∧ SameCore s t ∧
      (e = .good → SameRegs s t) ∧
      (scrubAddr s r a.toNat = true → ∀ v : BitVec 8, e = .uncorrectable v → rbit t pMEMCTL 0x10 1 = true ∧ rbit t pMEMCTL 0x50 30 = true ∧
        fld t pMEMCTL 0x50 26 3 = r ∧ fld t pMEMCTL 0x50 0 8 = v.toNat ∧ rg t pMEMCTL 0x54 = a.toNat / 8 * 8 ∧
        fld t pMEMCTL 0x4C 0 16 = min 65535 (fld s pMEMCTL 0x4C 0 16 + 1)))

/-- For an access that reaches AT.n, unlocked: enabling a disabled track of a valid type leaves it in ACQUIRE (VALID for a time
track) with EN 1 and its event flag 0; disabling an enabled one leaves it DISABLED with EN 0; REACQ takes INVALID to ACQUIRE
and is refused with STATE in every other state. A resolver, Mantis or mains track in VALID goes to COAST with cause 2 once
SRC_TIME.TO has passed since its last correction; COAST goes to INVALID once COAST.T has passed; a Hall track without an edge
for SRC_TIME.TO shows standstill with ω 0. Only the track's page, and, where its lock or its slots follow, the CAR and SLOTS
pages change; memory, non-volatile parts, the pairs, time and queue do not. -/
def Obligations.TracksFollowTheirStates : Prop :=
  ∀ (s : State) (n : Fin 8), n < s.tracks.length → ∀ ps, ps = pAT n :: slotPages ++ carPages →
    (∀ acc : Access, Reaches s acc (pAT n) 0x08 true → locked s (pAT n) = false →
      (pageEn s (pAT n) = false → 1 ≤ trackType s n → (trackType s n = 1 → 1 ≤ rg s (pAT n) 0x44 ∧ rg s (pAT n) 0x44 ≤ 32) →
        Gives (.trackEnable acc n) s fun t => trackState t n = (if trackType s n = 6 then trVALID else trACQUIRE) ∧
          pageEn t (pAT n) = true ∧ rbit t (pAT n) 0x10 0 = true ∧ t.reply = ⟨0, false⟩ ∧
          OnlyPages (ps ++ [pCOCOON, pSYS]) s t ∧ SameCore s t) ∧
      (pageEn s (pAT n) = true → Gives (.trackDisable acc n) s fun t => trackState t n = trDISABLED ∧ (trk t n).omega = 0 ∧
          pageEn t (pAT n) = false ∧ t.reply = ⟨0, false⟩ ∧ OnlyPages (ps ++ [pCOCOON, pSYS]) s t ∧ SameCore s t) ∧
      (trackState s n = trINVALID → Gives (.reacq acc n) s fun t => trackState t n = trACQUIRE ∧ t.reply = ⟨0, false⟩ ∧
          OnlyPages (ps ++ [pCOCOON, pSYS]) s t ∧ SameCore s t) ∧
      (trackState s n ≠ trINVALID → Gives (.reacq acc n) s fun t => Refused acc (pAT n) 0x08 0x00040004 .state s t)) ∧
    (powered s = true → trackState s n = trVALID → trackType s n = 1 ∨ trackType s n = 4 ∨ trackType s n = 5 →
      (trk s n).corrAt + fld s (pAT n) 0x4C 0 16 * 200 ≤ s.tick → Gives (.trackSourceTimeout n) s fun t =>
        trackState t n = trCOAST ∧ fld t (pAT n) 0x214 4 4 = 2 ∧ (trk t n).omega = (trk s n).omega ∧ OnlyPages ps s t ∧ SameCore s t) ∧
    (powered s = true → trackState s n = trCOAST → (trk s n).coastAt + fld s (pAT n) 0x50 0 16 * 200 ≤ s.tick →
      Gives (.trackCoastExpire n) s fun t => trackState t n = trINVALID ∧ (trk t n).omega = 0 ∧ OnlyPages ps s t ∧ SameCore s t) ∧
    (powered s = true → trackType s n = 3 → trackState s n = trACQUIRE ∨ trackState s n = trVALID ∨ trackState s n = trCOAST →
      (trk s n).corrAt + fld s (pAT n) 0x4C 0 16 * 200 ≤ s.tick → Gives (.hallStandstill n) s fun t =>
        rbit t (pAT n) 0x214 2 = true ∧ (trk t n).omega = 0 ∧ trackState t n = trackState s n ∧ OnlyPages ps s t ∧ SameCore s t)

/-- With the logic powered and a single waiting correction that is due: one captured more than 255 ticks ago sets the track's flag
1 and leaves its state and position; of a VALID track whose angle source measures m, a fresh one whose error e (m less the
angle exposed at capture) is within ERR_MAX is taken, ERR showing e, θ gaining e × KP modulo 2^48, ω gaining RNE(e × KI /
2^KSH) saturated to 48 bits. With no correction waiting nothing happens. A read of POS by an access that reaches it answers
the present exposed angle and latches the four words of position and speed. -/
def Obligations.TracksTakeCorrections : Prop :=
  ∀ (s : State) (n : Fin 8), n < s.tracks.length → ∀ ps, ps = pAT n :: slotPages ++ carPages →
    (powered s = true → (trk s n).wait = [] → Idle (.trackCorrection n) s) ∧
    (∀ c, (trk s n).wait.head? = some c → (trk s n).wait.length = 1 → powered s = true → c.due ≤ s.tick →
      (c.cap + 255 < s.tick → Gives (.trackCorrection n) s fun t => rbit t (pAT n) 0x10 1 = true ∧ (trk t n).wait = [] ∧
        (trk t n).theta = (trk s n).theta ∧ (trk t n).omega = (trk s n).omega ∧ trackState t n = trackState s n ∧
        OnlyRegs [(pAT n, 0x10), (pAT n, 0x218)] s t ∧ SameCore s t) ∧
      (∀ e, e = angDiff c.m (angleAt s n (s.tick - c.cap)) → s.tick ≤ c.cap + 255 → c.ab = none → trackState s n = trVALID →
        e.natAbs ≤ rg s (pAT n) 0x58 → Gives (.trackCorrection n) s fun t =>
          trackState t n = trVALID ∧ rg t (pAT n) 0x210 = uns 32 e ∧ (trk t n).wait = [] ∧ (trk t n).corrAt = s.tick ∧
          (trk t n).theta = ((((trk s n).theta : Int) + e * actFld s (pAT n) 0x100 0 16) % 2 ^ 48).toNat ∧
          (trk t n).omega = (satS 48 ((trk s n).omega + rneDiv (e * actFld s (pAT n) 0x104 0 16) (2 ^ actFld s (pAT n) 0x104 16 6))).1 ∧
          OnlyPages ps s t ∧ SameCore s t)) ∧
    (∀ acc : Access, Reaches s acc (pAT n) 0x200 false → Gives (.posRead acc n) s fun t =>
      t.reply = ⟨nextTheta s n / 2 ^ 16 % 2 ^ 32, false⟩ ∧ rg t (pAT n) 0x200 = t.reply.value ∧
      rg t (pAT n) 0x204 = nextTheta s n % 2 ^ 16 ∧ rg t (pAT n) 0x208 = uns 48 (trk s n).omega % 2 ^ 32 ∧
      OnlyRegs [(pAT n, 0x200), (pAT n, 0x204), (pAT n, 0x208), (pAT n, 0x20C)] s t ∧ SameCore s t)

/-- With the logic powered: a slot that is disabled, disarmed, in a re-seat scan, or has had its event in this tick does nothing;
one on a good track whose residual with the tick's step stays within its bounds does nothing; one whose residual passes the
gap, in a direction it takes and with no window, moves to the next point, counts one firing and is disarmed where it fires
once. A scan whose ticks are over leaves the slot armed at the point found. The actions of the slots that fired in an earlier
tick clear their fired mark and drive the lines asked for in that tick. -/
def Obligations.SlotsFireAndAct : Prop :=
  ∀ (s : State) (i : Fin 64), i < s.slots.length → powered s = true →
    (slotEn s i = false ∨ slotArmed s i = false ∨ slotSeat s i = true ∨ (slotH s i).lat.evAt = some s.tick → Idle (.slotFire i) s) ∧
    (slotEn s i = true → slotArmed s i = true → slotSeat s i = false → (slotH s i).lat.evAt ≠ some s.tick → slotAct s i 0 2 1 = 0 →
      trackGood s (slotTrk s i) = true →
      ∀ r, r = (slotH s i).lat.r + deltaA s (slotTrk s i) → ∀ g : Int, g = gap (slotPts s i) (slotStep s i) (slotH s i).lat.k →
        (r < g + (slotHyst s i).1 → -(slotHyst s i).2 ≤ r → Idle (.slotFire i) s) ∧
        (g + (slotHyst s i).1 ≤ r → slotAct s i 0 8 2 ≠ 1 → slotAct s i 0xC 16 16 = 0 → Gives (.slotFire i) s fun t =>
          (slotH t i).fired = true ∧ (slotH t i).lat.k = ((slotH s i).lat.k + 1) % slotPts s i ∧
          fld t (slotPage i) (slotReg i 0x18) 0 16 = (fld s (slotPage i) (slotReg i 0x18) 0 16 + 1) % 2 ^ 16 ∧
          slotArmed t i = (slotAct s i 0 1 1 == 0) ∧ (∀ j, j ≠ i.val → slotH t j = slotH s j) ∧
          OnlyRegs [(slotPage i, slotReg i 0x14), (slotPage i, slotReg i 0x18), (slotPage i, 0x10)] s t ∧ SameCore s t)) ∧
    (∀ e, (slotH s i).lat.scan = some e → e ≤ s.tick → Gives (.slotReseatDone i) s fun t =>
      slotArmed t i = true ∧ slotSeat t i = false ∧ rbit t (slotPage i) 0x10 2 = true ∧ (slotH t i).lat.scan = none ∧
      OnlyRegs [(slotPage i, slotReg i 0x14), (slotPage i, 0x10)] s t ∧ SameCore s t) ∧
    ((slotH s i).fired = true → (slotH s i).lat.evAt ≠ some s.tick → Gives .slotActions s fun t =>
      (slotH t i).fired = false ∧ (actionOf s i 0 1 = 1 → (32 + i.val, slotPage i, s.tick) ∈ t.hive.driven) ∧ SameRest s t)

/-- For a mapped track that is good, not scanning and without an event in this tick, whose residual passes the gap forward: D2
takes D1, and D1 the ticks since the last event where they fit 24 bits and the free value of log entry 19 after a longer gap.
A lock that stands and delivers takes the period 2 × D1 − D2 clamped to 64 to 2^24 − 1 for its carriers in the next tick; a
lock that does not stand is set by the second event in one direction while the track's speed reaches LOCK_MIN. Within the gap
nothing happens. -/
def Obligations.TheLockDeliversPeriods : Prop :=
  ∀ (s : State) (n : Fin 8), n < s.tracks.length → powered s = true → lockMap s n ≠ 0 → trackGood s n = true →
    (trk s n).lat.scan = none → (trk s n).lat.evAt ≠ some s.tick →
    ∀ r, r = (trk s n).lat.r + deltaA s n → ∀ g : Int, g = gap (lockPts s n) (lockStep s n) (trk s n).lat.k →
      (0 ≤ r → r < g → Idle (.lockEvent n) s) ∧
      (g ≤ r → ∀ d, d = s.tick - (trk s n).lAt → d < 2 ^ 24 → Gives (.lockEvent n) s fun t =>
        fld t (pAT n) 0x220 0 24 = d ∧ fld t (pAT n) 0x224 0 24 = fld s (pAT n) 0x220 0 24 ∧ (trk t n).lAt = s.tick ∧
        (trk t n).lat.k = ((trk s n).lat.k + 1) % lockPts s n ∧
        (lockOn s n = true → (trk s n).lGoes = true →
          (trk t n).lOut = some (clampI 64 (2 ^ 24 - 1) (2 * (d : Int) - fld s (pAT n) 0x220 0 24)).toNat) ∧
        (lockOn s n = false → rg s (pAT n) 0x60 ≤ speedOf s n → (trk s n).lDir = 1 → 1 ≤ (trk s n).lCount → lockOn t n = true) ∧
        (lockOn s n = false → (trk s n).lDir ≠ 1 → lockOn t n = false) ∧
        OnlyRegs [(pAT n, 0x10), (pAT n, 0x214), (pAT n, 0x220), (pAT n, 0x224)] s t ∧ SameCore s t) ∧
      (g ≤ r → 2 ^ 24 ≤ s.tick - (trk s n).lAt → Gives (.lockEvent n) s fun t =>
        fld t (pAT n) 0x220 0 24 = freeNow s % 2 ^ 24 ∧ fld t (pAT n) 0x224 0 24 = fld s (pAT n) 0x220 0 24 ∧ (trk t n).lAt = s.tick ∧
        (trk t n).lat.k = ((trk s n).lat.k + 1) % lockPts s n ∧
        OnlyRegs [(pAT n, 0x10), (pAT n, 0x214), (pAT n, 0x220), (pAT n, 0x224)] s t ∧ SameCore s t)

/-- With the logic powered: a sinc3 window of an input enabled throughout stores the RNE of its weighted bits, saturated to 16
bits; STUCK on an enabled input with the check on, and a clock that does not toggle on an enabled group, set their fault bit
and event flag; a scan start on an enabled converter at its period starts the next conversion, or counts a skip where the
converter is not free; a SAR conversion ends no earlier than 40 ticks after its start, and 42 ticks after it (RNE(V × 16384 /
5 V), held to 0 to 16383, less 8192) × 4 is stored and counted; an HVS result of a channel enabled since its input was held,
60 ticks after a tick that is a multiple of 200, stores its value, counts, and flags thresholds passed. Nothing but the
converter's page changes, and memory, non-volatile parts, the pairs, time and queue do not. -/
def Obligations.ConvertersStoreTheirResults : Prop :=
  ∀ s : State, powered s = true →
    (∀ (n : Fin 48) (w : List Bool), ∀ g, g = n.val / 8 → ∀ n3, n3 = (w.length + 2) / 3 →
      (∀ f, sdFree s g n3 = some f → sdEn s n = true → sdSince s n f = true → w.length = 3 * n3 - 2 →
        Gives (.sdRawResult n w) s fun t =>
          fld t (pSDG g) (0x60 + 4 * (n % 8)) 0 16 = uns 16 (satS 16 (rneDiv
            ((2 * (sincSum 3 n3 w : Int) - (n3 ^ 3 : Nat)) * 2 ^ 15) (n3 ^ 3))).1 ∧
          OnlyRegs [(pSDG g, 0x60 + 4 * (n % 8))] s t ∧ SameCore s t) ∧
      (sdEn s n = false → Idle (.sdRawResult n w) s) ∧
      (sdEn s n = true → rg s (pSDG g) 0x4C ≠ 0 → Gives (.sdStuck n) s fun t => rbit t (pSDG g) 0x50 (n % 8) = true ∧
        rbit t (pSDG g) 0x10 0 = true ∧ OnlyRegs [(pSDG g, 0x50), (pSDG g, 0x10)] s t ∧ SameCore s t)) ∧
    (∀ g : Fin 6, pageEn s (pSDG g) = true → Gives (.sdClockFault g) s fun t => rbit t (pSDG g) 0x50 8 = true ∧
      rbit t (pSDG g) 0x10 1 = true ∧ OnlyRegs [(pSDG g, 0x50), (pSDG g, 0x10)] s t ∧ SameCore s t) ∧
    (∀ n : Fin 4, n < s.sar.length → rbit s (pSAR n) 0x08 0 = true → rbit s (pSAR n) 0x08 1 = true →
      s.tick % (max 1 (rg s (pSAR n) 0x44)) = 0 →
      (sarFree s n ≤ s.tick → Gives (.sarScanStart n) s fun t =>
        (sarH t n).conv = (sarH s n).conv ++
            [⟨fld s (pSAR n) 0x40 (3 * ((sarH s n).scan % (fld s (pSAR n) 0x40 24 3 + 1))) 3, none, s.tick, true⟩] ∧
          SameRegs s t ∧ SameCore s t) ∧
      (s.tick < sarFree s n → Gives (.sarScanStart n) s fun t => (sarH t n).conv = (sarH s n).conv ∧ rbit t (pSAR n) 0x80 0 = true ∧
        fld t (pSAR n) 0x80 8 8 = min 255 (fld s (pSAR n) 0x80 8 8 + 1) ∧ OnlyRegs [(pSAR n, 0x80)] s t ∧ SameCore s t)) ∧
    (∀ (n : Fin 4) (uv : Int), n < s.sar.length → ∀ c, (sarH s n).conv.head? = some c → c.ch < 8 → (sarH s n).res = [] →
      ∀ raw, raw = (clampI 0 16383 (rneDiv (uv * 16384) 5000000) - 8192) * 4 →
      (s.tick < c.start + 40 → Idle (.sarConversionDone n uv) s) ∧
      (c.start + 40 ≤ s.tick → s.tick < c.start + 42 → Gives (.sarConversionDone n uv) s fun t =>
        (sarH t n).conv = (sarH s n).conv.tail ∧ (sarH t n).res = [(c.start + 42, c, raw)] ∧ SameRegs s t ∧ SameCore s t) ∧
      (c.start + 42 ≤ s.tick → Gives (.sarConversionDone n uv) s fun t => (sarH t n).conv = (sarH s n).conv.tail ∧
        fld t (pSAR n) (0x60 + 4 * c.ch) 0 16 = uns 16 raw ∧
        fld t (pSAR n) (0x60 + 4 * c.ch) 16 16 = (fld s (pSAR n) (0x60 + 4 * c.ch) 16 16 + 1) % 2 ^ 16 ∧
        OnlyRegs [(pSAR n, 0x60 + 4 * c.ch)] s t ∧ SameCore s t)) ∧
    (∀ (i : Fin 8) (mv : Int) (fault : Bool), rbit s pHVS 0x08 i = true → s.tick % 200 = 60 → hvsSince s i (s.tick - 60) = true →
      Gives (.hvsResult i mv fault) s fun t =>
      ∀ raw, raw = (satS 16 (rneDiv (mv * 32768) (hvsFs s.variant * 1000))).1 →
        fld t pHVS (0x60 + 4 * i) 0 16 = uns 16 raw ∧
        (sgn 16 (fld s pHVS (0x40 + 4 * i) 16 16) < raw → rbit t pHVS 0x80 i = true ∧ rbit t pHVS 0x10 i = true) ∧
        (raw < sgn 16 (fld s pHVS (0x40 + 4 * i) 0 16) → rbit t pHVS 0x80 (8 + i) = true ∧ rbit t pHVS 0x10 i = true) ∧
        (fault = true → rbit t pHVS 0x80 (16 + i) = true) ∧
        OnlyRegs [(pHVS, 0x60 + 4 * i.val), (pHVS, 0x80), (pHVS, 0x10)] s t ∧ SameCore s t)

/-- With the logic powered, the oldest assembly of a set completes once no channel of it is ready later: with no loss cause and
every raw value at hand the record holds the calibrated elements in list order (0 beyond its length), the angle and the 64-bit
tick of its trigger, ERR 0 and the next sequence number, and its completion line is driven; with a cause the record says so,
the losses are counted and the loss line is driven. BUSY stays where another assembly of the set waits. A set without an
assembly, or with one not due, does nothing. Memory, non-volatile parts, the pairs, time and queue stay as they were. -/
def Obligations.SampleSetsComplete : Prop :=
  ∀ (s : State) (k : Fin 8) (ws : List (List Bool)), powered s = true → k < s.sets.length →
    ∀ asms, asms = (setH s k).late ++ (setH s k).cur.toList →
    (asms = [] → Idle (.setComplete k ws) s) ∧
    (∀ x, asms.head? = some x → ∀ len, len = bits x.cfg 16 5 → ∀ cause, cause = asmCause s x →
      (asmDue s x = false → Idle (.setComplete k ws) s) ∧
      (asmDue s x = true → cause = 0 → asmRaws x.trig x.chans ws s.sdGot = none → Idle (.setComplete k ws) s) ∧
      (asmDue s x = true → cause = 0 → ∀ raws, asmRaws x.trig x.chans ws s.sdGot = some raws → Gives (.setComplete k ws) s fun t =>
        rbit t pSETS (0x114 + 0x20 * k) 0 = decide (1 < asms.length) ∧ (setH t k).late ++ (setH t k).cur.toList = asms.tail ∧
        rg t pSETS (recOff k 8) = x.ang % 2 ^ 32 ∧ rg t pSETS (recOff k 10) = x.trig % 2 ^ 32 ∧
        rg t pSETS (recOff k 11) = x.trig / 2 ^ 32 % 2 ^ 32 ∧ rbit t pSETS (recOff k 9) 0 = false ∧
        (96 + k.val, pSETS, s.tick) ∈ t.hive.driven ∧
        (∀ els, els = raws.1.map (fun e => (calibrate s e.1 e.2).1) → (setH t k).elems = els ∧
          ∀ j, j < 16 → fld t pSETS (recOff k (j / 2)) (16 * (j % 2)) 16 = if j < len then uns 16 (els.getD j 0) else 0) ∧
        OnlyPages ([pSETS, pCAL, pSYS] ++ atPages) s t ∧ SameCore s t) ∧
      (asmDue s x = true → cause ≠ 0 → Gives (.setComplete k ws) s fun t =>
        rbit t pSETS (0x114 + 0x20 * k) 0 = decide (1 < asms.length) ∧ (setH t k).late ++ (setH t k).cur.toList = asms.tail ∧
        rg t pSETS (recOff k 10) = x.trig % 2 ^ 32 ∧ rbit t pSETS (recOff k 9) 0 = true ∧ fld t pSETS (recOff k 9) 1 3 = cause % 8 ∧
        (104 + k.val, pSETS, s.tick) ∈ t.hive.driven ∧
        fld t pSETS (0x114 + 0x20 * k) 16 8 = min 255 (fld s pSETS (0x114 + 0x20 * k) 16 8 + 1) ∧
        OnlyPages [pSETS, pSYS] s t ∧ SameCore s t))

/-- With the logic powered and the resolver's page enabled: a sample pair in a tick that is a multiple of 200 is shown raw, and
where no fault stands, the reference is large enough and the amplitude within its limits, its corrected atan2 angle (log entry
23) waits for delivery; an angle sampled 40 ticks ago is delivered to ANGLE and, scaled by its pole pairs and offset, to every
track it feeds that is not DISABLED; a fault sets its bit and flag and sends its VALID tracks to COAST. With EN 0, or in
another tick, a sample does nothing. A read of ANGLE answers it and latches velocity and capture tick. Memory, non-volatile
parts, the pairs, time and queue stay as they were. -/
def Obligations.ResolversMeasureAndReport : Prop :=
  ∀ (s : State) (r : Fin 2),
    (∀ acc : Access, Reaches s acc (pRSV r) 0x50 false → Gives (.angleRead acc r) s fun t => t.reply = ⟨rg s (pRSV r) 0x50, false⟩ ∧
      rg t (pRSV r) 0x60 = (rsvH s r).cap % 2 ^ 32 ∧ rg t (pRSV r) 0x54 = uns 48 (rsvH s r).vel % 2 ^ 32 ∧
      OnlyRegs [(pRSV r, 0x54), (pRSV r, 0x58), (pRSV r, 0x60)] s t ∧ SameCore s t) ∧
    (powered s = true → r < s.rsv.length → pageEn s (pRSV r) = true →
      (∀ (sn cs : BitVec 16) (ph : BitVec 32), s.tick % 200 = 0 → Gives (.resolverSample r sn cs ph) s fun t =>
        rg t (pRSV r) 0x5C = sn.toNat + 65536 * cs.toNat ∧ (rsvH t r).exc = some ((rsvH s r).exc.getD (s.tick, ph.toNat)) ∧
        OnlyPages (pRSV r :: pCAL :: trackPages) s t ∧ SameCore s t ∧
        ∀ e, e = rsvRef s r ph.toNat → ∀ g : Int, g = (if e < 0 then -1 else 1) → ∀ x, x = rsvCorrect s r g sn.toInt cs.toInt →
          ∀ m2, m2 = (x.1 * x.1 + x.2.1 * x.2.1) * 2 ^ 30 → ∀ lo, lo = sgn 16 (fld s (pRSV r) 0x48 0 16) →
          ∀ hi, hi = sgn 16 (fld s (pRSV r) 0x48 16 16) →
          sgn 16 (fld s (pRSV r) 0x44 16 16) ≤ e.natAbs → rg s (pRSV r) 0x4C = 0 → lo * lo * (e * e) ≤ m2 → m2 ≤ hi * hi * (e * e) →
            (rsvH t r).wait = some (rsvHarm s r (angle16 (g * x.1) (g * x.2.1)), s.tick)) ∧
      (∀ w, (rsvH s r).wait = some w → s.tick = w.2 + 40 → rg s (pRSV r) 0x4C = 0 → Gives (.resolverAngleDelivery r) s fun t =>
        rg t (pRSV r) 0x50 = w.1 % 2 ^ 16 * 2 ^ 16 ∧ (rsvH t r).wait = none ∧ OnlyRegs [(pRSV r, 0x50)] s t ∧ SameCore s t ∧
        ∀ n : Fin 8, n < s.tracks.length → trackType s n = 1 → trackInst s n = r → trackState s n ≠ trDISABLED →
          (trk t n).wait.getLast?.map (fun c => (c.cap, c.m)) =
            some (w.2, (w.1 % 2 ^ 16 * 2 ^ 16 * rg s (pAT n) 0x44 + rg s (pAT n) 0x48) % 2 ^ 32)) ∧
      (∀ b : Fin 4, 2 ≤ b.val ∨ (b.val = 0 ∧ 4 ≤ (rsvH s r).low) ∨ (b.val = 1 ∧ 4 ≤ (rsvH s r).high) →
        Gives (.resolverFault r b) s fun t => rbit t (pRSV r) 0x4C b = true ∧ rbit t (pRSV r) 0x10 0 = true ∧
          (∀ n : Fin 8, trackType s n = 1 → trackInst s n = r → trackState s n = trVALID → trackState t n = trCOAST) ∧
          OnlyPages (pRSV r :: trackPages) s t ∧ SameCore s t)) ∧
    (powered s = true → pageEn s (pRSV r) = false ∨ s.tick % 200 ≠ 0 → ∀ (sn cs : BitVec 16) (ph : BitVec 32), Idle (.resolverSample r sn cs ph) s)

/-- With the logic powered: an edge of A or B of an enabled encoder counting all edges adds or takes one modulo 2^32, in the
direction of CFG; both channels changing at once is a fault and counts nothing, and any edge brings the levels;
ENCODER_DELIVERY, every SRC_TIME.DIV ticks, hands the scaled count to a track of that source; a Hall edge to a code of the
table stores code, sector and time, and one to no code is a fault; a second edge of an enabled tooth wheel stores the ticks
between; a SENT frame whose nibbles, pause pulse, CRC of the method chosen and calibration pulse are as its SENT_CFG has them
stores nibbles, status and NEW, and with the slow channel enabled the message it completes; another one is a fault; a read of
SENT_DATA answers it and clears NEW. An edge of a disabled input changes no register. Memory, non-volatile parts, the pairs,
time and queue stay as they were. -/
def Obligations.EncodersHallsWheelsAndSentReport : Prop :=
  ∀ s : State, powered s = true →
    (∀ (i : Fin 4) (a b z : Bool), ∀ o, o = s.enc.getD i (false, false) →
      (rbit s pENC 0x08 i = false → Gives (.encoderEdge i a b z) s fun t => SameRegs s t ∧ SameCore s t) ∧
      (rbit s pENC 0x08 i = true → o.1 ≠ a → o.2 ≠ b → Gives (.encoderEdge i a b z) s fun t =>
        rbit t pENC 0xD0 i = true ∧ rbit t pENC 0x10 0 = true ∧ (z = false → rg t pENC (0x50 + 4 * i) = rg s pENC (0x50 + 4 * i)) ∧
        OnlyPages (pENC :: trackPages) s t ∧ SameCore s t) ∧
      (rbit s pENC 0x08 i = true → fld s pENC (0x40 + 4 * i) 0 2 = 0 → o.1 ≠ a → o.2 = b → z = false →
        Gives (.encoderEdge i a b z) s fun t =>
          rg t pENC (0x50 + 4 * i) = (((rg s pENC (0x50 + 4 * i) : Int) +
            (if a ≠ b then 1 else -1) * (if rbit s pENC (0x40 + 4 * i) 2 then -1 else 1)) % 2 ^ 32).toNat ∧
          OnlyRegs [(pENC, 0x50 + 4 * i.val)] s t ∧ SameCore s t) ∧
      (rbit s pENC 0x08 i = true → fld s pENC (0x40 + 4 * i) 0 2 = 0 → o.1 = a → o.2 ≠ b → z = false →
        Gives (.encoderEdge i a b z) s fun t =>
          rg t pENC (0x50 + 4 * i) = (((rg s pENC (0x50 + 4 * i) : Int) +
            (if a ≠ b then -1 else 1) * (if rbit s pENC (0x40 + 4 * i) 2 then -1 else 1)) % 2 ^ 32).toNat ∧
          OnlyRegs [(pENC, 0x50 + 4 * i.val)] s t ∧ SameCore s t) ∧
      (rbit s pENC 0x08 i = true → Gives (.encoderEdge i a b z) s fun t => t.enc = s.enc.set i (a, b) ∧
        OnlyPages (pENC :: trackPages) s t ∧ SameCore s t)) ∧
    (∀ n : Fin 8, n < s.tracks.length → trackType s n = 2 → ∀ i, i = trackInst s n → i < 4 → rbit s pENC 0x08 i = true →
      trackState s n ≠ trDISABLED →
      (s.encAt.getD n none).all (fun a => decide (a < s.tick) && (s.tick - a) % max 1 (fld s (pAT n) 0x4C 16 8) == 0) = true →
      Gives (.encoderDelivery n) s fun t => SameRegs s t ∧ SameCore s t ∧
        (trk t n).wait.getLast?.map (fun c => (c.cap, c.m)) =
          some (s.tick, (rg s pENC (0x50 + 4 * i) * rg s (pAT n) 0x44 + rg s (pAT n) 0x48) % 2 ^ 32)) ∧
    (∀ (i : Fin 4) (code : Fin 8), rbit s pENC 0x08 (4 + i) = true → ∀ sec, sec = hallSector (rg s pENC (0x70 + 4 * i)) code →
      Gives (.hallEdge i code) s fun t => fld t pENC (0x80 + 4 * i) 0 3 = code ∧ fld t pENC (0x80 + 4 * i) 4 3 = sec ∧
        fld t pENC (0x80 + 4 * i) 8 24 = (s.tick - fld s pENC (0x70 + 4 * i) 24 8) % 2 ^ 24 ∧
        (sec = 7 → rbit t pENC 0xD0 (4 + i) = true ∧ rbit t pENC 0x10 1 = true) ∧
        OnlyPages (pENC :: trackPages) s t ∧ SameCore s t) ∧
    (∀ (j : Fin 2) (p w : Nat), rbit s pENC 0x08 (8 + j) = true → ∀ a, s.twLast.getD j none = some a → s.tick - a < 2 ^ 32 →
      Gives (.twEdge j p w) s fun t => rg t pENC (0x98 + 4 * j) = s.tick - a ∧ OnlyPages [pENC, pSC 3] s t ∧ SameCore s t) ∧
    (∀ (i : Fin 4) (p : SentPulses) (st : Fin 16) (ns : List (Fin 16)) (slow : Option (Nat × Nat)), rbit s pENC 0x08 (10 + i) = true →
      ∀ ok, ok = (p.nib && p.pause == rbit s pENC (0xA0 + 4 * i) 17 && (if rbit s pENC (0xA0 + 4 * i) 16 then p.crcR else p.crcL) && sentCal (fld s pENC (0xA0 + 4 * i) 0 10) p.cal &&
        ns.length == fld s pENC (0xA0 + 4 * i) 12 3) →
      (ok = true → Gives (.sentFrame i p st ns slow) s fun t => rbit t pENC (0xB0 + 4 * i) 31 = true ∧ fld t pENC (0xB0 + 4 * i) 24 4 = st ∧
        (∀ j, j < fld s pENC (0xA0 + 4 * i) 12 3 → j < 6 → fld t pENC (0xB0 + 4 * i) (20 - 4 * j) 4 = (ns.getD j 0).val) ∧
        (∀ m, slow = some m → rbit s pENC (0xA0 + 4 * i) 18 = true →
          rg t pENC (0xC0 + 4 * i) = m.1 % 256 + m.2 % 2 ^ 16 * 256 + 2 ^ 31) ∧
        (slow = none ∨ rbit s pENC (0xA0 + 4 * i) 18 = false → rg t pENC (0xC0 + 4 * i) = rg s pENC (0xC0 + 4 * i)) ∧
        OnlyRegs [(pENC, 0xB0 + 4 * i.val), (pENC, 0xC0 + 4 * i.val)] s t ∧ SameCore s t) ∧
      (ok = false → Gives (.sentFrame i p st ns slow) s fun t => rbit t pENC 0xD0 (12 + i) = true ∧ rbit t pENC 0x10 3 = true ∧
        OnlyRegs [(pENC, 0xD0), (pENC, 0x10)] s t ∧ SameCore s t)) ∧
    (∀ (acc : Access) (i : Fin 4), Reaches s acc pENC (0xB0 + 4 * i) false → Gives (.sentDataRead acc i) s fun t =>
      t.reply = ⟨rg s pENC (0xB0 + 4 * i), false⟩ ∧ rbit t pENC (0xB0 + 4 * i) 31 = false ∧
      OnlyRegs [(pENC, 0xB0 + 4 * i.val)] s t ∧ SameCore s t)

/-- For an access that reaches PAGE_CTRL of CAL, unlocked and not armed, in HELD or READY and with no operation running: ZERO of a
channel that gives results, with N from 4 to 12, starts its average; STORE starts a store of the active values; RECALL with a
valid record loads its values into the pending and active registers. A ZERO that has taken 2^N results stores their RNE
average in ZERO_RES and as the channel's pending offset. A STORE completes into the copy that does not hold the newer record,
at its address in Cocoon, and makes it the newer one, no byte outside that copy changing. Every millisecond k of each channel
of a powered tile is computed, 0 where k0 is 0. -/
def Obligations.CalibrationOperationsRun : Prop :=
  ∀ s : State,
    (∀ acc : Access, Reaches s acc pCAL 0x08 true → locked s pCAL = false → armed s pCAL = false → devState s = .held ∨ devState s = .ready →
      rbit s pCAL 0x48 0 = false →
      (∀ code, code = fld s pCAL 0x40 0 8 → ∀ n, n = fld s pCAL 0x40 8 4 → code < 0x30 ∨ (0x60 ≤ code ∧ code < 0x8C) → 4 ≤ n → n ≤ 12 →
        zeroAbsent s code = false → Gives (.zero acc) s fun t => t.cal.zero = some (code, n) ∧ t.cal.count = 0 ∧ t.cal.sum = 0 ∧
          rbit t pCAL 0x48 0 = true ∧ blockState t pCAL = 1 ∧ t.reply = ⟨0, false⟩ ∧
          OnlyPages [pCAL, pCOCOON, pSYS] s t ∧ SameCore s t) ∧
      (Gives (.calStore acc) s fun t => t.cal.store.isSome = true ∧ t.cal.origin = 1 ∧ rbit t pCAL 0x48 0 = true ∧ blockState t pCAL = 2 ∧
          t.reply = ⟨0, false⟩ ∧ OnlyPages [pCAL, pCOCOON, pSYS] s t ∧ SameCore s t) ∧
      (∀ r, newestCal s = some r → Gives (.recall acc) s fun t => t.reply = ⟨0, false⟩ ∧
          OnlyPages [pCAL, pCOCOON, pSYS] s t ∧ SameCore s t ∧ ∀ j, j < calOffsets.length → ∀ o, o = calOffsets.getD j 0 →
            0x100 ≤ o → o < 0x400 → ∀ v, v = mread s.mem (calBase r.1 + 8 + 4 * j) 4 → rg t pCAL o = v ∧ act t pCAL o = v)) ∧
    (powered s = true →
      (∀ z, s.cal.zero = some z → z.1 < 0x8C → 2 ^ z.2 ≤ s.cal.count → Gives .zeroDone s fun t =>
        ∀ avg, avg = rneDiv s.cal.sum (2 ^ z.2) → fld t pCAL (calReg z.1) 0 16 = uns 16 avg ∧
          fld t pCAL (calReg z.1) 16 16 = fld s pCAL (calReg z.1) 16 16 ∧ fld t pCAL 0x44 0 16 = uns 16 avg ∧ rbit t pCAL 0x44 31 = true ∧
          rbit t pCAL 0x48 0 = false ∧ t.cal.zero = none ∧
          OnlyRegs [(pCAL, calReg z.1), (pCAL, 0x44), (pCAL, 0x48), (pCAL, 0x0C)] s t ∧ SameCore s t) ∧
      (∀ vals, s.cal.store = some vals → vals.length = calOffsets.length →
        ∀ old, old = newestCal s → ∀ copy : Nat, copy = (if old.map Prod.fst = some 0 then 1 else 0) → ∀ b, b = calBase copy →
        Gives .calStoreDone s fun t =>
          newestCal t = some (copy, (old.map (fun r => (r.2 + 1) % 2 ^ 32)).getD 1) ∧ calCheck t copy = s.cal.storeCheck % 2 ^ 32 ∧
          (∀ j, j < calOffsets.length → mread t.mem (b + 8 + 4 * j) 4 = vals.getD j 0 % 2 ^ 32) ∧
          (∀ a, a < b ∨ b + 12 + 4 * calOffsets.length ≤ a → mget t.mem a = mget s.mem a) ∧
          (s.cal.zero = none → rbit t pCAL 0x48 0 = false) ∧ rbit t pCAL 0x48 1 = true ∧
          OnlyPages [pCAL] s t ∧ t.nv = s.nv ∧ t.stag = s.stag ∧ t.tick = s.tick ∧ t.pending = s.pending) ∧
      (Gives .scrKCompute s fun t => OnlyPages (pCAL :: icPages) s t ∧ SameCore s t ∧ ∀ c, c < 48 →
        rg t pCAL (0x580 + 4 * c) = if rbit s pSUPPLY 0x50 (c / 8) = false then rg s pCAL (0x580 + 4 * c)
          else if rg s pCAL (0x400 + 8 * c) = 0 then 0
          else (scrRatio (rg s pCAL (0x400 + 8 * c)) (rg s pCAL (0x404 + 8 * c))
            (fld s (pIC (c / 8)) (if c % 8 < 4 then 0x54 else 0x58) 0 16) (fld s pCAL 0x50 0 16)).1))

/-- An engine in RUN whose next word is such an instruction, its reserved fields 0 and its operands in range, issues it: LDS
brings the 16 elements and the angle of the named set's record, the flags SERR and TINV, and notes the record's SEQ; LDX
brings n words of state memory or coefficients, multiplied by κ with CS where asked, or n accumulator slots; STS puts n
elements into state memory or the working mailbox, hands a vector to the tracks, or puts n accumulators into their slots. The
results, read after every earlier result has retired, wait for the retire cycle; nothing else changes, but that a corrected
error of a word fetched or read is logged. Where such a word is uncorrectable, E021 is raised, issue ends and the run ends
with an engine error of cause 4. -/
def Obligations.MantisLoadsAndStores : Prop :=
  ∀ (s : State) (e : Fin 4) (ecc r : Ecc), ∀ u, u = fetchEcc e ecc s →
    (eccBad ecc = true → ∀ w, w = progWord s e (mtPc s e) →
      (MtReady e 0x04 w s → Gives (.lds ⟨e, ecc⟩) s fun t => MtWordError e s t) ∧
      (MtReady e 0x05 w s → Gives (.ldx ⟨e, ecc⟩ r) s fun t => MtWordError e s t) ∧
      (MtReady e 0x06 w s → Gives (.sts ⟨e, ecc, r⟩) s fun t => MtWordError e s t)) ∧
    (eccBad ecc = false → ∀ o, o = mtOperands e s →
    (∀ w, w = progWord s e (mtPc s e) → MtReady e 0x04 w s → strayBits w [(57, 54), (47, 46), (45, 43)] = false → (iw w 45 43) < 8 →
      Gives (.lds ⟨e, ecc⟩) s fun t => ∀ k, k = iw w 45 43 → ∀ st, st = rg s pSETS (recOff k 9) →
        ∀ fl, fl = 16 * b2n (bit st 0) + 32 * b2n (decide (bits st 4 3 ≠ 2 ∧ bits st 4 3 ≠ 3)) →
        MtIssued e ((List.range 16).map (fun i => .vec (iw w 57 54) i (sgn 16 (fld s pSETS (recOff k (i / 2)) (16 * (i % 2)) 16))) ++
          [.ang (iw w 47 46) (rg s pSETS (recOff k 8)), .flags fl (48 - fl)]) u t ∧
        ((mtH s e).noted.length = 8 → (mtH t e).noted.getD k none = some (fld s pSETS (recOff k 9) 8 8))) ∧
    (∀ w, w = progWord s e (mtPc s e) → MtReady e 0x05 w s →
      strayBits w [(57, 54), (45, 45), (44, 44), (43, 43), (42, 42), (41, 38), (37, 34), (33, 21)] = false →
      ∀ a, a = xAddr o e (bit w 42) (iw w 33 21) → ∀ n, n = iw w 37 34 + 1 → ∀ ks, ks = List.range n →
      ∀ m, m = ks.map (fun i => mtBase e + if iw w 45 44 = 0 then 0x10000 + 2 * (a + i) else if iw w 45 44 = 1 then 0xC000 + 2 * (a + i)
        else 0x10000 + 8 * (a + i)) → ∀ v, v = mtReadEcc m r u →
      (∀ rd : Nat → Int, rd = (fun i => if iw w 45 44 = 0 then stWord o e (a + i) else coefWord o e (a + i)) →
        eccBad r = false → iw w 45 44 ≤ 1 → iw w 41 38 + n ≤ 16 → a + n ≤ (if iw w 45 44 = 0 then 1024 else 8192) → bit w 43 = false →
        Gives (.ldx ⟨e, ecc⟩ r) s fun t => MtIssued e (ks.map (fun i => .vec (iw w 57 54) (iw w 41 38 + i) (rd i))) v t) ∧
      (∀ c : Nat → Int × Bool, c = (fun i => convQ15 (mtRnd s e)
          ((if iw w 45 44 = 0 then stWord o e (a + i) else coefWord o e (a + i)) * (rg s (pMT e) 0xA0 : Int)) 15) →
        eccBad r = false → iw w 45 44 ≤ 1 → iw w 41 38 + n ≤ 16 → a + n ≤ (if iw w 45 44 = 0 then 1024 else 8192) → bit w 43 = true →
        Gives (.ldx ⟨e, ecc⟩ r) s fun t => MtIssued e (ks.map (fun i => .vec (iw w 57 54) (iw w 41 38 + i) (c i).1) ++
          satEffs (mtPc s e) (ks.any (fun i => (c i).2)) false false) v t) ∧
      (eccBad r = false → iw w 45 44 = 2 → iw w 41 38 = 0 → bit w 43 = false → iw w 57 54 + n ≤ 16 → a + n ≤ 256 →
        Gives (.ldx ⟨e, ecc⟩ r) s fun t => MtIssued e (ks.map (fun i => .acc (iw w 57 54 + i) (stSlot o e (a + i)))) v t) ∧
      (eccBad r = true → (iw w 45 44 ≤ 1 ∧ iw w 41 38 + n ≤ 16 ∧ a + n ≤ (if iw w 45 44 = 0 then 1024 else 8192)) ∨
          (iw w 45 44 = 2 ∧ iw w 41 38 = 0 ∧ bit w 43 = false ∧ iw w 57 54 + n ≤ 16 ∧ a + n ≤ 256) →
        Gives (.ldx ⟨e, ecc⟩ r) s fun t => MtWordError e s t)) ∧
    (∀ w, w = progWord s e (mtPc s e) → MtReady e 0x06 w s → strayBits w [(53, 50), (45, 44), (42, 42), (41, 38), (37, 34), (33, 21)] = false →
      ∀ a, a = xAddr o e (bit w 42) (iw w 33 21) → ∀ n, n = iw w 37 34 + 1 → ∀ ks, ks = List.range n → ∀ h, h = mtH o e →
      (iw w 45 44 = 0 → iw w 41 38 + n ≤ 16 → a + n ≤ 1024 →
        ∀ m, m = (ks.filter (fun i => ! (wholeWords a n).contains ((a + i) / 4))).map (fun i => mtBase e + 0x10000 + 2 * (a + i)) →
        (eccBad r = false ∨ m = [] → Gives (.sts ⟨e, ecc, r⟩) s fun t =>
        MtIssued e ((wholeWords a n).map .fresh ++ ks.map (fun i => .word (a + i) (vget h (iw w 53 50) (iw w 41 38 + i)))) (mtReadEcc m r u) t) ∧
        (eccBad r = true → m ≠ [] → Gives (.sts ⟨e, ecc, r⟩) s fun t => MtWordError e s t)) ∧
      (iw w 45 44 = 1 → iw w 41 38 + n ≤ 16 → a + n ≤ 64 → Gives (.sts ⟨e, ecc, r⟩) s fun t =>
        MtIssued e (ks.map (fun i => .mbox (a + i) (vget h (iw w 53 50) (iw w 41 38 + i)))) u t) ∧
      (iw w 45 44 = 2 → bit w 42 = false → iw w 33 21 = 0 → iw w 41 38 = 0 → n = 1 → Gives (.sts ⟨e, ecc, r⟩) s fun t =>
        MtIssued e [.track ((List.range 16).map (vget h (iw w 53 50)))] u t) ∧
      (iw w 45 44 = 3 → iw w 41 38 = 0 → iw w 53 50 + n ≤ 16 → a + n ≤ 256 → Gives (.sts ⟨e, ecc, r⟩) s fun t =>
        MtIssued e (ks.map (fun i => .slot (a + i) (accGet h (iw w 53 50 + i)))) u t)))

/-- An engine in RUN whose next word is such an instruction, its reserved fields 0 and its element mask not 0, issues it: VADD and
VSUB add and subtract with saturation to Q1.15, VMUL multiplies and rounds in the page's mode, element i of b or its broadcast
element being the second operand; LIM holds each selected element (or accumulator) within plus or minus the limit, a negative
limit counting as 0; CLAMP holds it between the elements of two vectors. A saturation sets SAT and the page's arithmetic flag,
a change by LIM or CLAMP sets LF. Operands are read after every earlier result has retired; nothing else changes, but that a
corrected error of a word fetched is logged. Where such a word is uncorrectable, E021 is raised, issue ends and the run ends
with an engine error of cause 4. -/
def Obligations.MantisVectorArithmetic : Prop :=
  ∀ (s : State) (e : Fin 4) (ecc : Ecc), ∀ u, u = fetchEcc e ecc s →
    (eccBad ecc = true → ∀ w, w = progWord s e (mtPc s e) →
      (MtReady e 0x0C w s → Gives (.vadd ⟨e, ecc⟩) s fun t => MtWordError e s t) ∧
      (MtReady e 0x0D w s → Gives (.vsub ⟨e, ecc⟩) s fun t => MtWordError e s t) ∧
      (MtReady e 0x0E w s → Gives (.vmul ⟨e, ecc⟩) s fun t => MtWordError e s t) ∧
      (MtReady e 0x13 w s → Gives (.lim ⟨e, ecc⟩) s fun t => MtWordError e s t) ∧
      (MtReady e 0x14 w s → Gives (.clamp ⟨e, ecc⟩) s fun t => MtWordError e s t)) ∧
    (eccBad ecc = false → ∀ h, h = mtH (mtOperands e s) e → ∀ w, w = progWord s e (mtPc s e) → ∀ sel, sel = selected 16 (iw w 15 0) →
    iw w 15 0 ≠ 0 → ∀ d, d = iw w 57 54 → ∀ a, a = iw w 53 50 → ∀ b, b = iw w 49 46 →
    (∀ y : Nat → Int, y = (fun i => vget h b (if bit w 45 then iw w 44 41 else i)) →
      strayBits w [(57, 54), (53, 50), (49, 46), (45, 45), (44, 41), (15, 0)] = false →
      (MtReady e 0x0C w s → Gives (.vadd ⟨e, ecc⟩) s fun t => MtIssued e (sel.map (fun i => .vec d i (satS 16 (vget h a i + y i)).1) ++
        satEffs (mtPc s e) (sel.any (fun i => (satS 16 (vget h a i + y i)).2)) false false) u t) ∧
      (MtReady e 0x0D w s → Gives (.vsub ⟨e, ecc⟩) s fun t => MtIssued e (sel.map (fun i => .vec d i (satS 16 (vget h a i - y i)).1) ++
        satEffs (mtPc s e) (sel.any (fun i => (satS 16 (vget h a i - y i)).2)) false false) u t) ∧
      (MtReady e 0x0E w s → Gives (.vmul ⟨e, ecc⟩) s fun t => MtIssued e
        (sel.map (fun i => .vec d i (convQ15 (mtRnd s e) (vget h a i * y i) 15).1) ++
          satEffs (mtPc s e) (sel.any (fun i => (convQ15 (mtRnd s e) (vget h a i * y i) 15).2)) false false) u t)) ∧
    (MtReady e 0x13 w s → strayBits w [(57, 54), (53, 50), (49, 46), (45, 45), (15, 0)] = false →
      ∀ l : Nat → Int, l = (fun i => max 0 (vget h b i)) →
      (bit w 45 = false → Gives (.lim ⟨e, ecc⟩) s fun t => MtIssued e (sel.map (fun i => .vec d i (max (-(l i)) (min (l i) (vget h a i)))) ++
        if sel.any (fun i => max (-(l i)) (min (l i) (vget h a i)) != vget h a i) then [.flags 1 0] else []) u t) ∧
      (bit w 45 = true → (∀ i ∈ sel, a + i ≤ 15 ∧ d + i ≤ 15) → Gives (.lim ⟨e, ecc⟩) s fun t =>
        MtIssued e (sel.map (fun i => .acc (d + i) (max (-(l i * 32768)) (min (l i * 32768) (accGet h (a + i))))) ++
          if sel.any (fun i => max (-(l i * 32768)) (min (l i * 32768) (accGet h (a + i))) != accGet h (a + i)) then [.flags 1 0]
          else []) u t)) ∧
    (MtReady e 0x14 w s → strayBits w [(57, 54), (53, 50), (49, 46), (45, 42), (15, 0)] = false →
      Gives (.clamp ⟨e, ecc⟩) s fun t => MtIssued e
        (sel.map (fun i => .vec d i (min (vget h (iw w 45 42) i) (max (vget h a i) (vget h b i)))) ++
          if sel.any (fun i => min (vget h (iw w 45 42) i) (max (vget h a i) (vget h b i)) != vget h a i) then [.flags 1 0] else []) u t))

/-- An engine in RUN whose next word is such an instruction, its reserved fields 0 and its operands in range, issues it: MVM adds
to each accumulator, and MVMZ puts into it, the sum of its row's coefficients times the vector's elements, saturating at 40
bits with AOV; ACV rounds accumulators to Q1.15; SCS brings cosine and sine of the angle register plus each element; ROT turns
each selected pair by the cosine and sine named. Results are computed exactly and rounded once; they wait for the retire
cycle, and nothing else changes, but that a corrected error of a word fetched or read is logged. Where such a word is
uncorrectable, E021 is raised, issue ends and the run ends with an engine error of cause 4. -/
def Obligations.MantisMatricesAndRotations : Prop :=
  ∀ (s : State) (e : Fin 4) (ecc r : Ecc), ∀ u, u = fetchEcc e ecc s →
    (eccBad ecc = true → ∀ w, w = progWord s e (mtPc s e) →
      (MtReady e 0x08 w s → Gives (.mvm ⟨e, ecc, r⟩) s fun t => MtWordError e s t) ∧
      (MtReady e 0x09 w s → Gives (.mvmz ⟨e, ecc, r⟩) s fun t => MtWordError e s t) ∧
      (MtReady e 0x10 w s → Gives (.acv ⟨e, ecc⟩) s fun t => MtWordError e s t) ∧
      (MtReady e 0x11 w s → Gives (.scs ⟨e, ecc⟩) s fun t => MtWordError e s t) ∧
      (MtReady e 0x12 w s → Gives (.rot ⟨e, ecc⟩) s fun t => MtWordError e s t)) ∧
    (eccBad ecc = false → ∀ o, o = mtOperands e s → ∀ h, h = mtH o e → ∀ w, w = progWord s e (mtPc s e) →
    ∀ d, d = iw w 57 54 → ∀ a, a = iw w 53 50 →
    (strayBits w [(57, 54), (53, 50), (45, 42), (41, 38), (37, 34), (33, 21), (20, 20)] = false →
      ∀ rows, rows = iw w 41 38 + 1 → ∀ cols, cols = iw w 37 34 + 1 → ∀ ad, ad = xAddr o e (bit w 20) (iw w 33 21) →
      d + rows ≤ 16 → iw w 45 42 + cols ≤ 16 → ad + rows * cols ≤ 8192 →
      ∀ row : Nat → Int, row = (fun r => ((List.range cols).map (fun c => coefWord o e (ad + r * cols + c) * vget h a (iw w 45 42 + c))).sum) →
      ∀ v, v = mtReadEcc ((List.range (rows * cols)).map (fun i => mtBase e + 0xC000 + 2 * (ad + i))) r u →
      (eccBad r = false → MtReady e 0x08 w s → Gives (.mvm ⟨e, ecc, r⟩) s fun t => MtIssued e
        ((List.range rows).map (fun r => .acc (d + r) (satS 40 (accGet h (d + r) + row r)).1) ++
          satEffs (mtPc s e) false ((List.range rows).any (fun r => (satS 40 (accGet h (d + r) + row r)).2)) false) v t) ∧
      (eccBad r = false → MtReady e 0x09 w s → Gives (.mvmz ⟨e, ecc, r⟩) s fun t => MtIssued e
        ((List.range rows).map (fun r => .acc (d + r) (satS 40 (row r)).1) ++
          satEffs (mtPc s e) false ((List.range rows).any (fun r => (satS 40 (row r)).2)) false) v t) ∧
      (eccBad r = true → MtReady e 0x08 w s → Gives (.mvm ⟨e, ecc, r⟩) s fun t => MtWordError e s t) ∧
      (eccBad r = true → MtReady e 0x09 w s → Gives (.mvmz ⟨e, ecc, r⟩) s fun t => MtWordError e s t)) ∧
    (MtReady e 0x10 w s → strayBits w [(57, 54), (53, 50), (45, 41), (40, 37), (36, 33)] = false → ∀ n, n = iw w 36 33 + 1 →
      a + n ≤ 16 → iw w 40 37 + n ≤ 16 → ∀ c : Nat → Int × Bool,
      c = (fun i => convQ15 (mtRnd s e) (accGet h (a + i)) (15 - sgn 5 (iw w 45 41)).toNat) →
      Gives (.acv ⟨e, ecc⟩) s fun t => MtIssued e ((List.range n).map (fun i => .vec d (iw w 40 37 + i) (c i).1) ++
        satEffs (mtPc s e) ((List.range n).any (fun i => (c i).2)) false false) u t) ∧
    (MtReady e 0x11 w s → strayBits w [(57, 54), (53, 50), (47, 46), (45, 42), (41, 39)] = false → iw w 45 42 + iw w 41 39 + 1 ≤ 16 →
      ∀ phi : Nat → Nat, phi = (fun i => (((h.ang.getD (iw w 47 46) 0 : Int) + vget h a (iw w 45 42 + i) * 65536) % 2 ^ 32).toNat) →
      Gives (.scs ⟨e, ecc⟩) s fun t => MtIssued e ((List.range (iw w 41 39 + 1)).flatMap (fun i =>
        [.vec d (2 * i) (cosQ15 (phi i)), .vec d (2 * i + 1) (sinQ15 (phi i))])) u t) ∧
    (MtReady e 0x12 w s → strayBits w [(57, 54), (53, 50), (49, 46), (45, 45), (44, 41), (7, 0)] = false → iw w 7 0 ≠ 0 → iw w 44 41 ≤ 14 →
      ∀ c, c = vget h (iw w 49 46) (iw w 44 41) → ∀ n, n = (if bit w 45 then -1 else 1) * vget h (iw w 49 46) (iw w 44 41 + 1) →
      ∀ x : Nat → Int × Bool, x = (fun i => convQ15 (mtRnd s e) (vget h a (2 * i) * c - vget h a (2 * i + 1) * n) 15) →
      ∀ y : Nat → Int × Bool, y = (fun i => convQ15 (mtRnd s e) (vget h a (2 * i) * n + vget h a (2 * i + 1) * c) 15) →
      Gives (.rot ⟨e, ecc⟩) s fun t => MtIssued e
        ((selected 8 (iw w 7 0)).flatMap (fun i => [.vec d (2 * i) (x i).1, .vec d (2 * i + 1) (y i).1]) ++
          satEffs (mtPc s e) ((selected 8 (iw w 7 0)).any (fun i => (x i).2 || (y i).2)) false false) u t))

/-- An engine in RUN whose next word is such an instruction, its reserved fields 0 and its operands in range, issues it: DUTY
brings the compare value of each element's quotient by the link voltage over the carrier range latched at the start, with SAT
and RCP; COMMIT of legs in the engine's mask hands their duty values to Firefly; INJ adds the channel's value of this run to
an element; CAP records the selected elements. A corrected error of the word fetched is logged; where that word is
uncorrectable, E021 is raised, issue ends and the run ends with an engine error of cause 4. The values of the oldest commit
that is due leave the engine; the legs that Mantis does not own discard them with their flag 5. Memory, non-volatile parts,
the pairs, time and queue stay as they were. -/
def Obligations.MantisDutiesAndChannels : Prop :=
  ∀ (s : State) (e : Fin 4) (ecc : Ecc), ∀ u, u = fetchEcc e ecc s →
    (eccBad ecc = true → ∀ w, w = progWord s e (mtPc s e) →
      (MtReady e 0x15 w s → Gives (.duty ⟨e, ecc⟩) s fun t => MtWordError e s t) ∧
      (MtReady e 0x18 w s → Gives (.commit ⟨e, ecc⟩) s fun t => MtWordError e s t) ∧
      (MtReady e 0x19 w s → Gives (.inj ⟨e, ecc⟩) s fun t => MtWordError e s t) ∧
      (MtReady e 0x1A w s → Gives (.cap ⟨e, ecc⟩) s fun t => MtWordError e s t)) ∧
    (eccBad ecc = false → ∀ h, h = mtH (mtOperands e s) e → ∀ w, w = progWord s e (mtPc s e) →
    (MtReady e 0x15 w s → strayBits w [(57, 54), (53, 50), (49, 46), (45, 42), (41, 38), (37, 34), (33, 30)] = false →
      ∀ n, n = iw w 37 34 + 1 → iw w 57 54 + n ≤ 16 → iw w 41 38 + n ≤ 16 → ∀ q : Nat → Int × Bool × Bool,
      q = (fun i => dutyQuot (vget h (iw w 53 50) (iw w 41 38 + i)) (vget h (iw w 49 46) (iw w 45 42))) →
      Gives (.duty ⟨e, ecc⟩) s fun t => MtIssued e ((List.range n).map (fun i =>
          .duty (iw w 57 54 + i) (dutyCompare (mtRnd s e) (h.carP.getD (iw w 33 30) 0) (q i).1)) ++
        satEffs (mtPc s e) ((List.range n).any (fun i => (q i).2.1)) false ((List.range n).any (fun i => (q i).2.2))) u t) ∧
    (MtReady e 0x18 w s → strayBits w [(53, 50), (45, 41), (40, 38), (37, 37), (36, 36)] = false → ∀ n, n = iw w 40 38 + 1 →
      iw w 45 41 + n ≤ 32 → iw w 53 50 + n ≤ 16 → (∀ i, i < n → bit (act s (pMT e) 0x4C) (iw w 45 41 + i) = true) →
      Gives (.commit ⟨e, ecc⟩) s fun t => MtIssued e [.commit (bit w 36)
        ((List.range n).map (fun i => (iw w 45 41 + i, bit w 37, h.duty.getD (iw w 53 50 + i) 0)))] u t) ∧
    (MtReady e 0x19 w s → strayBits w [(57, 54), (45, 44), (43, 40)] = false → ∀ x,
      x = satS 16 (vget h (iw w 57 54) (iw w 43 40) +
        if bit (injReg s (iw w 45 44) 0) 0 ∧ bits (injReg s (iw w 45 44) 0) 4 2 = e then (injH s (iw w 45 44)).val else 0) →
      Gives (.inj ⟨e, ecc⟩) s fun t => MtIssued e (.vec (iw w 57 54) (iw w 43 40) x.1 :: satEffs (mtPc s e) x.2 false false) u t) ∧
    (MtReady e 0x1A w s → strayBits w [(53, 50), (45, 44), (15, 0)] = false → iw w 15 0 ≠ 0 → Gives (.cap ⟨e, ecc⟩) s fun t =>
      MtIssued e [.capture (iw w 45 44) (iw w 15 0) ((selected 16 (iw w 15 0)).map (vget h (iw w 53 50)))] u t)) ∧
    (powered s = true → e < s.mt.length → ∀ c, (mtH s e).out.head? = some c →
      (c.due ≤ s.tick → Gives (.commitArrival e) s fun t => (mtH t e).out = (mtH s e).out.tail ∧ SameCore s t ∧
        (∀ v ∈ c.vals, v.1 < 32 → legOwner s v.1 ≠ 1 → rbit t (pLEG v.1) 0x10 5 = true)) ∧
      (s.tick < c.due → Idle (.commitArrival e) s))

/-- An engine in RUN whose next word is such an instruction with its reserved fields 0: BR goes to its target; BRF goes there
where its condition, inverted where asked, holds after the results it reads have retired, and on where it does not (no loop
ending there); LOOP opens its loop where it is closed and its end lies behind; WAITE goes on once the set's record is newer
than the one noted, holds before that, and at its timeout goes on with its flag and an overrun of kind 3; HALT ends issue, and
once its last cycle is over (in its own tick or at a later one's start) the engine shows the run's cycles, sets flag 0 and is
IDLE where no overrun is recorded. A corrected error of the word fetched is logged; where that word is uncorrectable, E021 is
raised, issue ends and the run ends with an engine error of cause 4. Non-volatile parts, the pairs, time and queue stay as
they were. -/
def Obligations.MantisControlFlow : Prop :=
  ∀ (s : State) (e : Fin 4) (ecc : Ecc), ∀ u, u = fetchEcc e ecc s →
    (eccBad ecc = true → ∀ w, w = progWord s e (mtPc s e) →
      (MtReady e 0x20 w s → Gives (.br ⟨e, ecc⟩) s fun t => MtWordError e s t) ∧
      (MtReady e 0x21 w s → Gives (.brf ⟨e, ecc⟩) s fun t => MtWordError e s t) ∧
      (MtReady e 0x22 w s → Gives (.loop ⟨e, ecc⟩) s fun t => MtWordError e s t) ∧
      (MtReady e 0x1C w s → Gives (.waite ⟨e, ecc⟩) s fun t => MtWordError e s t) ∧
      (MtReady e 0x1C w s → Gives (.waiteTimeout ⟨e, ecc⟩) s fun t => MtWordError e s t) ∧
      (MtReady e 0x01 w s → Gives (.halt ⟨e, ecc⟩) s fun t => MtWordError e s t)) ∧
    (eccBad ecc = false → ∀ h, h = mtH s e → ∀ w, w = progWord s e (mtPc s e) →
    (MtReady e 0x20 w s → strayBits w [(11, 0)] = false → Gives (.br ⟨e, ecc⟩) s fun t =>
      mtPc t e = iw w 11 0 ∧ mtState t e = mtRUN ∧ OnlyRegs [(pMT e, 0x88)] u t ∧ SameCore u t) ∧
    (MtReady e 0x21 w s → strayBits w [(53, 50), (45, 42), (41, 38), (37, 37), (11, 0)] = false → iw w 45 42 ≤ 8 →
      ∀ b, b = (if iw w 45 42 < 7 then rbit (mtOperands e s) (pMT e) 0x84 (iw w 45 42)
        else if iw w 45 42 = 7 then decide (vget (mtH (mtOperands e s) e) (iw w 53 50) (iw w 41 38) < 0)
        else decide (vget (mtH (mtOperands e s) e) (iw w 53 50) (iw w 41 38) = 0)) → loopAt h (mtPc s e) = none →
      Gives (.brf ⟨e, ecc⟩) s fun t => mtPc t e = (if b != bit w 37 then iw w 11 0 else mtPc s e + 1) ∧ mtState t e = mtRUN ∧
        OnlyRegs [(pMT e, 0x88)] u t ∧ SameCore u t) ∧
    (MtReady e 0x22 w s → strayBits w [(57, 54), (27, 20), (11, 0)] = false → ∀ d, d = iw w 57 54 → d < 2 → h.loops.length = 2 →
      (h.loops.getD d {}).active = false → mtPc s e < iw w 11 0 → Gives (.loop ⟨e, ecc⟩) s fun t =>
        (mtH t e).loops.getD d {} = ⟨true, iw w 27 20, 0, mtPc s e + 1, iw w 11 0⟩ ∧ mtState t e = mtRUN ∧
        OnlyRegs [(pMT e, 0x88)] u t ∧ SameCore u t) ∧
    (MtReady e 0x1C w s → strayBits w [(45, 43), (15, 0)] = false → iw w 15 0 ≠ 0 →
      (waitMet s e (iw w 45 43) = true → loopAt h (mtPc s e) = none → Gives (.waite ⟨e, ecc⟩) s fun t =>
        mtPc t e = mtPc s e + 1 ∧ (mtH t e).waitAt = none ∧ OnlyRegs [(pMT e, 0x88)] u t ∧ SameCore u t) ∧
      (waitMet s e (iw w 45 43) = false → h.waitAt = none → Gives (.waite ⟨e, ecc⟩) s fun t =>
        (mtH t e).waitAt = some h.cycle ∧ SameRegs u t ∧ SameCore u t) ∧
      (waitMet s e (iw w 45 43) = false → h.waitAt.isSome = true → Gives (.waite ⟨e, ecc⟩) s fun t => t = u) ∧
      (∀ c, h.waitAt = some c → waitMet s e (iw w 45 43) = false → c + iw w 15 0 < 4 * (s.tick - h.start) + 4 → h.ovrAt = none →
        loopAt h (mtPc s e) = none → Gives (.waiteTimeout ⟨e, ecc⟩) s fun t => rbit t (pMT e) 0x84 6 = true ∧ mtPc t e = mtPc s e + 1 ∧
          rbit t (pMT e) 0x10 1 = true ∧ fld t (pMT e) 0x90 0 4 = 3 ∧ (mtH t e).waitAt = none ∧ OnlyPages [pMT e, pSYS] u t ∧ SameCore u t)) ∧
    (MtReady e 0x01 w s → strayBits w [] = false → h.ovr = false → h.pend = [] → ∀ ret, ret = max h.cycle h.lastRet →
      (s.tick < tickAfter h.start ret → Gives (.halt ⟨e, ecc⟩) s fun t => (mtH t e).ending = some ⟨ret, mtPc s e, true, 0⟩ ∧
        mtIssues t e = false ∧ SameRegs u t ∧ SameCore u t) ∧
      (tickAfter h.start ret ≤ s.tick → Gives (.halt ⟨e, ecc⟩) s fun t =>
        mtState t e = mtIDLE ∧ rbit t (pMT e) 0x10 0 = true ∧ fld t (pMT e) 0x8C 0 16 = min 65535 (ret + 1) ∧
        OnlyRegs [(pMT e, 0x0C), (pMT e, 0x10), (pMT e, 0x8C), (pMT e, 0x98)] u t ∧ SameCore u t)))

/-- For an access that reaches PAGE_CTRL of MT.e, unlocked: EN set on a disabled engine not in ERROR leaves it IDLE; EN cleared
leaves it OFF; START of an IDLE engine, no start waiting, puts it in RUN at the entry named; CLEAR takes ERROR to IDLE and is
refused with STATE otherwise. A start due for such an engine puts it in RUN at its source's entry, for one that is OFF it is
discarded and counted. A held start takes effect once the aborted run has retired. The end of a profiling window copies and
restarts the counts. Non-volatile parts, the pairs, time and queue stay as they were. -/
def Obligations.MantisEnginesStartAndStop : Prop :=
  ∀ (s : State) (e : Fin 4), e < s.mt.length → ∀ h, h = mtH s e →
    (∀ acc : Access, Reaches s acc (pMT e) 0x08 true → locked s (pMT e) = false →
      (pageEn s (pMT e) = false → mtState s e ≠ mtERROR → Gives (.engineEnable acc e) s fun t =>
        pageEn t (pMT e) = true ∧ mtState t e = mtIDLE ∧ t.reply = ⟨0, false⟩ ∧ OnlyPages [pMT e, pCOCOON, pSYS] s t ∧ SameCore s t) ∧
      (pageEn s (pMT e) = true → Gives (.engineDisable acc e) s fun t =>
        pageEn t (pMT e) = false ∧ mtState t e = mtOFF ∧ t.reply = ⟨0, false⟩ ∧ SameRest s t) ∧
      (∀ x : Fin 8, mtState s e = mtIDLE → h.reqs = [] → h.heldEnd = none → Gives (.mtStart acc e x) s fun t =>
        mtState t e = mtRUN ∧ (mtH t e).start = s.tick ∧ mtPc t e = bits (act s (pMT e) (0x60 + 4 * x)) 0 12 ∧ t.reply = ⟨0, false⟩ ∧
          SameRest s t) ∧
      (mtState s e = mtERROR → Gives (.mtClear acc e) s fun t => mtState t e = mtIDLE ∧ rg t (pMT e) 0x98 / 2 ^ 24 = 0 ∧
        fld t (pMT e) 0x98 8 8 = 0 ∧ t.reply = ⟨0, false⟩ ∧ SameCore s t) ∧
      (mtState s e ≠ mtERROR → Gives (.mtClear acc e) s fun t => Refused acc (pMT e) 0x08 0x00200020 .state s t)) ∧
    (powered s = true → ∀ r, h.reqs.head? = some r → h.reqs.length = 1 → r.2 ≤ s.tick →
      (mtState s e = mtIDLE → h.heldEnd = none → Gives (.engineStart e) s fun t =>
        mtState t e = mtRUN ∧ (mtH t e).start = s.tick ∧ mtPc t e = entryAddr s e r.1 ∧ (mtH t e).reqs = [] ∧ SameRest s t) ∧
      (mtState s e = mtOFF → Gives (.engineStart e) s fun t => mtState t e = mtOFF ∧ (mtH t e).reqs = [] ∧
        fld t (pMT e) 0x98 16 8 = min 255 (fld s (pMT e) 0x98 16 8 + 1) ∧ OnlyRegs [(pMT e, 0x98)] s t ∧ SameCore s t)) ∧
    (powered s = true → h.reqs = [] → Idle (.engineStart e) s) ∧
    (powered s = true → ∀ src, h.held = some src → ∀ a, h.heldEnd = some a → a ≤ s.tick → mtState s e = mtIDLE →
      Gives (.engineHeldStart e) s fun t => mtState t e = mtRUN ∧ (mtH t e).start = s.tick ∧ mtPc t e = entryAddr s e src ∧
        (mtH t e).held = none ∧ SameRest s t) ∧
    (powered s = true → pageEn s pMTS = true → s.profAt + rg s pMTS 0x1C0 ≤ s.tick → Gives .profWindowEnd s fun t =>
      t.profAt = s.tick ∧ (mtState s e ≠ mtRUN → rg t pMTS (0x180 + 16 * e) = h.pBusy % 2 ^ 32) ∧
        fld t pMTS (0x184 + 16 * e) 0 16 = min 65535 h.pStarts ∧ fld t pMTS (0x184 + 16 * e) 16 16 = min 65535 h.pDisc ∧
        rg t pMTS (0x188 + 16 * e) = min 0xFFFFFF h.pSlack ∧ fld t pMTS 0x1C4 0 16 = (fld s pMTS 0x1C4 0 16 + 1) % 2 ^ 16 ∧
        (mtH t e).pStarts = 0 ∧ (mtH t e).pDisc = 0 ∧ OnlyPages [pMTS] s t ∧ SameCore s t)

/-- For an access that reaches CAR.n, unlocked: EN of a stopped carrier leaves it enabled and due to start in the next tick, its
event divider at 0; clearing EN of a running one leaves it stopped with its counter as it was; GCOMMIT in an enabled carrier
clears HOLD on every leg of it whose HOLD stands. With the logic powered, the zero event that a running carrier's counter
comes to in the tick counts in CSTAT 31:16, acts once, and makes PER as it stood at the end of the second tick before (PER
itself where no write is younger) the active period of an unlocked carrier; a locked one keeps PER_ACT. A period event of the
tick acts once and leaves counter and period. Where no such event is due, its command does nothing. A resync of a chained
carrier one tick after its source's zero event, with no resync in this tick, sets the counter to PHASE and counts. Other
commands leave the counter. -/
def Obligations.CarriersRunOnTheirPeriod : Prop :=
  ∀ (s : State) (n : Fin 16), n < s.cars.length → ∀ p, p = pCAR n →
    (∀ acc : Access, Reaches s acc p 0x08 true → locked s p = false →
      (pageEn s p = false → Gives (.carrierEnable acc n) s fun t => pageEn t p = true ∧ (carH t n).hold = true ∧ (carH t n).pre = 0 ∧
        carCnt t n = carCnt s n ∧ t.reply = ⟨0, false⟩ ∧ OnlyPages (p :: drivePages ++ [pCOCOON, pSYS]) s t ∧ SameCore s t) ∧
      (pageEn s p = true → Gives (.carrierDisable acc n) s fun t => pageEn t p = false ∧ (carH t n).hold = false ∧
        rg t p 0x54 = rg s p 0x54 ∧ rg t p 0x50 = rg s p 0x50 ∧ t.reply = ⟨0, false⟩ ∧
        OnlyPages (p :: drivePages ++ [pCOCOON, pSYS]) s t ∧ SameCore s t) ∧
      (pageEn s p = true → Gives (.gcommit acc n) s fun t => (∀ m, m < 32 → legCar s m = n → rbit t (pLEG m) 0x08 1 = false) ∧
        (∀ m, m < 32 → legCar s m ≠ n → rg t (pLEG m) 0x08 = rg s (pLEG m) 0x08) ∧
        t.reply = ⟨0, false⟩ ∧ OnlyPages (p :: drivePages ++ [pCOCOON, pSYS]) s t ∧ SameCore s t)) ∧
    (powered s = true →
      (∀ f, zeroDue s n = some f → Gives (.carrierZeroEvent n) s fun t =>
        fld t p 0x58 16 16 = (fld s p 0x58 16 16 + 1) % 2 ^ 16 ∧ (carH t n).lastZero = some s.tick ∧ zeroDue t n = none ∧
        rg t p 0x50 = (if carLocked s n then rg s p 0x50 else perAt s n s.tick) ∧
        ((carH s n).perOld = [] → perAt s n s.tick = rg s p 0x44) ∧
        rg t p 0x54 = rg s p 0x54 ∧ OnlyPages (p :: legPages ++ icPages) s t ∧ SameCore s t) ∧
      (zeroDue s n = none → Idle (.carrierZeroEvent n) s) ∧
      (∀ f, perDue s n = some f → Gives (.carrierPeriodEvent n) s fun t =>
        (carH t n).lastPer = some s.tick ∧ (carH t n).lastZero = (carH s n).lastZero ∧
        OnlyPages (legPages ++ icPages) s t ∧ SameCore s t) ∧
      (perDue s n = none → Idle (.carrierPeriodEvent n) s) ∧
      (∀ c, c = fld s p 0x40 8 4 → rbit s p 0x40 4 = true → (carH s n).resyncAt ≠ some s.tick → pageEn s p = true →
        (∀ due, due = ((carH s c).lastZero.map (· + 1) == some s.tick ||
          ((carH s c).lastZero == some s.tick && (carH s c).prevZero.map (· + 1) == some s.tick)) →
        (due = true → Gives (.chainResync n) s fun t => rg t p 0x54 = rg s p 0x48 ∧
          fld t p 0x58 8 8 = (fld s p 0x58 8 8 + 1) % 2 ^ 8 ∧ (carH t n).resyncAt = some s.tick ∧
          OnlyPages (p :: legPages ++ icPages) s t ∧ SameCore s t) ∧
        (due = false → Idle (.chainResync n) s))))

/-- For an access that reaches FFLEG.m, unlocked: EN of a disabled leg with a pair, a running carrier and a powered tile leaves it
enabled and not begun, both outputs off; EN 0 leaves it disabled with both outputs off and no pulse or safe state; DEBTCLR
zeroes the debt; a legal FORCE waits with its tick. With the logic powered: the newest due force gives its low four bits and
no due one waits any more; without one nothing happens. An LV leg whose refresh timer has reached 9 920 ticks turns both
outputs off for 80 ticks. The first edge that S, followed through the tick's counting, makes at the place named gives S its
new value, no register changing before the tick ends; a crossing that gives S no edge does nothing. Only leg and tile
registers change, with the header pages and drives where a write acts. -/
def Obligations.LegsTakeForcesAndEdges : Prop :=
  ∀ (s : State) (m : Fin 32), m < s.legs.length → ∀ p, p = pLEG m → ∀ k, k = legPair s m →
    (∀ acc : Access, Reaches s acc p 0x08 true → locked s p = false →
      (pageEn s p = false → k ≠ 0x3F → pageEn s (pCAR (legCar s m)) = true → pairPower s k = true → rbit s p 0x94 2 = false →
        Gives (.legEnable acc m) s fun t =>
          pageEn t p = true ∧ (legH t m).began = false ∧ (rbit t p 0x94 2 = false → fld t p 0x94 0 2 = 0) ∧ t.reply = ⟨0, false⟩ ∧
          OnlyPages (drivePages ++ [pCOCOON, pSYS]) s t ∧ SameCore s t) ∧
      (pageEn s p = false → k = 0x3F ∨ pageEn s (pCAR (legCar s m)) = false ∨ pairPower s k = false →
        Gives (.legEnable acc m) s fun t => Refused acc p 0x08 0x00010001 .resource s t) ∧
      (pageEn s p = true → Gives (.legDisable acc m) s fun t => pageEn t p = false ∧ fld t p 0x94 0 7 = 0 ∧ rg t p 0x90 = 0 ∧
        (legH t m).began = false ∧ t.reply = ⟨0, false⟩ ∧ OnlyPages (drivePages ++ [pCOCOON, pSYS]) s t ∧ SameCore s t) ∧
      (Gives (.debtclr acc m) s fun t => rg t p 0x90 = 0 ∧ t.reply = ⟨0, false⟩ ∧
        OnlyRegs [(p, 0x08), (p, 0x90), (pCOCOON, 0x60), (pSYS, 0x8C)] s t ∧ SameCore s t)) ∧
    (∀ (acc : Access) (v : BitVec 32), Reaches s acc p 0x60 true → bits v.toNat 0 2 ≠ 3 → bits v.toNat 2 2 ≠ 3 →
      ¬ (bits v.toNat 0 2 = 2 ∧ bits v.toNat 2 2 = 2) → ovrOwned s m = false →
      Gives (.force acc m v) s fun t => (legH t m).fwait = (rg t p 0x60, s.tick) :: (legH s m).fwait ∧ fld t p 0x60 0 5 = v.toNat % 32 ∧
        (legH t m).force = (legH s m).force ∧ t.reply = ⟨0, false⟩ ∧ OnlyRegs [(p, 0x60)] s t ∧ SameCore s t) ∧
    (powered s = true →
      (∀ f, (legH s m).fwait.find? (forceNow s m) = some f → Gives (.forceApply m) s fun t =>
        (legH t m).force = f.1 % 16 ∧ (legH t m).fwait.any (forceNow s m) = false ∧ OnlyPages (p :: icPages) s t ∧ SameCore s t) ∧
      (forceDue s m = false → Idle (.forceApply m) s) ∧
      (refreshDue s m = true → Gives (.bootstrapRefresh m) s fun t => 24 ≤ k ∧ k < 32 ∧ (legH s m).offEnd + 9920 ≤ s.tick ∧
        (legH t m).refresh = some (s.tick + 80) ∧ fld t p 0x94 0 2 = 0 ∧ OnlyPages (p :: icPages) s t ∧ SameCore s t) ∧
      (refreshDue s m = false → Idle (.bootstrapRefresh m) s) ∧
      (∀ (rise : Bool) (frac : Fin 64), ∀ x, x = 64 * s.tick + frac.val → zeroDue s (legCar s m) = none → perDue s (legCar s m) = none →
        chainDue s (legCar s m) = false →
        (¬ (x, rise) ∈ legEdges s m → Idle (.compareCrossing m rise frac) s) ∧
        ((legEdges s m).head? = some (x, rise) → Gives (.compareCrossing m rise frac) s fun t => (legH t m).ref = rise ∧
          (legH t m).followed = x + 1 ∧ (∀ j, j ≠ m.val → legH t j = legH s j) ∧ SameRegs s t ∧ SameCore s t)))

/-- With the logic powered: HARD on a driven channel with no soft turn-off under way latches its TRIP bit and the pair's, with
OVLD detecting at once also that bit, sets flag 0 of its tile, and turns the channel off for its soft turn-off time; OVLD does
so where it is enabled and past blanking, and does nothing elsewhere. A detection during a soft turn-off only latches its
bits; HARD on a channel neither on nor commanded nor sinking in this tick does nothing. At its end the soft turn-off is over,
not before. HIC_OFF after its last trip a pair that is not exhausted is no longer held by the trip and waits for its high
output to be off; that output off, it is released, and on, it waits. A collection window closes 200 ticks after it opened: two
channels of two pairs tripped decide as R326 says, FG_STAT naming the decision as long as no tile's gate enables fall in that
step; before, nothing happens. -/
def Obligations.TripsTurnChannelsOffAndAreJudged : Prop :=
  ∀ s : State, s.pairs.length = 32 → s.groups.length = 8 → ∀ ps, ps = statePages →
    (powered s = true → ∀ c : Fin 48, ∀ p, p = pIC (c / 8) →
      (∀ b : Bool, (chanH s c).soft = none → (chanH s c).on = true ∨ (chanH s c).cmd = true → Gives (.hardTrip c b) s fun t =>
        rbit t p 0x60 (c % 8) = true ∧ rbit t p 0x60 (8 + c % 8) = (rbit s p 0x60 (8 + c % 8) || (b && ovldArmed s c)) ∧ rbit t p 0x60 (16 + c / 2 % 4) = true ∧ rbit t p 0x10 0 = true ∧ (chanH t c).on = false ∧
        (chanH t c).soft = some (s.tick + 20 * fld s p (0x104 + 16 * (c % 8)) 8 5) ∧
        (∀ d, d < 48 → d ≠ c → (chanH t d).soft = (chanH s d).soft) ∧ OnlyPages ps s t ∧ SameCore s t) ∧
      (∀ b : Bool, (chanH s c).soft.isSome = true → Gives (.hardTrip c b) s fun t => rbit t p 0x60 (c % 8) = true ∧
        rbit t p 0x60 (8 + c % 8) = (rbit s p 0x60 (8 + c % 8) || (b && ovldArmed s c)) ∧ OnlyRegs [(p, 0x60)] s t ∧ SameCore s t) ∧
      (ovldArmed s c = false → Idle (.ovldTrip c) s) ∧
      (ovldArmed s c = true → (chanH s c).soft = none → Gives (.ovldTrip c) s fun t =>
        rbit t p 0x60 (8 + c % 8) = true ∧ rbit t p 0x60 (16 + c / 2 % 4) = true ∧ rbit t p 0x10 0 = true ∧ (chanH t c).on = false ∧
        (chanH t c).soft = some (s.tick + 20 * fld s p (0x104 + 16 * (c % 8)) 8 5) ∧ OnlyPages ps s t ∧ SameCore s t) ∧
      (∀ b : Bool, (chanH s c).soft = none → (chanH s c).on = false → (chanH s c).cmd = false → (chanH s c).sink ≠ s.tick →
        Idle (.hardTrip c b) s)) ∧
    (∀ c : Fin 48, ∀ e, (chanH s c).soft = some e →
      (e ≤ s.tick → Gives (.softTurnoffEnd c) s fun t => (chanH t c).soft = none ∧ OnlyPages [pIC (c / 8)] s t ∧ SameCore s t) ∧
      (s.tick < e → Idle (.softTurnoffEnd c) s)) ∧
    (powered s = true → ∀ k : Fin 24, (pairH s k).tripOff = true → pairExhausted s k = false →
      ((pairH s k).tripAt + 2000 * fld s (pIC (k / 4)) 0x44 8 8 ≤ s.tick → Gives (.hiccupRestart k) s fun t =>
        (pairH t k).tripOff = false ∧ (pairH t k).resume = true ∧ OnlyPages [pIC (k / 4)] s t ∧ SameCore s t) ∧
      (s.tick < (pairH s k).tripAt + 2000 * fld s (pIC (k / 4)) 0x44 8 8 → Idle (.hiccupRestart k) s)) ∧
    (powered s = true → ∀ k : Fin 32, (pairH s k).resume = true → Gives (.pairResume k) s fun t =>
      (pairH t k).resume = (pairCmd s k).1 ∧ OnlyPages [pIC (k / 4)] s t ∧ SameCore s t) ∧
    (powered s = true → ∀ g : Fin 8, ∀ o, (groupH s g).opened = some o →
      (s.tick < o + 200 → Idle (.faultWindowClose g) s) ∧
      (o + 200 ≤ s.tick → ∀ a b, (groupH s g).trips = [a, b] → a < 48 → b < 48 → a / 2 ≠ b / 2 → Gives (.faultWindowClose g) s fun t =>
        (groupH t g).opened = none ∧ ((∀ k, k < 6 → genBoth s k = true → genP t k = true ∧ genSOf t k = true) →
          fld t (pIC 0) (0x240 + 4 * g) 0 2 = (if groupFast s g then (if a % 2 ≠ b % 2 then 3 else if a % 2 = 1 then 1 else 2) else 3) ∧
          rbit t (pIC 0) (0x240 + 4 * g) 4 = true) ∧ OnlyPages ps s t ∧ SameCore s t))

/-- GENP is set for Stag-A's write while its tile is powered and Scarab's enable is asserted, GEN_STAT following; a write without
power, of another master, or without Scarab's enable is refused with RESOURCE, CONFLICT or SAFETY. With the logic powered: an
enable withdrawn leaves no channel of the tile on; a rail below its falling threshold for 1 µs shows its TSTAT bit, sets flag
2 and leaves the pair's channels off; at its rising threshold for 1 µs the bit is 0 and a pair with none left waits for its
high output; a bootstrap below 8.0 V cuts the high side, from 9.0 V its bit clears; an on-interval measured at its point
stores both samples and the next sequence number, the DEC intervals before only count; a temperature by the NTC law (log entry
112) is stored and compared with WARN and SHUT, an open or shorted NTC sets flag 6. -/
def Obligations.TilesFollowTheirEnablesAndSupplies : Prop :=
  ∀ s : State, s.pairs.length = 32 →
    (∀ (acc : Access) (x : Fin 8), ∀ p, p = pIC x → Reaches s acc p 0x08 true → locked s p = false →
      (rbit s pSUPPLY 0x50 x = false → Gives (.genpSet acc x) s fun t => Refused acc p 0x08 0x00010001 .resource s t) ∧
      (rbit s pSUPPLY 0x50 x = true → acc.master ≠ .stagA → Gives (.genpSet acc x) s fun t => Refused acc p 0x08 0x00010001 .conflict s t) ∧
      (rbit s pSUPPLY 0x50 x = true → acc.master = .stagA → genSOf s x = false →
        Gives (.genpSet acc x) s fun t => Refused acc p 0x08 0x00010001 .safety s t) ∧
      (rbit s pSUPPLY 0x50 x = true → acc.master = .stagA → genSOf s x = true → Gives (.genpSet acc x) s fun t =>
        pageEn t p = true ∧ fld t p 0x40 0 3 = 2 + 5 * b2n (genP t x) ∧ t.reply = ⟨0, false⟩ ∧
        OnlyPages (icPages ++ [pCOCOON, pSYS]) s t ∧ SameCore s t)) ∧
    (powered s = true →
      (∀ (x : Fin 8) (b : Bool), Gives (.gateEnableWithdrawn x b) s fun t => genBoth t x = false ∧
        (if b then genSOf t x = false else pageEn t (pIC x) = false) ∧
        (∀ j, j < 4 → (pairH t (4 * x + j)).hi.on = false ∧ (pairH t (4 * x + j)).lo.on = false) ∧ OnlyPages icPages s t ∧ SameCore s t) ∧
      (∀ (c : Fin 64) (x : Rail), ∀ p, p = pIC (c / 8) → ∀ b, b = uvloBit c x.neg → ∀ k, k = c.val / 2 →
        ∀ thr, thr = uvloThr s c x.neg → (48 ≤ c.val → thr = (95, 100)) ∧
        (x.v.val < thr.1 → 200 ≤ x.held → Gives (.channelUvlo c x) s fun t => rbit t p 0x5C b = true ∧ rbit t p 0x10 2 = true ∧
          (pairH t k).hi.on = false ∧ (pairH t k).lo.on = false ∧ OnlyPages [p] s t ∧ SameCore s t) ∧
        (thr.1 ≤ x.v.val ∨ x.held < 200 → Idle (.channelUvlo c x) s) ∧
        (thr.2 ≤ x.v.val → 200 ≤ x.held → Gives (.channelUvloRecover c x) s fun t => rbit t p 0x5C b = false ∧
          (pairUvlo s k = true → pairUvlo t k = false → (pairH t k).resume = true) ∧ OnlyPages [p] s t ∧ SameCore s t) ∧
        (x.v.val < thr.2 ∨ x.held < 200 → Idle (.channelUvloRecover c x) s)) ∧
      (∀ (j : Fin 8) (v : Fin 256), ∀ p, p = pIC (6 + j / 4) → Gives (.bootstrapLow j v) s fun t =>
        fld t p 0x74 (8 * (j % 4)) 8 = v ∧
        rbit t p 0x5C (8 + j % 4) = (if v.val < 80 then true else if 90 ≤ v.val then false else rbit s p 0x5C (8 + j % 4)) ∧
        (v.val < 80 → (pairH t (24 + j)).bstCut = true ∧ rbit t p 0x10 3 = true) ∧
        OnlyPages [p] s t ∧ SameCore s t) ∧
      (∀ (c : Fin 48) (i v : Nat), ∀ p, p = pIC (c / 8) → ∀ o, o = 0x10C + 16 * (c.val % 8) →
        (measureDue s c = false → Idle (.channelMeasurement c i v) s) ∧
        ∀ n, n = (if c.val % 2 = 0 then (pairH s (c / 2)).meas else (pairH s (c / 2)).measLo) → measureDue s c = true →
          (n < fld s p 0x48 16 8 → Gives (.channelMeasurement c i v) s fun t => SameRegs s t ∧ SameCore s t) ∧
          (fld s p 0x48 16 8 ≤ n → Gives (.channelMeasurement c i v) s fun t => fld t p o 0 10 = min 1023 i ∧ fld t p o 10 10 = min 1023 v ∧
            fld t p o 20 8 = (fld s p o 20 8 + 1) % 256 ∧ OnlyRegs [(p, o), (p, 0x180 + 4 * (c % 8))] s t ∧ SameCore s t)) ∧
      (∀ n : Fin 14, ∀ p, p = pIC (ntcTile n) →
        (Gives (.ntcConversion n none) s fun t => rbit t p 0x5C (16 + (if n.val < 12 then n.val % 2 else 0)) = true ∧ rbit t p 0x10 6 = true ∧
          rg t p (ntcReg n) = rg s p (ntcReg n) ∧ OnlyRegs [(p, 0x5C), (p, 0x10)] s t ∧ SameCore s t) ∧
        ∀ (ohms : Nat), ∀ x, ntcLaw (fld s p 0x4C 0 16) (fld s p 0x4C 16 16) ohms = some x → ∀ v, v = clampI (-32768) 32767 x →
          Gives (.ntcConversion n (some ohms)) s fun t => fld t p (ntcReg n) 0 16 = uns 16 v ∧ rbit t p 0x5C (16 + (if n.val < 12 then n.val % 2 else 0)) = false ∧
          (sgn 16 (fld s p 0x50 0 16) ≤ v → rbit t p 0x10 4 = true) ∧ (sgn 16 (fld s p 0x50 16 16) ≤ v → rbit t p 0x10 5 = true) ∧
          OnlyRegs [(p, ntcReg n), (p, 0x5C), (p, 0x10)] s t ∧ SameCore s t))

/-- EN_n of the chopper is set for Stag-A's write while Scarab's enable of the brake drive is asserted, refused with CONFLICT for
another master and with SAFETY without the enable; cleared, its output is off. With the logic powered: a link at ON turns an
enabled output that is not limited on once its MINOFF is over, setting ACT; a link at OFF turns an output that is on off once
MINON is over, an overvoltage reaction apart. Each microsecond an estimate takes the energy of its resistor, less its cooling;
at its limit the output is forced off, below three quarters it is free again. OV_TRIP starts the reaction once, counts it and
latches it where OV_N trips fall within the window; below OV_REL a reaction that is not latched ends; below UV flag 3 and its
status bit are set. -/
def Obligations.TheBrakeChopperGuardsTheLink : Prop :=
  ∀ s : State,
    (∀ (acc : Access) (n : Fin 2), Reaches s acc pBRAKE 0x08 true → locked s pBRAKE = false →
      ∀ v, v = 2 ^ n.val * (2 ^ 16 + 1) →
      (acc.master ≠ .stagA → Gives (.brakeEnable acc n true) s fun t => Refused acc pBRAKE 0x08 v .conflict s t) ∧
      (acc.master = .stagA → genSOf s 8 = false → Gives (.brakeEnable acc n true) s fun t => Refused acc pBRAKE 0x08 v .safety s t) ∧
      (acc.master = .stagA → genSOf s 8 = true → Gives (.brakeEnable acc n true) s fun t => rbit t pBRAKE 0x08 n = true ∧ t.reply = ⟨0, false⟩ ∧
        OnlyPages [pBRAKE, pCOCOON, pSYS] s t ∧ SameCore s t) ∧
      (Gives (.brakeEnable acc n false) s fun t => rbit t pBRAKE 0x08 n = false ∧ brkOn t n = false ∧ t.reply = ⟨0, false⟩ ∧
        OnlyPages [pBRAKE, pCOCOON, pSYS] s t ∧ SameCore s t)) ∧
    (powered s = true →
      (∀ n : Fin 2,
        (Gives (.brakeOnCrossing n) s fun t => (if n.val = 0 then t.brake.above0 else t.brake.above1) = true ∧
          (brkOn s n = false → brkGate s n = true → brkLim s n = false → nth s.brake.offAt n 0 + 20 * fld s pBRAKE 0x50 8 8 ≤ s.tick →
            brkOn t n = true ∧ rbit t pBRAKE 0x10 0 = true) ∧ OnlyRegs [(pBRAKE, 0x70), (pBRAKE, 0x10)] s t ∧ SameCore s t) ∧
        (Gives (.brakeOffCrossing n) s fun t => (if n.val = 0 then t.brake.above0 else t.brake.above1) = false ∧
          (brkOn s n = true → rbit s pBRAKE 0x70 2 = false → nth s.brake.onAt n 0 + 20 * fld s pBRAKE 0x50 0 8 ≤ s.tick → brkOn t n = false) ∧
          OnlyRegs [(pBRAKE, 0x70), (pBRAKE, 0x10)] s t ∧ SameCore s t)) ∧
      (∀ raw, raw = (sgn 16 (fld s pHVS 0x60 0 16)).natAbs →
        ∀ e, e = brkEnergy s.brake.e0 raw (hvsFs s.variant) (fld s pBRAKE 0x54 0 16) (fld s pBRAKE 0x5C 0 5) s.brake.h0 →
        ∀ lim, lim = fld s pBRAKE 0x60 0 16 * 1000000 → Gives .brakeEnergyUpdate s fun t =>
          t.brake.e0 = e ∧ t.brake.h0 = 0 ∧ t.brake.h1 = 0 ∧ rg t pBRAKE 0x74 = e / 1000 % 2 ^ 32 ∧
          brkLim t 0 = (if lim ≤ e then true else if 4 * e < 3 * lim then false else brkLim s 0) ∧ (brkLim t 0 = true → brkOn t 0 = false) ∧
          OnlyRegs [(pBRAKE, 0x70), (pBRAKE, 0x74), (pBRAKE, 0x78), (pBRAKE, 0x10)] s t ∧ SameCore s t) ∧
      (rbit s pBRAKE 0x70 2 = true → Idle .dcLinkOvTrip s) ∧
      (∀ old, old = s.brake.ovTrips.filter (fun x => s.tick ≤ x + fld s pBRAKE 0x6C 16 16 * msT) → rbit s pBRAKE 0x70 2 = false →
        Gives .dcLinkOvTrip s fun t => rbit t pBRAKE 0x70 2 = true ∧ rbit t pBRAKE 0x10 2 = true ∧
          fld t pBRAKE 0x70 8 8 = min 255 (fld s pBRAKE 0x70 8 8 + 1) ∧ t.brake.ovTrips = s.tick :: old ∧
          t.brake.ovLatched = (s.brake.ovLatched || decide (fld s pBRAKE 0x6C 0 4 ≤ old.length)) ∧
          OnlyPages (pBRAKE :: statePages) s t ∧ SameCore s t) ∧
      (s.brake.ovLatched = true → Idle .dcLinkOvRelease s) ∧
      (s.brake.ovLatched = false → Gives .dcLinkOvRelease s fun t => rbit t pBRAKE 0x70 2 = false ∧
        OnlyPages (pBRAKE :: drivePages) s t ∧ SameCore s t) ∧
      (Gives .dcLinkUv s fun t => rbit t pBRAKE 0x70 3 = true ∧ rbit t pBRAKE 0x10 3 = true ∧
        OnlyRegs [(pBRAKE, 0x70), (pBRAKE, 0x10)] s t ∧ SameCore s t))

/-- For an access that reaches PAGE_CTRL of DF.i, unlocked: EN of a disabled instance in OFF with a legal configuration leaves it
IDLE, with an illegal one it is refused with VALUE; EN 0 leaves it OFF with CAUSE 6 and no override on its legs, in FAULT it
is refused with STATE. For the command source: START of an IDLE instance that lacks nothing, in RUN or DEGRADED, leaves it in
RUN with every available phase active, the generator at SEED and the target in force; STOP of one in RUN leaves it STOPPING
towards the stop value, or IDLE where r is there; CLEAR of an IDLE one, in HELD or READY, leaves no phase failed and no trip
counted. With the logic powered: HIC_OFF after a hiccup began it is in RUN again, not before; r at its target sets TGT in RUN
and ends STOPPING in IDLE with CAUSE 1, r elsewhere does nothing. -/
def Obligations.DragonflyFollowsItsStates : Prop :=
  ∀ (s : State) (i : Fin 2), s.df.length = 2 → s.legs.length = 32 → ∀ p, p = pDF i → ∀ ps, ps = drivePages ++ [pCOCOON, pSYS] →
    (∀ acc : Access, Reaches s acc p 0x08 true → locked s p = false →
      (pageEn s p = false → dfEnBad s i = true → Gives (.dfEnable acc i) s fun t => Refused acc p 0x08 0x00010001 .value s t) ∧
      (pageEn s p = false → dfState s i = dfOFF → dfEnBad s i = false → Gives (.dfEnable acc i) s fun t => pageEn t p = true ∧ dfState t i = dfIDLE ∧
        rbit t p 0x10 0 = true ∧ (∀ k, k < 6 → dfOn t i k = false) ∧ t.reply = ⟨0, false⟩ ∧ OnlyPages ps s t ∧ SameCore s t) ∧
      (pageEn s p = true → dfState s i ≠ dfFAULT → Gives (.dfDisable acc i) s fun t => pageEn t p = false ∧ dfState t i = dfOFF ∧
        fld t p 0x24C 0 4 = 6 ∧ (∀ k, k < 6 → dfConf s i k = true → (legH t (dfLeg s i k)).ovr = 0) ∧ t.reply = ⟨0, false⟩ ∧
        OnlyPages ps s t ∧ SameCore s t) ∧
      (pageEn s p = true → dfState s i = dfFAULT → Gives (.dfDisable acc i) s fun t => Refused acc p 0x08 0x00010000 .state s t) ∧
      (dfSource acc s i = true →
        ((devState s).running = true → dfState s i = dfIDLE → dfLacks s i = false → Gives (.dfStart acc i) s fun t =>
          dfState t i = dfRUN ∧ (∀ k, k < 6 → dfAvail s i k = true → dfPhSt t i k = 1) ∧ (dfH t i).lfsr = fld s p 0x60 16 16 ∧
          (dfH t i).tgt = dfTarget s i ∧ t.reply = ⟨0, false⟩ ∧ OnlyPages ps s t ∧ SameCore s t) ∧
        (dfState s i = dfRUN → ∀ v, v = (if dfIbat s i then 0 else dfVin s i) → Gives (.dfStop acc i) s fun t =>
          (dfH t i).tgt = v ∧ dfState t i = (if (dfH s i).need = false ∧ (dfH s i).r = v * 2 ^ 32 then dfIDLE else dfSTOPPING) ∧
          fld t p 0x24C 0 4 = 1 ∧ t.reply = ⟨0, false⟩ ∧ OnlyPages ps s t ∧ SameCore s t) ∧
        (devState s = .held ∨ devState s = .ready → dfState s i = dfIDLE → Gives (.dfClear acc i) s fun t => dfState t i = dfIDLE ∧
          (∀ k, k < 6 → dfPhSt t i k = (if dfPhSt s i k = 5 then 3 else dfPhSt s i k) ∧ fld t p (0x210 + 4 * k) 8 8 = 0) ∧
          t.reply = ⟨0, false⟩ ∧ OnlyPages [p, pCOCOON, pSYS] s t ∧ SameCore s t))) ∧
    (powered s = true →
      (dfState s i = dfHICCUP → ∀ e, e = (dfH s i).hicAt + dfA s i 0x17C 8 8 * msT →
        (e ≤ s.tick → Gives (.dfHiccupRestart i) s fun t => dfState t i = dfRUN ∧ rbit t p 0x10 0 = true ∧
          (∀ k, k < 6 → dfAvail s i k = true → dfPhSt t i k = 1) ∧ OnlyPages drivePages s t ∧ SameCore s t) ∧
        (s.tick < e → Idle (.dfHiccupRestart i) s)) ∧
      ((dfH s i).r ≠ (dfH s i).tgt * 2 ^ 32 → Idle (.dfTargetReached i) s) ∧
      ((dfH s i).slew = true → (dfH s i).need = false → (dfH s i).r = (dfH s i).tgt * 2 ^ 32 →
        (dfState s i = dfRUN → Gives (.dfTargetReached i) s fun t => rbit t p 0x10 1 = true ∧ dfState t i = dfRUN ∧
          rbit t p 0x200 3 = false ∧ OnlyRegs [(p, 0x10), (p, 0x200), (p, 0x204)] s t ∧ SameCore s t) ∧
        (dfState s i = dfSTOPPING → Gives (.dfTargetReached i) s fun t => dfState t i = dfIDLE ∧ fld t p 0x24C 0 4 = 1 ∧
          OnlyPages drivePages s t ∧ SameCore s t)))

/-- With the logic powered and EN set: where the last completion of the instance's set was in the previous tick and has not
started a cycle yet, the command counts a skip where it falls within 9 ticks of the last cycle's, with the instance's bit of
DET_STAT; else it counts the record as lost where its ERR says so, changing nothing but that the completion is taken; and
otherwise runs a full cycle, in which the overload filter F moves by OL_ALPHA towards the current's magnitude. Where the set
has no completion, the last is not of the previous tick, or it has started a cycle already, nothing happens. Two ticks after
the master's zero event, with a phase on, a draw orders the phases that are on: in ascending order with the generator as it
was where ROT_EN is 0, else as the shuffle and the balance step leave them, with the generator advanced; PHASE of each phase
carrier alone in the order follows its slot. At other ticks, or with no phase on, a draw does nothing; with the logic off or
EN 0 neither command does anything. -/
def Obligations.DragonflyRunsItsCycle : Prop :=
  ∀ (s : State) (i : Fin 2), s.df.length = 2 → s.legs.length = 32 → ∀ p, p = pDF i →
    (powered s = false ∨ pageEn s p = false → Idle (.dfCycle i) s ∧ Idle (.dfSlotDraw i) s) ∧
    (powered s = true → pageEn s p = true →
      (∀ d, d = (setH s (dfSet s i)).doneAt → d = none ∨ d.map (· + 1) ≠ some s.tick ∨ (dfH s i).last = d → Idle (.dfCycle i) s) ∧
      (∀ c, (setH s (dfSet s i)).doneAt = some c → c + 1 = s.tick → (dfH s i).last ≠ some c →
        (∀ l, (dfH s i).last = some l → c ≤ l + 9 → Gives (.dfCycle i) s fun t =>
          fld t p 0x244 24 8 = min 255 (fld s p 0x244 24 8 + 1) ∧ (dfH t i).last = some l ∧ rbit t pSYS 0x58 (20 + i) = true ∧
          OnlyRegs [(p, 0x244), (pSYS, 0x58), (pSYS, 0x10)] s t ∧ SameCore s t) ∧
        ((dfH s i).last.all (fun l => decide (l + 9 < c)) = true →
          (rbit s pSETS (recOff (dfSet s i) 9) 0 = true → Gives (.dfCycle i) s fun t =>
            fld t p 0x244 16 8 = min 255 (fld s p 0x244 16 8 + 1) ∧ (dfH t i).last = some c ∧ OnlyRegs [(p, 0x244)] s t ∧ SameCore s t) ∧
          (rbit s pSETS (recOff (dfSet s i) 9) 0 = false → Gives (.dfCycle i) s fun t =>
            (dfH t i).last = some c ∧ fld t p 0x244 16 8 = fld s p 0x244 16 8 ∧ fld t p 0x244 24 8 = fld s p 0x244 24 8 ∧
            rg t p 0x20C = ((rg s p 0x20C : Int) + rneDiv (dfA s i 0x130 0 24 * (((dfIbatEl s i).natAbs : Int) * 2 ^ 16 - rg s p 0x20C))
              (2 ^ 24)).toNat % 2 ^ 32 ∧
            OnlyPages statePages s t ∧ SameCore s t))) ∧
      ((carH s (dfMaster s i)).lastZero.map (· + 2) ≠ some s.tick ∨ dfWhere (dfOn s i) = [] → Idle (.dfSlotDraw i) s) ∧
      (∀ ps, ps = dfWhere (dfOn s i) → ps ≠ [] → (carH s (dfMaster s i)).lastZero.map (· + 2) = some s.tick →
        ∀ sh, sh = (if bit (act s p 0x40) 16 then shuffle ps.length ps (dfH s i).lfsr else (ps, (dfH s i).lfsr)) →
        ∀ order, order = (if bit (act s p 0x40) 16 then balance s i (dfH s i).order sh.1 else sh.1) → Gives (.dfSlotDraw i) s fun t =>
          (dfH t i).order = order ∧ (dfH t i).lfsr = sh.2 ∧
          (∀ k, k < ps.length → (∀ j, j < ps.length → dfPhCar s i (order.getD j 0) = dfPhCar s i (order.getD k 0) → j = k) →
            rg t (pCAR (dfPhCar s i (order.getD k 0))) 0x48 = dfPhaseWord (carRange s (dfMaster s i)) ps.length k % 2 ^ 32) ∧
          OnlyPages (p :: pCOCOON :: carPages) s t ∧ SameCore s t))

/-- For an access that reaches PAGE_CTRL of HB, unlocked: EN of the disabled unit with SRC in range leaves it IDLE, its source
legs overridden OFF, and out of range it is refused with VALUE; EN 0 of the enabled unit leaves it OFF, its legs free;
CHG_START is refused with the first of its reasons that holds, and with none starts the first phase whose entry holds, its
counts at 0; CHG_STOP ends a running charge with cause 1, and is refused with STATE without one; CHG_ACK clears a block while
no charge runs, and else is refused with STATE. With the logic powered and EN set, a completion of the mains set in the
previous tick that has started no cycle counts as skipped within 7 ticks of the last cycle's, else as lost where its record is
lost, and else latches a cycle whose decisions follow in tick C + 8; without such a completion, or with EN 0, the command does
nothing. With the logic powered, a resistance of PP sets its limit, and with the pilot enabled a period is measured, limits
the current and, without the diode, is invalid at once, and a state that has held for CP_FILT is taken, not before. -/
def Obligations.HoneybeeAndThePilotFollowTheirInputs : Prop :=
  ∀ s : State, s.legs.length = 32 → ∀ ps, ps = drivePages ++ [pCOCOON, pSYS] →
    (∀ acc : Access, Reaches s acc pHB 0x08 true → locked s pHB = false →
      (pageEn s pHB = false → 13 < fld s pHB 0x40 12 4 → Gives (.hbEnable acc) s fun t => Refused acc pHB 0x08 0x00010001 .value s t) ∧
      (pageEn s pHB = false → fld s pHB 0x40 12 4 ≤ 13 → Gives (.hbEnable acc) s fun t => pageEn t pHB = true ∧ hbState t = hbIDLE ∧
        fld t pHB 0x220 0 16 = 0 ∧ (∀ m, m < 32 → rbit s pHB 0x44 m = true → (legH t m).ovr = 1) ∧ t.reply = ⟨0, false⟩ ∧
        OnlyPages ps s t ∧ SameCore s t) ∧
      (pageEn s pHB = true → Gives (.hbDisable acc) s fun t => pageEn t pHB = false ∧ hbState t = hbOFF ∧
        (∀ m, m < 32 → rbit s pHB 0x44 m = true → (legH t m).ovr = 0) ∧ t.reply = ⟨0, false⟩ ∧ OnlyPages ps s t ∧ SameCore s t) ∧
      (∀ r, hbChk s 0x08 0x00020002 0 0 = some r → Gives (.chgStart acc) s fun t => Refused acc pHB 0x08 0x00020002 r s t) ∧
      (hbChk s 0x08 0x00020002 0 0 = none → Gives (.chgStart acc) s fun t =>
        chgPhase t = chgFirst (hbBel s 20) s ∧ rg t pHB 0x204 = 0 ∧ rg t pHB 0x20C = 0 ∧ rbit t pHB 0x10 1 = true ∧ t.hb.iChg = 0 ∧
        t.reply = ⟨0, false⟩ ∧ OnlyPages ps s t ∧ SameCore s t) ∧
      (chgRunning s = true → Gives (.chgStop acc) s fun t => fld t pHB 0x200 8 8 = 1 ∧ chgRunning t = false ∧ rbit t pHB 0x10 2 = true ∧
        t.hb.iChg = 0 ∧ t.reply = ⟨0, false⟩ ∧ OnlyPages ps s t ∧ SameCore s t) ∧
      (chgRunning s = false → Gives (.chgStop acc) s fun t => Refused acc pHB 0x08 0x00040004 .state s t) ∧
      (rbit s pHB 0x200 17 = true → chgRunning s = false → Gives (.chgAck acc) s fun t => rbit t pHB 0x200 17 = false ∧
        t.reply = ⟨0, false⟩ ∧ OnlyPages ps s t ∧ SameCore s t) ∧
      (rbit s pHB 0x200 17 = false ∨ chgRunning s = true → Gives (.chgAck acc) s fun t => Refused acc pHB 0x08 0x00080008 .state s t)) ∧
    (powered s = false ∨ pageEn s pHB = false → Idle .hbCycle s) ∧
    (powered s = true → pageEn s pHB = true →
      (∀ d, d = (setH s (hbMset s)).doneAt → d = none ∨ d.map (· + 1) ≠ some s.tick ∨ s.hb.last = d → Idle .hbCycle s) ∧
      (∀ c, (setH s (hbMset s)).doneAt = some c → c + 1 = s.tick → s.hb.last ≠ some c →
        (∀ l, s.hb.last = some l → c ≤ l + 7 → Gives .hbCycle s fun t =>
          fld t pHB 0x228 24 8 = min 255 (fld s pHB 0x228 24 8 + 1) ∧ t.hb = s.hb ∧ OnlyRegs [(pHB, 0x228), (pSYS, 0x58), (pSYS, 0x10)] s t ∧
            SameCore s t) ∧
        (s.hb.last.all (fun l => decide (l + 7 < c)) = true →
          (rbit s pSETS (recOff (hbMset s) 9) 0 = true → Gives .hbCycle s fun t => t.hb.last = some c ∧
            fld t pHB 0x228 16 8 = min 255 (fld s pHB 0x228 16 8 + 1) ∧ OnlyPages [pHB] s t ∧ SameCore s t) ∧
          (rbit s pSETS (recOff (hbMset s) 9) 0 = false → Gives .hbCycle s fun t => t.hb.last = some c ∧
            t.hb.lat = some (hbLatch (c + 8) s) ∧ SameRegs s t ∧ SameCore s t)))) ∧
    (powered s = true →
      (∀ (hi lo : Int) (d : Fin 1001) (per : Nat), pageEn s pPILOT = true → Gives (.pilotPeriod hi lo d per) s fun t =>
        rg t pPILOT 0x40 = uns 16 hi + 2 ^ 16 * uns 16 lo ∧ fld t pPILOT 0x44 0 10 = d ∧ fld t pPILOT 0x44 16 16 = min 0xFFFF per ∧
        fld t pPILOT 0x4C 0 16 = (if per < 980 ∨ 1020 < per then 0 else cpLimit d) ∧
        rbit t pPILOT 0x48 6 = decide (per < 980 ∨ 1020 < per) ∧
        fld t pPILOT 0x48 0 3 = (if 0 < d.val ∧ d.val < 1000 ∧ -1100 < lo then 6 else fld s pPILOT 0x48 0 3) ∧
        OnlyPages ps s t ∧ SameCore s t) ∧
      (∀ (hi lo : Int) (d : Fin 1001) (per : Nat), pageEn s pPILOT = false → Idle (.pilotPeriod hi lo d per) s) ∧
      (s.hb.cpNew = none ∨ pageEn s pPILOT = false → Idle .pilotStateChange s) ∧
      (∀ st, s.hb.cpNew = some st → pageEn s pPILOT = true →
        (s.hb.cpAt + fld s pPILOT 0x54 0 8 * msT ≤ s.tick → Gives .pilotStateChange s fun t => fld t pPILOT 0x48 0 3 = st % 8 ∧
          rbit t pPILOT 0x10 0 = true ∧ t.hb.cpNew = none ∧ OnlyPages ps s t ∧ SameCore s t) ∧
        (s.tick < s.hb.cpAt + fld s pPILOT 0x54 0 8 * msT → Idle .pilotStateChange s)) ∧
      (∀ r : Nat, Gives (.ppChange r) s fun t => rg t pPILOT 0x50 = (if 4500 < r then 0xFFFF else r) ∧
        fld t pPILOT 0x4C 16 16 = ppLimit r ∧ rbit t pPILOT 0x10 2 = true ∧ (r < 75 → rbit t pPILOT 0x10 3 = true) ∧
        OnlyPages ps s t ∧ SameCore s t))

/-- For an access that reaches PAGE_CTRL of ADU.u, unlocked: EN of a disabled unit, not in FAULT, whose legs exist leaves it IDLE
with its legs OFF; EN 0 leaves it OFF with CAUSE 7 and its legs free, in FAULT it is refused with STATE; START of an IDLE unit
in RUN or DEGRADED with its legs enabled and owned and its track VALID leaves it in RUN from the present position, on ADU.2
refused with SAFETY without permission; STOP in RUN or HICCUP (ADU.2 not too fast) leaves it IDLE with CAUSE 1, ADU.2 watching
for engagement. With the logic powered: a completion counts as skipped, lost, or latches record, state and position for the
cycle whose outputs, outside RUN position and current, follow in tick C + 6; HIC_OFF after a hiccup RUN is entered; T_PEAK
without release is an overcurrent; T_ENG without engagement is FAULT; a withdrawn permission stops ADU.2 with CAUSE 5. -/
def Obligations.ActuatorUnitsFollowTheirStates : Prop :=
  ∀ s : State, s.legs.length = 32 → s.adu.length = 3 →
    (∀ u : Fin 3, ∀ p, p = pADU u → ∀ ps, ps = p :: legPages ++ icPages ++ [pCOCOON, pSYS] →
      (∀ acc : Access, Reaches s acc p 0x08 true → locked s p = false →
        (pageEn s p = false → aduState s u ≠ aduFAULT → aduLeg s u + aduLegs u ≤ 32 → Gives (.aduEnable acc u) s fun t => pageEn t p = true ∧ aduState t u = aduIDLE ∧
          (∀ j, j < aduLegs u → (legH t (aduLeg s u + j)).ovr = 1) ∧ t.reply = ⟨0, false⟩ ∧ OnlyPages ps s t ∧ SameCore s t) ∧
        (pageEn s p = true → aduState s u ≠ aduFAULT → Gives (.aduDisable acc u) s fun t => pageEn t p = false ∧ aduState t u = aduOFF ∧
          fld t p 0x210 0 4 = 7 ∧ (aduLeg s u + aduLegs u ≤ 32 → ∀ j, j < aduLegs u → (legH t (aduLeg s u + j)).ovr = 0) ∧
          t.reply = ⟨0, false⟩ ∧ OnlyPages ps s t ∧ SameCore s t) ∧
        (pageEn s p = true → aduState s u = aduFAULT → Gives (.aduDisable acc u) s fun t => Refused acc p 0x08 0x00010000 .state s t) ∧
        ((devState s).running = true → aduState s u = aduIDLE → (u.val ≠ 2 → trackState s (aduTrk s u) = trVALID) →
          (∀ j, j < aduLegs u → pageEn s (pLEG (aduLeg s u + j)) = true ∧ legOwner s (aduLeg s u + j) = aduOwner s u) →
          (u.val ≠ 2 ∨ plPermitted s = true → Gives (.aduStart acc u) s fun t => aduState t u = aduRUN ∧ (aduH t u).pr = aduPos s u * 256 ∧
            (aduH t u).startAt = s.tick ∧ rbit t p 0x10 0 = true ∧ t.reply = ⟨0, false⟩ ∧ OnlyPages ps s t ∧ SameCore s t) ∧
          (u.val = 2 → plPermitted s = false → Gives (.aduStart acc u) s fun t => Refused acc p 0x08 0x00020002 .safety s t)) ∧
        (aduState s u = aduRUN ∨ aduState s u = aduHICCUP → (u.val = 2 → speedOf s (aduTrk s 2) ≤ aduA s 2 0x70 0 32) →
          Gives (.aduStop acc u) s fun t => aduState t u = aduIDLE ∧ fld t p 0x210 0 4 = 1 ∧
            (u.val = 2 → (aduH t 2).eng = some s.tick) ∧ t.reply = ⟨0, false⟩ ∧ OnlyPages ps s t ∧ SameCore s t)) ∧
      (powered s = true → pageEn s p = true → ∀ c, (setH s (aduSet s u)).doneAt = some c → (aduH s u).last ≠ some c →
        (c + 1 ≠ s.tick → Idle (.aduCycle u) s) ∧
        (c + 1 = s.tick →
          (∀ l, (aduH s u).last = some l → c ≤ l + 5 → Gives (.aduCycle u) s fun t =>
            fld t p 0x20C 24 8 = min 255 (fld s p 0x20C 24 8 + 1) ∧ OnlyRegs [(p, 0x20C)] s t ∧ SameCore s t) ∧
          ((aduH s u).last = none → rbit s pSETS (recOff (aduSet s u) 9) 0 = true → Gives (.aduCycle u) s fun t =>
            fld t p 0x20C 16 8 = min 255 (fld s p 0x20C 16 8 + 1) ∧ (aduH t u).last = some c ∧ OnlyRegs [(p, 0x20C)] s t ∧ SameCore s t) ∧
          ((aduH s u).last = none → rbit s pSETS (recOff (aduSet s u) 9) 0 = false →
            Gives (.aduCycle u) s fun t => (aduH t u).last = some c ∧
              (aduH t u).lat.map (fun l => (l.due, l.st, l.pos)) = some (c + 6, aduState s u, aduPos s u) ∧ SameRegs s t ∧ SameCore s t))) ∧
      (∀ l, (aduH s u).lat = some l → l.due ≤ s.tick → pageEn s p = true → aduState s u ≠ aduRUN → u.val ≠ 2 → ∀ t, t = aduTick u s →
        (aduH t u).lat = none ∧ fld t p 0x200 0 16 = uns 16 l.pos ∧ fld t p 0x204 0 16 = 0 ∧ OnlyRegs [(p, 0x200), (p, 0x204)] s t ∧ SameCore s t) ∧
      (powered s = true → aduState s u = aduHICCUP → ∀ e, e = (aduH s u).hicAt + aduA s u 0x60 8 8 * msT →
        (e ≤ s.tick → Gives (.aduHiccupRestart u) s fun t => aduState t u = aduRUN ∧ (aduH t u).pr = aduPos s u * 256 ∧
          OnlyPages ps s t ∧ SameCore s t) ∧
        (s.tick < e → Idle (.aduHiccupRestart u) s))) ∧
    (powered s = true → ∀ ps, ps = pADU 2 :: legPages ++ icPages →
      (aduState s 2 = aduRUN → plPeak s = true → ∀ e, e = (aduH s 2).startAt + aduA s 2 0x68 0 16 * msT →
        (e ≤ s.tick → Gives .peakTimeout s fun t => (aduState t 2 = aduHICCUP ∨ aduState t 2 = aduFAULT) ∧ fld t (pADU 2) 0x210 0 4 = 2 ∧
          rbit t (pADU 2) 0x10 2 = true ∧ OnlyPages ps s t ∧ SameCore s t) ∧
        (s.tick < e → Idle .peakTimeout s)) ∧
      (∀ e, (aduH s 2).eng = some e →
        (e + aduA s 2 0x68 16 16 * msT ≤ s.tick → Gives .engageTimeout s fun t => aduState t 2 = aduFAULT ∧ rbit t (pADU 2) 0x10 5 = true ∧
          OnlyPages ps s t ∧ SameCore s t) ∧
        (s.tick < e + aduA s 2 0x68 16 16 * msT → Idle .engageTimeout s)) ∧
      (Gives .releasePermissionWithdrawn s fun t => plPermitted t = false ∧
        (aduState s 2 = aduRUN ∨ aduState s 2 = aduHICCUP → aduState t 2 = aduIDLE ∧ fld t (pADU 2) 0x210 0 4 = 5 ∧
          (aduH t 2).eng = some s.tick) ∧ OnlyPages (pSC 0 :: pSC 4 :: ps) s t ∧ SameCore s t))

/-- For an access that reaches PAGE_CTRL of KD.k, unlocked: EN of an OFF controller with a legal bit timing leaves it in
INTEGRATE, before HELD in OFF, and with an illegal one it is refused with VALUE; EN 0 of an enabled controller with no frame
on the bus leaves it OFF, and with one waits for the frame's end; SLEEP of an ACTIVE or PASSIVE controller with no buffer
pending or under way waits for the idle bus, else it is refused with STATE; WAKE takes SLEEP to INTEGRATE, RECOVER takes
BUSOFF to RECOVER, each refused with STATE elsewhere; CLRCNT zeroes the counts. With the logic powered: eleven recessive bits
take INTEGRATE to ACTIVE, or to PASSIVE where a counter says so, and end the integration after a protocol exception; 128 of
them take RECOVER to ACTIVE with both counters 0; the idle bus takes a waiting controller without a frame under way to SLEEP;
what meets the wake condition takes SLEEP to INTEGRATE. Each does nothing in another state. What meets the condition stored
for STANDBY, armed and with VIN at least 11.5 V, wakes the device into BOOT. -/
def Obligations.KatydidFollowsItsStates : Prop :=
  ∀ (s : State) (k : Fin 4), s.kd.length = 4 → ∀ p, p = pKD k →
    (∀ acc : Access, Reaches s acc p 0x08 true → locked s p = false →
      (pageEn s p = false → kdTimingBad s k = true → Gives (.kdEnable acc k) s fun t => Refused acc p 0x08 0x00010001 .value s t) ∧
      (pageEn s p = false → kdState s k = kdOFF → kdTimingBad s k = false → Gives (.kdEnable acc k) s fun t => pageEn t p = true ∧
        kdState t k = (if kdMayRun s then kdINTEGRATE else kdOFF) ∧ t.reply = ⟨0, false⟩ ∧ OnlyPages [p, pCOCOON, pSYS] s t ∧ SameCore s t) ∧
      (pageEn s p = true → (kdH s k).tx = none → Gives (.kdDisable acc k) s fun t => pageEn t p = false ∧ kdState t k = kdOFF ∧
        t.reply = ⟨0, false⟩ ∧ OnlyPages [p, pCOCOON, pSYS] s t ∧ SameCore s t) ∧
      (∀ x, (kdH s k).tx = some x → pageEn s p = true → Gives (.kdDisable acc k) s fun t => pageEn t p = false ∧ kdState t k = kdState s k ∧
        (kdH t k).offPend = true ∧ t.reply = ⟨0, false⟩ ∧ OnlyPages [p, pCOCOON, pSYS] s t ∧ SameCore s t) ∧
      (kdUp s k = true → (∀ b, b < 3 → txStat s k b ≠ 1 ∧ txStat s k b ≠ 2) → Gives (.canSleep acc k) s fun t =>
        (kdH t k).sleepPend = true ∧ kdState t k = kdState s k ∧ t.reply = ⟨0, false⟩ ∧ OnlyPages [p, pCOCOON, pSYS] s t ∧ SameCore s t) ∧
      (kdUp s k = false ∨ txStat s k 0 = 1 ∨ txStat s k 0 = 2 ∨ txStat s k 1 = 1 ∨ txStat s k 1 = 2 ∨ txStat s k 2 = 1 ∨ txStat s k 2 = 2 →
        Gives (.canSleep acc k) s fun t => Refused acc p 0x08 0x00020002 .state s t) ∧
      (kdState s k = kdSLEEP → Gives (.canWakeCommand acc k) s fun t => kdState t k = kdINTEGRATE ∧ rbit t p 0x10 11 = true ∧
        t.reply = ⟨0, false⟩ ∧ OnlyPages [p, pCOCOON, pSYS] s t ∧ SameCore s t) ∧
      (kdState s k ≠ kdSLEEP → Gives (.canWakeCommand acc k) s fun t => Refused acc p 0x08 0x00040004 .state s t) ∧
      (kdState s k = kdBUSOFF → Gives (.canRecover acc k) s fun t => kdState t k = kdRECOVER ∧
        t.reply = ⟨0, false⟩ ∧ OnlyPages [p, pCOCOON, pSYS] s t ∧ SameCore s t) ∧
      (kdState s k ≠ kdBUSOFF → Gives (.canRecover acc k) s fun t => Refused acc p 0x08 0x00080008 .state s t) ∧
      (Gives (.clrcnt acc k) s fun t => rg t p 0x74 = 0 ∧ rg t p 0x600 = 0 ∧ fld t p 0x84 16 8 = 0 ∧ fld t p 0x3C0 8 8 = 0 ∧
        fld t p 0x3C4 8 8 = 0 ∧ kdState t k = kdState s k ∧ t.reply = ⟨0, false⟩ ∧ OnlyPages [p, pCOCOON, pSYS] s t ∧ SameCore s t)) ∧
    (powered s = true →
      (kdState s k = kdINTEGRATE → Gives (.canIntegrationDone k) s fun t =>
        kdState t k = (if 128 ≤ fld s p 0x70 0 8 ∨ rbit s p 0x70 15 = true then kdPASSIVE else kdACTIVE) ∧
        OnlyRegs [(p, 0x0C), (p, 0x10)] s t ∧ SameCore s t) ∧
      (kdUp s k = true → Gives (.canIntegrationDone k) s fun t => kdOn t k = true ∧ kdState t k = kdState s k ∧ SameRegs s t ∧ SameCore s t) ∧
      (kdState s k ≠ kdINTEGRATE → kdUp s k = false → Idle (.canIntegrationDone k) s) ∧
      (kdState s k = kdRECOVER → Gives (.canRecoveryDone k) s fun t => kdState t k = kdACTIVE ∧ fld t p 0x70 0 16 = 0 ∧
        rbit t p 0x10 9 = true ∧ OnlyRegs [(p, 0x0C), (p, 0x10), (p, 0x70)] s t ∧ SameCore s t) ∧
      (kdState s k ≠ kdRECOVER → Idle (.canRecoveryDone k) s) ∧
      ((kdH s k).sleepPend = true → kdUp s k = true → (kdH s k).tx = none → Gives (.canSleepEntry k) s fun t => kdState t k = kdSLEEP ∧
        (kdH t k).sleepPend = false ∧ OnlyRegs [(p, 0x0C)] s t ∧ SameCore s t) ∧
      ((kdH s k).sleepPend = false ∨ kdUp s k = false ∨ (kdH s k).tx.isSome = true → Idle (.canSleepEntry k) s) ∧
      (∀ (w : CanWake) (vin : Nat) (svcen : Bool),
        (kdState s k ≠ kdSLEEP ∨ wakeMet ((List.range 5).map (fun j => rg s p (0x50 + 4 * j))) w = false →
          Idle (.canWakeDetected k w vin svcen) s) ∧
        (kdState s k = kdSLEEP → wakeMet ((List.range 5).map (fun j => rg s p (0x50 + 4 * j))) w = true →
          Gives (.canWakeDetected k w vin svcen) s fun t => kdState t k = kdINTEGRATE ∧ rbit t p 0x10 11 = true ∧
            OnlyRegs [(p, 0x0C), (p, 0x10)] s t ∧ SameCore s t))) ∧
    (∀ (w : CanWake) (vin : Nat) (svcen : Bool), devState s = .standby → ∀ c, s.dev.canArm.getD k none = some c →
      wakeMet c w = true → 1150 ≤ vin → bit s.dev.armedWake (2 + k) = true → Gives (.canWakeDetected k w vin svcen) s fun t =>
        devState t = .boot ∧ powered t = true ∧ t.dev.svc = svcen ∧ SameCore s t)

/-- For an access that reaches TX_CMD of KD.k: REQ of the buffers of a mask with no reason against any makes them PENDING, CANCEL
makes them cancelled; with a reason the write is refused with the first one. POP_f drops the oldest frame of FIFO f, refused
with STATE where it is empty. With the logic powered: at a start point a controller on the bus, not silent and with no frame
under way, starts the selected buffer, or does nothing; an attempt that ends done (no loopback) leaves the buffer done with
its start tick; with no attempt nothing happens. An attempt that loses arbitration (DAR 0) leaves the buffer pending and
counts. A frame received on the bus that matches no filter counts as a stranger; one that matches a filter to FIFO 0, not full
and not for Scarab, joins it, and meeting a full one waits for the end of the tick; REC falls as ISO 11898-1 has it (log entry
80), as TEC does for a frame sent. A protocol exception under PXE counts and takes the controller through bus integration, and
is else the form error of the arbitration phase; another error with a code counts, shows its code, and adds to TEC or REC. -/
def Obligations.KatydidMovesFrames : Prop :=
  ∀ (s : State) (k : Fin 4), s.kd.length = 4 → ∀ p, p = pKD k →
    (∀ (acc : Access) (m : Fin 8), Reaches s acc p 0x80 true →
      (∀ v, v = m.val * 0x10001 →
        (∀ r, txCmdChk s k v = some r → Gives (.txReq acc k m) s fun t => Refused acc p 0x80 v r s t) ∧
        (txCmdChk s k v = none → Gives (.txReq acc k m) s fun t =>
          (∀ b, b < 3 → txStat t k b = if bit m b then 1 else txStat s k b) ∧ t.reply = ⟨0, false⟩ ∧ OnlyPages [p] s t ∧ SameCore s t)) ∧
      (∀ v, v = m.val * 0x100010 →
        (∀ r, txCmdChk s k v = some r → Gives (.txCancel acc k m) s fun t => Refused acc p 0x80 v r s t) ∧
        (txCmdChk s k v = none → Gives (.txCancel acc k m) s fun t =>
          (∀ b, b < 3 → txStat t k b = if bit m b then 4 else txStat s k b) ∧ t.reply = ⟨0, false⟩ ∧ OnlyPages [p] s t ∧ SameCore s t))) ∧
    (∀ (acc : Access) (f : Fin 2), Reaches s acc p 0x08 true → locked s p = false →
      (kdFifo s k f = [] → Gives (.rxfPop acc k f) s fun t =>
        Refused acc p 0x08 (if f.val = 0 then 0x00100010 else 0x00200020) .state s t) ∧
      (kdFifo s k f ≠ [] → Gives (.rxfPop acc k f) s fun t => kdFifo t k f = (kdFifo s k f).tail ∧
        kdFifo t k (1 - f.val) = kdFifo s k (1 - f.val) ∧ t.reply = ⟨0, false⟩ ∧ OnlyPages [p, pCOCOON, pSYS] s t ∧ SameCore s t)) ∧
    (powered s = true →
      (kdOn s k = true → kdMode s k 3 = false → (kdH s k).tx = none → (kdH s k).offPend = false →
        (∀ b, txSelect s k = some b → Gives (.txFrameStart k) s fun t => txStat t k b = 2 ∧ (kdH t k).tx = some (b, s.tick) ∧
          OnlyPages [p] s t ∧ SameCore s t) ∧
        (txSelect s k = none → Idle (.txFrameStart k) s)) ∧
      (∀ (out : Fin 3) (err : CanErr) (eights : Nat) (tdc : Option (Fin 128)) (age : Nat),
        ((kdH s k).tx = none → Idle (.txAttemptEnd k out err eights tdc age) s) ∧
        (∀ x, (kdH s k).tx = some x → x.1 < 3 → (kdH s k).offPend = false → kdMode s k 2 = false → out.val = 0 →
          kdTec s k - 1 + 8 * eights < 256 →
          Gives (.txAttemptEnd k out err eights tdc age) s fun t => txStat t k x.1 = 3 ∧ (kdH t k).tx = none ∧ rbit t p 0x10 3 = true ∧
            rg t p (0x108 + 0x60 * x.1) = x.2 % 2 ^ 32 ∧ fld t p 0x70 0 8 = kdTec s k - 1 + 8 * eights ∧ fld t p 0x70 8 8 = kdRec s k ∧
            OnlyPages [p] s t ∧ SameCore s t) ∧
        (∀ x, (kdH s k).tx = some x → x.1 < 3 → (kdH s k).offPend = false → kdMode s k 4 = false → out.val = 1 → eights = 0 →
          Gives (.txAttemptEnd k out err eights tdc age) s fun t => txStat t k x.1 = 1 ∧ (kdH t k).tx = none ∧
            fld t p 0x84 16 8 = min 255 (fld s p 0x84 16 8 + 1) ∧ kdTec t k = kdTec s k ∧ kdRec t k = kdRec s k ∧
            OnlyPages [p] s t ∧ SameCore s t)) ∧
      (kdOn s k = true →
        (∀ (f : CanFrame) (low : Fin 9) (age : Nat), ∀ rec, rec = kdRecGood (kdRec s k) low →
          ((List.range 64).find? (kdMatch s k f) = none → Gives (.canFrameReceived k f low age) s fun t =>
            fld t p 0x600 0 16 = min 65535 (fld s p 0x600 0 16 + 1) ∧ rbit t p 0x10 12 = true ∧ fld t p 0x70 8 8 = rec ∧
            kdFifo t k 0 = kdFifo s k 0 ∧ kdFifo t k 1 = kdFifo s k 1 ∧ OnlyPages [p] s t ∧ SameCore s t) ∧
          (∀ x, (List.range 64).find? (kdMatch s k f) = some x → fld s p (0x404 + 8 * x) 30 2 = 1 → rbit s p (0x400 + 8 * x) 30 = false →
            (kdFifo s k 0).length < 32 → Gives (.canFrameReceived k f low age) s fun t =>
              (kdFifo t k 0).length = (kdFifo s k 0).length + 1 ∧ (kdFifo t k 0).dropLast = kdFifo s k 0 ∧ fld t p 0x70 8 8 = rec ∧
              kdFifo t k 1 = kdFifo s k 1 ∧ OnlyPages [p] s t ∧ SameCore s t) ∧
          (∀ x, (List.range 64).find? (kdMatch s k f) = some x → fld s p (0x404 + 8 * x) 30 2 = 1 → rbit s p (0x400 + 8 * x) 30 = false →
            32 ≤ (kdFifo s k 0).length → Gives (.canFrameReceived k f low age) s fun t =>
              (kdH t k).wait.isSome = true ∧ kdFifo t k 0 = kdFifo s k 0 ∧ kdFifo t k 1 = kdFifo s k 1 ∧ fld t p 0x70 8 8 = rec ∧
              OnlyPages [p] s t ∧ SameCore s t)) ∧
        (∀ (data : Bool) (code : Fin 7) (quiet : Bool) (eights : Nat),
          (kdMode s k 6 = true → Gives (.canError k true data code quiet eights) s fun t =>
            fld t p 0x74 24 8 = min 255 (fld s p 0x74 24 8 + 1) ∧ rbit t p 0x10 10 = true ∧ kdOn t k = false ∧ kdState t k = kdState s k ∧
            OnlyPages [p] s t ∧ SameCore s t) ∧
          (kdMode s k 6 = false → Gives (.canError k true data code quiet eights) s fun t =>
            Gives (.canError k false false 2 quiet eights) s fun u => u = t) ∧
          (∀ n, n = (if quiet then 0 else if (kdH s k).tx.isSome then 8 else 1) + 8 * eights → code.val ≠ 0 →
            Gives (.canError k false data code quiet eights) s fun t =>
              fld t p 0x74 0 16 = min 65535 (fld s p 0x74 0 16 + 1) ∧ fld t p 0x70 (if data then 20 else 16) 3 = code ∧
              fld t p 0x70 0 8 = (if (kdH s k).tx.isSome then min 255 (kdTec s k + n) else kdTec s k) ∧
              fld t p 0x70 8 8 = (if (kdH s k).tx.isSome then kdRec s k else min 255 (kdRec s k + n)) ∧
              OnlyPages [p] s t ∧ SameCore s t))))

/-- With the logic powered: a reported link that differs and that the rate allows is shown with its signal quality and flag 4, and
one that goes down counts as a drop and ends the frame under way; another report does nothing. In the fallback mode 500 ms at
one rate without a link change the rate. A software frame that is complete gives its ring entry back, advances the head and
sets flag 1; no frame under way, nothing. A datagram collected for 100 µs leaves as one frame with the next sequence number.
With the link up, a frame with a bad FCS or size counts as an error only; a PTP event frame goes to the next owned entry of
the receive ring, which it gives back, and counts as dropped where there is none. A Scarab Link datagram of one whole PDU is
that PDU received on port 4; one that its PDUs do not fill counts as an error. -/
def Obligations.EthernetPortMovesFrames : Prop :=
  ∀ s : State, powered s = true →
    (∀ (link : Fin 3) (q : Fin 8),
      (link.val = ethLink s ∨ (link.val ≠ 0 ∧ link.val ≠ phyRate s) → Idle (.phyLinkChange link q) s) ∧
      (link.val ≠ ethLink s → link.val = 0 → Gives (.phyLinkChange link q) s fun t => ethLink t = 0 ∧ fld t pETH 0x74 8 3 = q ∧
        fld t pETH 0x74 16 16 = min 65535 (fld s pETH 0x74 16 16 + 1) ∧ rbit t pETH 0x10 4 = true ∧ t.eth.tx = none ∧
        t.eth.phy100 = false ∧ OnlyRegs [(pETH, 0x74), (pETH, 0x10)] s t ∧ SameCore s t) ∧
      (link.val ≠ ethLink s → link.val ≠ 0 → link.val = phyRate s → Gives (.phyLinkChange link q) s fun t => ethLink t = link ∧
        fld t pETH 0x74 8 3 = q ∧ rbit t pETH 0x10 4 = true ∧ OnlyRegs [(pETH, 0x74), (pETH, 0x10)] s t ∧ SameCore s t)) ∧
    (rbit s pETH 0x08 0 = true → fld s pETH 0x40 0 2 = 3 → ethLink s = 0 →
      (s.eth.phyAt + 500 * msT ≤ s.tick → Gives .phyModeSwitch s fun t => t.eth = { s.eth with phy100 := ! s.eth.phy100, phyAt := s.tick } ∧
        SameRegs s t ∧ SameCore s t) ∧
      (s.tick < s.eth.phyAt + 500 * msT → Idle .phyModeSwitch s)) ∧
    (s.eth.tx = none → Idle .ethTxDone s) ∧
    (∀ x, s.eth.tx = some x →
      (x.1 ≠ 2 → Gives .ethTxDone s fun t => SameRegs s t ∧ SameCore s t) ∧
      (x.1 = 2 → ∀ a, a = ringEntry s 0x68 16 + 3 → Gives .ethTxDone s fun t => mget t.mem a = mget s.mem a % 128 ∧
        (∀ b, b ≠ a → mget t.mem b = mget s.mem b) ∧ fld t pETH 0x70 16 5 = (fld s pETH 0x70 16 5 + 1) % 32 ∧ rbit t pETH 0x10 1 = true ∧
        OnlyRegs [(pETH, 0x70), (pETH, 0x10)] s t ∧ SameRest s t)) ∧
    (s.eth.strRecs = [] → Idle .streamDatagramSend s) ∧
    (s.eth.strRecs ≠ [] → s.eth.strAt + 100 * usT ≤ s.tick → s.eth.q3.length < 8 → s.eth.tx.isSome = true →
      Gives .streamDatagramSend s fun t => t.eth.strRecs = [] ∧ t.eth.strSeq = (s.eth.strSeq + 1) % 2 ^ 16 ∧
        t.eth.q3.length = s.eth.q3.length + 1 ∧ t.eth.q3.dropLast = s.eth.q3 ∧ SameRegs s t ∧ SameCore s t) ∧
    (ethEn s 3 = true → ∀ payload : List (BitVec 8),
      (slSplit 8 (payload.map BitVec.toNat) = none ∨ payload = [] → Gives (.slDatagram payload) s fun t =>
        fld t pETH 0x84 24 8 = min 255 (fld s pETH 0x84 24 8 + 1) ∧ OnlyRegs [(pETH, 0x84)] s t ∧ SameCore s t) ∧
      (payload.length < 256 → Gives (.slDatagram (BitVec.ofNat 8 payload.length :: 0 :: payload)) s fun t =>
        Gives (.safetyPduReceived 4 payload) s fun u => u = t)) ∧
    (∀ (frame : List (BitVec 8)) (fcs : Bool) (ago : Nat), ∀ bs, bs = frame.map BitVec.toNat →
      (ethLink s = 0 → Idle (.ethFrameReceived frame fcs ago) s) ∧
      (rbit s pETH 0x08 0 = true → ethLink s ≠ 0 →
        (fcs = false ∨ frame.length < 60 → Gives (.ethFrameReceived frame fcs ago) s fun t =>
          fld t pETH 0x84 0 8 = min 255 (fld s pETH 0x84 0 8 + 1) ∧ OnlyRegs [(pETH, 0x84)] s t ∧ SameCore s t) ∧
        (fcs = true → 60 ≤ frame.length → frame.length ≤ 1518 → beField bs 12 2 = 0x88F7 → ∀ a, a = ringEntry s 0x6C 24 →
          (mget s.mem (a + 3) < 0x80 → Gives (.ethFrameReceived frame fcs ago) s fun t =>
            fld t pETH 0x84 8 8 = min 255 (fld s pETH 0x84 8 8 + 1) ∧ OnlyRegs [(pETH, 0x84)] s t ∧ SameCore s t) ∧
          (0x80 ≤ mget s.mem (a + 3) → Gives (.ethFrameReceived frame fcs ago) s fun t =>
            mget t.mem a + 256 * mget t.mem (a + 1) = frame.length ∧ mget t.mem (a + 3) = 0 ∧
            (∀ j, j < frame.length → mget t.mem (a + 16 + j) = bs.getD j 0) ∧
            (∀ b, b < a ∨ a + 16 + frame.length ≤ b → mget t.mem b = mget s.mem b) ∧
            fld t pETH 0x70 24 5 = (fld s pETH 0x70 24 5 + 1) % 32 ∧ rbit t pETH 0x10 0 = true ∧
            OnlyRegs [(pETH, 0x70), (pETH, 0x10)] s t ∧ SameRest s t))))

/-- For an access that reaches its register: STEP adds its signed seconds to PTP time; a read of TIME_NS answers the nanoseconds
and latches seconds and TICK; POP drops the oldest timestamp, refused with STATE where there is none; FW_PROG of an idle bank
from SRAM, in HELD or READY, starts and marks the bank invalid, and in another state is refused with DEVSTATE. With the logic
powered: a timestamp joins the FIFO with flag 0, or counts as lost where four stand; a run that ends well leaves the source's
bytes in the bank, valid again, one that fails sets flag 3 and leaves memory. Of a request to an enabled service, before
RESTORE is over the reply has status 2, a repeated number has its reply again, a malformed one status 1 and no other effect,
and a good one becomes the last number, answered with status 0. -/
def Obligations.PtpFirmwareAndRemoteServiceAct : Prop :=
  ∀ s : State,
    (∀ (acc : Access) (v : BitVec 32), Reaches s acc pPTP 0x44 true → ∀ n : Int, n = (s.eth.ptpN : Int) + sgn 32 v.toNat * 2 ^ 32 →
      Gives (.ptpStep acc v) s fun t => (t.eth.ptpN : Int) = n % (1000000000 * 2 ^ 32) ∧
        t.eth.ptpS = uns 48 ((s.eth.ptpS : Int) + n / (1000000000 * 2 ^ 32)) ∧ t.reply = ⟨0, false⟩ ∧ OnlyRegs [(pPTP, 0x44)] s t ∧ SameCore s t) ∧
    (∀ acc : Access, Reaches s acc pPTP 0x48 false → Gives (.timeNsRead acc) s fun t => t.reply = ⟨s.eth.ptpN / 2 ^ 32, false⟩ ∧
      rg t pPTP 0x4C = s.eth.ptpS % 2 ^ 32 ∧ rg t pPTP 0x54 = s.tick % 2 ^ 32 ∧ rg t pPTP 0x58 = s.tick / 2 ^ 32 % 2 ^ 32 ∧
      OnlyRegs [(pPTP, 0x48), (pPTP, 0x4C), (pPTP, 0x50), (pPTP, 0x54), (pPTP, 0x58)] s t ∧ SameCore s t) ∧
    (∀ acc : Access, Reaches s acc pPTP 0x08 true → locked s pPTP = false →
      (s.eth.ts = [] → Gives (.tsPop acc) s fun t => Refused acc pPTP 0x08 0x00010001 .state s t) ∧
      (s.eth.ts ≠ [] → Gives (.tsPop acc) s fun t => t.eth.ts = s.eth.ts.tail ∧ t.reply = ⟨0, false⟩ ∧
        OnlyRegs [(pPTP, 0x5C), (pPTP, 0x60), (pPTP, 0x64)] s t ∧ SameCore s t)) ∧
    (∀ acc : Access, Reaches s acc pETH 0x08 true → locked s pETH = false →
      rg s pETH 0x7C ≠ 0 → rg s pETH 0x7C ≤ 0x400000 → rg s pETH 0x7C % 8 = 0 → inSram (rg s pETH 0x78) 1 = true →
      (devState s ≠ .held → devState s ≠ .ready → Gives (.fwProg acc) s fun t => Refused acc pETH 0x08 0x00100010 .devstate s t) ∧
      (devState s = .held ∨ devState s = .ready → s.eth.fw = false → ∀ b, b = fld s pETH 0x80 0 1 → b ≠ fld s pBOOT 0x44 0 1 →
        Gives (.fwProg acc) s fun t => t.eth.fw = true ∧ t.eth.fwSrc = rg s pETH 0x78 ∧ t.eth.fwLen = rg s pETH 0x7C ∧ t.eth.fwBank = b ∧
          b ∈ t.nv.bankBad ∧ { t.nv with bankBad := s.nv.bankBad } = s.nv ∧ t.reply = ⟨0, false⟩ ∧
          OnlyPages [pETH, pCOCOON, pSYS] s t ∧ SameMem s t ∧ t.stag = s.stag ∧ t.tick = s.tick ∧ t.pending = s.pending)) ∧
    (powered s = true →
      (∀ (ago : Nat) (id : BitVec 16), rbit s pETH 0x08 0 = true →
        (s.eth.ts.length < 4 → Gives (.ptpTimestamp ago id) s fun t => t.eth.ts.length = s.eth.ts.length + 1 ∧ t.eth.ts.dropLast = s.eth.ts ∧
          t.eth.ts.getLast?.map (fun x => x.2.2) = some id.toNat ∧ rbit t pPTP 0x10 0 = true ∧ OnlyPages [pPTP] s t ∧ SameCore s t) ∧
        (4 ≤ s.eth.ts.length → Gives (.ptpTimestamp ago id) s fun t => t.eth.ts = s.eth.ts ∧ t.eth.tsLost = min 255 (s.eth.tsLost + 1) ∧
          OnlyPages [pPTP] s t ∧ SameCore s t)) ∧
      (∀ ok : Bool, s.eth.fw = false → Idle (.fwProgDone ok) s) ∧
      (s.eth.fw = true →
        (Gives (.fwProgDone false) s fun t => t.eth.fw = false ∧ rbit t pETH 0x10 3 = true ∧ OnlyRegs [(pETH, 0x10)] s t ∧ SameCore s t) ∧
        (inSram s.eth.fwSrc s.eth.fwLen = true → s.eth.fwBank < 2 → s.eth.fwLen ≤ 0x400000 → Gives (.fwProgDone true) s fun t =>
          (∀ j, j < s.eth.fwLen → mget t.mem (bankBase s.eth.fwBank + j) = mget s.mem (s.eth.fwSrc + j)) ∧
          (∀ a, a < bankBase s.eth.fwBank ∨ bankBase s.eth.fwBank + s.eth.fwLen ≤ a → mget t.mem a = mget s.mem a) ∧
          s.eth.fwBank ∉ t.nv.bankBad ∧ t.eth.fw = false ∧ rbit t pETH 0x10 2 = true ∧
          OnlyRegs [(pETH, 0x80), (pETH, 0x10)] s t)) ∧
      (∀ payload : List (BitVec 8), ethEn s 1 = true → ∀ bs, bs = payload.map BitVec.toNat → ∀ q, q = payWord bs 0 % 2 ^ 16 →
        ((devState s).code < 5 → s.eth.q0.length < 8 → s.eth.tx.isSome = true → Gives (.remoteRequest payload) s fun t =>
          t.eth.q0 = s.eth.q0 ++ [[replyHead bs 2, 0].flatMap bytesLE] ∧ SameRegs s t ∧ SameCore s t) ∧
        (5 ≤ (devState s).code →
          (s.eth.seq = some q → s.eth.q0.length < 8 → s.eth.tx.isSome = true → Gives (.remoteRequest payload) s fun t =>
            t.eth.q0 = s.eth.q0 ++ [s.eth.reply] ∧ SameRegs s t ∧ SameCore s t) ∧
          (s.eth.seq ≠ some q →
            (remoteBad bs = true → s.eth.q0.length < 8 → s.eth.tx.isSome = true → Gives (.remoteRequest payload) s fun t =>
              t.eth.q0 = s.eth.q0 ++ [[replyHead bs 1, 0].flatMap bytesLE] ∧ t.eth.seq = s.eth.seq ∧ SameRegs s t ∧ SameCore s t) ∧
            (remoteBad bs = false → Gives (.remoteRequest payload) s fun t => t.eth.seq = some q ∧
              t.eth.reply.take 4 = bytesLE (replyHead bs 0) ∧ t.pending = s.pending ∧ t.tick = s.tick ∧ t.variant = s.variant)))))

/-- VSAFE low opens both switches of every safety output, and at 16 V again each output commanded on and not faulted closes. With
the logic powered and Scarab's supply good: in INIT a passed self-test leads to CHECK, a failed one to FAULT with every tile's
enable withdrawn; in CHECK no set ever commissioned leads to HOLD with cause 1, none valid to cause 2, a set of another
variant to cause 3, and the one valid set of this variant to OPERATE with that set as working copy and every zone in STO;
elsewhere both do nothing. A supply fault withdraws every enable; recovered within 1 ms Scarab goes on, later it starts again
from INIT with the main die in BOOT, unless a brown-out save runs. A good continuous check counts, a bad working copy is FAULT
with code 0x20, a bad Cocoon copy 0x21. -/
def Obligations.ScarabFollowsItsStates : Prop :=
  ∀ s : State, ∀ scs, scs = List.range' 0xC0 8 → ∀ ps, ps = statePages ++ scs ++ [pBRAKE] →
    (Gives .vsafeLow s fun t => t.dev.vsafeLow = true ∧ (powered s = true → fld t (pSC 2) 0x40 0 4 = 0) ∧
      OnlyRegs [(pSC 2, 0x40)] s t ∧ SameCore s t) ∧
    (Gives .vsafeRecovered s fun t => t.dev.vsafeLow = false ∧
      (powered s = true → ∀ n, n < 4 → rbit t (pSC 2) 0x40 n = (soutCommanded s n && ! rbit s (pSC 2) 0x40 (4 + n))) ∧
      OnlyRegs [(pSC 2, 0x40)] s t ∧ SameCore s t) ∧
    (powered s = true → s.sc.bad = none →
      (scState s = scINIT →
        (Gives (.scarabSelftestDone true) s fun t => scState t = scCHECK ∧ OnlyPages ps s t ∧ SameCore s t) ∧
        (Gives (.scarabSelftestDone false) s fun t => scState t = scFAULT ∧ fld t (pSC 4) 0x40 0 4 = 0xF ∧
          (∀ x, x < 8 → genSOf t x = false) ∧ fld t (pSC 2) 0x40 0 4 = 0)) ∧
      (scState s ≠ scINIT → ∀ ok : Bool, Idle (.scarabSelftestDone ok) s) ∧
      (scState s ≠ scCHECK → Idle .scarabCheckDone s) ∧
      (scState s = scCHECK →
        (s.nv.commCnt = 0 → Gives .scarabCheckDone s fun t => scState t = scHOLD ∧ fld t (pSC 0) 0x40 4 4 = 1 ∧ OnlyPages ps s t ∧ SameCore s t) ∧
        (s.nv.commCnt ≠ 0 → slotSet s 0 = none → slotSet s 1 = none → Gives .scarabCheckDone s fun t => scState t = scHOLD ∧
          fld t (pSC 0) 0x40 4 4 = 2 ∧ OnlyPages ps s t ∧ SameCore s t) ∧
        (∀ x, slotSet s 0 = some x → s.nv.commCnt ≠ 0 → slotSet s 1 = none →
          (x.2.getD 6 0 ≠ s.variant.code → Gives .scarabCheckDone s fun t => scState t = scHOLD ∧ fld t (pSC 0) 0x40 4 4 = 3 ∧
            OnlyPages ps s t ∧ SameCore s t) ∧
          (x.2.getD 6 0 = s.variant.code → Gives .scarabCheckDone s fun t => scState t = scOPERATE ∧ t.sc.work = x.2 ∧ t.sc.slot = 0 ∧
            fld t (pSC 4) 0x40 0 4 = 0xF ∧ fld t (pSC 2) 0x40 0 4 = 0 ∧ rg t (pSC 7) 0x50 = setNum x.2 8 4 ∧ OnlyPages ps s t ∧ SameCore s t))) ∧
      (Gives .scarabSupplyFault s fun t => t.sc = { s.sc with bad := some s.tick } ∧ t.genS = 0 ∧ OnlyPages ps s t ∧ SameCore s t) ∧
      (scState s = scOPERATE →
        (Gives (.scarabContinuousCheck false) s fun t => scState t = scFAULT ∧ fld t (pSC 0) 0x40 8 8 = 0x20 ∧ fld t (pSC 4) 0x40 0 4 = 0xF ∧
          (devState s = .run → Settled s → devState t = .latched)) ∧
        (slotSet s s.sc.slot = none → Gives (.scarabContinuousCheck true) s fun t => scState t = scFAULT ∧ fld t (pSC 0) 0x40 8 8 = 0x21) ∧
        (slotSet s s.sc.slot ≠ none → Gives (.scarabContinuousCheck true) s fun t =>
          fld t (pSC 7) 0x58 0 16 = (fld s (pSC 7) 0x58 0 16 + 1) % 65536 ∧ OnlyRegs [(pSC 7, 0x58)] s t ∧ SameCore s t)) ∧
      Idle .scarabSupplyRecover s) ∧
    (powered s = true → ∀ x, s.sc.bad = some x →
      (s.tick < x + msT → Gives .scarabSupplyRecover s fun t => t.sc = { s.sc with bad := none } ∧ OnlyPages ps s t ∧ SameCore s t) ∧
      (x + msT ≤ s.tick → Gives .scarabSupplyRecover s fun t => scState t = scINIT ∧ t.sc = {} ∧
        (s.dev.brownOut = false → devState t = .boot) ∧ (s.dev.brownOut = true → devState t = devState s)))

/-- With the logic powered: a Scarab cycle that does not run only counts; one that runs shows each wheel's frequency, keeps or
puts in STO every zone that a cause of STO holds, releases no other zone than one without a cause, and then gives each tile
its enable unless a zone in STO names it, and closes exactly the outputs commanded on, not faulted, with VSAFE good. T_SS1
over completes a running SS1 with STO of its zone; before, or with none running, nothing happens. A sample gives a used
channel that is not masked its new filtered level after 2 FILT + 1 samples of it; an equivalent input without fault, whose
channels agree with their filtered levels and each other, is released exactly when they are high. A test pulse begins; a
failed readback faults its output and every input on it. A switch test of an output that is on shows the load, and a fault
opens the output; a switch found closed while commanded open (codes 1 and 2) does so in every state. The cross-check shows the
expected frequency, and while the track is suspended or agrees it triggers no demand by a mismatch. -/
def Obligations.ScarabRunsItsSafetyFunctions : Prop :=
  ∀ s : State, powered s = true → ∀ scs, scs = List.range' 0xC0 8 → ∀ ps, ps = statePages ++ scs ++ [pBRAKE] →
    (∀ a0 a1 : Nat,
      (scRuns s = false → Gives (.scarabCycle a0 a1) s fun t => t.sc = { s.sc with cyc := s.sc.cyc + 1 } ∧ SameRegs s t ∧ SameCore s t) ∧
      (scRuns s = true → Gives (.scarabCycle a0 a1) s fun t => t.sc.cyc = s.sc.cyc + 1 ∧ t.sc.resets = 0 ∧
        (∀ p, p = nth s.sc.twP 1 0 → twF t 1 = if p = 0 ∨ scF s 0xA8 16 10 * 48000 ≤ a1 then 0 else
          min 65535 (rneDiv 480000000 (max p a1)).toNat) ∧
        (∀ z, z < 4 → (rg t (pSC 4) (0x50 + 4 * z) ≠ 0 → zoneSto t z = true) ∧
          (zoneSto s z = true → zoneSto t z = false → rg t (pSC 4) (0x50 + 4 * z) = 0)) ∧
        (∀ x, x < 8 → genSOf t x = ! (List.range 4).any (fun z => zoneSto t z && bit (zoneTiles s z) x)) ∧
        (∀ n, n < 4 → rbit t (pSC 2) 0x40 n = (! s.dev.vsafeLow && soutCommanded t n && ! rbit s (pSC 2) 0x40 (4 + n))) ∧
        OnlyPages ps s t ∧ SameCore s t)) ∧
    (∀ z : Fin 4, ∀ due, due = nth s.sc.ss1At z 0 + 4 * scF s (0x5C + 16 * z) 0 32 →
      (scRuns s = true → ss1Code s z = 1 → due ≤ s.sc.cyc → Gives (.ss1Timeout z) s fun t => ss1Code t z = 2 ∧ zoneSto t z = true ∧
        rbit t (pSC 4) (0x50 + 4 * z) 16 = true ∧ OnlyPages ps s t ∧ SameCore s t) ∧
      (ss1Code s z ≠ 1 ∨ s.sc.cyc < due → Idle (.ss1Timeout z) s)) ∧
    (∀ a b : BitVec 16,
      (s.sc.work = [] ∨ s.sc.bad.isSome = true → Idle (.safetyInputSample a b) s) ∧
      (s.sc.work ≠ [] → s.sc.bad = none → s.sc.sin.length = 16 → Gives (.safetyInputSample a b) s fun t =>
        (∀ i, i < 16 → sinType s i ≠ 0 → chanMasked s i false = false → rbit t (pSC 1) 0x4C i =
          (if bit a.toNat i = rbit s (pSC 1) 0x4C i ∨ 2 * sinCfg s i 10 6 + 1 ≤ (sinH s i).na + 1 then bit a.toNat i else rbit s (pSC 1) 0x4C i)) ∧
        (∀ i, i < 16 → sinType s i = 1 → s.sc.tp = List.replicate 8 none → rbit s (pSC 1) 0x44 i = false → rbit s (pSC 1) 0x48 i = false →
          bit a.toNat i = rbit s (pSC 1) 0x4C i → bit b.toNat i = rbit s (pSC 1) 0x4C (16 + i) → bit a.toNat i = bit b.toNat i →
          rbit t (pSC 1) 0x40 i = bit a.toNat i ∧ rbit t (pSC 1) 0x44 i = false) ∧
        OnlyPages scs s t ∧ SameCore s t)) ∧
    (∀ (n : Fin 8) (ok : Bool), s.sc.work ≠ [] → s.sc.bad = none → s.sc.tp.length = 8 → Gives (.testPulse n ok) s fun t =>
      nth t.sc.tp n none = some s.tick ∧ t.sc.tpLvl = rg s (pSC 1) 0x4C ∧ (ok = true → SameRegs s t) ∧
      (ok = false → rbit t (pSC 1) 0x50 n = true ∧ ∀ i, i < 16 → sinType s i = 1 ∨ sinType s i = 2 →
        sinTp s i false = n ∨ sinTp s i true = n → rbit t (pSC 1) 0x44 i = true ∧ rbit t (pSC 1) 0x40 i = false ∧
          fld t (pSC 1) (0x60 + 4 * i) 0 3 = 4) ∧ OnlyPages scs s t ∧ SameCore s t) ∧
    (∀ (n : Fin 4) (fault : Fin 5) (load : Fin 4096),
      (s.sc.bad.isSome = true ∨ ((scRuns s = false ∨ rbit s (pSC 2) 0x40 n = false) ∧ fault.val ≠ 1 ∧ fault.val ≠ 2) →
        Idle (.soutSwitchTest n fault load) s) ∧
      (s.sc.bad = none → fault.val = 1 ∨ fault.val = 2 → Gives (.soutSwitchTest n fault load) s fun t =>
        rbit t (pSC 2) 0x40 n = false ∧ rbit t (pSC 2) 0x40 (4 + n) = true ∧ fld t (pSC 2) (0x44 + 4 * n) 12 4 = fault ∧
        OnlyRegs [(pSC 2, 0x40), (pSC 2, 0x44 + 4 * n), (pSC 0, 0x48), (pSC 0, 0x50)] s t ∧ SameCore s t) ∧
      (scRuns s = true → rbit s (pSC 2) 0x40 n = true → Gives (.soutSwitchTest n fault load) s fun t =>
        fld t (pSC 2) (0x44 + 4 * n) 0 12 = load ∧
        (fault.val ≠ 0 → rbit t (pSC 2) 0x40 n = false ∧ rbit t (pSC 2) 0x40 (4 + n) = true ∧ fld t (pSC 2) (0x44 + 4 * n) 12 4 = fault) ∧
        OnlyRegs [(pSC 2, 0x40), (pSC 2, 0x44 + 4 * n), (pSC 0, 0x48), (pSC 0, 0x50)] s t ∧ SameCore s t)) ∧
    (∀ a0 a1 : Nat, scRuns s = true → ∀ n, n = scF s 0xB8 0 3 → Gives (.speedCrosscheck a0 a1) s fun t =>
      fld t (pSC 3) 0x48 0 16 = min 65535 (rneDiv (speedOf s n * scF s 0xBC 0 32 : Nat) (2 ^ 24)).toNat ∧
      rbit t (pSC 3) 0x48 17 = (! trackGood s n) ∧
      (trackGood s n = true → t.sc.xcSus = 0) ∧ (trackGood s n = false → fld t (pSC 3) 0x48 24 8 = fld s (pSC 3) 0x48 24 8) ∧
      (rbit t (pSC 3) 0x48 16 = true → rbit s (pSC 3) 0x48 16 = false → t.sc.xcOk = 0 ∨ t.sc.xcSus ≠ 0) ∧
      OnlyPages scs s t ∧ SameCore s t)

/-- For an access that reaches VERDICT: another master than Stag-A is refused with CONFLICT, a verdict other than 1 or 2 with
VALUE; of a delivery that waits, within 1.0 ms and with Stag-A running, a good verdict accepts its PDU, updating sequence
number, acceptance time and demand, and a bad one rejects it with cause 5; an unknown delivery changes nothing. With the logic
powered: PDUs without a verdict for 1.0 ms are rejected, the others wait on; a synchronized connection whose TEX is over waits
for synchronization again and counts; an OUT connection whose period is over puts its next PDU into the ring. LOAD copies the
candidate from SRAM, or is refused with VALUE, DEVSTATE or STATE; its check ends with VALID and the check value, or rejected
with the first reason and offset; the store of a confirmed set writes one slot with a header that checks, COMM_CRC and the
count, and the set is the working copy. -/
def Obligations.ScarabLinkJudgesAndProduces : Prop :=
  ∀ s : State,
    (∀ (acc : Access) (v : BitVec 32), Reaches s acc pSL 0x4C true → ∀ n, n = bits v.toNat 0 16 →
      (bits v.toNat 16 2 ≠ 1 → bits v.toNat 16 2 ≠ 2 → Gives (.verdict acc v) s fun t => Refused acc pSL 0x4C v.toNat .value s t) ∧
      (bits v.toNat 16 2 = 1 ∨ bits v.toNat 16 2 = 2 → acc.master ≠ .stagA → Gives (.verdict acc v) s fun t =>
        Refused acc pSL 0x4C v.toNat .conflict s t) ∧
      (bits v.toNat 16 2 = 1 ∨ bits v.toNat 16 2 = 2 → acc.master = .stagA →
        (s.sc.wait.find? (fun w => w.num == n) = none → Gives (.verdict acc v) s fun t => t.sc = s.sc ∧ t.reply = ⟨0, false⟩ ∧
          OnlyRegs [(pSL, 0x4C)] s t ∧ SameCore s t) ∧
        (∀ w, s.sc.wait.find? (fun w => w.num == n) = some w → s.sc.bad = none → s.tick ≤ w.at_ + msT → fld s (pSTAG 0) 0x40 0 3 = 0 →
          w.conn < 128 → Gives (.verdict acc v) s fun t => t.sc.wait = s.sc.wait.filter (fun x => x.num != n) ∧ t.reply = ⟨0, false⟩ ∧
            (bits v.toNat 16 2 = 2 → rbit t pSL 0x10 2 = true ∧ fld t (pSC 5) 0x64 0 8 = w.conn ∧ fld t (pSC 5) 0x64 8 8 = 5) ∧
            (bits v.toNat 16 2 = 1 → scState s = scOPERATE → w.seq < 2 ^ 16 → rg t (pSC 5) (0x80 + 4 * w.conn) = w.seq ∧ rbit t pSL 0x10 0 = true ∧
              connGet t.sc.accAt w.conn = s.sc.cyc ∧ (w.kind = 2 → connState t w.conn = 2 ∧ connGet t.sc.dem w.conn = connGet s.sc.dem w.conn) ∧
              (w.kind ≠ 2 → connState t w.conn = connState s w.conn ∧ connGet t.sc.dem w.conn = orN w.late (3 - w.data.getD 0 0 % 4))) ∧
            OnlyPages [pSL, pSC 5] s t ∧ SameCore s t))) ∧
    (powered s = true →
      (s.sc.bad = none → Gives .verdictTimeout s fun t => t.sc.wait = s.sc.wait.filter (fun w => decide (s.tick < w.at_ + msT)) ∧
        fld t (pSC 5) 0x60 16 8 = (fld s (pSC 5) 0x60 16 8 + (s.sc.wait.filter (fun w => decide (w.at_ + msT ≤ s.tick))).length) % 256 ∧
        OnlyPages [pSL, pSC 5] s t ∧ SameCore s t) ∧
      (∀ c : Fin 128, scRuns s = true →
        (connState s c = 2 → connGet s.sc.accAt c + 4 * connF s c 4 0 10 ≤ s.sc.cyc → Gives (.connectionExpiry c) s fun t =>
          connState t c = 1 ∧ connGet t.sc.dem c = connGet s.sc.dem c ∧ fld t (pSC 5) 0x60 8 8 = (fld s (pSC 5) 0x60 8 8 + 1) % 256 ∧ rbit t pSL 0x10 1 = true ∧
          OnlyPages [pSL, pSC 5] s t ∧ SameCore s t) ∧
        (connState s c ≠ 2 ∨ s.sc.cyc < connGet s.sc.accAt c + 4 * connF s c 4 0 10 → Idle (.connectionExpiry c) s) ∧
        (connState s c = 3 → connGet s.sc.prodAt c ≤ s.sc.cyc → Gives (.outPduProduce c) s fun t =>
          ∀ q, q = (if connGet s.sc.accAt c = 0 then 1 else (fld s (pSC 5) (0x80 + 4 * c) 0 16 + 1) % 2 ^ 16) →
          rg t (pSC 5) (0x80 + 4 * c) = q ∧ connGet t.sc.accAt c = 1 ∧
          connGet t.sc.prodAt c = connGet s.sc.prodAt c + 4 * connF s c 8 0 16 ∧
          fld t (pSC 6) 0x40 0 16 = (fld s (pSC 6) 0x40 0 16 + 1) % 2 ^ 16 ∧ fld t (pSC 6) 0x40 16 3 = (fld s (pSC 6) 0x40 16 3 + 1) % 8 ∧
          (∀ b, b = 0x100 + 0x40 * fld t (pSC 6) 0x40 16 3 → fld t (pSC 6) b 0 16 = fld t (pSC 6) 0x40 0 16 ∧ fld t (pSC 6) (b + 4) 0 8 = c ∧
            fld t (pSC 6) (b + 4) 8 8 = q % 256 ∧ fld t (pSC 6) (b + 4) 16 8 = (if connGet s.sc.accAt c = 0 then 2 else 1)) ∧
          OnlyPages [pSC 5, pSC 6, pETH, pPTP] s t ∧ SameCore s t) ∧
        (connState s c ≠ 3 ∨ s.sc.cyc < connGet s.sc.prodAt c → Idle (.outPduProduce c) s)) ∧
      (candState s ≠ 1 → Idle .candidateChecked s) ∧
      (candState s = 1 → s.sc.bad = none →
        (candFault s.variant s.sc.cand.length s.sc.cand = none → Gives .candidateChecked s fun t => candState t = 2 ∧
          rg t (pSC 7) 0x48 = crc32c s.sc.cand ∧ t.sc = s.sc ∧ OnlyRegs [(pSC 7, 0x48), (pSC 7, 0x4C)] s t ∧ SameCore s t) ∧
        (∀ f, candFault s.variant s.sc.cand.length s.sc.cand = some f → Gives .candidateChecked s fun t => candState t = 3 ∧ t.sc.cand = [] ∧
          rg t (pSC 7) 0x4C = 3 + 16 * f.1 + 2 ^ 12 * f.2 ∧ OnlyRegs [(pSC 7, 0x4C)] s t ∧ SameCore s t)) ∧
      (candState s ≠ 5 → Idle .commissionStoreDone s) ∧
      (candState s = 5 → s.sc.bad = none → scState s = scHOLD → 16 ≤ s.sc.cand.length → s.sc.cand.length ≤ 0x1000 → s.sc.cand.all (· < 256) = true →
        Gives .commissionStoreDone s fun t => t.nv.commCrc = crc32c s.sc.cand ∧ t.nv.commCnt = s.nv.commCnt + 1 ∧
          t.sc.work = s.sc.cand ∧ candState t = 4 ∧ scState t = scCHECK ∧
          (∀ i, i = (if (slotHeader s 0).isNone = true ∨ (slotHeader s 1).isSome = true ∧
              seqNewer ((slotHeader s 1).getD (0, 0, 0)).1 ((slotHeader s 0).getD (0, 0, 0)).1 = true then 0 else 1) →
            (slotSet t i).map Prod.snd = some s.sc.cand ∧
            ∀ a, a < slotBase i ∨ slotBase i + 16 + s.sc.cand.length ≤ a → mget t.mem a = mget s.mem a))) ∧
    (∀ acc : Access, Reaches s acc pSL 0x08 true → locked s pSL = false → ∀ len, len = rg s pSL 0x44 → ∀ a, a = rg s pSL 0x40 →
      (len < 0x900 ∨ 0x1000 < len ∨ len % 4 ≠ 0 ∨ a % 4 ≠ 0 ∨ inSram a len = false → Gives (.load acc) s fun t =>
        Refused acc pSL 0x08 0x00010001 .value s t) ∧
      (0x900 ≤ len → len ≤ 0x1000 → len % 4 = 0 → a % 4 = 0 → inSram a len = true →
        (devState s ≠ .held → Gives (.load acc) s fun t => Refused acc pSL 0x08 0x00010001 .devstate s t) ∧
        (devState s = .held → candState s = 1 ∨ candState s = 5 → Gives (.load acc) s fun t => Refused acc pSL 0x08 0x00010001 .state s t) ∧
        (devState s = .held → candState s ≠ 1 → candState s ≠ 5 → Gives (.load acc) s fun t => candState t = 1 ∧
          t.sc = { s.sc with cand := mbytes s.mem a len, commS := some 0 } ∧ rg t (pSC 7) 0x48 = 0 ∧ t.reply = ⟨0, false⟩ ∧
          OnlyRegs [(pSC 7, 0x48), (pSC 7, 0x4C)] s t ∧ SameCore s t)))

/-- With the ledger measuring, in RUN: a turn-on's sample joins those of its channel, the last of an odd VTH_N giving the median
as Vth with a record; a second's window with fewer than 16 measurements only starts again, and a full one within 5 °C with a
baseline gives ρ and its record; likewise δ of a mapped channel. One second after STOPPING to READY a tile with a baseline
gets z, θ and its record; a complete pre-charge gives C, γ and a record; 64 readings of RATE give the drift and a record.
Before its time, or without its conditions, each does nothing. A record is 16 bytes in the ring, whose place and count go on.
PREVIEW shows the plan derived and RESET forgets the history, in HELD and READY alone. GO of an existing leg starts the wait,
refused by its checks; after SP_WAIT the substitution is done. -/
def Obligations.LedgerMeasuresHealth : Prop :=
  ∀ s : State, ∀ rec, rec = 0x28057000 + 16 * s.nv.led.pos → ∀ pos, pos = (s.nv.led.pos + 1) % 10496 →
    ∀ cnt, cnt = (rg s pLEDGER 0x2CC + 1) % 2 ^ 32 → s.led.chans.length = 48 →
    (∀ (x : Fin 6) (j : Fin 4) (lo : Bool), ∀ c, c = Fin.ofNat 48 (chanOf x j lo) → ∀ h, h = ledChan s c →
      (ledOn s = false ∨ devState s ≠ .run → (∀ v : Fin 65536, Idle (.vthMeasurement c v) s) ∧ (∀ up : Bool, Idle (.ronWindow x j lo up) s) ∧ Idle (.scrDriftWindow x j lo) s) ∧
      (ledOn s = true → devState s = .run →
        (∀ v : Fin 65536, s.led.vDone.contains c.val = false → (chanH s c).on = true → h.mAt = some (chanH s c).onAt → h.vAt ≠ some (chanH s c).onAt →
          fld s (pIC (c / 8)) (0x180 + 4 * (c % 8)) 0 16 < fld s pLEDGER 0x40 0 16 →
          (h.vs.length + 1 < fld s pLEDGER 0x40 16 8 → Gives (.vthMeasurement c v) s fun t =>
            ledChan t c = { h with vs := v.val :: h.vs, vAt := some (chanH s c).onAt } ∧ SameRegs s t ∧ SameCore s t) ∧
          (fld s pLEDGER 0x40 16 8 ≤ h.vs.length + 1 → fld s pLEDGER 0x40 16 8 % 2 = 1 → baseline s (48 + c) ≠ 0 →
            Gives (.vthMeasurement c v) s fun t => ∀ m, m = nth (ascending (v.val :: h.vs)) (fld s pLEDGER 0x40 16 8 / 2) 0 →
              (c.val < s.nv.led.vth.length → nth t.nv.led.vth c 0 = m ∧
                pageView t pLEDGER (0x1C0 + 4 * c) = m % 65536 + 2 ^ 16 * (baseline s (48 + c) % 65536)) ∧ t.nv.led.pos = pos ∧ mread t.mem rec 4 = 1 + 2 ^ 8 * c + 2 ^ 16 * (m % 65536) ∧
              OnlyRegs [(pLEDGER, 0x2CC), (pLEDGER, 0x10)] s t ∧
              (∀ a, a < rec ∨ rec + 16 ≤ a → mget t.mem a = mget s.mem a))) ∧
        (s.tick < h.ronAt + 1000 * msT → ∀ up : Bool, Idle (.ronWindow x j lo up) s) ∧
        (h.ronAt + 1000 * msT ≤ s.tick → h.ronN < 16 → ∀ up : Bool, Gives (.ronWindow x j lo up) s fun t =>
          ledChan t c = { h with ronAt := s.tick, ronN := 0, ron := 0, tN := 0, t := 0 } ∧ SameRegs s t ∧ SameCore s t) ∧
        (h.ronAt + 1000 * msT ≤ s.tick → 16 ≤ h.ronN → ∀ up : Bool, ∀ r, r = h.ron.toNat / h.ronN + b2n (up && h.ron.toNat % h.ronN != 0) → r ≠ 0 → baseline s c ≠ 0 →
          ∀ tref, tref = sgn 16 (fld s pLEDGER 0x44 16 16) → tref - 1280 ≤ ronTemp s c → ronTemp s c ≤ tref + 1280 →
          Gives (.ronWindow x j lo up) s fun t =>
            (c.val < s.nv.led.rho.length → nth t.nv.led.rho c 0 = ratioQ14 r (baseline s c) ∧
              pageView t pLEDGER (0x100 + 4 * c) = ratioQ14 r (baseline s c) + 2 ^ 16 * nth s.nv.led.delta c 0x4000) ∧ t.nv.led.pos = pos ∧
            mread t.mem rec 4 = 2 + 2 ^ 8 * c + 2 ^ 16 * ratioQ14 r (baseline s c) ∧ rg t pLEDGER 0x2CC = cnt ∧ rbit t pLEDGER 0x10 0 = true ∧
            OnlyRegs [(pLEDGER, 0x2CC), (pLEDGER, 0x10)] s t ∧
            (∀ a, a < rec ∨ rec + 16 ≤ a → mget t.mem a = mget s.mem a)) ∧
        (s.tick < h.scrAt + 1000 * msT → Idle (.scrDriftWindow x j lo) s) ∧
        (h.scrAt + 1000 * msT ≤ s.tick → h.scrN < 16 → Gives (.scrDriftWindow x j lo) s fun t =>
          ledChan t c = { h with scrAt := s.tick, scrN := 0, scrI := 0, scrS := 0 } ∧ SameRegs s t ∧ SameCore s t) ∧
        (h.scrAt + 1000 * msT ≤ s.tick → 16 ≤ h.scrN → scrMap s c ≠ 0xFF → rg s pCAL (0x400 + 8 * c) ≠ 0 → rg s pCAL (0x580 + 4 * c) ≠ 0 →
          h.scrS ≠ 0 → Gives (.scrDriftWindow x j lo) s fun t => t.nv.led.pos = pos ∧
            (c.val < s.nv.led.delta.length →
              pageView t pLEDGER (0x100 + 4 * c) = nth s.nv.led.rho c 0x4000 + 2 ^ 16 * scrDelta s c) ∧
            (c.val < s.nv.led.dUsed.length → nth t.nv.led.dUsed c true = false) ∧
            mread t.mem rec 4 = 5 + 2 ^ 8 * c + 2 ^ 16 * scrDelta s c ∧
            OnlyRegs [(pLEDGER, 0x2CC), (pLEDGER, 0x10)] s t))) ∧
    (∀ x : Fin 6, (s.led.zAt = none ∨ ledOn s = false → Idle (.zthRecord x) s) ∧
      (∀ z, s.led.zAt = some z →
        (s.tick < z + 1000 * msT ∨ s.led.zDone.contains x.val = true → Idle (.zthRecord x) s) ∧
        (ledOn s = true → z + 1000 * msT ≤ s.tick → s.led.zDone.contains x.val = false → baseline s (96 + x) ≠ 0 →
          ∀ a b, a = sgn 16 (nth s.led.zT x 0) → b = sgn 16 s.led.zB → 10 * 256 ≤ a - b → Gives (.zthRecord x) s fun t =>
            ∀ q, q = (satS 16 (rneDiv ((sgn 16 (fld s (pIC x) 0x54 0 16) - b) * 32768) (a - b).toNat)).1 →
            (x.val < s.nv.led.theta.length → x.val < s.nv.led.z.length →
              pageView t pLEDGER (0x280 + 4 * x) = ratioQ14 q.toNat (baseline s (96 + x)) + 2 ^ 16 * uns 16 q) ∧ t.nv.led.pos = pos ∧
            t.led.zDone.contains x.val = true ∧ OnlyRegs [(pLEDGER, 0x2CC), (pLEDGER, 0x10)] s t))) ∧
    (∀ d20 d60 : Fin 200, (s.led.pre.isNone = true → Idle (.capMeasurement d20 d60) s) ∧
     (∀ x d, s.led.pre = some x → x.dt = some d → ∀ c, c = capOf (5 * (d + d20 - d60)) (fld s pLEDGER 0x4C 0 16) → ledOn s = true → fld s pLEDGER 0x4C 0 16 ≠ 0 →
        c ≠ 0 → baseline s 102 ≠ 0 → Gives (.capMeasurement d20 d60) s fun t => t.led.pre = none ∧
          pageView t pLEDGER 0x2A0 = c + 2 ^ 16 * min 32767 (rneDiv ((c : Int) * 32768) (baseline s 102)).toNat ∧ t.nv.led.pos = pos ∧
          mread t.mem rec 4 = 4 + 2 ^ 16 * c ∧ OnlyRegs [(pLEDGER, 0x2CC), (pLEDGER, 0x10)] s t)) ∧
    ((ledOn s = false ∨ rbit s pLEDGER 0x88 0 = false ∨ s.tick < s.led.xAt + 1000 * msT → Idle .xtalReading s) ∧
     (ledOn s = true → rbit s pLEDGER 0x88 0 = true → s.led.xAt + 1000 * msT ≤ s.tick → ∀ x, x = s.led.xSum + sgn 32 (rg s pPTP 0x40) →
        (s.led.xN < 63 → Gives .xtalReading s fun t => t.led = { s.led with xSum := x, xN := s.led.xN + 1, xAt := s.tick } ∧
          SameRegs s t ∧ SameCore s t) ∧
        (63 ≤ s.led.xN → Gives .xtalReading s fun t => pageView t pLEDGER 0x2A4 = uns 16 (satS 16 (rneDiv (-x * 10 ^ 8) (64 * 5 * 2 ^ 32))).1 ∧
          t.led = { s.led with xSum := 0, xN := 0, xAt := s.tick } ∧ t.nv.led.pos = pos ∧
          OnlyRegs [(pLEDGER, 0x2CC), (pLEDGER, 0x10)] s t ∧
          (∀ a, a < rec ∨ rec + 16 ≤ a → mget t.mem a = mget s.mem a)))) ∧
    (∀ acc : Access, Reaches s acc pLEDGER 0x08 true → locked s pLEDGER = false →
      (devState s ≠ .held → devState s ≠ .ready → (Gives (.preview acc) s fun t => Refused acc pLEDGER 0x08 0x00020002 .devstate s t) ∧
        (Gives (.ledgerReset acc) s fun t => Refused acc pLEDGER 0x08 0x00040004 .devstate s t)) ∧
      (devState s = .held ∨ devState s = .ready →
        (Gives (.preview acc) s fun t => (∀ x, x < 6 → rg t pLEDGER (0x2B0 + 4 * x) = (planDerive s).f.getD x 0) ∧
          rg t pLEDGER 0x2A8 = (planDerive s).maint ∧ rg t pLEDGER 0x2C8 = (planDerive s).dly ∧ rbit t pLEDGER 0x2AC 16 = true ∧
          rbit t pLEDGER 0x10 1 = true ∧ t.reply = ⟨0, false⟩ ∧ OnlyPages [pLEDGER, pCOCOON, pSYS] s t ∧ SameCore s t) ∧
        (Gives (.ledgerReset acc) s fun t => t.nv.led.rho = List.replicate 48 0x4000 ∧ t.nv.led.theta = List.replicate 6 0x4000 ∧
          t.nv.led.delta = List.replicate 48 0x4000 ∧
          (∀ c, c < 48 → pageView t pLEDGER (0x1C0 + 4 * c) = nth s.nv.led.vth c 0 % 65536) ∧ t.nv.led.gamma = 0x7FFF ∧ t.nv.led.pos = 0 ∧
          (∀ c, c < 48 → pageView t pLEDGER (0x100 + 4 * c) = 0x40004000) ∧
          pageView t pLEDGER 0x2A0 = s.nv.led.cap + 2 ^ 16 * 0x7FFF ∧ (∀ i, i < 135 → baseline t i = 0) ∧
          t.reply = ⟨0, false⟩ ∧ OnlyPages [pLEDGER, pCOCOON, pSYS] s t ∧
          (∀ a, a < 0x28056010 ∨ 0x28080000 ≤ a → mget t.mem a = mget s.mem a) ∧ t.stag = s.stag ∧ t.tick = s.tick ∧ t.pending = s.pending))) ∧
    (∀ acc : Access, Reaches s acc pSPARE 0x08 true → locked s pSPARE = false → ∀ m, m = fld s pSPARE 0x44 0 5 →
      (14 < m → Gives (.spareGo acc) s fun t => Refused acc pSPARE 0x08 0x00010001 .value s t) ∧
      (m ≤ 14 → (devState s).running = false → Gives (.spareGo acc) s fun t => Refused acc pSPARE 0x08 0x00010001 .devstate s t) ∧
      (m ≤ 14 → (devState s).running = true → rbit s pSPARE 0x40 0 = true → fld s pSPARE 0x4C 0 2 ≠ 1 → rbit s pSUPPLY 0x50 5 = true →
        acc.master = .stagA → (∀ k, k < 24 → k ≠ 23 → legPair s k ≠ 23) → Gives (.spareGo acc) s fun t => rg t pSPARE 0x4C = 1 + 2 ^ 8 * m ∧
          t.led = { s.led with spAt := s.tick } ∧ (locked s (pLEG m) = false → pageEn t (pLEG m) = false) ∧ t.reply = ⟨0, false⟩)) ∧
    ((fld s pSPARE 0x4C 0 2 ≠ 1 ∨ s.tick < s.led.spAt + rg s pSPARE 0x48 * msT → Idle .spareWaitDone s) ∧
     (powered s = true → fld s pSPARE 0x4C 0 2 = 1 → s.led.spAt + rg s pSPARE 0x48 * msT ≤ s.tick → Gives .spareWaitDone s fun t =>
        fld t pSPARE 0x4C 0 2 = 2 ∧ fld t pSPARE 0x4C 8 5 = fld s pSPARE 0x4C 8 5 ∧
        ∀ m, m = fld s pSPARE 0x4C 8 5 → rg t (pLEG m) 0x60 = 0))

/-- For an access that reaches its register: TAGCLR empties the tag ring, but for a record made in its tick, which becomes record
0; a read of the low word of CYCLE or of a counter answers it and latches the high part. With the logic powered: a counter at
2^48 − 1 that counts, in the caste, what the pipeline's timing decides, its pair not halted by debug and the counter not
written in the tick, is 0 with its overflow bit and flag 0; another does nothing. A bandwidth window that is over shows the
bytes read and written and the peaks of every port, the next number, flag 1, and starts the next with the transfers that have
fallen into it; before, or with the monitor off, nothing happens. A port over its threshold sets its bit and flag 0 once a
window. -/
def Obligations.AntlineAndBandwidthCount : Prop :=
  ∀ s : State,
    (∀ (acc : Access) (x : PairId), Reaches s acc (pANT (pairIx x)) 0x08 true → locked s (pANT (pairIx x)) = false → Gives (.tagclr acc x) s fun t =>
      rg t (pANT (pairIx x)) 0xE4 = (if (antH s (pairIx x)).recAt.map Prod.fst = some s.tick then 0x101 else 0) ∧
      (∀ y, (antH t y).pmc = (antH s y).pmc ∧ (antH t y).cyc = (antH s y).cyc) ∧ t.reply = ⟨0, false⟩ ∧ OnlyPages [pANT (pairIx x), pCOCOON, pSYS] s t ∧ SameCore s t) ∧
    (∀ (acc : Access) (x : PairId) (n : Fin 9), Reaches s acc (pANT (pairIx x)) (antLowOff n) false → ∀ v, v =
        (if n.val = 0 then (antH s (pairIx x)).cyc else nth (antH s (pairIx x)).pmc (n - 1) 0) → Gives (.cycleLoRead acc x n) s fun t =>
      t.reply = ⟨v % 2 ^ 32, false⟩ ∧ rg t (pANT (pairIx x)) (antLowOff n + 4) = v / 2 ^ 32 ∧
      OnlyRegs [(pANT (pairIx x), antLowOff n), (pANT (pairIx x), antLowOff n + 4)] s t ∧ SameCore s t) ∧
    (powered s = true →
      (∀ (x : PairId) (n : Fin 8), ∀ i, i = pairIx x → ∀ evt, evt = fld s (pANT i) (0x50 + 16 * n) 0 8 →
        ∀ ok, ok = (pmcCounts s i evt n && pmcTiming evt && pairStat s i != 3 && nth (antH s i).pmc n 0 == 2 ^ 48 - 1 &&
          ! (antH s i).wrote.contains n.val) →
        (ok = true → i < s.ant.length → Gives (.pmcOverflow x n) s fun t =>
            antH t i = { antH s i with pmc := (antH s i).pmc.set n 0 } ∧ rbit t (pANT i) 0xD0 n = true ∧ rbit t (pANT i) 0x10 0 = true ∧
            OnlyRegs [(pANT i, 0xD0), (pANT i, 0x10)] s t ∧ SameCore s t) ∧
        (ok = false → Idle (.pmcOverflow x n) s)) ∧
      (∀ counts : List BwCount, ∀ e, e = s.bw.at_ + fld s pBWMON 0x40 0 20 * usT →
        (s.tick < e ∨ rbit s pBWMON 0x08 0 = false → Idle (.bwWindowEnd counts) s) ∧
        (e ≤ s.tick → rbit s pBWMON 0x08 0 = true → Gives (.bwWindowEnd counts) s fun t => t.bw.at_ = e ∧ t.bw.done = 0 ∧
          (∀ p, p < 16 → nth t.bw.thr p 0 = rg s pBWMON (0x114 + 0x20 * p)) ∧ rbit t pBWMON 0x10 1 = true ∧
          fld t pBWMON 0x44 0 16 = (fld s pBWMON 0x44 0 16 + 1) % 65536 ∧
          (∀ p, p < 16 → ∀ c, c = bwTotal s counts p →
            rg t pBWMON (0x100 + 0x20 * p) = c.rd % 2 ^ 32 ∧ rg t pBWMON (0x104 + 0x20 * p) = c.rd / 2 ^ 32 ∧
            rg t pBWMON (0x108 + 0x20 * p) = c.wr % 2 ^ 32 ∧ rg t pBWMON (0x10C + 0x20 * p) = c.wr / 2 ^ 32 ∧
            rg t pBWMON (0x110 + 0x20 * p) = c.peakR + 2 ^ 16 * c.peakW) ∧ t.bw.cur = s.bw.nxt ∧
          OnlyPages [pBWMON] s t ∧ SameCore s t)) ∧
      (∀ p : Fin 16,
        (rbit s pBWMON 0x08 0 = true → nth s.bw.thr p 0 ≠ 0 → bit s.bw.done p = false → Gives (.bwThreshold p) s fun t =>
          bit t.bw.done p = true ∧ rbit t pBWMON 0x48 p = true ∧ rbit t pBWMON 0x10 0 = true ∧
          OnlyRegs [(pBWMON, 0x48), (pBWMON, 0x10)] s t ∧ SameCore s t) ∧
        (rbit s pBWMON 0x08 0 = false ∨ nth s.bw.thr p 0 = 0 ∨ bit s.bw.done p = true → Idle (.bwThreshold p) s)))

/-- For an access that reaches its register of DEBUG: AUTH outside HELD is refused with DEVSTATE, when done or after three
failures with STATE; else a signature that verifies authenticates, another counts and sets flag 1. Of the halt commands a
target that does not exist, or an engine to step, is refused with VALUE; a part not H12D outside HELD and READY with DEVSTATE;
without authentication, or a target not in the state needed, with STATE; another master with CONFLICT. Else HALT of a pair
shows it halted with its registers as they were, RESUME lets it run, STEP gives it one instruction; HALT of an engine shows
HALTED, and RESUME returns it to RUN or IDLE. A write of DBG_RVAL of a pair not halted is refused with STATE; of a halted one
it writes the selected general, FPU or program counter register, g0 never. -/
def Obligations.DebugPortHaltsAndReads : Prop :=
  ∀ s : State, s.stag.length = 2 → s.mt.length = 4 →
    (∀ acc : Access, Reaches s acc pDEBUG 0x08 true → locked s pDEBUG = false →
      (devState s ≠ .held → Gives (.auth acc) s fun t => Refused acc pDEBUG 0x08 0x00010001 .devstate s t) ∧
      (devState s = .held → rbit s pDEBUG 0x40 0 = true ∨ fld s pDEBUG 0x40 2 2 = 3 → Gives (.auth acc) s fun t =>
        Refused acc pDEBUG 0x08 0x00010001 .state s t) ∧
      (devState s = .held → rbit s pDEBUG 0x40 0 = false → fld s pDEBUG 0x40 2 2 ≠ 3 → ∀ ok, ok =
          Config.authOk Config.otpSerial (debugWords s 0x48 4) (debugWords s 0x100 16) → Gives (.auth acc) s fun t =>
        rbit t pDEBUG 0x40 0 = ok ∧ (ok = false → fld t pDEBUG 0x40 2 2 = fld s pDEBUG 0x40 2 2 + 1 ∧ rbit t pDEBUG 0x10 1 = true) ∧
        t.reply = ⟨0, false⟩ ∧ OnlyPages [pDEBUG, pCOCOON, pSYS] s t ∧ SameCore s t)) ∧
    (∀ (acc : Access) (x : Fin 8), Reaches s acc pDEBUG 0x44 true →
      (x.val = 2 ∨ x.val = 3 → (Gives (.debugHalt acc x) s fun t => Refused acc pDEBUG 0x44 (1 + 256 * x) .value s t) ∧
        (Gives (.debugResume acc x) s fun t => Refused acc pDEBUG 0x44 (2 + 256 * x) .value s t)) ∧
      (2 ≤ x.val → Gives (.debugStep acc x) s fun t => Refused acc pDEBUG 0x44 (3 + 256 * x) .value s t) ∧
      (x.val ≠ 2 → x.val ≠ 3 → s.variant ≠ .h12d → devState s ≠ .held → devState s ≠ .ready →
        (Gives (.debugHalt acc x) s fun t => Refused acc pDEBUG 0x44 (1 + 256 * x) .devstate s t) ∧
        (Gives (.debugResume acc x) s fun t => Refused acc pDEBUG 0x44 (2 + 256 * x) .devstate s t)) ∧
      (x.val ≠ 2 → x.val ≠ 3 → s.variant = .h12d ∨ devState s = .held ∨ devState s = .ready →
        (rbit s pDEBUG 0x40 0 = false → (Gives (.debugHalt acc x) s fun t => Refused acc pDEBUG 0x44 (1 + 256 * x) .state s t) ∧
          (Gives (.debugResume acc x) s fun t => Refused acc pDEBUG 0x44 (2 + 256 * x) .state s t)) ∧
        (rbit s pDEBUG 0x40 0 = true → acc.master = .debug →
          (x.val < 2 →
            (fld s (pSTAG x) 0x40 0 3 ≠ 0 → Gives (.debugHalt acc x) s fun t => Refused acc pDEBUG 0x44 (1 + 256 * x) .state s t) ∧
            (fld s (pSTAG x) 0x40 0 3 = 0 → Gives (.debugHalt acc x) s fun t => fld t (pSTAG x) 0x40 0 3 = 3 ∧ rbit t pDEBUG 0x40 (4 + x) = true ∧
              rbit t pDEBUG 0x10 0 = true ∧ t.stag = s.stag ∧ t.reply = ⟨0, false⟩) ∧
            (fld s (pSTAG x) 0x40 0 3 = 3 →
              (Gives (.debugResume acc x) s fun t => fld t (pSTAG x) 0x40 0 3 = 0 ∧ rbit t pDEBUG 0x40 (4 + x) = false ∧
                stagH t x = { stagH s x with step := false } ∧ t.reply = ⟨0, false⟩) ∧
              (Gives (.debugStep acc x) s fun t => stagH t x = { stagH s x with step := true } ∧ fld t (pSTAG x) 0x40 0 3 = 3 ∧
                t.reply = ⟨0, false⟩ ∧ OnlyRegs [(pDEBUG, 0x44)] s t))) ∧
          (∀ e, e = x.val - 4 → 4 ≤ x.val →
            (mtState s e ≠ mtRUN → mtState s e ≠ mtIDLE → Gives (.debugHalt acc x) s fun t => Refused acc pDEBUG 0x44 (1 + 256 * x) .state s t) ∧
            (mtState s e = mtRUN ∨ mtState s e = mtIDLE → Gives (.debugHalt acc x) s fun t => mtState t e = mtHALTED ∧
              rbit t pDEBUG 0x40 (8 + e) = true ∧ rbit t pDEBUG 0x10 0 = true ∧ (mtH t e).wasRun = (mtState s e == mtRUN) ∧ t.reply = ⟨0, false⟩) ∧
            (mtState s e = mtHALTED → Gives (.debugResume acc x) s fun t => mtState t e = (if (mtH s e).wasRun then mtRUN else mtIDLE) ∧
              rbit t pDEBUG 0x40 (8 + e) = false ∧ t.reply = ⟨0, false⟩))))) ∧
    (∀ (acc : Access) (v : BitVec 32), Reaches s acc pDEBUG 0x5C true → ∀ x, x = fld s pDEBUG 0x58 8 1 → ∀ r, r = fld s pDEBUG 0x58 0 7 →
      (fld s (pSTAG x) 0x40 0 3 ≠ 3 → Gives (.dbgRvalWrite acc v) s fun t => Refused acc pDEBUG 0x5C v.toNat .state s t) ∧
      (fld s (pSTAG x) 0x40 0 3 = 3 → Gives (.dbgRvalWrite acc v) s fun t =>
        stagH t x = (if r = 0 then stagH s x
          else if r < 32 then { stagH s x with g := (stagH s x).g.set r v }
          else if r < 64 then { stagH s x with f := (stagH s x).f.set (r - 32) v }
          else if r = 64 then { stagH s x with pc := v.toNat / 4 * 4 } else stagH s x) ∧
        stagH t (1 - x) = stagH s (1 - x) ∧ t.reply = ⟨0, false⟩ ∧ OnlyRegs [(pDEBUG, 0x5C)] s t)) ∧
    (∀ (acc : Access) (x : Fin 8), Reaches s acc pDEBUG 0x44 true → acc.master ≠ .debug → rbit s pDEBUG 0x40 0 = true →
      s.variant = .h12d ∨ devState s = .held ∨ devState s = .ready → x.val ≠ 2 → x.val ≠ 3 →
      (haltStateOk s 1 x = true → Gives (.debugHalt acc x) s fun t => Refused acc pDEBUG 0x44 (1 + 256 * x) .conflict s t) ∧
      (haltStateOk s 2 x = true → Gives (.debugResume acc x) s fun t => Refused acc pDEBUG 0x44 (2 + 256 * x) .conflict s t) ∧
      (x.val < 2 → haltStateOk s 3 x = true → Gives (.debugStep acc x) s fun t => Refused acc pDEBUG 0x44 (3 + 256 * x) .conflict s t))
end

