-- ==== Sys2Proof/Laws/State.lean ====
section
/-! SUPPORT. What each named update of the state leaves as it is: one lemma per field and update, and the registers as `rg`
reads them. -/
namespace Sys2Proof.Machine

/-! `setRg` -/

@[simp] theorem setRg_pending (p o v : Nat) (s : State) : (setRg p o v s).pending = s.pending := (rfl)
@[simp] theorem setRg_variant (p o v : Nat) (s : State) : (setRg p o v s).variant = s.variant := (rfl)
@[simp] theorem setRg_tick (p o v : Nat) (s : State) : (setRg p o v s).tick = s.tick := (rfl)
@[simp] theorem setRg_freeCtr (p o v : Nat) (s : State) : (setRg p o v s).freeCtr = s.freeCtr := (rfl)
@[simp] theorem setRg_reply (p o v : Nat) (s : State) : (setRg p o v s).reply = s.reply := (rfl)
@[simp] theorem setRg_mem (p o v : Nat) (s : State) : (setRg p o v s).mem = s.mem := (rfl)
@[simp] theorem setRg_now (p o v : Nat) (s : State) : (setRg p o v s).now = s.now := (rfl)
@[simp] theorem setRg_upset (p o v : Nat) (s : State) : (setRg p o v s).upset = s.upset := (rfl)
@[simp] theorem setRg_dev (p o v : Nat) (s : State) : (setRg p o v s).dev = s.dev := (rfl)
@[simp] theorem setRg_nv (p o v : Nat) (s : State) : (setRg p o v s).nv = s.nv := (rfl)
@[simp] theorem setRg_det (p o v : Nat) (s : State) : (setRg p o v s).det = s.det := (rfl)
@[simp] theorem setRg_hive (p o v : Nat) (s : State) : (setRg p o v s).hive = s.hive := (rfl)
@[simp] theorem setRg_dma (p o v : Nat) (s : State) : (setRg p o v s).dma = s.dma := (rfl)
@[simp] theorem setRg_dmaTurn (p o v : Nat) (s : State) : (setRg p o v s).dmaTurn = s.dmaTurn := (rfl)
@[simp] theorem setRg_chk (p o v : Nat) (s : State) : (setRg p o v s).chk = s.chk := (rfl)
@[simp] theorem setRg_armNow (p o v : Nat) (s : State) : (setRg p o v s).armNow = s.armNow := (rfl)
@[simp] theorem setRg_disNow (p o v : Nat) (s : State) : (setRg p o v s).disNow = s.disNow := (rfl)
@[simp] theorem setRg_tracks (p o v : Nat) (s : State) : (setRg p o v s).tracks = s.tracks := (rfl)
@[simp] theorem setRg_slots (p o v : Nat) (s : State) : (setRg p o v s).slots = s.slots := (rfl)
@[simp] theorem setRg_sets (p o v : Nat) (s : State) : (setRg p o v s).sets = s.sets := (rfl)
@[simp] theorem setRg_sdOn (p o v : Nat) (s : State) : (setRg p o v s).sdOn = s.sdOn := (rfl)
@[simp] theorem setRg_hvsOn (p o v : Nat) (s : State) : (setRg p o v s).hvsOn = s.hvsOn := (rfl)
@[simp] theorem setRg_sdOsr (p o v : Nat) (s : State) : (setRg p o v s).sdOsr = s.sdOsr := (rfl)
@[simp] theorem setRg_sdGot (p o v : Nat) (s : State) : (setRg p o v s).sdGot = s.sdGot := (rfl)
@[simp] theorem setRg_sar (p o v : Nat) (s : State) : (setRg p o v s).sar = s.sar := (rfl)
@[simp] theorem setRg_rsv (p o v : Nat) (s : State) : (setRg p o v s).rsv = s.rsv := (rfl)
@[simp] theorem setRg_enc (p o v : Nat) (s : State) : (setRg p o v s).enc = s.enc := (rfl)
@[simp] theorem setRg_encAt (p o v : Nat) (s : State) : (setRg p o v s).encAt = s.encAt := (rfl)
@[simp] theorem setRg_twLast (p o v : Nat) (s : State) : (setRg p o v s).twLast = s.twLast := (rfl)
@[simp] theorem setRg_sentErr (p o v : Nat) (s : State) : (setRg p o v s).sentErr = s.sentErr := (rfl)
@[simp] theorem setRg_sentWas (p o v : Nat) (s : State) : (setRg p o v s).sentWas = s.sentWas := (rfl)
@[simp] theorem setRg_cal (p o v : Nat) (s : State) : (setRg p o v s).cal = s.cal := (rfl)
@[simp] theorem setRg_mt (p o v : Nat) (s : State) : (setRg p o v s).mt = s.mt := (rfl)
@[simp] theorem setRg_inj (p o v : Nat) (s : State) : (setRg p o v s).inj = s.inj := (rfl)
@[simp] theorem setRg_capt (p o v : Nat) (s : State) : (setRg p o v s).capt = s.capt := (rfl)
@[simp] theorem setRg_profAt (p o v : Nat) (s : State) : (setRg p o v s).profAt = s.profAt := (rfl)
@[simp] theorem setRg_cars (p o v : Nat) (s : State) : (setRg p o v s).cars = s.cars := (rfl)
@[simp] theorem setRg_legs (p o v : Nat) (s : State) : (setRg p o v s).legs = s.legs := (rfl)
@[simp] theorem setRg_pairs (p o v : Nat) (s : State) : (setRg p o v s).pairs = s.pairs := (rfl)
@[simp] theorem setRg_groups (p o v : Nat) (s : State) : (setRg p o v s).groups = s.groups := (rfl)
@[simp] theorem setRg_brake (p o v : Nat) (s : State) : (setRg p o v s).brake = s.brake := (rfl)
@[simp] theorem setRg_genS (p o v : Nat) (s : State) : (setRg p o v s).genS = s.genS := (rfl)
@[simp] theorem setRg_ntcWarn (p o v : Nat) (s : State) : (setRg p o v s).ntcWarn = s.ntcWarn := (rfl)
@[simp] theorem setRg_ntcShut (p o v : Nat) (s : State) : (setRg p o v s).ntcShut = s.ntcShut := (rfl)
@[simp] theorem setRg_df (p o v : Nat) (s : State) : (setRg p o v s).df = s.df := (rfl)
@[simp] theorem setRg_hb (p o v : Nat) (s : State) : (setRg p o v s).hb = s.hb := (rfl)
@[simp] theorem setRg_adu (p o v : Nat) (s : State) : (setRg p o v s).adu = s.adu := (rfl)
@[simp] theorem setRg_kd (p o v : Nat) (s : State) : (setRg p o v s).kd = s.kd := (rfl)
@[simp] theorem setRg_eth (p o v : Nat) (s : State) : (setRg p o v s).eth = s.eth := (rfl)
@[simp] theorem setRg_sc (p o v : Nat) (s : State) : (setRg p o v s).sc = s.sc := (rfl)
@[simp] theorem setRg_led (p o v : Nat) (s : State) : (setRg p o v s).led = s.led := (rfl)
@[simp] theorem setRg_stag (p o v : Nat) (s : State) : (setRg p o v s).stag = s.stag := (rfl)
@[simp] theorem setRg_ant (p o v : Nat) (s : State) : (setRg p o v s).ant = s.ant := (rfl)
@[simp] theorem setRg_bw (p o v : Nat) (s : State) : (setRg p o v s).bw = s.bw := (rfl)

/-! `setFld` -/

@[simp] theorem setFld_pending (p o lo w x : Nat) (s : State) : (setFld p o lo w x s).pending = s.pending := (rfl)
@[simp] theorem setFld_variant (p o lo w x : Nat) (s : State) : (setFld p o lo w x s).variant = s.variant := (rfl)
@[simp] theorem setFld_tick (p o lo w x : Nat) (s : State) : (setFld p o lo w x s).tick = s.tick := (rfl)
@[simp] theorem setFld_freeCtr (p o lo w x : Nat) (s : State) : (setFld p o lo w x s).freeCtr = s.freeCtr := (rfl)
@[simp] theorem setFld_reply (p o lo w x : Nat) (s : State) : (setFld p o lo w x s).reply = s.reply := (rfl)
@[simp] theorem setFld_mem (p o lo w x : Nat) (s : State) : (setFld p o lo w x s).mem = s.mem := (rfl)
@[simp] theorem setFld_now (p o lo w x : Nat) (s : State) : (setFld p o lo w x s).now = s.now := (rfl)
@[simp] theorem setFld_upset (p o lo w x : Nat) (s : State) : (setFld p o lo w x s).upset = s.upset := (rfl)
@[simp] theorem setFld_dev (p o lo w x : Nat) (s : State) : (setFld p o lo w x s).dev = s.dev := (rfl)
@[simp] theorem setFld_nv (p o lo w x : Nat) (s : State) : (setFld p o lo w x s).nv = s.nv := (rfl)
@[simp] theorem setFld_det (p o lo w x : Nat) (s : State) : (setFld p o lo w x s).det = s.det := (rfl)
@[simp] theorem setFld_hive (p o lo w x : Nat) (s : State) : (setFld p o lo w x s).hive = s.hive := (rfl)
@[simp] theorem setFld_dma (p o lo w x : Nat) (s : State) : (setFld p o lo w x s).dma = s.dma := (rfl)
@[simp] theorem setFld_dmaTurn (p o lo w x : Nat) (s : State) : (setFld p o lo w x s).dmaTurn = s.dmaTurn := (rfl)
@[simp] theorem setFld_chk (p o lo w x : Nat) (s : State) : (setFld p o lo w x s).chk = s.chk := (rfl)
@[simp] theorem setFld_armNow (p o lo w x : Nat) (s : State) : (setFld p o lo w x s).armNow = s.armNow := (rfl)
@[simp] theorem setFld_disNow (p o lo w x : Nat) (s : State) : (setFld p o lo w x s).disNow = s.disNow := (rfl)
@[simp] theorem setFld_tracks (p o lo w x : Nat) (s : State) : (setFld p o lo w x s).tracks = s.tracks := (rfl)
@[simp] theorem setFld_slots (p o lo w x : Nat) (s : State) : (setFld p o lo w x s).slots = s.slots := (rfl)
@[simp] theorem setFld_sets (p o lo w x : Nat) (s : State) : (setFld p o lo w x s).sets = s.sets := (rfl)
@[simp] theorem setFld_sdOn (p o lo w x : Nat) (s : State) : (setFld p o lo w x s).sdOn = s.sdOn := (rfl)
@[simp] theorem setFld_hvsOn (p o lo w x : Nat) (s : State) : (setFld p o lo w x s).hvsOn = s.hvsOn := (rfl)
@[simp] theorem setFld_sdOsr (p o lo w x : Nat) (s : State) : (setFld p o lo w x s).sdOsr = s.sdOsr := (rfl)
@[simp] theorem setFld_sdGot (p o lo w x : Nat) (s : State) : (setFld p o lo w x s).sdGot = s.sdGot := (rfl)
@[simp] theorem setFld_sar (p o lo w x : Nat) (s : State) : (setFld p o lo w x s).sar = s.sar := (rfl)
@[simp] theorem setFld_rsv (p o lo w x : Nat) (s : State) : (setFld p o lo w x s).rsv = s.rsv := (rfl)
@[simp] theorem setFld_enc (p o lo w x : Nat) (s : State) : (setFld p o lo w x s).enc = s.enc := (rfl)
@[simp] theorem setFld_encAt (p o lo w x : Nat) (s : State) : (setFld p o lo w x s).encAt = s.encAt := (rfl)
@[simp] theorem setFld_twLast (p o lo w x : Nat) (s : State) : (setFld p o lo w x s).twLast = s.twLast := (rfl)
@[simp] theorem setFld_sentErr (p o lo w x : Nat) (s : State) : (setFld p o lo w x s).sentErr = s.sentErr := (rfl)
@[simp] theorem setFld_sentWas (p o lo w x : Nat) (s : State) : (setFld p o lo w x s).sentWas = s.sentWas := (rfl)
@[simp] theorem setFld_cal (p o lo w x : Nat) (s : State) : (setFld p o lo w x s).cal = s.cal := (rfl)
@[simp] theorem setFld_mt (p o lo w x : Nat) (s : State) : (setFld p o lo w x s).mt = s.mt := (rfl)
@[simp] theorem setFld_inj (p o lo w x : Nat) (s : State) : (setFld p o lo w x s).inj = s.inj := (rfl)
@[simp] theorem setFld_capt (p o lo w x : Nat) (s : State) : (setFld p o lo w x s).capt = s.capt := (rfl)
@[simp] theorem setFld_profAt (p o lo w x : Nat) (s : State) : (setFld p o lo w x s).profAt = s.profAt := (rfl)
@[simp] theorem setFld_cars (p o lo w x : Nat) (s : State) : (setFld p o lo w x s).cars = s.cars := (rfl)
@[simp] theorem setFld_legs (p o lo w x : Nat) (s : State) : (setFld p o lo w x s).legs = s.legs := (rfl)
@[simp] theorem setFld_pairs (p o lo w x : Nat) (s : State) : (setFld p o lo w x s).pairs = s.pairs := (rfl)
@[simp] theorem setFld_groups (p o lo w x : Nat) (s : State) : (setFld p o lo w x s).groups = s.groups := (rfl)
@[simp] theorem setFld_brake (p o lo w x : Nat) (s : State) : (setFld p o lo w x s).brake = s.brake := (rfl)
@[simp] theorem setFld_genS (p o lo w x : Nat) (s : State) : (setFld p o lo w x s).genS = s.genS := (rfl)
@[simp] theorem setFld_ntcWarn (p o lo w x : Nat) (s : State) : (setFld p o lo w x s).ntcWarn = s.ntcWarn := (rfl)
@[simp] theorem setFld_ntcShut (p o lo w x : Nat) (s : State) : (setFld p o lo w x s).ntcShut = s.ntcShut := (rfl)
@[simp] theorem setFld_df (p o lo w x : Nat) (s : State) : (setFld p o lo w x s).df = s.df := (rfl)
@[simp] theorem setFld_hb (p o lo w x : Nat) (s : State) : (setFld p o lo w x s).hb = s.hb := (rfl)
@[simp] theorem setFld_adu (p o lo w x : Nat) (s : State) : (setFld p o lo w x s).adu = s.adu := (rfl)
@[simp] theorem setFld_kd (p o lo w x : Nat) (s : State) : (setFld p o lo w x s).kd = s.kd := (rfl)
@[simp] theorem setFld_eth (p o lo w x : Nat) (s : State) : (setFld p o lo w x s).eth = s.eth := (rfl)
@[simp] theorem setFld_sc (p o lo w x : Nat) (s : State) : (setFld p o lo w x s).sc = s.sc := (rfl)
@[simp] theorem setFld_led (p o lo w x : Nat) (s : State) : (setFld p o lo w x s).led = s.led := (rfl)
@[simp] theorem setFld_stag (p o lo w x : Nat) (s : State) : (setFld p o lo w x s).stag = s.stag := (rfl)
@[simp] theorem setFld_ant (p o lo w x : Nat) (s : State) : (setFld p o lo w x s).ant = s.ant := (rfl)
@[simp] theorem setFld_bw (p o lo w x : Nat) (s : State) : (setFld p o lo w x s).bw = s.bw := (rfl)

/-! `setBit` -/

@[simp] theorem setBit_pending (p o i : Nat) (b : Bool) (s : State) : (setBit p o i b s).pending = s.pending := (rfl)
@[simp] theorem setBit_variant (p o i : Nat) (b : Bool) (s : State) : (setBit p o i b s).variant = s.variant := (rfl)
@[simp] theorem setBit_tick (p o i : Nat) (b : Bool) (s : State) : (setBit p o i b s).tick = s.tick := (rfl)
@[simp] theorem setBit_freeCtr (p o i : Nat) (b : Bool) (s : State) : (setBit p o i b s).freeCtr = s.freeCtr := (rfl)
@[simp] theorem setBit_reply (p o i : Nat) (b : Bool) (s : State) : (setBit p o i b s).reply = s.reply := (rfl)
@[simp] theorem setBit_mem (p o i : Nat) (b : Bool) (s : State) : (setBit p o i b s).mem = s.mem := (rfl)
@[simp] theorem setBit_now (p o i : Nat) (b : Bool) (s : State) : (setBit p o i b s).now = s.now := (rfl)
@[simp] theorem setBit_upset (p o i : Nat) (b : Bool) (s : State) : (setBit p o i b s).upset = s.upset := (rfl)
@[simp] theorem setBit_dev (p o i : Nat) (b : Bool) (s : State) : (setBit p o i b s).dev = s.dev := (rfl)
@[simp] theorem setBit_nv (p o i : Nat) (b : Bool) (s : State) : (setBit p o i b s).nv = s.nv := (rfl)
@[simp] theorem setBit_det (p o i : Nat) (b : Bool) (s : State) : (setBit p o i b s).det = s.det := (rfl)
@[simp] theorem setBit_hive (p o i : Nat) (b : Bool) (s : State) : (setBit p o i b s).hive = s.hive := (rfl)
@[simp] theorem setBit_dma (p o i : Nat) (b : Bool) (s : State) : (setBit p o i b s).dma = s.dma := (rfl)
@[simp] theorem setBit_dmaTurn (p o i : Nat) (b : Bool) (s : State) : (setBit p o i b s).dmaTurn = s.dmaTurn := (rfl)
@[simp] theorem setBit_chk (p o i : Nat) (b : Bool) (s : State) : (setBit p o i b s).chk = s.chk := (rfl)
@[simp] theorem setBit_armNow (p o i : Nat) (b : Bool) (s : State) : (setBit p o i b s).armNow = s.armNow := (rfl)
@[simp] theorem setBit_disNow (p o i : Nat) (b : Bool) (s : State) : (setBit p o i b s).disNow = s.disNow := (rfl)
@[simp] theorem setBit_tracks (p o i : Nat) (b : Bool) (s : State) : (setBit p o i b s).tracks = s.tracks := (rfl)
@[simp] theorem setBit_slots (p o i : Nat) (b : Bool) (s : State) : (setBit p o i b s).slots = s.slots := (rfl)
@[simp] theorem setBit_sets (p o i : Nat) (b : Bool) (s : State) : (setBit p o i b s).sets = s.sets := (rfl)
@[simp] theorem setBit_sdOn (p o i : Nat) (b : Bool) (s : State) : (setBit p o i b s).sdOn = s.sdOn := (rfl)
@[simp] theorem setBit_hvsOn (p o i : Nat) (b : Bool) (s : State) : (setBit p o i b s).hvsOn = s.hvsOn := (rfl)
@[simp] theorem setBit_sdOsr (p o i : Nat) (b : Bool) (s : State) : (setBit p o i b s).sdOsr = s.sdOsr := (rfl)
@[simp] theorem setBit_sdGot (p o i : Nat) (b : Bool) (s : State) : (setBit p o i b s).sdGot = s.sdGot := (rfl)
@[simp] theorem setBit_sar (p o i : Nat) (b : Bool) (s : State) : (setBit p o i b s).sar = s.sar := (rfl)
@[simp] theorem setBit_rsv (p o i : Nat) (b : Bool) (s : State) : (setBit p o i b s).rsv = s.rsv := (rfl)
@[simp] theorem setBit_enc (p o i : Nat) (b : Bool) (s : State) : (setBit p o i b s).enc = s.enc := (rfl)
@[simp] theorem setBit_encAt (p o i : Nat) (b : Bool) (s : State) : (setBit p o i b s).encAt = s.encAt := (rfl)
@[simp] theorem setBit_twLast (p o i : Nat) (b : Bool) (s : State) : (setBit p o i b s).twLast = s.twLast := (rfl)
@[simp] theorem setBit_sentErr (p o i : Nat) (b : Bool) (s : State) : (setBit p o i b s).sentErr = s.sentErr := (rfl)
@[simp] theorem setBit_sentWas (p o i : Nat) (b : Bool) (s : State) : (setBit p o i b s).sentWas = s.sentWas := (rfl)
@[simp] theorem setBit_cal (p o i : Nat) (b : Bool) (s : State) : (setBit p o i b s).cal = s.cal := (rfl)
@[simp] theorem setBit_mt (p o i : Nat) (b : Bool) (s : State) : (setBit p o i b s).mt = s.mt := (rfl)
@[simp] theorem setBit_inj (p o i : Nat) (b : Bool) (s : State) : (setBit p o i b s).inj = s.inj := (rfl)
@[simp] theorem setBit_capt (p o i : Nat) (b : Bool) (s : State) : (setBit p o i b s).capt = s.capt := (rfl)
@[simp] theorem setBit_profAt (p o i : Nat) (b : Bool) (s : State) : (setBit p o i b s).profAt = s.profAt := (rfl)
@[simp] theorem setBit_cars (p o i : Nat) (b : Bool) (s : State) : (setBit p o i b s).cars = s.cars := (rfl)
@[simp] theorem setBit_legs (p o i : Nat) (b : Bool) (s : State) : (setBit p o i b s).legs = s.legs := (rfl)
@[simp] theorem setBit_pairs (p o i : Nat) (b : Bool) (s : State) : (setBit p o i b s).pairs = s.pairs := (rfl)
@[simp] theorem setBit_groups (p o i : Nat) (b : Bool) (s : State) : (setBit p o i b s).groups = s.groups := (rfl)
@[simp] theorem setBit_brake (p o i : Nat) (b : Bool) (s : State) : (setBit p o i b s).brake = s.brake := (rfl)
@[simp] theorem setBit_genS (p o i : Nat) (b : Bool) (s : State) : (setBit p o i b s).genS = s.genS := (rfl)
@[simp] theorem setBit_ntcWarn (p o i : Nat) (b : Bool) (s : State) : (setBit p o i b s).ntcWarn = s.ntcWarn := (rfl)
@[simp] theorem setBit_ntcShut (p o i : Nat) (b : Bool) (s : State) : (setBit p o i b s).ntcShut = s.ntcShut := (rfl)
@[simp] theorem setBit_df (p o i : Nat) (b : Bool) (s : State) : (setBit p o i b s).df = s.df := (rfl)
@[simp] theorem setBit_hb (p o i : Nat) (b : Bool) (s : State) : (setBit p o i b s).hb = s.hb := (rfl)
@[simp] theorem setBit_adu (p o i : Nat) (b : Bool) (s : State) : (setBit p o i b s).adu = s.adu := (rfl)
@[simp] theorem setBit_kd (p o i : Nat) (b : Bool) (s : State) : (setBit p o i b s).kd = s.kd := (rfl)
@[simp] theorem setBit_eth (p o i : Nat) (b : Bool) (s : State) : (setBit p o i b s).eth = s.eth := (rfl)
@[simp] theorem setBit_sc (p o i : Nat) (b : Bool) (s : State) : (setBit p o i b s).sc = s.sc := (rfl)
@[simp] theorem setBit_led (p o i : Nat) (b : Bool) (s : State) : (setBit p o i b s).led = s.led := (rfl)
@[simp] theorem setBit_stag (p o i : Nat) (b : Bool) (s : State) : (setBit p o i b s).stag = s.stag := (rfl)
@[simp] theorem setBit_ant (p o i : Nat) (b : Bool) (s : State) : (setBit p o i b s).ant = s.ant := (rfl)
@[simp] theorem setBit_bw (p o i : Nat) (b : Bool) (s : State) : (setBit p o i b s).bw = s.bw := (rfl)

/-! `incSat` -/

@[simp] theorem incSat_pending (p o lo w n : Nat) (s : State) : (incSat p o lo w n s).pending = s.pending := (rfl)
@[simp] theorem incSat_variant (p o lo w n : Nat) (s : State) : (incSat p o lo w n s).variant = s.variant := (rfl)
@[simp] theorem incSat_tick (p o lo w n : Nat) (s : State) : (incSat p o lo w n s).tick = s.tick := (rfl)
@[simp] theorem incSat_freeCtr (p o lo w n : Nat) (s : State) : (incSat p o lo w n s).freeCtr = s.freeCtr := (rfl)
@[simp] theorem incSat_reply (p o lo w n : Nat) (s : State) : (incSat p o lo w n s).reply = s.reply := (rfl)
@[simp] theorem incSat_mem (p o lo w n : Nat) (s : State) : (incSat p o lo w n s).mem = s.mem := (rfl)
@[simp] theorem incSat_now (p o lo w n : Nat) (s : State) : (incSat p o lo w n s).now = s.now := (rfl)
@[simp] theorem incSat_upset (p o lo w n : Nat) (s : State) : (incSat p o lo w n s).upset = s.upset := (rfl)
@[simp] theorem incSat_dev (p o lo w n : Nat) (s : State) : (incSat p o lo w n s).dev = s.dev := (rfl)
@[simp] theorem incSat_nv (p o lo w n : Nat) (s : State) : (incSat p o lo w n s).nv = s.nv := (rfl)
@[simp] theorem incSat_det (p o lo w n : Nat) (s : State) : (incSat p o lo w n s).det = s.det := (rfl)
@[simp] theorem incSat_hive (p o lo w n : Nat) (s : State) : (incSat p o lo w n s).hive = s.hive := (rfl)
@[simp] theorem incSat_dma (p o lo w n : Nat) (s : State) : (incSat p o lo w n s).dma = s.dma := (rfl)
@[simp] theorem incSat_dmaTurn (p o lo w n : Nat) (s : State) : (incSat p o lo w n s).dmaTurn = s.dmaTurn := (rfl)
@[simp] theorem incSat_chk (p o lo w n : Nat) (s : State) : (incSat p o lo w n s).chk = s.chk := (rfl)
@[simp] theorem incSat_armNow (p o lo w n : Nat) (s : State) : (incSat p o lo w n s).armNow = s.armNow := (rfl)
@[simp] theorem incSat_disNow (p o lo w n : Nat) (s : State) : (incSat p o lo w n s).disNow = s.disNow := (rfl)
@[simp] theorem incSat_tracks (p o lo w n : Nat) (s : State) : (incSat p o lo w n s).tracks = s.tracks := (rfl)
@[simp] theorem incSat_slots (p o lo w n : Nat) (s : State) : (incSat p o lo w n s).slots = s.slots := (rfl)
@[simp] theorem incSat_sets (p o lo w n : Nat) (s : State) : (incSat p o lo w n s).sets = s.sets := (rfl)
@[simp] theorem incSat_sdOn (p o lo w n : Nat) (s : State) : (incSat p o lo w n s).sdOn = s.sdOn := (rfl)
@[simp] theorem incSat_hvsOn (p o lo w n : Nat) (s : State) : (incSat p o lo w n s).hvsOn = s.hvsOn := (rfl)
@[simp] theorem incSat_sdOsr (p o lo w n : Nat) (s : State) : (incSat p o lo w n s).sdOsr = s.sdOsr := (rfl)
@[simp] theorem incSat_sdGot (p o lo w n : Nat) (s : State) : (incSat p o lo w n s).sdGot = s.sdGot := (rfl)
@[simp] theorem incSat_sar (p o lo w n : Nat) (s : State) : (incSat p o lo w n s).sar = s.sar := (rfl)
@[simp] theorem incSat_rsv (p o lo w n : Nat) (s : State) : (incSat p o lo w n s).rsv = s.rsv := (rfl)
@[simp] theorem incSat_enc (p o lo w n : Nat) (s : State) : (incSat p o lo w n s).enc = s.enc := (rfl)
@[simp] theorem incSat_encAt (p o lo w n : Nat) (s : State) : (incSat p o lo w n s).encAt = s.encAt := (rfl)
@[simp] theorem incSat_twLast (p o lo w n : Nat) (s : State) : (incSat p o lo w n s).twLast = s.twLast := (rfl)
@[simp] theorem incSat_sentErr (p o lo w n : Nat) (s : State) : (incSat p o lo w n s).sentErr = s.sentErr := (rfl)
@[simp] theorem incSat_sentWas (p o lo w n : Nat) (s : State) : (incSat p o lo w n s).sentWas = s.sentWas := (rfl)
@[simp] theorem incSat_cal (p o lo w n : Nat) (s : State) : (incSat p o lo w n s).cal = s.cal := (rfl)
@[simp] theorem incSat_mt (p o lo w n : Nat) (s : State) : (incSat p o lo w n s).mt = s.mt := (rfl)
@[simp] theorem incSat_inj (p o lo w n : Nat) (s : State) : (incSat p o lo w n s).inj = s.inj := (rfl)
@[simp] theorem incSat_capt (p o lo w n : Nat) (s : State) : (incSat p o lo w n s).capt = s.capt := (rfl)
@[simp] theorem incSat_profAt (p o lo w n : Nat) (s : State) : (incSat p o lo w n s).profAt = s.profAt := (rfl)
@[simp] theorem incSat_cars (p o lo w n : Nat) (s : State) : (incSat p o lo w n s).cars = s.cars := (rfl)
@[simp] theorem incSat_legs (p o lo w n : Nat) (s : State) : (incSat p o lo w n s).legs = s.legs := (rfl)
@[simp] theorem incSat_pairs (p o lo w n : Nat) (s : State) : (incSat p o lo w n s).pairs = s.pairs := (rfl)
@[simp] theorem incSat_groups (p o lo w n : Nat) (s : State) : (incSat p o lo w n s).groups = s.groups := (rfl)
@[simp] theorem incSat_brake (p o lo w n : Nat) (s : State) : (incSat p o lo w n s).brake = s.brake := (rfl)
@[simp] theorem incSat_genS (p o lo w n : Nat) (s : State) : (incSat p o lo w n s).genS = s.genS := (rfl)
@[simp] theorem incSat_ntcWarn (p o lo w n : Nat) (s : State) : (incSat p o lo w n s).ntcWarn = s.ntcWarn := (rfl)
@[simp] theorem incSat_ntcShut (p o lo w n : Nat) (s : State) : (incSat p o lo w n s).ntcShut = s.ntcShut := (rfl)
@[simp] theorem incSat_df (p o lo w n : Nat) (s : State) : (incSat p o lo w n s).df = s.df := (rfl)
@[simp] theorem incSat_hb (p o lo w n : Nat) (s : State) : (incSat p o lo w n s).hb = s.hb := (rfl)
@[simp] theorem incSat_adu (p o lo w n : Nat) (s : State) : (incSat p o lo w n s).adu = s.adu := (rfl)
@[simp] theorem incSat_kd (p o lo w n : Nat) (s : State) : (incSat p o lo w n s).kd = s.kd := (rfl)
@[simp] theorem incSat_eth (p o lo w n : Nat) (s : State) : (incSat p o lo w n s).eth = s.eth := (rfl)
@[simp] theorem incSat_sc (p o lo w n : Nat) (s : State) : (incSat p o lo w n s).sc = s.sc := (rfl)
@[simp] theorem incSat_led (p o lo w n : Nat) (s : State) : (incSat p o lo w n s).led = s.led := (rfl)
@[simp] theorem incSat_stag (p o lo w n : Nat) (s : State) : (incSat p o lo w n s).stag = s.stag := (rfl)
@[simp] theorem incSat_ant (p o lo w n : Nat) (s : State) : (incSat p o lo w n s).ant = s.ant := (rfl)
@[simp] theorem incSat_bw (p o lo w n : Nat) (s : State) : (incSat p o lo w n s).bw = s.bw := (rfl)

/-! `incWrap` -/

@[simp] theorem incWrap_pending (p o lo w n : Nat) (s : State) : (incWrap p o lo w n s).pending = s.pending := (rfl)
@[simp] theorem incWrap_variant (p o lo w n : Nat) (s : State) : (incWrap p o lo w n s).variant = s.variant := (rfl)
@[simp] theorem incWrap_tick (p o lo w n : Nat) (s : State) : (incWrap p o lo w n s).tick = s.tick := (rfl)
@[simp] theorem incWrap_freeCtr (p o lo w n : Nat) (s : State) : (incWrap p o lo w n s).freeCtr = s.freeCtr := (rfl)
@[simp] theorem incWrap_reply (p o lo w n : Nat) (s : State) : (incWrap p o lo w n s).reply = s.reply := (rfl)
@[simp] theorem incWrap_mem (p o lo w n : Nat) (s : State) : (incWrap p o lo w n s).mem = s.mem := (rfl)
@[simp] theorem incWrap_now (p o lo w n : Nat) (s : State) : (incWrap p o lo w n s).now = s.now := (rfl)
@[simp] theorem incWrap_upset (p o lo w n : Nat) (s : State) : (incWrap p o lo w n s).upset = s.upset := (rfl)
@[simp] theorem incWrap_dev (p o lo w n : Nat) (s : State) : (incWrap p o lo w n s).dev = s.dev := (rfl)
@[simp] theorem incWrap_nv (p o lo w n : Nat) (s : State) : (incWrap p o lo w n s).nv = s.nv := (rfl)
@[simp] theorem incWrap_det (p o lo w n : Nat) (s : State) : (incWrap p o lo w n s).det = s.det := (rfl)
@[simp] theorem incWrap_hive (p o lo w n : Nat) (s : State) : (incWrap p o lo w n s).hive = s.hive := (rfl)
@[simp] theorem incWrap_dma (p o lo w n : Nat) (s : State) : (incWrap p o lo w n s).dma = s.dma := (rfl)
@[simp] theorem incWrap_dmaTurn (p o lo w n : Nat) (s : State) : (incWrap p o lo w n s).dmaTurn = s.dmaTurn := (rfl)
@[simp] theorem incWrap_chk (p o lo w n : Nat) (s : State) : (incWrap p o lo w n s).chk = s.chk := (rfl)
@[simp] theorem incWrap_armNow (p o lo w n : Nat) (s : State) : (incWrap p o lo w n s).armNow = s.armNow := (rfl)
@[simp] theorem incWrap_disNow (p o lo w n : Nat) (s : State) : (incWrap p o lo w n s).disNow = s.disNow := (rfl)
@[simp] theorem incWrap_tracks (p o lo w n : Nat) (s : State) : (incWrap p o lo w n s).tracks = s.tracks := (rfl)
@[simp] theorem incWrap_slots (p o lo w n : Nat) (s : State) : (incWrap p o lo w n s).slots = s.slots := (rfl)
@[simp] theorem incWrap_sets (p o lo w n : Nat) (s : State) : (incWrap p o lo w n s).sets = s.sets := (rfl)
@[simp] theorem incWrap_sdOn (p o lo w n : Nat) (s : State) : (incWrap p o lo w n s).sdOn = s.sdOn := (rfl)
@[simp] theorem incWrap_hvsOn (p o lo w n : Nat) (s : State) : (incWrap p o lo w n s).hvsOn = s.hvsOn := (rfl)
@[simp] theorem incWrap_sdOsr (p o lo w n : Nat) (s : State) : (incWrap p o lo w n s).sdOsr = s.sdOsr := (rfl)
@[simp] theorem incWrap_sdGot (p o lo w n : Nat) (s : State) : (incWrap p o lo w n s).sdGot = s.sdGot := (rfl)
@[simp] theorem incWrap_sar (p o lo w n : Nat) (s : State) : (incWrap p o lo w n s).sar = s.sar := (rfl)
@[simp] theorem incWrap_rsv (p o lo w n : Nat) (s : State) : (incWrap p o lo w n s).rsv = s.rsv := (rfl)
@[simp] theorem incWrap_enc (p o lo w n : Nat) (s : State) : (incWrap p o lo w n s).enc = s.enc := (rfl)
@[simp] theorem incWrap_encAt (p o lo w n : Nat) (s : State) : (incWrap p o lo w n s).encAt = s.encAt := (rfl)
@[simp] theorem incWrap_twLast (p o lo w n : Nat) (s : State) : (incWrap p o lo w n s).twLast = s.twLast := (rfl)
@[simp] theorem incWrap_sentErr (p o lo w n : Nat) (s : State) : (incWrap p o lo w n s).sentErr = s.sentErr := (rfl)
@[simp] theorem incWrap_sentWas (p o lo w n : Nat) (s : State) : (incWrap p o lo w n s).sentWas = s.sentWas := (rfl)
@[simp] theorem incWrap_cal (p o lo w n : Nat) (s : State) : (incWrap p o lo w n s).cal = s.cal := (rfl)
@[simp] theorem incWrap_mt (p o lo w n : Nat) (s : State) : (incWrap p o lo w n s).mt = s.mt := (rfl)
@[simp] theorem incWrap_inj (p o lo w n : Nat) (s : State) : (incWrap p o lo w n s).inj = s.inj := (rfl)
@[simp] theorem incWrap_capt (p o lo w n : Nat) (s : State) : (incWrap p o lo w n s).capt = s.capt := (rfl)
@[simp] theorem incWrap_profAt (p o lo w n : Nat) (s : State) : (incWrap p o lo w n s).profAt = s.profAt := (rfl)
@[simp] theorem incWrap_cars (p o lo w n : Nat) (s : State) : (incWrap p o lo w n s).cars = s.cars := (rfl)
@[simp] theorem incWrap_legs (p o lo w n : Nat) (s : State) : (incWrap p o lo w n s).legs = s.legs := (rfl)
@[simp] theorem incWrap_pairs (p o lo w n : Nat) (s : State) : (incWrap p o lo w n s).pairs = s.pairs := (rfl)
@[simp] theorem incWrap_groups (p o lo w n : Nat) (s : State) : (incWrap p o lo w n s).groups = s.groups := (rfl)
@[simp] theorem incWrap_brake (p o lo w n : Nat) (s : State) : (incWrap p o lo w n s).brake = s.brake := (rfl)
@[simp] theorem incWrap_genS (p o lo w n : Nat) (s : State) : (incWrap p o lo w n s).genS = s.genS := (rfl)
@[simp] theorem incWrap_ntcWarn (p o lo w n : Nat) (s : State) : (incWrap p o lo w n s).ntcWarn = s.ntcWarn := (rfl)
@[simp] theorem incWrap_ntcShut (p o lo w n : Nat) (s : State) : (incWrap p o lo w n s).ntcShut = s.ntcShut := (rfl)
@[simp] theorem incWrap_df (p o lo w n : Nat) (s : State) : (incWrap p o lo w n s).df = s.df := (rfl)
@[simp] theorem incWrap_hb (p o lo w n : Nat) (s : State) : (incWrap p o lo w n s).hb = s.hb := (rfl)
@[simp] theorem incWrap_adu (p o lo w n : Nat) (s : State) : (incWrap p o lo w n s).adu = s.adu := (rfl)
@[simp] theorem incWrap_kd (p o lo w n : Nat) (s : State) : (incWrap p o lo w n s).kd = s.kd := (rfl)
@[simp] theorem incWrap_eth (p o lo w n : Nat) (s : State) : (incWrap p o lo w n s).eth = s.eth := (rfl)
@[simp] theorem incWrap_sc (p o lo w n : Nat) (s : State) : (incWrap p o lo w n s).sc = s.sc := (rfl)
@[simp] theorem incWrap_led (p o lo w n : Nat) (s : State) : (incWrap p o lo w n s).led = s.led := (rfl)
@[simp] theorem incWrap_stag (p o lo w n : Nat) (s : State) : (incWrap p o lo w n s).stag = s.stag := (rfl)
@[simp] theorem incWrap_ant (p o lo w n : Nat) (s : State) : (incWrap p o lo w n s).ant = s.ant := (rfl)
@[simp] theorem incWrap_bw (p o lo w n : Nat) (s : State) : (incWrap p o lo w n s).bw = s.bw := (rfl)

/-! `setBlockState` -/

@[simp] theorem setBlockState_pending (p c : Nat) (s : State) : (setBlockState p c s).pending = s.pending := (rfl)
@[simp] theorem setBlockState_variant (p c : Nat) (s : State) : (setBlockState p c s).variant = s.variant := (rfl)
@[simp] theorem setBlockState_tick (p c : Nat) (s : State) : (setBlockState p c s).tick = s.tick := (rfl)
@[simp] theorem setBlockState_freeCtr (p c : Nat) (s : State) : (setBlockState p c s).freeCtr = s.freeCtr := (rfl)
@[simp] theorem setBlockState_reply (p c : Nat) (s : State) : (setBlockState p c s).reply = s.reply := (rfl)
@[simp] theorem setBlockState_mem (p c : Nat) (s : State) : (setBlockState p c s).mem = s.mem := (rfl)
@[simp] theorem setBlockState_now (p c : Nat) (s : State) : (setBlockState p c s).now = s.now := (rfl)
@[simp] theorem setBlockState_upset (p c : Nat) (s : State) : (setBlockState p c s).upset = s.upset := (rfl)
@[simp] theorem setBlockState_dev (p c : Nat) (s : State) : (setBlockState p c s).dev = s.dev := (rfl)
@[simp] theorem setBlockState_nv (p c : Nat) (s : State) : (setBlockState p c s).nv = s.nv := (rfl)
@[simp] theorem setBlockState_det (p c : Nat) (s : State) : (setBlockState p c s).det = s.det := (rfl)
@[simp] theorem setBlockState_hive (p c : Nat) (s : State) : (setBlockState p c s).hive = s.hive := (rfl)
@[simp] theorem setBlockState_dma (p c : Nat) (s : State) : (setBlockState p c s).dma = s.dma := (rfl)
@[simp] theorem setBlockState_dmaTurn (p c : Nat) (s : State) : (setBlockState p c s).dmaTurn = s.dmaTurn := (rfl)
@[simp] theorem setBlockState_chk (p c : Nat) (s : State) : (setBlockState p c s).chk = s.chk := (rfl)
@[simp] theorem setBlockState_armNow (p c : Nat) (s : State) : (setBlockState p c s).armNow = s.armNow := (rfl)
@[simp] theorem setBlockState_disNow (p c : Nat) (s : State) : (setBlockState p c s).disNow = s.disNow := (rfl)
@[simp] theorem setBlockState_tracks (p c : Nat) (s : State) : (setBlockState p c s).tracks = s.tracks := (rfl)
@[simp] theorem setBlockState_slots (p c : Nat) (s : State) : (setBlockState p c s).slots = s.slots := (rfl)
@[simp] theorem setBlockState_sets (p c : Nat) (s : State) : (setBlockState p c s).sets = s.sets := (rfl)
@[simp] theorem setBlockState_sdOn (p c : Nat) (s : State) : (setBlockState p c s).sdOn = s.sdOn := (rfl)
@[simp] theorem setBlockState_hvsOn (p c : Nat) (s : State) : (setBlockState p c s).hvsOn = s.hvsOn := (rfl)
@[simp] theorem setBlockState_sdOsr (p c : Nat) (s : State) : (setBlockState p c s).sdOsr = s.sdOsr := (rfl)
@[simp] theorem setBlockState_sdGot (p c : Nat) (s : State) : (setBlockState p c s).sdGot = s.sdGot := (rfl)
@[simp] theorem setBlockState_sar (p c : Nat) (s : State) : (setBlockState p c s).sar = s.sar := (rfl)
@[simp] theorem setBlockState_rsv (p c : Nat) (s : State) : (setBlockState p c s).rsv = s.rsv := (rfl)
@[simp] theorem setBlockState_enc (p c : Nat) (s : State) : (setBlockState p c s).enc = s.enc := (rfl)
@[simp] theorem setBlockState_encAt (p c : Nat) (s : State) : (setBlockState p c s).encAt = s.encAt := (rfl)
@[simp] theorem setBlockState_twLast (p c : Nat) (s : State) : (setBlockState p c s).twLast = s.twLast := (rfl)
@[simp] theorem setBlockState_sentErr (p c : Nat) (s : State) : (setBlockState p c s).sentErr = s.sentErr := (rfl)
@[simp] theorem setBlockState_sentWas (p c : Nat) (s : State) : (setBlockState p c s).sentWas = s.sentWas := (rfl)
@[simp] theorem setBlockState_cal (p c : Nat) (s : State) : (setBlockState p c s).cal = s.cal := (rfl)
@[simp] theorem setBlockState_mt (p c : Nat) (s : State) : (setBlockState p c s).mt = s.mt := (rfl)
@[simp] theorem setBlockState_inj (p c : Nat) (s : State) : (setBlockState p c s).inj = s.inj := (rfl)
@[simp] theorem setBlockState_capt (p c : Nat) (s : State) : (setBlockState p c s).capt = s.capt := (rfl)
@[simp] theorem setBlockState_profAt (p c : Nat) (s : State) : (setBlockState p c s).profAt = s.profAt := (rfl)
@[simp] theorem setBlockState_cars (p c : Nat) (s : State) : (setBlockState p c s).cars = s.cars := (rfl)
@[simp] theorem setBlockState_legs (p c : Nat) (s : State) : (setBlockState p c s).legs = s.legs := (rfl)
@[simp] theorem setBlockState_pairs (p c : Nat) (s : State) : (setBlockState p c s).pairs = s.pairs := (rfl)
@[simp] theorem setBlockState_groups (p c : Nat) (s : State) : (setBlockState p c s).groups = s.groups := (rfl)
@[simp] theorem setBlockState_brake (p c : Nat) (s : State) : (setBlockState p c s).brake = s.brake := (rfl)
@[simp] theorem setBlockState_genS (p c : Nat) (s : State) : (setBlockState p c s).genS = s.genS := (rfl)
@[simp] theorem setBlockState_ntcWarn (p c : Nat) (s : State) : (setBlockState p c s).ntcWarn = s.ntcWarn := (rfl)
@[simp] theorem setBlockState_ntcShut (p c : Nat) (s : State) : (setBlockState p c s).ntcShut = s.ntcShut := (rfl)
@[simp] theorem setBlockState_df (p c : Nat) (s : State) : (setBlockState p c s).df = s.df := (rfl)
@[simp] theorem setBlockState_hb (p c : Nat) (s : State) : (setBlockState p c s).hb = s.hb := (rfl)
@[simp] theorem setBlockState_adu (p c : Nat) (s : State) : (setBlockState p c s).adu = s.adu := (rfl)
@[simp] theorem setBlockState_kd (p c : Nat) (s : State) : (setBlockState p c s).kd = s.kd := (rfl)
@[simp] theorem setBlockState_eth (p c : Nat) (s : State) : (setBlockState p c s).eth = s.eth := (rfl)
@[simp] theorem setBlockState_sc (p c : Nat) (s : State) : (setBlockState p c s).sc = s.sc := (rfl)
@[simp] theorem setBlockState_led (p c : Nat) (s : State) : (setBlockState p c s).led = s.led := (rfl)
@[simp] theorem setBlockState_stag (p c : Nat) (s : State) : (setBlockState p c s).stag = s.stag := (rfl)
@[simp] theorem setBlockState_ant (p c : Nat) (s : State) : (setBlockState p c s).ant = s.ant := (rfl)
@[simp] theorem setBlockState_bw (p c : Nat) (s : State) : (setBlockState p c s).bw = s.bw := (rfl)

/-! `flag` -/

@[simp] theorem flag_pending (p i : Nat) (s : State) : (flag p i s).pending = s.pending := (rfl)
@[simp] theorem flag_variant (p i : Nat) (s : State) : (flag p i s).variant = s.variant := (rfl)
@[simp] theorem flag_tick (p i : Nat) (s : State) : (flag p i s).tick = s.tick := (rfl)
@[simp] theorem flag_freeCtr (p i : Nat) (s : State) : (flag p i s).freeCtr = s.freeCtr := (rfl)
@[simp] theorem flag_reply (p i : Nat) (s : State) : (flag p i s).reply = s.reply := (rfl)
@[simp] theorem flag_mem (p i : Nat) (s : State) : (flag p i s).mem = s.mem := (rfl)
@[simp] theorem flag_upset (p i : Nat) (s : State) : (flag p i s).upset = s.upset := (rfl)
@[simp] theorem flag_dev (p i : Nat) (s : State) : (flag p i s).dev = s.dev := (rfl)
@[simp] theorem flag_nv (p i : Nat) (s : State) : (flag p i s).nv = s.nv := (rfl)
@[simp] theorem flag_det (p i : Nat) (s : State) : (flag p i s).det = s.det := (rfl)
@[simp] theorem flag_hive (p i : Nat) (s : State) : (flag p i s).hive = s.hive := (rfl)
@[simp] theorem flag_dma (p i : Nat) (s : State) : (flag p i s).dma = s.dma := (rfl)
@[simp] theorem flag_dmaTurn (p i : Nat) (s : State) : (flag p i s).dmaTurn = s.dmaTurn := (rfl)
@[simp] theorem flag_chk (p i : Nat) (s : State) : (flag p i s).chk = s.chk := (rfl)
@[simp] theorem flag_armNow (p i : Nat) (s : State) : (flag p i s).armNow = s.armNow := (rfl)
@[simp] theorem flag_disNow (p i : Nat) (s : State) : (flag p i s).disNow = s.disNow := (rfl)
@[simp] theorem flag_tracks (p i : Nat) (s : State) : (flag p i s).tracks = s.tracks := (rfl)
@[simp] theorem flag_slots (p i : Nat) (s : State) : (flag p i s).slots = s.slots := (rfl)
@[simp] theorem flag_sets (p i : Nat) (s : State) : (flag p i s).sets = s.sets := (rfl)
@[simp] theorem flag_sdOn (p i : Nat) (s : State) : (flag p i s).sdOn = s.sdOn := (rfl)
@[simp] theorem flag_hvsOn (p i : Nat) (s : State) : (flag p i s).hvsOn = s.hvsOn := (rfl)
@[simp] theorem flag_sdOsr (p i : Nat) (s : State) : (flag p i s).sdOsr = s.sdOsr := (rfl)
@[simp] theorem flag_sdGot (p i : Nat) (s : State) : (flag p i s).sdGot = s.sdGot := (rfl)
@[simp] theorem flag_sar (p i : Nat) (s : State) : (flag p i s).sar = s.sar := (rfl)
@[simp] theorem flag_rsv (p i : Nat) (s : State) : (flag p i s).rsv = s.rsv := (rfl)
@[simp] theorem flag_enc (p i : Nat) (s : State) : (flag p i s).enc = s.enc := (rfl)
@[simp] theorem flag_encAt (p i : Nat) (s : State) : (flag p i s).encAt = s.encAt := (rfl)
@[simp] theorem flag_twLast (p i : Nat) (s : State) : (flag p i s).twLast = s.twLast := (rfl)
@[simp] theorem flag_sentErr (p i : Nat) (s : State) : (flag p i s).sentErr = s.sentErr := (rfl)
@[simp] theorem flag_sentWas (p i : Nat) (s : State) : (flag p i s).sentWas = s.sentWas := (rfl)
@[simp] theorem flag_cal (p i : Nat) (s : State) : (flag p i s).cal = s.cal := (rfl)
@[simp] theorem flag_mt (p i : Nat) (s : State) : (flag p i s).mt = s.mt := (rfl)
@[simp] theorem flag_inj (p i : Nat) (s : State) : (flag p i s).inj = s.inj := (rfl)
@[simp] theorem flag_capt (p i : Nat) (s : State) : (flag p i s).capt = s.capt := (rfl)
@[simp] theorem flag_profAt (p i : Nat) (s : State) : (flag p i s).profAt = s.profAt := (rfl)
@[simp] theorem flag_cars (p i : Nat) (s : State) : (flag p i s).cars = s.cars := (rfl)
@[simp] theorem flag_legs (p i : Nat) (s : State) : (flag p i s).legs = s.legs := (rfl)
@[simp] theorem flag_pairs (p i : Nat) (s : State) : (flag p i s).pairs = s.pairs := (rfl)
@[simp] theorem flag_groups (p i : Nat) (s : State) : (flag p i s).groups = s.groups := (rfl)
@[simp] theorem flag_brake (p i : Nat) (s : State) : (flag p i s).brake = s.brake := (rfl)
@[simp] theorem flag_genS (p i : Nat) (s : State) : (flag p i s).genS = s.genS := (rfl)
@[simp] theorem flag_ntcWarn (p i : Nat) (s : State) : (flag p i s).ntcWarn = s.ntcWarn := (rfl)
@[simp] theorem flag_ntcShut (p i : Nat) (s : State) : (flag p i s).ntcShut = s.ntcShut := (rfl)
@[simp] theorem flag_df (p i : Nat) (s : State) : (flag p i s).df = s.df := (rfl)
@[simp] theorem flag_hb (p i : Nat) (s : State) : (flag p i s).hb = s.hb := (rfl)
@[simp] theorem flag_adu (p i : Nat) (s : State) : (flag p i s).adu = s.adu := (rfl)
@[simp] theorem flag_kd (p i : Nat) (s : State) : (flag p i s).kd = s.kd := (rfl)
@[simp] theorem flag_eth (p i : Nat) (s : State) : (flag p i s).eth = s.eth := (rfl)
@[simp] theorem flag_sc (p i : Nat) (s : State) : (flag p i s).sc = s.sc := (rfl)
@[simp] theorem flag_led (p i : Nat) (s : State) : (flag p i s).led = s.led := (rfl)
@[simp] theorem flag_stag (p i : Nat) (s : State) : (flag p i s).stag = s.stag := (rfl)
@[simp] theorem flag_ant (p i : Nat) (s : State) : (flag p i s).ant = s.ant := (rfl)
@[simp] theorem flag_bw (p i : Nat) (s : State) : (flag p i s).bw = s.bw := (rfl)

/-! `refuse` -/

@[simp] theorem refuse_pending (acc : Access) (p o v : Nat) (r : Reason) (s : State) : (refuse acc p o v r s).pending = s.pending := (rfl)
@[simp] theorem refuse_variant (acc : Access) (p o v : Nat) (r : Reason) (s : State) : (refuse acc p o v r s).variant = s.variant := (rfl)
@[simp] theorem refuse_tick (acc : Access) (p o v : Nat) (r : Reason) (s : State) : (refuse acc p o v r s).tick = s.tick := (rfl)
@[simp] theorem refuse_freeCtr (acc : Access) (p o v : Nat) (r : Reason) (s : State) : (refuse acc p o v r s).freeCtr = s.freeCtr := (rfl)
@[simp] theorem refuse_reply (acc : Access) (p o v : Nat) (r : Reason) (s : State) : (refuse acc p o v r s).reply = s.reply := (rfl)
@[simp] theorem refuse_mem (acc : Access) (p o v : Nat) (r : Reason) (s : State) : (refuse acc p o v r s).mem = s.mem := (rfl)
@[simp] theorem refuse_upset (acc : Access) (p o v : Nat) (r : Reason) (s : State) : (refuse acc p o v r s).upset = s.upset := (rfl)
@[simp] theorem refuse_dev (acc : Access) (p o v : Nat) (r : Reason) (s : State) : (refuse acc p o v r s).dev = s.dev := (rfl)
@[simp] theorem refuse_nv (acc : Access) (p o v : Nat) (r : Reason) (s : State) : (refuse acc p o v r s).nv = s.nv := (rfl)
@[simp] theorem refuse_det (acc : Access) (p o v : Nat) (r : Reason) (s : State) : (refuse acc p o v r s).det = s.det := (rfl)
@[simp] theorem refuse_hive (acc : Access) (p o v : Nat) (r : Reason) (s : State) : (refuse acc p o v r s).hive = s.hive := (rfl)
@[simp] theorem refuse_dma (acc : Access) (p o v : Nat) (r : Reason) (s : State) : (refuse acc p o v r s).dma = s.dma := (rfl)
@[simp] theorem refuse_dmaTurn (acc : Access) (p o v : Nat) (r : Reason) (s : State) : (refuse acc p o v r s).dmaTurn = s.dmaTurn := (rfl)
@[simp] theorem refuse_chk (acc : Access) (p o v : Nat) (r : Reason) (s : State) : (refuse acc p o v r s).chk = s.chk := (rfl)
@[simp] theorem refuse_armNow (acc : Access) (p o v : Nat) (r : Reason) (s : State) : (refuse acc p o v r s).armNow = s.armNow := (rfl)
@[simp] theorem refuse_disNow (acc : Access) (p o v : Nat) (r : Reason) (s : State) : (refuse acc p o v r s).disNow = s.disNow := (rfl)
@[simp] theorem refuse_tracks (acc : Access) (p o v : Nat) (r : Reason) (s : State) : (refuse acc p o v r s).tracks = s.tracks := (rfl)
@[simp] theorem refuse_slots (acc : Access) (p o v : Nat) (r : Reason) (s : State) : (refuse acc p o v r s).slots = s.slots := (rfl)
@[simp] theorem refuse_sets (acc : Access) (p o v : Nat) (r : Reason) (s : State) : (refuse acc p o v r s).sets = s.sets := (rfl)
@[simp] theorem refuse_sdOn (acc : Access) (p o v : Nat) (r : Reason) (s : State) : (refuse acc p o v r s).sdOn = s.sdOn := (rfl)
@[simp] theorem refuse_hvsOn (acc : Access) (p o v : Nat) (r : Reason) (s : State) : (refuse acc p o v r s).hvsOn = s.hvsOn := (rfl)
@[simp] theorem refuse_sdOsr (acc : Access) (p o v : Nat) (r : Reason) (s : State) : (refuse acc p o v r s).sdOsr = s.sdOsr := (rfl)
@[simp] theorem refuse_sdGot (acc : Access) (p o v : Nat) (r : Reason) (s : State) : (refuse acc p o v r s).sdGot = s.sdGot := (rfl)
@[simp] theorem refuse_sar (acc : Access) (p o v : Nat) (r : Reason) (s : State) : (refuse acc p o v r s).sar = s.sar := (rfl)
@[simp] theorem refuse_rsv (acc : Access) (p o v : Nat) (r : Reason) (s : State) : (refuse acc p o v r s).rsv = s.rsv := (rfl)
@[simp] theorem refuse_enc (acc : Access) (p o v : Nat) (r : Reason) (s : State) : (refuse acc p o v r s).enc = s.enc := (rfl)
@[simp] theorem refuse_encAt (acc : Access) (p o v : Nat) (r : Reason) (s : State) : (refuse acc p o v r s).encAt = s.encAt := (rfl)
@[simp] theorem refuse_twLast (acc : Access) (p o v : Nat) (r : Reason) (s : State) : (refuse acc p o v r s).twLast = s.twLast := (rfl)
@[simp] theorem refuse_sentErr (acc : Access) (p o v : Nat) (r : Reason) (s : State) : (refuse acc p o v r s).sentErr = s.sentErr := (rfl)
@[simp] theorem refuse_sentWas (acc : Access) (p o v : Nat) (r : Reason) (s : State) : (refuse acc p o v r s).sentWas = s.sentWas := (rfl)
@[simp] theorem refuse_cal (acc : Access) (p o v : Nat) (r : Reason) (s : State) : (refuse acc p o v r s).cal = s.cal := (rfl)
@[simp] theorem refuse_mt (acc : Access) (p o v : Nat) (r : Reason) (s : State) : (refuse acc p o v r s).mt = s.mt := (rfl)
@[simp] theorem refuse_inj (acc : Access) (p o v : Nat) (r : Reason) (s : State) : (refuse acc p o v r s).inj = s.inj := (rfl)
@[simp] theorem refuse_capt (acc : Access) (p o v : Nat) (r : Reason) (s : State) : (refuse acc p o v r s).capt = s.capt := (rfl)
@[simp] theorem refuse_profAt (acc : Access) (p o v : Nat) (r : Reason) (s : State) : (refuse acc p o v r s).profAt = s.profAt := (rfl)
@[simp] theorem refuse_cars (acc : Access) (p o v : Nat) (r : Reason) (s : State) : (refuse acc p o v r s).cars = s.cars := (rfl)
@[simp] theorem refuse_legs (acc : Access) (p o v : Nat) (r : Reason) (s : State) : (refuse acc p o v r s).legs = s.legs := (rfl)
@[simp] theorem refuse_pairs (acc : Access) (p o v : Nat) (r : Reason) (s : State) : (refuse acc p o v r s).pairs = s.pairs := (rfl)
@[simp] theorem refuse_groups (acc : Access) (p o v : Nat) (r : Reason) (s : State) : (refuse acc p o v r s).groups = s.groups := (rfl)
@[simp] theorem refuse_brake (acc : Access) (p o v : Nat) (r : Reason) (s : State) : (refuse acc p o v r s).brake = s.brake := (rfl)
@[simp] theorem refuse_genS (acc : Access) (p o v : Nat) (r : Reason) (s : State) : (refuse acc p o v r s).genS = s.genS := (rfl)
@[simp] theorem refuse_ntcWarn (acc : Access) (p o v : Nat) (r : Reason) (s : State) : (refuse acc p o v r s).ntcWarn = s.ntcWarn := (rfl)
@[simp] theorem refuse_ntcShut (acc : Access) (p o v : Nat) (r : Reason) (s : State) : (refuse acc p o v r s).ntcShut = s.ntcShut := (rfl)
@[simp] theorem refuse_df (acc : Access) (p o v : Nat) (r : Reason) (s : State) : (refuse acc p o v r s).df = s.df := (rfl)
@[simp] theorem refuse_hb (acc : Access) (p o v : Nat) (r : Reason) (s : State) : (refuse acc p o v r s).hb = s.hb := (rfl)
@[simp] theorem refuse_adu (acc : Access) (p o v : Nat) (r : Reason) (s : State) : (refuse acc p o v r s).adu = s.adu := (rfl)
@[simp] theorem refuse_kd (acc : Access) (p o v : Nat) (r : Reason) (s : State) : (refuse acc p o v r s).kd = s.kd := (rfl)
@[simp] theorem refuse_eth (acc : Access) (p o v : Nat) (r : Reason) (s : State) : (refuse acc p o v r s).eth = s.eth := (rfl)
@[simp] theorem refuse_sc (acc : Access) (p o v : Nat) (r : Reason) (s : State) : (refuse acc p o v r s).sc = s.sc := (rfl)
@[simp] theorem refuse_led (acc : Access) (p o v : Nat) (r : Reason) (s : State) : (refuse acc p o v r s).led = s.led := (rfl)
@[simp] theorem refuse_stag (acc : Access) (p o v : Nat) (r : Reason) (s : State) : (refuse acc p o v r s).stag = s.stag := (rfl)
@[simp] theorem refuse_ant (acc : Access) (p o v : Nat) (r : Reason) (s : State) : (refuse acc p o v r s).ant = s.ant := (rfl)
@[simp] theorem refuse_bw (acc : Access) (p o v : Nat) (r : Reason) (s : State) : (refuse acc p o v r s).bw = s.bw := (rfl)

/-! `freeStep` -/

@[simp] theorem freeStep_pending (s : State) : (freeStep s).pending = s.pending := (rfl)
@[simp] theorem freeStep_variant (s : State) : (freeStep s).variant = s.variant := (rfl)
@[simp] theorem freeStep_tick (s : State) : (freeStep s).tick = s.tick := (rfl)
@[simp] theorem freeStep_reply (s : State) : (freeStep s).reply = s.reply := (rfl)
@[simp] theorem freeStep_regs (s : State) : (freeStep s).regs = s.regs := (rfl)
@[simp] theorem freeStep_mem (s : State) : (freeStep s).mem = s.mem := (rfl)
@[simp] theorem freeStep_now (s : State) : (freeStep s).now = s.now := (rfl)
@[simp] theorem freeStep_upset (s : State) : (freeStep s).upset = s.upset := (rfl)
@[simp] theorem freeStep_dev (s : State) : (freeStep s).dev = s.dev := (rfl)
@[simp] theorem freeStep_nv (s : State) : (freeStep s).nv = s.nv := (rfl)
@[simp] theorem freeStep_det (s : State) : (freeStep s).det = s.det := (rfl)
@[simp] theorem freeStep_hive (s : State) : (freeStep s).hive = s.hive := (rfl)
@[simp] theorem freeStep_dma (s : State) : (freeStep s).dma = s.dma := (rfl)
@[simp] theorem freeStep_dmaTurn (s : State) : (freeStep s).dmaTurn = s.dmaTurn := (rfl)
@[simp] theorem freeStep_chk (s : State) : (freeStep s).chk = s.chk := (rfl)
@[simp] theorem freeStep_armNow (s : State) : (freeStep s).armNow = s.armNow := (rfl)
@[simp] theorem freeStep_disNow (s : State) : (freeStep s).disNow = s.disNow := (rfl)
@[simp] theorem freeStep_tracks (s : State) : (freeStep s).tracks = s.tracks := (rfl)
@[simp] theorem freeStep_slots (s : State) : (freeStep s).slots = s.slots := (rfl)
@[simp] theorem freeStep_sets (s : State) : (freeStep s).sets = s.sets := (rfl)
@[simp] theorem freeStep_sdOn (s : State) : (freeStep s).sdOn = s.sdOn := (rfl)
@[simp] theorem freeStep_hvsOn (s : State) : (freeStep s).hvsOn = s.hvsOn := (rfl)
@[simp] theorem freeStep_sdOsr (s : State) : (freeStep s).sdOsr = s.sdOsr := (rfl)
@[simp] theorem freeStep_sdGot (s : State) : (freeStep s).sdGot = s.sdGot := (rfl)
@[simp] theorem freeStep_sar (s : State) : (freeStep s).sar = s.sar := (rfl)
@[simp] theorem freeStep_rsv (s : State) : (freeStep s).rsv = s.rsv := (rfl)
@[simp] theorem freeStep_enc (s : State) : (freeStep s).enc = s.enc := (rfl)
@[simp] theorem freeStep_encAt (s : State) : (freeStep s).encAt = s.encAt := (rfl)
@[simp] theorem freeStep_twLast (s : State) : (freeStep s).twLast = s.twLast := (rfl)
@[simp] theorem freeStep_sentErr (s : State) : (freeStep s).sentErr = s.sentErr := (rfl)
@[simp] theorem freeStep_sentWas (s : State) : (freeStep s).sentWas = s.sentWas := (rfl)
@[simp] theorem freeStep_cal (s : State) : (freeStep s).cal = s.cal := (rfl)
@[simp] theorem freeStep_mt (s : State) : (freeStep s).mt = s.mt := (rfl)
@[simp] theorem freeStep_inj (s : State) : (freeStep s).inj = s.inj := (rfl)
@[simp] theorem freeStep_capt (s : State) : (freeStep s).capt = s.capt := (rfl)
@[simp] theorem freeStep_profAt (s : State) : (freeStep s).profAt = s.profAt := (rfl)
@[simp] theorem freeStep_cars (s : State) : (freeStep s).cars = s.cars := (rfl)
@[simp] theorem freeStep_legs (s : State) : (freeStep s).legs = s.legs := (rfl)
@[simp] theorem freeStep_pairs (s : State) : (freeStep s).pairs = s.pairs := (rfl)
@[simp] theorem freeStep_groups (s : State) : (freeStep s).groups = s.groups := (rfl)
@[simp] theorem freeStep_brake (s : State) : (freeStep s).brake = s.brake := (rfl)
@[simp] theorem freeStep_genS (s : State) : (freeStep s).genS = s.genS := (rfl)
@[simp] theorem freeStep_ntcWarn (s : State) : (freeStep s).ntcWarn = s.ntcWarn := (rfl)
@[simp] theorem freeStep_ntcShut (s : State) : (freeStep s).ntcShut = s.ntcShut := (rfl)
@[simp] theorem freeStep_df (s : State) : (freeStep s).df = s.df := (rfl)
@[simp] theorem freeStep_hb (s : State) : (freeStep s).hb = s.hb := (rfl)
@[simp] theorem freeStep_adu (s : State) : (freeStep s).adu = s.adu := (rfl)
@[simp] theorem freeStep_kd (s : State) : (freeStep s).kd = s.kd := (rfl)
@[simp] theorem freeStep_eth (s : State) : (freeStep s).eth = s.eth := (rfl)
@[simp] theorem freeStep_sc (s : State) : (freeStep s).sc = s.sc := (rfl)
@[simp] theorem freeStep_led (s : State) : (freeStep s).led = s.led := (rfl)
@[simp] theorem freeStep_stag (s : State) : (freeStep s).stag = s.stag := (rfl)
@[simp] theorem freeStep_ant (s : State) : (freeStep s).ant = s.ant := (rfl)
@[simp] theorem freeStep_bw (s : State) : (freeStep s).bw = s.bw := (rfl)
@[simp] theorem rg_freeStep (s : State) (pg off : Nat) : rg (freeStep s) pg off = rg s pg off := (rfl)

/-! `setTrk` -/

@[simp] theorem setTrk_pending (n : Nat) (t : Track) (s : State) : (setTrk n t s).pending = s.pending := (rfl)
@[simp] theorem setTrk_variant (n : Nat) (t : Track) (s : State) : (setTrk n t s).variant = s.variant := (rfl)
@[simp] theorem setTrk_tick (n : Nat) (t : Track) (s : State) : (setTrk n t s).tick = s.tick := (rfl)
@[simp] theorem setTrk_freeCtr (n : Nat) (t : Track) (s : State) : (setTrk n t s).freeCtr = s.freeCtr := (rfl)
@[simp] theorem setTrk_reply (n : Nat) (t : Track) (s : State) : (setTrk n t s).reply = s.reply := (rfl)
@[simp] theorem setTrk_regs (n : Nat) (t : Track) (s : State) : (setTrk n t s).regs = s.regs := (rfl)
@[simp] theorem setTrk_mem (n : Nat) (t : Track) (s : State) : (setTrk n t s).mem = s.mem := (rfl)
@[simp] theorem setTrk_now (n : Nat) (t : Track) (s : State) : (setTrk n t s).now = s.now := (rfl)
@[simp] theorem setTrk_upset (n : Nat) (t : Track) (s : State) : (setTrk n t s).upset = s.upset := (rfl)
@[simp] theorem setTrk_dev (n : Nat) (t : Track) (s : State) : (setTrk n t s).dev = s.dev := (rfl)
@[simp] theorem setTrk_nv (n : Nat) (t : Track) (s : State) : (setTrk n t s).nv = s.nv := (rfl)
@[simp] theorem setTrk_det (n : Nat) (t : Track) (s : State) : (setTrk n t s).det = s.det := (rfl)
@[simp] theorem setTrk_hive (n : Nat) (t : Track) (s : State) : (setTrk n t s).hive = s.hive := (rfl)
@[simp] theorem setTrk_dma (n : Nat) (t : Track) (s : State) : (setTrk n t s).dma = s.dma := (rfl)
@[simp] theorem setTrk_dmaTurn (n : Nat) (t : Track) (s : State) : (setTrk n t s).dmaTurn = s.dmaTurn := (rfl)
@[simp] theorem setTrk_chk (n : Nat) (t : Track) (s : State) : (setTrk n t s).chk = s.chk := (rfl)
@[simp] theorem setTrk_armNow (n : Nat) (t : Track) (s : State) : (setTrk n t s).armNow = s.armNow := (rfl)
@[simp] theorem setTrk_disNow (n : Nat) (t : Track) (s : State) : (setTrk n t s).disNow = s.disNow := (rfl)
@[simp] theorem setTrk_slots (n : Nat) (t : Track) (s : State) : (setTrk n t s).slots = s.slots := (rfl)
@[simp] theorem setTrk_sets (n : Nat) (t : Track) (s : State) : (setTrk n t s).sets = s.sets := (rfl)
@[simp] theorem setTrk_sdOn (n : Nat) (t : Track) (s : State) : (setTrk n t s).sdOn = s.sdOn := (rfl)
@[simp] theorem setTrk_hvsOn (n : Nat) (t : Track) (s : State) : (setTrk n t s).hvsOn = s.hvsOn := (rfl)
@[simp] theorem setTrk_sdOsr (n : Nat) (t : Track) (s : State) : (setTrk n t s).sdOsr = s.sdOsr := (rfl)
@[simp] theorem setTrk_sdGot (n : Nat) (t : Track) (s : State) : (setTrk n t s).sdGot = s.sdGot := (rfl)
@[simp] theorem setTrk_sar (n : Nat) (t : Track) (s : State) : (setTrk n t s).sar = s.sar := (rfl)
@[simp] theorem setTrk_rsv (n : Nat) (t : Track) (s : State) : (setTrk n t s).rsv = s.rsv := (rfl)
@[simp] theorem setTrk_enc (n : Nat) (t : Track) (s : State) : (setTrk n t s).enc = s.enc := (rfl)
@[simp] theorem setTrk_encAt (n : Nat) (t : Track) (s : State) : (setTrk n t s).encAt = s.encAt := (rfl)
@[simp] theorem setTrk_twLast (n : Nat) (t : Track) (s : State) : (setTrk n t s).twLast = s.twLast := (rfl)
@[simp] theorem setTrk_sentErr (n : Nat) (t : Track) (s : State) : (setTrk n t s).sentErr = s.sentErr := (rfl)
@[simp] theorem setTrk_sentWas (n : Nat) (t : Track) (s : State) : (setTrk n t s).sentWas = s.sentWas := (rfl)
@[simp] theorem setTrk_cal (n : Nat) (t : Track) (s : State) : (setTrk n t s).cal = s.cal := (rfl)
@[simp] theorem setTrk_mt (n : Nat) (t : Track) (s : State) : (setTrk n t s).mt = s.mt := (rfl)
@[simp] theorem setTrk_inj (n : Nat) (t : Track) (s : State) : (setTrk n t s).inj = s.inj := (rfl)
@[simp] theorem setTrk_capt (n : Nat) (t : Track) (s : State) : (setTrk n t s).capt = s.capt := (rfl)
@[simp] theorem setTrk_profAt (n : Nat) (t : Track) (s : State) : (setTrk n t s).profAt = s.profAt := (rfl)
@[simp] theorem setTrk_cars (n : Nat) (t : Track) (s : State) : (setTrk n t s).cars = s.cars := (rfl)
@[simp] theorem setTrk_legs (n : Nat) (t : Track) (s : State) : (setTrk n t s).legs = s.legs := (rfl)
@[simp] theorem setTrk_pairs (n : Nat) (t : Track) (s : State) : (setTrk n t s).pairs = s.pairs := (rfl)
@[simp] theorem setTrk_groups (n : Nat) (t : Track) (s : State) : (setTrk n t s).groups = s.groups := (rfl)
@[simp] theorem setTrk_brake (n : Nat) (t : Track) (s : State) : (setTrk n t s).brake = s.brake := (rfl)
@[simp] theorem setTrk_genS (n : Nat) (t : Track) (s : State) : (setTrk n t s).genS = s.genS := (rfl)
@[simp] theorem setTrk_ntcWarn (n : Nat) (t : Track) (s : State) : (setTrk n t s).ntcWarn = s.ntcWarn := (rfl)
@[simp] theorem setTrk_ntcShut (n : Nat) (t : Track) (s : State) : (setTrk n t s).ntcShut = s.ntcShut := (rfl)
@[simp] theorem setTrk_df (n : Nat) (t : Track) (s : State) : (setTrk n t s).df = s.df := (rfl)
@[simp] theorem setTrk_hb (n : Nat) (t : Track) (s : State) : (setTrk n t s).hb = s.hb := (rfl)
@[simp] theorem setTrk_adu (n : Nat) (t : Track) (s : State) : (setTrk n t s).adu = s.adu := (rfl)
@[simp] theorem setTrk_kd (n : Nat) (t : Track) (s : State) : (setTrk n t s).kd = s.kd := (rfl)
@[simp] theorem setTrk_eth (n : Nat) (t : Track) (s : State) : (setTrk n t s).eth = s.eth := (rfl)
@[simp] theorem setTrk_sc (n : Nat) (t : Track) (s : State) : (setTrk n t s).sc = s.sc := (rfl)
@[simp] theorem setTrk_led (n : Nat) (t : Track) (s : State) : (setTrk n t s).led = s.led := (rfl)
@[simp] theorem setTrk_stag (n : Nat) (t : Track) (s : State) : (setTrk n t s).stag = s.stag := (rfl)
@[simp] theorem setTrk_ant (n : Nat) (t : Track) (s : State) : (setTrk n t s).ant = s.ant := (rfl)
@[simp] theorem setTrk_bw (n : Nat) (t : Track) (s : State) : (setTrk n t s).bw = s.bw := (rfl)
@[simp] theorem rg_setTrk (n : Nat) (t : Track) (s : State) (pg off : Nat) : rg (setTrk n t s) pg off = rg s pg off := (rfl)

/-! `setSlotH` -/

@[simp] theorem setSlotH_pending (i : Nat) (x : SlotHid) (s : State) : (setSlotH i x s).pending = s.pending := (rfl)
@[simp] theorem setSlotH_variant (i : Nat) (x : SlotHid) (s : State) : (setSlotH i x s).variant = s.variant := (rfl)
@[simp] theorem setSlotH_tick (i : Nat) (x : SlotHid) (s : State) : (setSlotH i x s).tick = s.tick := (rfl)
@[simp] theorem setSlotH_freeCtr (i : Nat) (x : SlotHid) (s : State) : (setSlotH i x s).freeCtr = s.freeCtr := (rfl)
@[simp] theorem setSlotH_reply (i : Nat) (x : SlotHid) (s : State) : (setSlotH i x s).reply = s.reply := (rfl)
@[simp] theorem setSlotH_regs (i : Nat) (x : SlotHid) (s : State) : (setSlotH i x s).regs = s.regs := (rfl)
@[simp] theorem setSlotH_mem (i : Nat) (x : SlotHid) (s : State) : (setSlotH i x s).mem = s.mem := (rfl)
@[simp] theorem setSlotH_now (i : Nat) (x : SlotHid) (s : State) : (setSlotH i x s).now = s.now := (rfl)
@[simp] theorem setSlotH_upset (i : Nat) (x : SlotHid) (s : State) : (setSlotH i x s).upset = s.upset := (rfl)
@[simp] theorem setSlotH_dev (i : Nat) (x : SlotHid) (s : State) : (setSlotH i x s).dev = s.dev := (rfl)
@[simp] theorem setSlotH_nv (i : Nat) (x : SlotHid) (s : State) : (setSlotH i x s).nv = s.nv := (rfl)
@[simp] theorem setSlotH_det (i : Nat) (x : SlotHid) (s : State) : (setSlotH i x s).det = s.det := (rfl)
@[simp] theorem setSlotH_hive (i : Nat) (x : SlotHid) (s : State) : (setSlotH i x s).hive = s.hive := (rfl)
@[simp] theorem setSlotH_dma (i : Nat) (x : SlotHid) (s : State) : (setSlotH i x s).dma = s.dma := (rfl)
@[simp] theorem setSlotH_dmaTurn (i : Nat) (x : SlotHid) (s : State) : (setSlotH i x s).dmaTurn = s.dmaTurn := (rfl)
@[simp] theorem setSlotH_chk (i : Nat) (x : SlotHid) (s : State) : (setSlotH i x s).chk = s.chk := (rfl)
@[simp] theorem setSlotH_armNow (i : Nat) (x : SlotHid) (s : State) : (setSlotH i x s).armNow = s.armNow := (rfl)
@[simp] theorem setSlotH_disNow (i : Nat) (x : SlotHid) (s : State) : (setSlotH i x s).disNow = s.disNow := (rfl)
@[simp] theorem setSlotH_tracks (i : Nat) (x : SlotHid) (s : State) : (setSlotH i x s).tracks = s.tracks := (rfl)
@[simp] theorem setSlotH_sets (i : Nat) (x : SlotHid) (s : State) : (setSlotH i x s).sets = s.sets := (rfl)
@[simp] theorem setSlotH_sdOn (i : Nat) (x : SlotHid) (s : State) : (setSlotH i x s).sdOn = s.sdOn := (rfl)
@[simp] theorem setSlotH_hvsOn (i : Nat) (x : SlotHid) (s : State) : (setSlotH i x s).hvsOn = s.hvsOn := (rfl)
@[simp] theorem setSlotH_sdOsr (i : Nat) (x : SlotHid) (s : State) : (setSlotH i x s).sdOsr = s.sdOsr := (rfl)
@[simp] theorem setSlotH_sdGot (i : Nat) (x : SlotHid) (s : State) : (setSlotH i x s).sdGot = s.sdGot := (rfl)
@[simp] theorem setSlotH_sar (i : Nat) (x : SlotHid) (s : State) : (setSlotH i x s).sar = s.sar := (rfl)
@[simp] theorem setSlotH_rsv (i : Nat) (x : SlotHid) (s : State) : (setSlotH i x s).rsv = s.rsv := (rfl)
@[simp] theorem setSlotH_enc (i : Nat) (x : SlotHid) (s : State) : (setSlotH i x s).enc = s.enc := (rfl)
@[simp] theorem setSlotH_encAt (i : Nat) (x : SlotHid) (s : State) : (setSlotH i x s).encAt = s.encAt := (rfl)
@[simp] theorem setSlotH_twLast (i : Nat) (x : SlotHid) (s : State) : (setSlotH i x s).twLast = s.twLast := (rfl)
@[simp] theorem setSlotH_sentErr (i : Nat) (x : SlotHid) (s : State) : (setSlotH i x s).sentErr = s.sentErr := (rfl)
@[simp] theorem setSlotH_sentWas (i : Nat) (x : SlotHid) (s : State) : (setSlotH i x s).sentWas = s.sentWas := (rfl)
@[simp] theorem setSlotH_cal (i : Nat) (x : SlotHid) (s : State) : (setSlotH i x s).cal = s.cal := (rfl)
@[simp] theorem setSlotH_mt (i : Nat) (x : SlotHid) (s : State) : (setSlotH i x s).mt = s.mt := (rfl)
@[simp] theorem setSlotH_inj (i : Nat) (x : SlotHid) (s : State) : (setSlotH i x s).inj = s.inj := (rfl)
@[simp] theorem setSlotH_capt (i : Nat) (x : SlotHid) (s : State) : (setSlotH i x s).capt = s.capt := (rfl)
@[simp] theorem setSlotH_profAt (i : Nat) (x : SlotHid) (s : State) : (setSlotH i x s).profAt = s.profAt := (rfl)
@[simp] theorem setSlotH_cars (i : Nat) (x : SlotHid) (s : State) : (setSlotH i x s).cars = s.cars := (rfl)
@[simp] theorem setSlotH_legs (i : Nat) (x : SlotHid) (s : State) : (setSlotH i x s).legs = s.legs := (rfl)
@[simp] theorem setSlotH_pairs (i : Nat) (x : SlotHid) (s : State) : (setSlotH i x s).pairs = s.pairs := (rfl)
@[simp] theorem setSlotH_groups (i : Nat) (x : SlotHid) (s : State) : (setSlotH i x s).groups = s.groups := (rfl)
@[simp] theorem setSlotH_brake (i : Nat) (x : SlotHid) (s : State) : (setSlotH i x s).brake = s.brake := (rfl)
@[simp] theorem setSlotH_genS (i : Nat) (x : SlotHid) (s : State) : (setSlotH i x s).genS = s.genS := (rfl)
@[simp] theorem setSlotH_ntcWarn (i : Nat) (x : SlotHid) (s : State) : (setSlotH i x s).ntcWarn = s.ntcWarn := (rfl)
@[simp] theorem setSlotH_ntcShut (i : Nat) (x : SlotHid) (s : State) : (setSlotH i x s).ntcShut = s.ntcShut := (rfl)
@[simp] theorem setSlotH_df (i : Nat) (x : SlotHid) (s : State) : (setSlotH i x s).df = s.df := (rfl)
@[simp] theorem setSlotH_hb (i : Nat) (x : SlotHid) (s : State) : (setSlotH i x s).hb = s.hb := (rfl)
@[simp] theorem setSlotH_adu (i : Nat) (x : SlotHid) (s : State) : (setSlotH i x s).adu = s.adu := (rfl)
@[simp] theorem setSlotH_kd (i : Nat) (x : SlotHid) (s : State) : (setSlotH i x s).kd = s.kd := (rfl)
@[simp] theorem setSlotH_eth (i : Nat) (x : SlotHid) (s : State) : (setSlotH i x s).eth = s.eth := (rfl)
@[simp] theorem setSlotH_sc (i : Nat) (x : SlotHid) (s : State) : (setSlotH i x s).sc = s.sc := (rfl)
@[simp] theorem setSlotH_led (i : Nat) (x : SlotHid) (s : State) : (setSlotH i x s).led = s.led := (rfl)
@[simp] theorem setSlotH_stag (i : Nat) (x : SlotHid) (s : State) : (setSlotH i x s).stag = s.stag := (rfl)
@[simp] theorem setSlotH_ant (i : Nat) (x : SlotHid) (s : State) : (setSlotH i x s).ant = s.ant := (rfl)
@[simp] theorem setSlotH_bw (i : Nat) (x : SlotHid) (s : State) : (setSlotH i x s).bw = s.bw := (rfl)
@[simp] theorem rg_setSlotH (i : Nat) (x : SlotHid) (s : State) (pg off : Nat) : rg (setSlotH i x s) pg off = rg s pg off := (rfl)

/-! `setSetH` -/

@[simp] theorem setSetH_pending (k : Nat) (x : SetHid) (s : State) : (setSetH k x s).pending = s.pending := (rfl)
@[simp] theorem setSetH_variant (k : Nat) (x : SetHid) (s : State) : (setSetH k x s).variant = s.variant := (rfl)
@[simp] theorem setSetH_tick (k : Nat) (x : SetHid) (s : State) : (setSetH k x s).tick = s.tick := (rfl)
@[simp] theorem setSetH_freeCtr (k : Nat) (x : SetHid) (s : State) : (setSetH k x s).freeCtr = s.freeCtr := (rfl)
@[simp] theorem setSetH_reply (k : Nat) (x : SetHid) (s : State) : (setSetH k x s).reply = s.reply := (rfl)
@[simp] theorem setSetH_regs (k : Nat) (x : SetHid) (s : State) : (setSetH k x s).regs = s.regs := (rfl)
@[simp] theorem setSetH_mem (k : Nat) (x : SetHid) (s : State) : (setSetH k x s).mem = s.mem := (rfl)
@[simp] theorem setSetH_now (k : Nat) (x : SetHid) (s : State) : (setSetH k x s).now = s.now := (rfl)
@[simp] theorem setSetH_upset (k : Nat) (x : SetHid) (s : State) : (setSetH k x s).upset = s.upset := (rfl)
@[simp] theorem setSetH_dev (k : Nat) (x : SetHid) (s : State) : (setSetH k x s).dev = s.dev := (rfl)
@[simp] theorem setSetH_nv (k : Nat) (x : SetHid) (s : State) : (setSetH k x s).nv = s.nv := (rfl)
@[simp] theorem setSetH_det (k : Nat) (x : SetHid) (s : State) : (setSetH k x s).det = s.det := (rfl)
@[simp] theorem setSetH_hive (k : Nat) (x : SetHid) (s : State) : (setSetH k x s).hive = s.hive := (rfl)
@[simp] theorem setSetH_dma (k : Nat) (x : SetHid) (s : State) : (setSetH k x s).dma = s.dma := (rfl)
@[simp] theorem setSetH_dmaTurn (k : Nat) (x : SetHid) (s : State) : (setSetH k x s).dmaTurn = s.dmaTurn := (rfl)
@[simp] theorem setSetH_chk (k : Nat) (x : SetHid) (s : State) : (setSetH k x s).chk = s.chk := (rfl)
@[simp] theorem setSetH_armNow (k : Nat) (x : SetHid) (s : State) : (setSetH k x s).armNow = s.armNow := (rfl)
@[simp] theorem setSetH_disNow (k : Nat) (x : SetHid) (s : State) : (setSetH k x s).disNow = s.disNow := (rfl)
@[simp] theorem setSetH_tracks (k : Nat) (x : SetHid) (s : State) : (setSetH k x s).tracks = s.tracks := (rfl)
@[simp] theorem setSetH_slots (k : Nat) (x : SetHid) (s : State) : (setSetH k x s).slots = s.slots := (rfl)
@[simp] theorem setSetH_sdOn (k : Nat) (x : SetHid) (s : State) : (setSetH k x s).sdOn = s.sdOn := (rfl)
@[simp] theorem setSetH_hvsOn (k : Nat) (x : SetHid) (s : State) : (setSetH k x s).hvsOn = s.hvsOn := (rfl)
@[simp] theorem setSetH_sdOsr (k : Nat) (x : SetHid) (s : State) : (setSetH k x s).sdOsr = s.sdOsr := (rfl)
@[simp] theorem setSetH_sdGot (k : Nat) (x : SetHid) (s : State) : (setSetH k x s).sdGot = s.sdGot := (rfl)
@[simp] theorem setSetH_sar (k : Nat) (x : SetHid) (s : State) : (setSetH k x s).sar = s.sar := (rfl)
@[simp] theorem setSetH_rsv (k : Nat) (x : SetHid) (s : State) : (setSetH k x s).rsv = s.rsv := (rfl)
@[simp] theorem setSetH_enc (k : Nat) (x : SetHid) (s : State) : (setSetH k x s).enc = s.enc := (rfl)
@[simp] theorem setSetH_encAt (k : Nat) (x : SetHid) (s : State) : (setSetH k x s).encAt = s.encAt := (rfl)
@[simp] theorem setSetH_twLast (k : Nat) (x : SetHid) (s : State) : (setSetH k x s).twLast = s.twLast := (rfl)
@[simp] theorem setSetH_sentErr (k : Nat) (x : SetHid) (s : State) : (setSetH k x s).sentErr = s.sentErr := (rfl)
@[simp] theorem setSetH_sentWas (k : Nat) (x : SetHid) (s : State) : (setSetH k x s).sentWas = s.sentWas := (rfl)
@[simp] theorem setSetH_cal (k : Nat) (x : SetHid) (s : State) : (setSetH k x s).cal = s.cal := (rfl)
@[simp] theorem setSetH_mt (k : Nat) (x : SetHid) (s : State) : (setSetH k x s).mt = s.mt := (rfl)
@[simp] theorem setSetH_inj (k : Nat) (x : SetHid) (s : State) : (setSetH k x s).inj = s.inj := (rfl)
@[simp] theorem setSetH_capt (k : Nat) (x : SetHid) (s : State) : (setSetH k x s).capt = s.capt := (rfl)
@[simp] theorem setSetH_profAt (k : Nat) (x : SetHid) (s : State) : (setSetH k x s).profAt = s.profAt := (rfl)
@[simp] theorem setSetH_cars (k : Nat) (x : SetHid) (s : State) : (setSetH k x s).cars = s.cars := (rfl)
@[simp] theorem setSetH_legs (k : Nat) (x : SetHid) (s : State) : (setSetH k x s).legs = s.legs := (rfl)
@[simp] theorem setSetH_pairs (k : Nat) (x : SetHid) (s : State) : (setSetH k x s).pairs = s.pairs := (rfl)
@[simp] theorem setSetH_groups (k : Nat) (x : SetHid) (s : State) : (setSetH k x s).groups = s.groups := (rfl)
@[simp] theorem setSetH_brake (k : Nat) (x : SetHid) (s : State) : (setSetH k x s).brake = s.brake := (rfl)
@[simp] theorem setSetH_genS (k : Nat) (x : SetHid) (s : State) : (setSetH k x s).genS = s.genS := (rfl)
@[simp] theorem setSetH_ntcWarn (k : Nat) (x : SetHid) (s : State) : (setSetH k x s).ntcWarn = s.ntcWarn := (rfl)
@[simp] theorem setSetH_ntcShut (k : Nat) (x : SetHid) (s : State) : (setSetH k x s).ntcShut = s.ntcShut := (rfl)
@[simp] theorem setSetH_df (k : Nat) (x : SetHid) (s : State) : (setSetH k x s).df = s.df := (rfl)
@[simp] theorem setSetH_hb (k : Nat) (x : SetHid) (s : State) : (setSetH k x s).hb = s.hb := (rfl)
@[simp] theorem setSetH_adu (k : Nat) (x : SetHid) (s : State) : (setSetH k x s).adu = s.adu := (rfl)
@[simp] theorem setSetH_kd (k : Nat) (x : SetHid) (s : State) : (setSetH k x s).kd = s.kd := (rfl)
@[simp] theorem setSetH_eth (k : Nat) (x : SetHid) (s : State) : (setSetH k x s).eth = s.eth := (rfl)
@[simp] theorem setSetH_sc (k : Nat) (x : SetHid) (s : State) : (setSetH k x s).sc = s.sc := (rfl)
@[simp] theorem setSetH_led (k : Nat) (x : SetHid) (s : State) : (setSetH k x s).led = s.led := (rfl)
@[simp] theorem setSetH_stag (k : Nat) (x : SetHid) (s : State) : (setSetH k x s).stag = s.stag := (rfl)
@[simp] theorem setSetH_ant (k : Nat) (x : SetHid) (s : State) : (setSetH k x s).ant = s.ant := (rfl)
@[simp] theorem setSetH_bw (k : Nat) (x : SetHid) (s : State) : (setSetH k x s).bw = s.bw := (rfl)
@[simp] theorem rg_setSetH (k : Nat) (x : SetHid) (s : State) (pg off : Nat) : rg (setSetH k x s) pg off = rg s pg off := (rfl)

/-! `setSarH` -/

@[simp] theorem setSarH_pending (n : Nat) (x : SarHid) (s : State) : (setSarH n x s).pending = s.pending := (rfl)
@[simp] theorem setSarH_variant (n : Nat) (x : SarHid) (s : State) : (setSarH n x s).variant = s.variant := (rfl)
@[simp] theorem setSarH_tick (n : Nat) (x : SarHid) (s : State) : (setSarH n x s).tick = s.tick := (rfl)
@[simp] theorem setSarH_freeCtr (n : Nat) (x : SarHid) (s : State) : (setSarH n x s).freeCtr = s.freeCtr := (rfl)
@[simp] theorem setSarH_reply (n : Nat) (x : SarHid) (s : State) : (setSarH n x s).reply = s.reply := (rfl)
@[simp] theorem setSarH_regs (n : Nat) (x : SarHid) (s : State) : (setSarH n x s).regs = s.regs := (rfl)
@[simp] theorem setSarH_mem (n : Nat) (x : SarHid) (s : State) : (setSarH n x s).mem = s.mem := (rfl)
@[simp] theorem setSarH_now (n : Nat) (x : SarHid) (s : State) : (setSarH n x s).now = s.now := (rfl)
@[simp] theorem setSarH_upset (n : Nat) (x : SarHid) (s : State) : (setSarH n x s).upset = s.upset := (rfl)
@[simp] theorem setSarH_dev (n : Nat) (x : SarHid) (s : State) : (setSarH n x s).dev = s.dev := (rfl)
@[simp] theorem setSarH_nv (n : Nat) (x : SarHid) (s : State) : (setSarH n x s).nv = s.nv := (rfl)
@[simp] theorem setSarH_det (n : Nat) (x : SarHid) (s : State) : (setSarH n x s).det = s.det := (rfl)
@[simp] theorem setSarH_hive (n : Nat) (x : SarHid) (s : State) : (setSarH n x s).hive = s.hive := (rfl)
@[simp] theorem setSarH_dma (n : Nat) (x : SarHid) (s : State) : (setSarH n x s).dma = s.dma := (rfl)
@[simp] theorem setSarH_dmaTurn (n : Nat) (x : SarHid) (s : State) : (setSarH n x s).dmaTurn = s.dmaTurn := (rfl)
@[simp] theorem setSarH_chk (n : Nat) (x : SarHid) (s : State) : (setSarH n x s).chk = s.chk := (rfl)
@[simp] theorem setSarH_armNow (n : Nat) (x : SarHid) (s : State) : (setSarH n x s).armNow = s.armNow := (rfl)
@[simp] theorem setSarH_disNow (n : Nat) (x : SarHid) (s : State) : (setSarH n x s).disNow = s.disNow := (rfl)
@[simp] theorem setSarH_tracks (n : Nat) (x : SarHid) (s : State) : (setSarH n x s).tracks = s.tracks := (rfl)
@[simp] theorem setSarH_slots (n : Nat) (x : SarHid) (s : State) : (setSarH n x s).slots = s.slots := (rfl)
@[simp] theorem setSarH_sets (n : Nat) (x : SarHid) (s : State) : (setSarH n x s).sets = s.sets := (rfl)
@[simp] theorem setSarH_sdOn (n : Nat) (x : SarHid) (s : State) : (setSarH n x s).sdOn = s.sdOn := (rfl)
@[simp] theorem setSarH_hvsOn (n : Nat) (x : SarHid) (s : State) : (setSarH n x s).hvsOn = s.hvsOn := (rfl)
@[simp] theorem setSarH_sdOsr (n : Nat) (x : SarHid) (s : State) : (setSarH n x s).sdOsr = s.sdOsr := (rfl)
@[simp] theorem setSarH_sdGot (n : Nat) (x : SarHid) (s : State) : (setSarH n x s).sdGot = s.sdGot := (rfl)
@[simp] theorem setSarH_rsv (n : Nat) (x : SarHid) (s : State) : (setSarH n x s).rsv = s.rsv := (rfl)
@[simp] theorem setSarH_enc (n : Nat) (x : SarHid) (s : State) : (setSarH n x s).enc = s.enc := (rfl)
@[simp] theorem setSarH_encAt (n : Nat) (x : SarHid) (s : State) : (setSarH n x s).encAt = s.encAt := (rfl)
@[simp] theorem setSarH_twLast (n : Nat) (x : SarHid) (s : State) : (setSarH n x s).twLast = s.twLast := (rfl)
@[simp] theorem setSarH_sentErr (n : Nat) (x : SarHid) (s : State) : (setSarH n x s).sentErr = s.sentErr := (rfl)
@[simp] theorem setSarH_sentWas (n : Nat) (x : SarHid) (s : State) : (setSarH n x s).sentWas = s.sentWas := (rfl)
@[simp] theorem setSarH_cal (n : Nat) (x : SarHid) (s : State) : (setSarH n x s).cal = s.cal := (rfl)
@[simp] theorem setSarH_mt (n : Nat) (x : SarHid) (s : State) : (setSarH n x s).mt = s.mt := (rfl)
@[simp] theorem setSarH_inj (n : Nat) (x : SarHid) (s : State) : (setSarH n x s).inj = s.inj := (rfl)
@[simp] theorem setSarH_capt (n : Nat) (x : SarHid) (s : State) : (setSarH n x s).capt = s.capt := (rfl)
@[simp] theorem setSarH_profAt (n : Nat) (x : SarHid) (s : State) : (setSarH n x s).profAt = s.profAt := (rfl)
@[simp] theorem setSarH_cars (n : Nat) (x : SarHid) (s : State) : (setSarH n x s).cars = s.cars := (rfl)
@[simp] theorem setSarH_legs (n : Nat) (x : SarHid) (s : State) : (setSarH n x s).legs = s.legs := (rfl)
@[simp] theorem setSarH_pairs (n : Nat) (x : SarHid) (s : State) : (setSarH n x s).pairs = s.pairs := (rfl)
@[simp] theorem setSarH_groups (n : Nat) (x : SarHid) (s : State) : (setSarH n x s).groups = s.groups := (rfl)
@[simp] theorem setSarH_brake (n : Nat) (x : SarHid) (s : State) : (setSarH n x s).brake = s.brake := (rfl)
@[simp] theorem setSarH_genS (n : Nat) (x : SarHid) (s : State) : (setSarH n x s).genS = s.genS := (rfl)
@[simp] theorem setSarH_ntcWarn (n : Nat) (x : SarHid) (s : State) : (setSarH n x s).ntcWarn = s.ntcWarn := (rfl)
@[simp] theorem setSarH_ntcShut (n : Nat) (x : SarHid) (s : State) : (setSarH n x s).ntcShut = s.ntcShut := (rfl)
@[simp] theorem setSarH_df (n : Nat) (x : SarHid) (s : State) : (setSarH n x s).df = s.df := (rfl)
@[simp] theorem setSarH_hb (n : Nat) (x : SarHid) (s : State) : (setSarH n x s).hb = s.hb := (rfl)
@[simp] theorem setSarH_adu (n : Nat) (x : SarHid) (s : State) : (setSarH n x s).adu = s.adu := (rfl)
@[simp] theorem setSarH_kd (n : Nat) (x : SarHid) (s : State) : (setSarH n x s).kd = s.kd := (rfl)
@[simp] theorem setSarH_eth (n : Nat) (x : SarHid) (s : State) : (setSarH n x s).eth = s.eth := (rfl)
@[simp] theorem setSarH_sc (n : Nat) (x : SarHid) (s : State) : (setSarH n x s).sc = s.sc := (rfl)
@[simp] theorem setSarH_led (n : Nat) (x : SarHid) (s : State) : (setSarH n x s).led = s.led := (rfl)
@[simp] theorem setSarH_stag (n : Nat) (x : SarHid) (s : State) : (setSarH n x s).stag = s.stag := (rfl)
@[simp] theorem setSarH_ant (n : Nat) (x : SarHid) (s : State) : (setSarH n x s).ant = s.ant := (rfl)
@[simp] theorem setSarH_bw (n : Nat) (x : SarHid) (s : State) : (setSarH n x s).bw = s.bw := (rfl)
@[simp] theorem rg_setSarH (n : Nat) (x : SarHid) (s : State) (pg off : Nat) : rg (setSarH n x s) pg off = rg s pg off := (rfl)

/-! `setRsvH` -/

@[simp] theorem setRsvH_pending (r : Nat) (x : RsvHid) (s : State) : (setRsvH r x s).pending = s.pending := (rfl)
@[simp] theorem setRsvH_variant (r : Nat) (x : RsvHid) (s : State) : (setRsvH r x s).variant = s.variant := (rfl)
@[simp] theorem setRsvH_tick (r : Nat) (x : RsvHid) (s : State) : (setRsvH r x s).tick = s.tick := (rfl)
@[simp] theorem setRsvH_freeCtr (r : Nat) (x : RsvHid) (s : State) : (setRsvH r x s).freeCtr = s.freeCtr := (rfl)
@[simp] theorem setRsvH_reply (r : Nat) (x : RsvHid) (s : State) : (setRsvH r x s).reply = s.reply := (rfl)
@[simp] theorem setRsvH_regs (r : Nat) (x : RsvHid) (s : State) : (setRsvH r x s).regs = s.regs := (rfl)
@[simp] theorem setRsvH_mem (r : Nat) (x : RsvHid) (s : State) : (setRsvH r x s).mem = s.mem := (rfl)
@[simp] theorem setRsvH_now (r : Nat) (x : RsvHid) (s : State) : (setRsvH r x s).now = s.now := (rfl)
@[simp] theorem setRsvH_upset (r : Nat) (x : RsvHid) (s : State) : (setRsvH r x s).upset = s.upset := (rfl)
@[simp] theorem setRsvH_dev (r : Nat) (x : RsvHid) (s : State) : (setRsvH r x s).dev = s.dev := (rfl)
@[simp] theorem setRsvH_nv (r : Nat) (x : RsvHid) (s : State) : (setRsvH r x s).nv = s.nv := (rfl)
@[simp] theorem setRsvH_det (r : Nat) (x : RsvHid) (s : State) : (setRsvH r x s).det = s.det := (rfl)
@[simp] theorem setRsvH_hive (r : Nat) (x : RsvHid) (s : State) : (setRsvH r x s).hive = s.hive := (rfl)
@[simp] theorem setRsvH_dma (r : Nat) (x : RsvHid) (s : State) : (setRsvH r x s).dma = s.dma := (rfl)
@[simp] theorem setRsvH_dmaTurn (r : Nat) (x : RsvHid) (s : State) : (setRsvH r x s).dmaTurn = s.dmaTurn := (rfl)
@[simp] theorem setRsvH_chk (r : Nat) (x : RsvHid) (s : State) : (setRsvH r x s).chk = s.chk := (rfl)
@[simp] theorem setRsvH_armNow (r : Nat) (x : RsvHid) (s : State) : (setRsvH r x s).armNow = s.armNow := (rfl)
@[simp] theorem setRsvH_disNow (r : Nat) (x : RsvHid) (s : State) : (setRsvH r x s).disNow = s.disNow := (rfl)
@[simp] theorem setRsvH_tracks (r : Nat) (x : RsvHid) (s : State) : (setRsvH r x s).tracks = s.tracks := (rfl)
@[simp] theorem setRsvH_slots (r : Nat) (x : RsvHid) (s : State) : (setRsvH r x s).slots = s.slots := (rfl)
@[simp] theorem setRsvH_sets (r : Nat) (x : RsvHid) (s : State) : (setRsvH r x s).sets = s.sets := (rfl)
@[simp] theorem setRsvH_sdOn (r : Nat) (x : RsvHid) (s : State) : (setRsvH r x s).sdOn = s.sdOn := (rfl)
@[simp] theorem setRsvH_hvsOn (r : Nat) (x : RsvHid) (s : State) : (setRsvH r x s).hvsOn = s.hvsOn := (rfl)
@[simp] theorem setRsvH_sdOsr (r : Nat) (x : RsvHid) (s : State) : (setRsvH r x s).sdOsr = s.sdOsr := (rfl)
@[simp] theorem setRsvH_sdGot (r : Nat) (x : RsvHid) (s : State) : (setRsvH r x s).sdGot = s.sdGot := (rfl)
@[simp] theorem setRsvH_sar (r : Nat) (x : RsvHid) (s : State) : (setRsvH r x s).sar = s.sar := (rfl)
@[simp] theorem setRsvH_enc (r : Nat) (x : RsvHid) (s : State) : (setRsvH r x s).enc = s.enc := (rfl)
@[simp] theorem setRsvH_encAt (r : Nat) (x : RsvHid) (s : State) : (setRsvH r x s).encAt = s.encAt := (rfl)
@[simp] theorem setRsvH_twLast (r : Nat) (x : RsvHid) (s : State) : (setRsvH r x s).twLast = s.twLast := (rfl)
@[simp] theorem setRsvH_sentErr (r : Nat) (x : RsvHid) (s : State) : (setRsvH r x s).sentErr = s.sentErr := (rfl)
@[simp] theorem setRsvH_sentWas (r : Nat) (x : RsvHid) (s : State) : (setRsvH r x s).sentWas = s.sentWas := (rfl)
@[simp] theorem setRsvH_cal (r : Nat) (x : RsvHid) (s : State) : (setRsvH r x s).cal = s.cal := (rfl)
@[simp] theorem setRsvH_mt (r : Nat) (x : RsvHid) (s : State) : (setRsvH r x s).mt = s.mt := (rfl)
@[simp] theorem setRsvH_inj (r : Nat) (x : RsvHid) (s : State) : (setRsvH r x s).inj = s.inj := (rfl)
@[simp] theorem setRsvH_capt (r : Nat) (x : RsvHid) (s : State) : (setRsvH r x s).capt = s.capt := (rfl)
@[simp] theorem setRsvH_profAt (r : Nat) (x : RsvHid) (s : State) : (setRsvH r x s).profAt = s.profAt := (rfl)
@[simp] theorem setRsvH_cars (r : Nat) (x : RsvHid) (s : State) : (setRsvH r x s).cars = s.cars := (rfl)
@[simp] theorem setRsvH_legs (r : Nat) (x : RsvHid) (s : State) : (setRsvH r x s).legs = s.legs := (rfl)
@[simp] theorem setRsvH_pairs (r : Nat) (x : RsvHid) (s : State) : (setRsvH r x s).pairs = s.pairs := (rfl)
@[simp] theorem setRsvH_groups (r : Nat) (x : RsvHid) (s : State) : (setRsvH r x s).groups = s.groups := (rfl)
@[simp] theorem setRsvH_brake (r : Nat) (x : RsvHid) (s : State) : (setRsvH r x s).brake = s.brake := (rfl)
@[simp] theorem setRsvH_genS (r : Nat) (x : RsvHid) (s : State) : (setRsvH r x s).genS = s.genS := (rfl)
@[simp] theorem setRsvH_ntcWarn (r : Nat) (x : RsvHid) (s : State) : (setRsvH r x s).ntcWarn = s.ntcWarn := (rfl)
@[simp] theorem setRsvH_ntcShut (r : Nat) (x : RsvHid) (s : State) : (setRsvH r x s).ntcShut = s.ntcShut := (rfl)
@[simp] theorem setRsvH_df (r : Nat) (x : RsvHid) (s : State) : (setRsvH r x s).df = s.df := (rfl)
@[simp] theorem setRsvH_hb (r : Nat) (x : RsvHid) (s : State) : (setRsvH r x s).hb = s.hb := (rfl)
@[simp] theorem setRsvH_adu (r : Nat) (x : RsvHid) (s : State) : (setRsvH r x s).adu = s.adu := (rfl)
@[simp] theorem setRsvH_kd (r : Nat) (x : RsvHid) (s : State) : (setRsvH r x s).kd = s.kd := (rfl)
@[simp] theorem setRsvH_eth (r : Nat) (x : RsvHid) (s : State) : (setRsvH r x s).eth = s.eth := (rfl)
@[simp] theorem setRsvH_sc (r : Nat) (x : RsvHid) (s : State) : (setRsvH r x s).sc = s.sc := (rfl)
@[simp] theorem setRsvH_led (r : Nat) (x : RsvHid) (s : State) : (setRsvH r x s).led = s.led := (rfl)
@[simp] theorem setRsvH_stag (r : Nat) (x : RsvHid) (s : State) : (setRsvH r x s).stag = s.stag := (rfl)
@[simp] theorem setRsvH_ant (r : Nat) (x : RsvHid) (s : State) : (setRsvH r x s).ant = s.ant := (rfl)
@[simp] theorem setRsvH_bw (r : Nat) (x : RsvHid) (s : State) : (setRsvH r x s).bw = s.bw := (rfl)
@[simp] theorem rg_setRsvH (r : Nat) (x : RsvHid) (s : State) (pg off : Nat) : rg (setRsvH r x s) pg off = rg s pg off := (rfl)

/-! `setMtH` -/

@[simp] theorem setMtH_pending (e : Nat) (h : MtHid) (s : State) : (setMtH e h s).pending = s.pending := (rfl)
@[simp] theorem setMtH_variant (e : Nat) (h : MtHid) (s : State) : (setMtH e h s).variant = s.variant := (rfl)
@[simp] theorem setMtH_tick (e : Nat) (h : MtHid) (s : State) : (setMtH e h s).tick = s.tick := (rfl)
@[simp] theorem setMtH_freeCtr (e : Nat) (h : MtHid) (s : State) : (setMtH e h s).freeCtr = s.freeCtr := (rfl)
@[simp] theorem setMtH_reply (e : Nat) (h : MtHid) (s : State) : (setMtH e h s).reply = s.reply := (rfl)
@[simp] theorem setMtH_regs (e : Nat) (h : MtHid) (s : State) : (setMtH e h s).regs = s.regs := (rfl)
@[simp] theorem setMtH_mem (e : Nat) (h : MtHid) (s : State) : (setMtH e h s).mem = s.mem := (rfl)
@[simp] theorem setMtH_now (e : Nat) (h : MtHid) (s : State) : (setMtH e h s).now = s.now := (rfl)
@[simp] theorem setMtH_upset (e : Nat) (h : MtHid) (s : State) : (setMtH e h s).upset = s.upset := (rfl)
@[simp] theorem setMtH_dev (e : Nat) (h : MtHid) (s : State) : (setMtH e h s).dev = s.dev := (rfl)
@[simp] theorem setMtH_nv (e : Nat) (h : MtHid) (s : State) : (setMtH e h s).nv = s.nv := (rfl)
@[simp] theorem setMtH_det (e : Nat) (h : MtHid) (s : State) : (setMtH e h s).det = s.det := (rfl)
@[simp] theorem setMtH_hive (e : Nat) (h : MtHid) (s : State) : (setMtH e h s).hive = s.hive := (rfl)
@[simp] theorem setMtH_dma (e : Nat) (h : MtHid) (s : State) : (setMtH e h s).dma = s.dma := (rfl)
@[simp] theorem setMtH_dmaTurn (e : Nat) (h : MtHid) (s : State) : (setMtH e h s).dmaTurn = s.dmaTurn := (rfl)
@[simp] theorem setMtH_chk (e : Nat) (h : MtHid) (s : State) : (setMtH e h s).chk = s.chk := (rfl)
@[simp] theorem setMtH_armNow (e : Nat) (h : MtHid) (s : State) : (setMtH e h s).armNow = s.armNow := (rfl)
@[simp] theorem setMtH_disNow (e : Nat) (h : MtHid) (s : State) : (setMtH e h s).disNow = s.disNow := (rfl)
@[simp] theorem setMtH_tracks (e : Nat) (h : MtHid) (s : State) : (setMtH e h s).tracks = s.tracks := (rfl)
@[simp] theorem setMtH_slots (e : Nat) (h : MtHid) (s : State) : (setMtH e h s).slots = s.slots := (rfl)
@[simp] theorem setMtH_sets (e : Nat) (h : MtHid) (s : State) : (setMtH e h s).sets = s.sets := (rfl)
@[simp] theorem setMtH_sdOn (e : Nat) (h : MtHid) (s : State) : (setMtH e h s).sdOn = s.sdOn := (rfl)
@[simp] theorem setMtH_hvsOn (e : Nat) (h : MtHid) (s : State) : (setMtH e h s).hvsOn = s.hvsOn := (rfl)
@[simp] theorem setMtH_sdOsr (e : Nat) (h : MtHid) (s : State) : (setMtH e h s).sdOsr = s.sdOsr := (rfl)
@[simp] theorem setMtH_sdGot (e : Nat) (h : MtHid) (s : State) : (setMtH e h s).sdGot = s.sdGot := (rfl)
@[simp] theorem setMtH_sar (e : Nat) (h : MtHid) (s : State) : (setMtH e h s).sar = s.sar := (rfl)
@[simp] theorem setMtH_rsv (e : Nat) (h : MtHid) (s : State) : (setMtH e h s).rsv = s.rsv := (rfl)
@[simp] theorem setMtH_enc (e : Nat) (h : MtHid) (s : State) : (setMtH e h s).enc = s.enc := (rfl)
@[simp] theorem setMtH_encAt (e : Nat) (h : MtHid) (s : State) : (setMtH e h s).encAt = s.encAt := (rfl)
@[simp] theorem setMtH_twLast (e : Nat) (h : MtHid) (s : State) : (setMtH e h s).twLast = s.twLast := (rfl)
@[simp] theorem setMtH_sentErr (e : Nat) (h : MtHid) (s : State) : (setMtH e h s).sentErr = s.sentErr := (rfl)
@[simp] theorem setMtH_sentWas (e : Nat) (h : MtHid) (s : State) : (setMtH e h s).sentWas = s.sentWas := (rfl)
@[simp] theorem setMtH_cal (e : Nat) (h : MtHid) (s : State) : (setMtH e h s).cal = s.cal := (rfl)
@[simp] theorem setMtH_inj (e : Nat) (h : MtHid) (s : State) : (setMtH e h s).inj = s.inj := (rfl)
@[simp] theorem setMtH_capt (e : Nat) (h : MtHid) (s : State) : (setMtH e h s).capt = s.capt := (rfl)
@[simp] theorem setMtH_profAt (e : Nat) (h : MtHid) (s : State) : (setMtH e h s).profAt = s.profAt := (rfl)
@[simp] theorem setMtH_cars (e : Nat) (h : MtHid) (s : State) : (setMtH e h s).cars = s.cars := (rfl)
@[simp] theorem setMtH_legs (e : Nat) (h : MtHid) (s : State) : (setMtH e h s).legs = s.legs := (rfl)
@[simp] theorem setMtH_pairs (e : Nat) (h : MtHid) (s : State) : (setMtH e h s).pairs = s.pairs := (rfl)
@[simp] theorem setMtH_groups (e : Nat) (h : MtHid) (s : State) : (setMtH e h s).groups = s.groups := (rfl)
@[simp] theorem setMtH_brake (e : Nat) (h : MtHid) (s : State) : (setMtH e h s).brake = s.brake := (rfl)
@[simp] theorem setMtH_genS (e : Nat) (h : MtHid) (s : State) : (setMtH e h s).genS = s.genS := (rfl)
@[simp] theorem setMtH_ntcWarn (e : Nat) (h : MtHid) (s : State) : (setMtH e h s).ntcWarn = s.ntcWarn := (rfl)
@[simp] theorem setMtH_ntcShut (e : Nat) (h : MtHid) (s : State) : (setMtH e h s).ntcShut = s.ntcShut := (rfl)
@[simp] theorem setMtH_df (e : Nat) (h : MtHid) (s : State) : (setMtH e h s).df = s.df := (rfl)
@[simp] theorem setMtH_hb (e : Nat) (h : MtHid) (s : State) : (setMtH e h s).hb = s.hb := (rfl)
@[simp] theorem setMtH_adu (e : Nat) (h : MtHid) (s : State) : (setMtH e h s).adu = s.adu := (rfl)
@[simp] theorem setMtH_kd (e : Nat) (h : MtHid) (s : State) : (setMtH e h s).kd = s.kd := (rfl)
@[simp] theorem setMtH_eth (e : Nat) (h : MtHid) (s : State) : (setMtH e h s).eth = s.eth := (rfl)
@[simp] theorem setMtH_sc (e : Nat) (h : MtHid) (s : State) : (setMtH e h s).sc = s.sc := (rfl)
@[simp] theorem setMtH_led (e : Nat) (h : MtHid) (s : State) : (setMtH e h s).led = s.led := (rfl)
@[simp] theorem setMtH_stag (e : Nat) (h : MtHid) (s : State) : (setMtH e h s).stag = s.stag := (rfl)
@[simp] theorem setMtH_ant (e : Nat) (h : MtHid) (s : State) : (setMtH e h s).ant = s.ant := (rfl)
@[simp] theorem setMtH_bw (e : Nat) (h : MtHid) (s : State) : (setMtH e h s).bw = s.bw := (rfl)
@[simp] theorem rg_setMtH (e : Nat) (h : MtHid) (s : State) (pg off : Nat) : rg (setMtH e h s) pg off = rg s pg off := (rfl)

/-! `setCapH` -/

@[simp] theorem setCapH_pending (c : Nat) (x : CapHid) (s : State) : (setCapH c x s).pending = s.pending := (rfl)
@[simp] theorem setCapH_variant (c : Nat) (x : CapHid) (s : State) : (setCapH c x s).variant = s.variant := (rfl)
@[simp] theorem setCapH_tick (c : Nat) (x : CapHid) (s : State) : (setCapH c x s).tick = s.tick := (rfl)
@[simp] theorem setCapH_freeCtr (c : Nat) (x : CapHid) (s : State) : (setCapH c x s).freeCtr = s.freeCtr := (rfl)
@[simp] theorem setCapH_reply (c : Nat) (x : CapHid) (s : State) : (setCapH c x s).reply = s.reply := (rfl)
@[simp] theorem setCapH_regs (c : Nat) (x : CapHid) (s : State) : (setCapH c x s).regs = s.regs := (rfl)
@[simp] theorem setCapH_mem (c : Nat) (x : CapHid) (s : State) : (setCapH c x s).mem = s.mem := (rfl)
@[simp] theorem setCapH_now (c : Nat) (x : CapHid) (s : State) : (setCapH c x s).now = s.now := (rfl)
@[simp] theorem setCapH_upset (c : Nat) (x : CapHid) (s : State) : (setCapH c x s).upset = s.upset := (rfl)
@[simp] theorem setCapH_dev (c : Nat) (x : CapHid) (s : State) : (setCapH c x s).dev = s.dev := (rfl)
@[simp] theorem setCapH_nv (c : Nat) (x : CapHid) (s : State) : (setCapH c x s).nv = s.nv := (rfl)
@[simp] theorem setCapH_det (c : Nat) (x : CapHid) (s : State) : (setCapH c x s).det = s.det := (rfl)
@[simp] theorem setCapH_hive (c : Nat) (x : CapHid) (s : State) : (setCapH c x s).hive = s.hive := (rfl)
@[simp] theorem setCapH_dma (c : Nat) (x : CapHid) (s : State) : (setCapH c x s).dma = s.dma := (rfl)
@[simp] theorem setCapH_dmaTurn (c : Nat) (x : CapHid) (s : State) : (setCapH c x s).dmaTurn = s.dmaTurn := (rfl)
@[simp] theorem setCapH_chk (c : Nat) (x : CapHid) (s : State) : (setCapH c x s).chk = s.chk := (rfl)
@[simp] theorem setCapH_armNow (c : Nat) (x : CapHid) (s : State) : (setCapH c x s).armNow = s.armNow := (rfl)
@[simp] theorem setCapH_disNow (c : Nat) (x : CapHid) (s : State) : (setCapH c x s).disNow = s.disNow := (rfl)
@[simp] theorem setCapH_tracks (c : Nat) (x : CapHid) (s : State) : (setCapH c x s).tracks = s.tracks := (rfl)
@[simp] theorem setCapH_slots (c : Nat) (x : CapHid) (s : State) : (setCapH c x s).slots = s.slots := (rfl)
@[simp] theorem setCapH_sets (c : Nat) (x : CapHid) (s : State) : (setCapH c x s).sets = s.sets := (rfl)
@[simp] theorem setCapH_sdOn (c : Nat) (x : CapHid) (s : State) : (setCapH c x s).sdOn = s.sdOn := (rfl)
@[simp] theorem setCapH_hvsOn (c : Nat) (x : CapHid) (s : State) : (setCapH c x s).hvsOn = s.hvsOn := (rfl)
@[simp] theorem setCapH_sdOsr (c : Nat) (x : CapHid) (s : State) : (setCapH c x s).sdOsr = s.sdOsr := (rfl)
@[simp] theorem setCapH_sdGot (c : Nat) (x : CapHid) (s : State) : (setCapH c x s).sdGot = s.sdGot := (rfl)
@[simp] theorem setCapH_sar (c : Nat) (x : CapHid) (s : State) : (setCapH c x s).sar = s.sar := (rfl)
@[simp] theorem setCapH_rsv (c : Nat) (x : CapHid) (s : State) : (setCapH c x s).rsv = s.rsv := (rfl)
@[simp] theorem setCapH_enc (c : Nat) (x : CapHid) (s : State) : (setCapH c x s).enc = s.enc := (rfl)
@[simp] theorem setCapH_encAt (c : Nat) (x : CapHid) (s : State) : (setCapH c x s).encAt = s.encAt := (rfl)
@[simp] theorem setCapH_twLast (c : Nat) (x : CapHid) (s : State) : (setCapH c x s).twLast = s.twLast := (rfl)
@[simp] theorem setCapH_sentErr (c : Nat) (x : CapHid) (s : State) : (setCapH c x s).sentErr = s.sentErr := (rfl)
@[simp] theorem setCapH_sentWas (c : Nat) (x : CapHid) (s : State) : (setCapH c x s).sentWas = s.sentWas := (rfl)
@[simp] theorem setCapH_cal (c : Nat) (x : CapHid) (s : State) : (setCapH c x s).cal = s.cal := (rfl)
@[simp] theorem setCapH_mt (c : Nat) (x : CapHid) (s : State) : (setCapH c x s).mt = s.mt := (rfl)
@[simp] theorem setCapH_inj (c : Nat) (x : CapHid) (s : State) : (setCapH c x s).inj = s.inj := (rfl)
@[simp] theorem setCapH_profAt (c : Nat) (x : CapHid) (s : State) : (setCapH c x s).profAt = s.profAt := (rfl)
@[simp] theorem setCapH_cars (c : Nat) (x : CapHid) (s : State) : (setCapH c x s).cars = s.cars := (rfl)
@[simp] theorem setCapH_legs (c : Nat) (x : CapHid) (s : State) : (setCapH c x s).legs = s.legs := (rfl)
@[simp] theorem setCapH_pairs (c : Nat) (x : CapHid) (s : State) : (setCapH c x s).pairs = s.pairs := (rfl)
@[simp] theorem setCapH_groups (c : Nat) (x : CapHid) (s : State) : (setCapH c x s).groups = s.groups := (rfl)
@[simp] theorem setCapH_brake (c : Nat) (x : CapHid) (s : State) : (setCapH c x s).brake = s.brake := (rfl)
@[simp] theorem setCapH_genS (c : Nat) (x : CapHid) (s : State) : (setCapH c x s).genS = s.genS := (rfl)
@[simp] theorem setCapH_ntcWarn (c : Nat) (x : CapHid) (s : State) : (setCapH c x s).ntcWarn = s.ntcWarn := (rfl)
@[simp] theorem setCapH_ntcShut (c : Nat) (x : CapHid) (s : State) : (setCapH c x s).ntcShut = s.ntcShut := (rfl)
@[simp] theorem setCapH_df (c : Nat) (x : CapHid) (s : State) : (setCapH c x s).df = s.df := (rfl)
@[simp] theorem setCapH_hb (c : Nat) (x : CapHid) (s : State) : (setCapH c x s).hb = s.hb := (rfl)
@[simp] theorem setCapH_adu (c : Nat) (x : CapHid) (s : State) : (setCapH c x s).adu = s.adu := (rfl)
@[simp] theorem setCapH_kd (c : Nat) (x : CapHid) (s : State) : (setCapH c x s).kd = s.kd := (rfl)
@[simp] theorem setCapH_eth (c : Nat) (x : CapHid) (s : State) : (setCapH c x s).eth = s.eth := (rfl)
@[simp] theorem setCapH_sc (c : Nat) (x : CapHid) (s : State) : (setCapH c x s).sc = s.sc := (rfl)
@[simp] theorem setCapH_led (c : Nat) (x : CapHid) (s : State) : (setCapH c x s).led = s.led := (rfl)
@[simp] theorem setCapH_stag (c : Nat) (x : CapHid) (s : State) : (setCapH c x s).stag = s.stag := (rfl)
@[simp] theorem setCapH_ant (c : Nat) (x : CapHid) (s : State) : (setCapH c x s).ant = s.ant := (rfl)
@[simp] theorem setCapH_bw (c : Nat) (x : CapHid) (s : State) : (setCapH c x s).bw = s.bw := (rfl)
@[simp] theorem rg_setCapH (c : Nat) (x : CapHid) (s : State) (pg off : Nat) : rg (setCapH c x s) pg off = rg s pg off := (rfl)

/-! `setInjH` -/

@[simp] theorem setInjH_pending (c : Nat) (x : InjHid) (s : State) : (setInjH c x s).pending = s.pending := (rfl)
@[simp] theorem setInjH_variant (c : Nat) (x : InjHid) (s : State) : (setInjH c x s).variant = s.variant := (rfl)
@[simp] theorem setInjH_tick (c : Nat) (x : InjHid) (s : State) : (setInjH c x s).tick = s.tick := (rfl)
@[simp] theorem setInjH_freeCtr (c : Nat) (x : InjHid) (s : State) : (setInjH c x s).freeCtr = s.freeCtr := (rfl)
@[simp] theorem setInjH_reply (c : Nat) (x : InjHid) (s : State) : (setInjH c x s).reply = s.reply := (rfl)
@[simp] theorem setInjH_regs (c : Nat) (x : InjHid) (s : State) : (setInjH c x s).regs = s.regs := (rfl)
@[simp] theorem setInjH_mem (c : Nat) (x : InjHid) (s : State) : (setInjH c x s).mem = s.mem := (rfl)
@[simp] theorem setInjH_now (c : Nat) (x : InjHid) (s : State) : (setInjH c x s).now = s.now := (rfl)
@[simp] theorem setInjH_upset (c : Nat) (x : InjHid) (s : State) : (setInjH c x s).upset = s.upset := (rfl)
@[simp] theorem setInjH_dev (c : Nat) (x : InjHid) (s : State) : (setInjH c x s).dev = s.dev := (rfl)
@[simp] theorem setInjH_nv (c : Nat) (x : InjHid) (s : State) : (setInjH c x s).nv = s.nv := (rfl)
@[simp] theorem setInjH_det (c : Nat) (x : InjHid) (s : State) : (setInjH c x s).det = s.det := (rfl)
@[simp] theorem setInjH_hive (c : Nat) (x : InjHid) (s : State) : (setInjH c x s).hive = s.hive := (rfl)
@[simp] theorem setInjH_dma (c : Nat) (x : InjHid) (s : State) : (setInjH c x s).dma = s.dma := (rfl)
@[simp] theorem setInjH_dmaTurn (c : Nat) (x : InjHid) (s : State) : (setInjH c x s).dmaTurn = s.dmaTurn := (rfl)
@[simp] theorem setInjH_chk (c : Nat) (x : InjHid) (s : State) : (setInjH c x s).chk = s.chk := (rfl)
@[simp] theorem setInjH_armNow (c : Nat) (x : InjHid) (s : State) : (setInjH c x s).armNow = s.armNow := (rfl)
@[simp] theorem setInjH_disNow (c : Nat) (x : InjHid) (s : State) : (setInjH c x s).disNow = s.disNow := (rfl)
@[simp] theorem setInjH_tracks (c : Nat) (x : InjHid) (s : State) : (setInjH c x s).tracks = s.tracks := (rfl)
@[simp] theorem setInjH_slots (c : Nat) (x : InjHid) (s : State) : (setInjH c x s).slots = s.slots := (rfl)
@[simp] theorem setInjH_sets (c : Nat) (x : InjHid) (s : State) : (setInjH c x s).sets = s.sets := (rfl)
@[simp] theorem setInjH_sdOn (c : Nat) (x : InjHid) (s : State) : (setInjH c x s).sdOn = s.sdOn := (rfl)
@[simp] theorem setInjH_hvsOn (c : Nat) (x : InjHid) (s : State) : (setInjH c x s).hvsOn = s.hvsOn := (rfl)
@[simp] theorem setInjH_sdOsr (c : Nat) (x : InjHid) (s : State) : (setInjH c x s).sdOsr = s.sdOsr := (rfl)
@[simp] theorem setInjH_sdGot (c : Nat) (x : InjHid) (s : State) : (setInjH c x s).sdGot = s.sdGot := (rfl)
@[simp] theorem setInjH_sar (c : Nat) (x : InjHid) (s : State) : (setInjH c x s).sar = s.sar := (rfl)
@[simp] theorem setInjH_rsv (c : Nat) (x : InjHid) (s : State) : (setInjH c x s).rsv = s.rsv := (rfl)
@[simp] theorem setInjH_enc (c : Nat) (x : InjHid) (s : State) : (setInjH c x s).enc = s.enc := (rfl)
@[simp] theorem setInjH_encAt (c : Nat) (x : InjHid) (s : State) : (setInjH c x s).encAt = s.encAt := (rfl)
@[simp] theorem setInjH_twLast (c : Nat) (x : InjHid) (s : State) : (setInjH c x s).twLast = s.twLast := (rfl)
@[simp] theorem setInjH_sentErr (c : Nat) (x : InjHid) (s : State) : (setInjH c x s).sentErr = s.sentErr := (rfl)
@[simp] theorem setInjH_sentWas (c : Nat) (x : InjHid) (s : State) : (setInjH c x s).sentWas = s.sentWas := (rfl)
@[simp] theorem setInjH_cal (c : Nat) (x : InjHid) (s : State) : (setInjH c x s).cal = s.cal := (rfl)
@[simp] theorem setInjH_mt (c : Nat) (x : InjHid) (s : State) : (setInjH c x s).mt = s.mt := (rfl)
@[simp] theorem setInjH_capt (c : Nat) (x : InjHid) (s : State) : (setInjH c x s).capt = s.capt := (rfl)
@[simp] theorem setInjH_profAt (c : Nat) (x : InjHid) (s : State) : (setInjH c x s).profAt = s.profAt := (rfl)
@[simp] theorem setInjH_cars (c : Nat) (x : InjHid) (s : State) : (setInjH c x s).cars = s.cars := (rfl)
@[simp] theorem setInjH_legs (c : Nat) (x : InjHid) (s : State) : (setInjH c x s).legs = s.legs := (rfl)
@[simp] theorem setInjH_pairs (c : Nat) (x : InjHid) (s : State) : (setInjH c x s).pairs = s.pairs := (rfl)
@[simp] theorem setInjH_groups (c : Nat) (x : InjHid) (s : State) : (setInjH c x s).groups = s.groups := (rfl)
@[simp] theorem setInjH_brake (c : Nat) (x : InjHid) (s : State) : (setInjH c x s).brake = s.brake := (rfl)
@[simp] theorem setInjH_genS (c : Nat) (x : InjHid) (s : State) : (setInjH c x s).genS = s.genS := (rfl)
@[simp] theorem setInjH_ntcWarn (c : Nat) (x : InjHid) (s : State) : (setInjH c x s).ntcWarn = s.ntcWarn := (rfl)
@[simp] theorem setInjH_ntcShut (c : Nat) (x : InjHid) (s : State) : (setInjH c x s).ntcShut = s.ntcShut := (rfl)
@[simp] theorem setInjH_df (c : Nat) (x : InjHid) (s : State) : (setInjH c x s).df = s.df := (rfl)
@[simp] theorem setInjH_hb (c : Nat) (x : InjHid) (s : State) : (setInjH c x s).hb = s.hb := (rfl)
@[simp] theorem setInjH_adu (c : Nat) (x : InjHid) (s : State) : (setInjH c x s).adu = s.adu := (rfl)
@[simp] theorem setInjH_kd (c : Nat) (x : InjHid) (s : State) : (setInjH c x s).kd = s.kd := (rfl)
@[simp] theorem setInjH_eth (c : Nat) (x : InjHid) (s : State) : (setInjH c x s).eth = s.eth := (rfl)
@[simp] theorem setInjH_sc (c : Nat) (x : InjHid) (s : State) : (setInjH c x s).sc = s.sc := (rfl)
@[simp] theorem setInjH_led (c : Nat) (x : InjHid) (s : State) : (setInjH c x s).led = s.led := (rfl)
@[simp] theorem setInjH_stag (c : Nat) (x : InjHid) (s : State) : (setInjH c x s).stag = s.stag := (rfl)
@[simp] theorem setInjH_ant (c : Nat) (x : InjHid) (s : State) : (setInjH c x s).ant = s.ant := (rfl)
@[simp] theorem setInjH_bw (c : Nat) (x : InjHid) (s : State) : (setInjH c x s).bw = s.bw := (rfl)
@[simp] theorem rg_setInjH (c : Nat) (x : InjHid) (s : State) (pg off : Nat) : rg (setInjH c x s) pg off = rg s pg off := (rfl)

/-! `setLegH` -/

@[simp] theorem setLegH_pending (m : Nat) (l : LegHid) (s : State) : (setLegH m l s).pending = s.pending := (rfl)
@[simp] theorem setLegH_variant (m : Nat) (l : LegHid) (s : State) : (setLegH m l s).variant = s.variant := (rfl)
@[simp] theorem setLegH_tick (m : Nat) (l : LegHid) (s : State) : (setLegH m l s).tick = s.tick := (rfl)
@[simp] theorem setLegH_freeCtr (m : Nat) (l : LegHid) (s : State) : (setLegH m l s).freeCtr = s.freeCtr := (rfl)
@[simp] theorem setLegH_reply (m : Nat) (l : LegHid) (s : State) : (setLegH m l s).reply = s.reply := (rfl)
@[simp] theorem setLegH_regs (m : Nat) (l : LegHid) (s : State) : (setLegH m l s).regs = s.regs := (rfl)
@[simp] theorem setLegH_mem (m : Nat) (l : LegHid) (s : State) : (setLegH m l s).mem = s.mem := (rfl)
@[simp] theorem setLegH_now (m : Nat) (l : LegHid) (s : State) : (setLegH m l s).now = s.now := (rfl)
@[simp] theorem setLegH_upset (m : Nat) (l : LegHid) (s : State) : (setLegH m l s).upset = s.upset := (rfl)
@[simp] theorem setLegH_dev (m : Nat) (l : LegHid) (s : State) : (setLegH m l s).dev = s.dev := (rfl)
@[simp] theorem setLegH_nv (m : Nat) (l : LegHid) (s : State) : (setLegH m l s).nv = s.nv := (rfl)
@[simp] theorem setLegH_det (m : Nat) (l : LegHid) (s : State) : (setLegH m l s).det = s.det := (rfl)
@[simp] theorem setLegH_hive (m : Nat) (l : LegHid) (s : State) : (setLegH m l s).hive = s.hive := (rfl)
@[simp] theorem setLegH_dma (m : Nat) (l : LegHid) (s : State) : (setLegH m l s).dma = s.dma := (rfl)
@[simp] theorem setLegH_dmaTurn (m : Nat) (l : LegHid) (s : State) : (setLegH m l s).dmaTurn = s.dmaTurn := (rfl)
@[simp] theorem setLegH_chk (m : Nat) (l : LegHid) (s : State) : (setLegH m l s).chk = s.chk := (rfl)
@[simp] theorem setLegH_armNow (m : Nat) (l : LegHid) (s : State) : (setLegH m l s).armNow = s.armNow := (rfl)
@[simp] theorem setLegH_disNow (m : Nat) (l : LegHid) (s : State) : (setLegH m l s).disNow = s.disNow := (rfl)
@[simp] theorem setLegH_tracks (m : Nat) (l : LegHid) (s : State) : (setLegH m l s).tracks = s.tracks := (rfl)
@[simp] theorem setLegH_slots (m : Nat) (l : LegHid) (s : State) : (setLegH m l s).slots = s.slots := (rfl)
@[simp] theorem setLegH_sets (m : Nat) (l : LegHid) (s : State) : (setLegH m l s).sets = s.sets := (rfl)
@[simp] theorem setLegH_sdOn (m : Nat) (l : LegHid) (s : State) : (setLegH m l s).sdOn = s.sdOn := (rfl)
@[simp] theorem setLegH_hvsOn (m : Nat) (l : LegHid) (s : State) : (setLegH m l s).hvsOn = s.hvsOn := (rfl)
@[simp] theorem setLegH_sdOsr (m : Nat) (l : LegHid) (s : State) : (setLegH m l s).sdOsr = s.sdOsr := (rfl)
@[simp] theorem setLegH_sdGot (m : Nat) (l : LegHid) (s : State) : (setLegH m l s).sdGot = s.sdGot := (rfl)
@[simp] theorem setLegH_sar (m : Nat) (l : LegHid) (s : State) : (setLegH m l s).sar = s.sar := (rfl)
@[simp] theorem setLegH_rsv (m : Nat) (l : LegHid) (s : State) : (setLegH m l s).rsv = s.rsv := (rfl)
@[simp] theorem setLegH_enc (m : Nat) (l : LegHid) (s : State) : (setLegH m l s).enc = s.enc := (rfl)
@[simp] theorem setLegH_encAt (m : Nat) (l : LegHid) (s : State) : (setLegH m l s).encAt = s.encAt := (rfl)
@[simp] theorem setLegH_twLast (m : Nat) (l : LegHid) (s : State) : (setLegH m l s).twLast = s.twLast := (rfl)
@[simp] theorem setLegH_sentErr (m : Nat) (l : LegHid) (s : State) : (setLegH m l s).sentErr = s.sentErr := (rfl)
@[simp] theorem setLegH_sentWas (m : Nat) (l : LegHid) (s : State) : (setLegH m l s).sentWas = s.sentWas := (rfl)
@[simp] theorem setLegH_cal (m : Nat) (l : LegHid) (s : State) : (setLegH m l s).cal = s.cal := (rfl)
@[simp] theorem setLegH_mt (m : Nat) (l : LegHid) (s : State) : (setLegH m l s).mt = s.mt := (rfl)
@[simp] theorem setLegH_inj (m : Nat) (l : LegHid) (s : State) : (setLegH m l s).inj = s.inj := (rfl)
@[simp] theorem setLegH_capt (m : Nat) (l : LegHid) (s : State) : (setLegH m l s).capt = s.capt := (rfl)
@[simp] theorem setLegH_profAt (m : Nat) (l : LegHid) (s : State) : (setLegH m l s).profAt = s.profAt := (rfl)
@[simp] theorem setLegH_cars (m : Nat) (l : LegHid) (s : State) : (setLegH m l s).cars = s.cars := (rfl)
@[simp] theorem setLegH_pairs (m : Nat) (l : LegHid) (s : State) : (setLegH m l s).pairs = s.pairs := (rfl)
@[simp] theorem setLegH_groups (m : Nat) (l : LegHid) (s : State) : (setLegH m l s).groups = s.groups := (rfl)
@[simp] theorem setLegH_brake (m : Nat) (l : LegHid) (s : State) : (setLegH m l s).brake = s.brake := (rfl)
@[simp] theorem setLegH_genS (m : Nat) (l : LegHid) (s : State) : (setLegH m l s).genS = s.genS := (rfl)
@[simp] theorem setLegH_ntcWarn (m : Nat) (l : LegHid) (s : State) : (setLegH m l s).ntcWarn = s.ntcWarn := (rfl)
@[simp] theorem setLegH_ntcShut (m : Nat) (l : LegHid) (s : State) : (setLegH m l s).ntcShut = s.ntcShut := (rfl)
@[simp] theorem setLegH_df (m : Nat) (l : LegHid) (s : State) : (setLegH m l s).df = s.df := (rfl)
@[simp] theorem setLegH_hb (m : Nat) (l : LegHid) (s : State) : (setLegH m l s).hb = s.hb := (rfl)
@[simp] theorem setLegH_adu (m : Nat) (l : LegHid) (s : State) : (setLegH m l s).adu = s.adu := (rfl)
@[simp] theorem setLegH_kd (m : Nat) (l : LegHid) (s : State) : (setLegH m l s).kd = s.kd := (rfl)
@[simp] theorem setLegH_eth (m : Nat) (l : LegHid) (s : State) : (setLegH m l s).eth = s.eth := (rfl)
@[simp] theorem setLegH_sc (m : Nat) (l : LegHid) (s : State) : (setLegH m l s).sc = s.sc := (rfl)
@[simp] theorem setLegH_led (m : Nat) (l : LegHid) (s : State) : (setLegH m l s).led = s.led := (rfl)
@[simp] theorem setLegH_stag (m : Nat) (l : LegHid) (s : State) : (setLegH m l s).stag = s.stag := (rfl)
@[simp] theorem setLegH_ant (m : Nat) (l : LegHid) (s : State) : (setLegH m l s).ant = s.ant := (rfl)
@[simp] theorem setLegH_bw (m : Nat) (l : LegHid) (s : State) : (setLegH m l s).bw = s.bw := (rfl)
@[simp] theorem rg_setLegH (m : Nat) (l : LegHid) (s : State) (pg off : Nat) : rg (setLegH m l s) pg off = rg s pg off := (rfl)

/-! `setCarH` -/

@[simp] theorem setCarH_pending (n : Nat) (c : CarHid) (s : State) : (setCarH n c s).pending = s.pending := (rfl)
@[simp] theorem setCarH_variant (n : Nat) (c : CarHid) (s : State) : (setCarH n c s).variant = s.variant := (rfl)
@[simp] theorem setCarH_tick (n : Nat) (c : CarHid) (s : State) : (setCarH n c s).tick = s.tick := (rfl)
@[simp] theorem setCarH_freeCtr (n : Nat) (c : CarHid) (s : State) : (setCarH n c s).freeCtr = s.freeCtr := (rfl)
@[simp] theorem setCarH_reply (n : Nat) (c : CarHid) (s : State) : (setCarH n c s).reply = s.reply := (rfl)
@[simp] theorem setCarH_regs (n : Nat) (c : CarHid) (s : State) : (setCarH n c s).regs = s.regs := (rfl)
@[simp] theorem setCarH_mem (n : Nat) (c : CarHid) (s : State) : (setCarH n c s).mem = s.mem := (rfl)
@[simp] theorem setCarH_now (n : Nat) (c : CarHid) (s : State) : (setCarH n c s).now = s.now := (rfl)
@[simp] theorem setCarH_upset (n : Nat) (c : CarHid) (s : State) : (setCarH n c s).upset = s.upset := (rfl)
@[simp] theorem setCarH_dev (n : Nat) (c : CarHid) (s : State) : (setCarH n c s).dev = s.dev := (rfl)
@[simp] theorem setCarH_nv (n : Nat) (c : CarHid) (s : State) : (setCarH n c s).nv = s.nv := (rfl)
@[simp] theorem setCarH_det (n : Nat) (c : CarHid) (s : State) : (setCarH n c s).det = s.det := (rfl)
@[simp] theorem setCarH_hive (n : Nat) (c : CarHid) (s : State) : (setCarH n c s).hive = s.hive := (rfl)
@[simp] theorem setCarH_dma (n : Nat) (c : CarHid) (s : State) : (setCarH n c s).dma = s.dma := (rfl)
@[simp] theorem setCarH_dmaTurn (n : Nat) (c : CarHid) (s : State) : (setCarH n c s).dmaTurn = s.dmaTurn := (rfl)
@[simp] theorem setCarH_chk (n : Nat) (c : CarHid) (s : State) : (setCarH n c s).chk = s.chk := (rfl)
@[simp] theorem setCarH_armNow (n : Nat) (c : CarHid) (s : State) : (setCarH n c s).armNow = s.armNow := (rfl)
@[simp] theorem setCarH_disNow (n : Nat) (c : CarHid) (s : State) : (setCarH n c s).disNow = s.disNow := (rfl)
@[simp] theorem setCarH_tracks (n : Nat) (c : CarHid) (s : State) : (setCarH n c s).tracks = s.tracks := (rfl)
@[simp] theorem setCarH_slots (n : Nat) (c : CarHid) (s : State) : (setCarH n c s).slots = s.slots := (rfl)
@[simp] theorem setCarH_sets (n : Nat) (c : CarHid) (s : State) : (setCarH n c s).sets = s.sets := (rfl)
@[simp] theorem setCarH_sdOn (n : Nat) (c : CarHid) (s : State) : (setCarH n c s).sdOn = s.sdOn := (rfl)
@[simp] theorem setCarH_hvsOn (n : Nat) (c : CarHid) (s : State) : (setCarH n c s).hvsOn = s.hvsOn := (rfl)
@[simp] theorem setCarH_sdOsr (n : Nat) (c : CarHid) (s : State) : (setCarH n c s).sdOsr = s.sdOsr := (rfl)
@[simp] theorem setCarH_sdGot (n : Nat) (c : CarHid) (s : State) : (setCarH n c s).sdGot = s.sdGot := (rfl)
@[simp] theorem setCarH_sar (n : Nat) (c : CarHid) (s : State) : (setCarH n c s).sar = s.sar := (rfl)
@[simp] theorem setCarH_rsv (n : Nat) (c : CarHid) (s : State) : (setCarH n c s).rsv = s.rsv := (rfl)
@[simp] theorem setCarH_enc (n : Nat) (c : CarHid) (s : State) : (setCarH n c s).enc = s.enc := (rfl)
@[simp] theorem setCarH_encAt (n : Nat) (c : CarHid) (s : State) : (setCarH n c s).encAt = s.encAt := (rfl)
@[simp] theorem setCarH_twLast (n : Nat) (c : CarHid) (s : State) : (setCarH n c s).twLast = s.twLast := (rfl)
@[simp] theorem setCarH_sentErr (n : Nat) (c : CarHid) (s : State) : (setCarH n c s).sentErr = s.sentErr := (rfl)
@[simp] theorem setCarH_sentWas (n : Nat) (c : CarHid) (s : State) : (setCarH n c s).sentWas = s.sentWas := (rfl)
@[simp] theorem setCarH_cal (n : Nat) (c : CarHid) (s : State) : (setCarH n c s).cal = s.cal := (rfl)
@[simp] theorem setCarH_mt (n : Nat) (c : CarHid) (s : State) : (setCarH n c s).mt = s.mt := (rfl)
@[simp] theorem setCarH_inj (n : Nat) (c : CarHid) (s : State) : (setCarH n c s).inj = s.inj := (rfl)
@[simp] theorem setCarH_capt (n : Nat) (c : CarHid) (s : State) : (setCarH n c s).capt = s.capt := (rfl)
@[simp] theorem setCarH_profAt (n : Nat) (c : CarHid) (s : State) : (setCarH n c s).profAt = s.profAt := (rfl)
@[simp] theorem setCarH_legs (n : Nat) (c : CarHid) (s : State) : (setCarH n c s).legs = s.legs := (rfl)
@[simp] theorem setCarH_pairs (n : Nat) (c : CarHid) (s : State) : (setCarH n c s).pairs = s.pairs := (rfl)
@[simp] theorem setCarH_groups (n : Nat) (c : CarHid) (s : State) : (setCarH n c s).groups = s.groups := (rfl)
@[simp] theorem setCarH_brake (n : Nat) (c : CarHid) (s : State) : (setCarH n c s).brake = s.brake := (rfl)
@[simp] theorem setCarH_genS (n : Nat) (c : CarHid) (s : State) : (setCarH n c s).genS = s.genS := (rfl)
@[simp] theorem setCarH_ntcWarn (n : Nat) (c : CarHid) (s : State) : (setCarH n c s).ntcWarn = s.ntcWarn := (rfl)
@[simp] theorem setCarH_ntcShut (n : Nat) (c : CarHid) (s : State) : (setCarH n c s).ntcShut = s.ntcShut := (rfl)
@[simp] theorem setCarH_df (n : Nat) (c : CarHid) (s : State) : (setCarH n c s).df = s.df := (rfl)
@[simp] theorem setCarH_hb (n : Nat) (c : CarHid) (s : State) : (setCarH n c s).hb = s.hb := (rfl)
@[simp] theorem setCarH_adu (n : Nat) (c : CarHid) (s : State) : (setCarH n c s).adu = s.adu := (rfl)
@[simp] theorem setCarH_kd (n : Nat) (c : CarHid) (s : State) : (setCarH n c s).kd = s.kd := (rfl)
@[simp] theorem setCarH_eth (n : Nat) (c : CarHid) (s : State) : (setCarH n c s).eth = s.eth := (rfl)
@[simp] theorem setCarH_sc (n : Nat) (c : CarHid) (s : State) : (setCarH n c s).sc = s.sc := (rfl)
@[simp] theorem setCarH_led (n : Nat) (c : CarHid) (s : State) : (setCarH n c s).led = s.led := (rfl)
@[simp] theorem setCarH_stag (n : Nat) (c : CarHid) (s : State) : (setCarH n c s).stag = s.stag := (rfl)
@[simp] theorem setCarH_ant (n : Nat) (c : CarHid) (s : State) : (setCarH n c s).ant = s.ant := (rfl)
@[simp] theorem setCarH_bw (n : Nat) (c : CarHid) (s : State) : (setCarH n c s).bw = s.bw := (rfl)
@[simp] theorem rg_setCarH (n : Nat) (c : CarHid) (s : State) (pg off : Nat) : rg (setCarH n c s) pg off = rg s pg off := (rfl)

/-! `setPairH` -/

@[simp] theorem setPairH_pending (k : Nat) (p : PairHid) (s : State) : (setPairH k p s).pending = s.pending := (rfl)
@[simp] theorem setPairH_variant (k : Nat) (p : PairHid) (s : State) : (setPairH k p s).variant = s.variant := (rfl)
@[simp] theorem setPairH_tick (k : Nat) (p : PairHid) (s : State) : (setPairH k p s).tick = s.tick := (rfl)
@[simp] theorem setPairH_freeCtr (k : Nat) (p : PairHid) (s : State) : (setPairH k p s).freeCtr = s.freeCtr := (rfl)
@[simp] theorem setPairH_reply (k : Nat) (p : PairHid) (s : State) : (setPairH k p s).reply = s.reply := (rfl)
@[simp] theorem setPairH_regs (k : Nat) (p : PairHid) (s : State) : (setPairH k p s).regs = s.regs := (rfl)
@[simp] theorem setPairH_mem (k : Nat) (p : PairHid) (s : State) : (setPairH k p s).mem = s.mem := (rfl)
@[simp] theorem setPairH_now (k : Nat) (p : PairHid) (s : State) : (setPairH k p s).now = s.now := (rfl)
@[simp] theorem setPairH_upset (k : Nat) (p : PairHid) (s : State) : (setPairH k p s).upset = s.upset := (rfl)
@[simp] theorem setPairH_dev (k : Nat) (p : PairHid) (s : State) : (setPairH k p s).dev = s.dev := (rfl)
@[simp] theorem setPairH_nv (k : Nat) (p : PairHid) (s : State) : (setPairH k p s).nv = s.nv := (rfl)
@[simp] theorem setPairH_det (k : Nat) (p : PairHid) (s : State) : (setPairH k p s).det = s.det := (rfl)
@[simp] theorem setPairH_hive (k : Nat) (p : PairHid) (s : State) : (setPairH k p s).hive = s.hive := (rfl)
@[simp] theorem setPairH_dma (k : Nat) (p : PairHid) (s : State) : (setPairH k p s).dma = s.dma := (rfl)
@[simp] theorem setPairH_dmaTurn (k : Nat) (p : PairHid) (s : State) : (setPairH k p s).dmaTurn = s.dmaTurn := (rfl)
@[simp] theorem setPairH_chk (k : Nat) (p : PairHid) (s : State) : (setPairH k p s).chk = s.chk := (rfl)
@[simp] theorem setPairH_armNow (k : Nat) (p : PairHid) (s : State) : (setPairH k p s).armNow = s.armNow := (rfl)
@[simp] theorem setPairH_disNow (k : Nat) (p : PairHid) (s : State) : (setPairH k p s).disNow = s.disNow := (rfl)
@[simp] theorem setPairH_tracks (k : Nat) (p : PairHid) (s : State) : (setPairH k p s).tracks = s.tracks := (rfl)
@[simp] theorem setPairH_slots (k : Nat) (p : PairHid) (s : State) : (setPairH k p s).slots = s.slots := (rfl)
@[simp] theorem setPairH_sets (k : Nat) (p : PairHid) (s : State) : (setPairH k p s).sets = s.sets := (rfl)
@[simp] theorem setPairH_sdOn (k : Nat) (p : PairHid) (s : State) : (setPairH k p s).sdOn = s.sdOn := (rfl)
@[simp] theorem setPairH_hvsOn (k : Nat) (p : PairHid) (s : State) : (setPairH k p s).hvsOn = s.hvsOn := (rfl)
@[simp] theorem setPairH_sdOsr (k : Nat) (p : PairHid) (s : State) : (setPairH k p s).sdOsr = s.sdOsr := (rfl)
@[simp] theorem setPairH_sdGot (k : Nat) (p : PairHid) (s : State) : (setPairH k p s).sdGot = s.sdGot := (rfl)
@[simp] theorem setPairH_sar (k : Nat) (p : PairHid) (s : State) : (setPairH k p s).sar = s.sar := (rfl)
@[simp] theorem setPairH_rsv (k : Nat) (p : PairHid) (s : State) : (setPairH k p s).rsv = s.rsv := (rfl)
@[simp] theorem setPairH_enc (k : Nat) (p : PairHid) (s : State) : (setPairH k p s).enc = s.enc := (rfl)
@[simp] theorem setPairH_encAt (k : Nat) (p : PairHid) (s : State) : (setPairH k p s).encAt = s.encAt := (rfl)
@[simp] theorem setPairH_twLast (k : Nat) (p : PairHid) (s : State) : (setPairH k p s).twLast = s.twLast := (rfl)
@[simp] theorem setPairH_sentErr (k : Nat) (p : PairHid) (s : State) : (setPairH k p s).sentErr = s.sentErr := (rfl)
@[simp] theorem setPairH_sentWas (k : Nat) (p : PairHid) (s : State) : (setPairH k p s).sentWas = s.sentWas := (rfl)
@[simp] theorem setPairH_cal (k : Nat) (p : PairHid) (s : State) : (setPairH k p s).cal = s.cal := (rfl)
@[simp] theorem setPairH_mt (k : Nat) (p : PairHid) (s : State) : (setPairH k p s).mt = s.mt := (rfl)
@[simp] theorem setPairH_inj (k : Nat) (p : PairHid) (s : State) : (setPairH k p s).inj = s.inj := (rfl)
@[simp] theorem setPairH_capt (k : Nat) (p : PairHid) (s : State) : (setPairH k p s).capt = s.capt := (rfl)
@[simp] theorem setPairH_profAt (k : Nat) (p : PairHid) (s : State) : (setPairH k p s).profAt = s.profAt := (rfl)
@[simp] theorem setPairH_cars (k : Nat) (p : PairHid) (s : State) : (setPairH k p s).cars = s.cars := (rfl)
@[simp] theorem setPairH_legs (k : Nat) (p : PairHid) (s : State) : (setPairH k p s).legs = s.legs := (rfl)
@[simp] theorem setPairH_groups (k : Nat) (p : PairHid) (s : State) : (setPairH k p s).groups = s.groups := (rfl)
@[simp] theorem setPairH_brake (k : Nat) (p : PairHid) (s : State) : (setPairH k p s).brake = s.brake := (rfl)
@[simp] theorem setPairH_genS (k : Nat) (p : PairHid) (s : State) : (setPairH k p s).genS = s.genS := (rfl)
@[simp] theorem setPairH_ntcWarn (k : Nat) (p : PairHid) (s : State) : (setPairH k p s).ntcWarn = s.ntcWarn := (rfl)
@[simp] theorem setPairH_ntcShut (k : Nat) (p : PairHid) (s : State) : (setPairH k p s).ntcShut = s.ntcShut := (rfl)
@[simp] theorem setPairH_df (k : Nat) (p : PairHid) (s : State) : (setPairH k p s).df = s.df := (rfl)
@[simp] theorem setPairH_hb (k : Nat) (p : PairHid) (s : State) : (setPairH k p s).hb = s.hb := (rfl)
@[simp] theorem setPairH_adu (k : Nat) (p : PairHid) (s : State) : (setPairH k p s).adu = s.adu := (rfl)
@[simp] theorem setPairH_kd (k : Nat) (p : PairHid) (s : State) : (setPairH k p s).kd = s.kd := (rfl)
@[simp] theorem setPairH_eth (k : Nat) (p : PairHid) (s : State) : (setPairH k p s).eth = s.eth := (rfl)
@[simp] theorem setPairH_sc (k : Nat) (p : PairHid) (s : State) : (setPairH k p s).sc = s.sc := (rfl)
@[simp] theorem setPairH_led (k : Nat) (p : PairHid) (s : State) : (setPairH k p s).led = s.led := (rfl)
@[simp] theorem setPairH_stag (k : Nat) (p : PairHid) (s : State) : (setPairH k p s).stag = s.stag := (rfl)
@[simp] theorem setPairH_ant (k : Nat) (p : PairHid) (s : State) : (setPairH k p s).ant = s.ant := (rfl)
@[simp] theorem setPairH_bw (k : Nat) (p : PairHid) (s : State) : (setPairH k p s).bw = s.bw := (rfl)
@[simp] theorem rg_setPairH (k : Nat) (p : PairHid) (s : State) (pg off : Nat) : rg (setPairH k p s) pg off = rg s pg off := (rfl)

/-! `setGroupH` -/

@[simp] theorem setGroupH_pending (g : Nat) (x : GroupHid) (s : State) : (setGroupH g x s).pending = s.pending := (rfl)
@[simp] theorem setGroupH_variant (g : Nat) (x : GroupHid) (s : State) : (setGroupH g x s).variant = s.variant := (rfl)
@[simp] theorem setGroupH_tick (g : Nat) (x : GroupHid) (s : State) : (setGroupH g x s).tick = s.tick := (rfl)
@[simp] theorem setGroupH_freeCtr (g : Nat) (x : GroupHid) (s : State) : (setGroupH g x s).freeCtr = s.freeCtr := (rfl)
@[simp] theorem setGroupH_reply (g : Nat) (x : GroupHid) (s : State) : (setGroupH g x s).reply = s.reply := (rfl)
@[simp] theorem setGroupH_regs (g : Nat) (x : GroupHid) (s : State) : (setGroupH g x s).regs = s.regs := (rfl)
@[simp] theorem setGroupH_mem (g : Nat) (x : GroupHid) (s : State) : (setGroupH g x s).mem = s.mem := (rfl)
@[simp] theorem setGroupH_now (g : Nat) (x : GroupHid) (s : State) : (setGroupH g x s).now = s.now := (rfl)
@[simp] theorem setGroupH_upset (g : Nat) (x : GroupHid) (s : State) : (setGroupH g x s).upset = s.upset := (rfl)
@[simp] theorem setGroupH_dev (g : Nat) (x : GroupHid) (s : State) : (setGroupH g x s).dev = s.dev := (rfl)
@[simp] theorem setGroupH_nv (g : Nat) (x : GroupHid) (s : State) : (setGroupH g x s).nv = s.nv := (rfl)
@[simp] theorem setGroupH_det (g : Nat) (x : GroupHid) (s : State) : (setGroupH g x s).det = s.det := (rfl)
@[simp] theorem setGroupH_hive (g : Nat) (x : GroupHid) (s : State) : (setGroupH g x s).hive = s.hive := (rfl)
@[simp] theorem setGroupH_dma (g : Nat) (x : GroupHid) (s : State) : (setGroupH g x s).dma = s.dma := (rfl)
@[simp] theorem setGroupH_dmaTurn (g : Nat) (x : GroupHid) (s : State) : (setGroupH g x s).dmaTurn = s.dmaTurn := (rfl)
@[simp] theorem setGroupH_chk (g : Nat) (x : GroupHid) (s : State) : (setGroupH g x s).chk = s.chk := (rfl)
@[simp] theorem setGroupH_armNow (g : Nat) (x : GroupHid) (s : State) : (setGroupH g x s).armNow = s.armNow := (rfl)
@[simp] theorem setGroupH_disNow (g : Nat) (x : GroupHid) (s : State) : (setGroupH g x s).disNow = s.disNow := (rfl)
@[simp] theorem setGroupH_tracks (g : Nat) (x : GroupHid) (s : State) : (setGroupH g x s).tracks = s.tracks := (rfl)
@[simp] theorem setGroupH_slots (g : Nat) (x : GroupHid) (s : State) : (setGroupH g x s).slots = s.slots := (rfl)
@[simp] theorem setGroupH_sets (g : Nat) (x : GroupHid) (s : State) : (setGroupH g x s).sets = s.sets := (rfl)
@[simp] theorem setGroupH_sdOn (g : Nat) (x : GroupHid) (s : State) : (setGroupH g x s).sdOn = s.sdOn := (rfl)
@[simp] theorem setGroupH_hvsOn (g : Nat) (x : GroupHid) (s : State) : (setGroupH g x s).hvsOn = s.hvsOn := (rfl)
@[simp] theorem setGroupH_sdOsr (g : Nat) (x : GroupHid) (s : State) : (setGroupH g x s).sdOsr = s.sdOsr := (rfl)
@[simp] theorem setGroupH_sdGot (g : Nat) (x : GroupHid) (s : State) : (setGroupH g x s).sdGot = s.sdGot := (rfl)
@[simp] theorem setGroupH_sar (g : Nat) (x : GroupHid) (s : State) : (setGroupH g x s).sar = s.sar := (rfl)
@[simp] theorem setGroupH_rsv (g : Nat) (x : GroupHid) (s : State) : (setGroupH g x s).rsv = s.rsv := (rfl)
@[simp] theorem setGroupH_enc (g : Nat) (x : GroupHid) (s : State) : (setGroupH g x s).enc = s.enc := (rfl)
@[simp] theorem setGroupH_encAt (g : Nat) (x : GroupHid) (s : State) : (setGroupH g x s).encAt = s.encAt := (rfl)
@[simp] theorem setGroupH_twLast (g : Nat) (x : GroupHid) (s : State) : (setGroupH g x s).twLast = s.twLast := (rfl)
@[simp] theorem setGroupH_sentErr (g : Nat) (x : GroupHid) (s : State) : (setGroupH g x s).sentErr = s.sentErr := (rfl)
@[simp] theorem setGroupH_sentWas (g : Nat) (x : GroupHid) (s : State) : (setGroupH g x s).sentWas = s.sentWas := (rfl)
@[simp] theorem setGroupH_cal (g : Nat) (x : GroupHid) (s : State) : (setGroupH g x s).cal = s.cal := (rfl)
@[simp] theorem setGroupH_mt (g : Nat) (x : GroupHid) (s : State) : (setGroupH g x s).mt = s.mt := (rfl)
@[simp] theorem setGroupH_inj (g : Nat) (x : GroupHid) (s : State) : (setGroupH g x s).inj = s.inj := (rfl)
@[simp] theorem setGroupH_capt (g : Nat) (x : GroupHid) (s : State) : (setGroupH g x s).capt = s.capt := (rfl)
@[simp] theorem setGroupH_profAt (g : Nat) (x : GroupHid) (s : State) : (setGroupH g x s).profAt = s.profAt := (rfl)
@[simp] theorem setGroupH_cars (g : Nat) (x : GroupHid) (s : State) : (setGroupH g x s).cars = s.cars := (rfl)
@[simp] theorem setGroupH_legs (g : Nat) (x : GroupHid) (s : State) : (setGroupH g x s).legs = s.legs := (rfl)
@[simp] theorem setGroupH_pairs (g : Nat) (x : GroupHid) (s : State) : (setGroupH g x s).pairs = s.pairs := (rfl)
@[simp] theorem setGroupH_brake (g : Nat) (x : GroupHid) (s : State) : (setGroupH g x s).brake = s.brake := (rfl)
@[simp] theorem setGroupH_genS (g : Nat) (x : GroupHid) (s : State) : (setGroupH g x s).genS = s.genS := (rfl)
@[simp] theorem setGroupH_ntcWarn (g : Nat) (x : GroupHid) (s : State) : (setGroupH g x s).ntcWarn = s.ntcWarn := (rfl)
@[simp] theorem setGroupH_ntcShut (g : Nat) (x : GroupHid) (s : State) : (setGroupH g x s).ntcShut = s.ntcShut := (rfl)
@[simp] theorem setGroupH_df (g : Nat) (x : GroupHid) (s : State) : (setGroupH g x s).df = s.df := (rfl)
@[simp] theorem setGroupH_hb (g : Nat) (x : GroupHid) (s : State) : (setGroupH g x s).hb = s.hb := (rfl)
@[simp] theorem setGroupH_adu (g : Nat) (x : GroupHid) (s : State) : (setGroupH g x s).adu = s.adu := (rfl)
@[simp] theorem setGroupH_kd (g : Nat) (x : GroupHid) (s : State) : (setGroupH g x s).kd = s.kd := (rfl)
@[simp] theorem setGroupH_eth (g : Nat) (x : GroupHid) (s : State) : (setGroupH g x s).eth = s.eth := (rfl)
@[simp] theorem setGroupH_sc (g : Nat) (x : GroupHid) (s : State) : (setGroupH g x s).sc = s.sc := (rfl)
@[simp] theorem setGroupH_led (g : Nat) (x : GroupHid) (s : State) : (setGroupH g x s).led = s.led := (rfl)
@[simp] theorem setGroupH_stag (g : Nat) (x : GroupHid) (s : State) : (setGroupH g x s).stag = s.stag := (rfl)
@[simp] theorem setGroupH_ant (g : Nat) (x : GroupHid) (s : State) : (setGroupH g x s).ant = s.ant := (rfl)
@[simp] theorem setGroupH_bw (g : Nat) (x : GroupHid) (s : State) : (setGroupH g x s).bw = s.bw := (rfl)
@[simp] theorem rg_setGroupH (g : Nat) (x : GroupHid) (s : State) (pg off : Nat) : rg (setGroupH g x s) pg off = rg s pg off := (rfl)

/-! `setDfH` -/

@[simp] theorem setDfH_pending (i : Nat) (h : DfHid) (s : State) : (setDfH i h s).pending = s.pending := (rfl)
@[simp] theorem setDfH_variant (i : Nat) (h : DfHid) (s : State) : (setDfH i h s).variant = s.variant := (rfl)
@[simp] theorem setDfH_tick (i : Nat) (h : DfHid) (s : State) : (setDfH i h s).tick = s.tick := (rfl)
@[simp] theorem setDfH_freeCtr (i : Nat) (h : DfHid) (s : State) : (setDfH i h s).freeCtr = s.freeCtr := (rfl)
@[simp] theorem setDfH_reply (i : Nat) (h : DfHid) (s : State) : (setDfH i h s).reply = s.reply := (rfl)
@[simp] theorem setDfH_regs (i : Nat) (h : DfHid) (s : State) : (setDfH i h s).regs = s.regs := (rfl)
@[simp] theorem setDfH_mem (i : Nat) (h : DfHid) (s : State) : (setDfH i h s).mem = s.mem := (rfl)
@[simp] theorem setDfH_now (i : Nat) (h : DfHid) (s : State) : (setDfH i h s).now = s.now := (rfl)
@[simp] theorem setDfH_upset (i : Nat) (h : DfHid) (s : State) : (setDfH i h s).upset = s.upset := (rfl)
@[simp] theorem setDfH_dev (i : Nat) (h : DfHid) (s : State) : (setDfH i h s).dev = s.dev := (rfl)
@[simp] theorem setDfH_nv (i : Nat) (h : DfHid) (s : State) : (setDfH i h s).nv = s.nv := (rfl)
@[simp] theorem setDfH_det (i : Nat) (h : DfHid) (s : State) : (setDfH i h s).det = s.det := (rfl)
@[simp] theorem setDfH_hive (i : Nat) (h : DfHid) (s : State) : (setDfH i h s).hive = s.hive := (rfl)
@[simp] theorem setDfH_dma (i : Nat) (h : DfHid) (s : State) : (setDfH i h s).dma = s.dma := (rfl)
@[simp] theorem setDfH_dmaTurn (i : Nat) (h : DfHid) (s : State) : (setDfH i h s).dmaTurn = s.dmaTurn := (rfl)
@[simp] theorem setDfH_chk (i : Nat) (h : DfHid) (s : State) : (setDfH i h s).chk = s.chk := (rfl)
@[simp] theorem setDfH_armNow (i : Nat) (h : DfHid) (s : State) : (setDfH i h s).armNow = s.armNow := (rfl)
@[simp] theorem setDfH_disNow (i : Nat) (h : DfHid) (s : State) : (setDfH i h s).disNow = s.disNow := (rfl)
@[simp] theorem setDfH_tracks (i : Nat) (h : DfHid) (s : State) : (setDfH i h s).tracks = s.tracks := (rfl)
@[simp] theorem setDfH_slots (i : Nat) (h : DfHid) (s : State) : (setDfH i h s).slots = s.slots := (rfl)
@[simp] theorem setDfH_sets (i : Nat) (h : DfHid) (s : State) : (setDfH i h s).sets = s.sets := (rfl)
@[simp] theorem setDfH_sdOn (i : Nat) (h : DfHid) (s : State) : (setDfH i h s).sdOn = s.sdOn := (rfl)
@[simp] theorem setDfH_hvsOn (i : Nat) (h : DfHid) (s : State) : (setDfH i h s).hvsOn = s.hvsOn := (rfl)
@[simp] theorem setDfH_sdOsr (i : Nat) (h : DfHid) (s : State) : (setDfH i h s).sdOsr = s.sdOsr := (rfl)
@[simp] theorem setDfH_sdGot (i : Nat) (h : DfHid) (s : State) : (setDfH i h s).sdGot = s.sdGot := (rfl)
@[simp] theorem setDfH_sar (i : Nat) (h : DfHid) (s : State) : (setDfH i h s).sar = s.sar := (rfl)
@[simp] theorem setDfH_rsv (i : Nat) (h : DfHid) (s : State) : (setDfH i h s).rsv = s.rsv := (rfl)
@[simp] theorem setDfH_enc (i : Nat) (h : DfHid) (s : State) : (setDfH i h s).enc = s.enc := (rfl)
@[simp] theorem setDfH_encAt (i : Nat) (h : DfHid) (s : State) : (setDfH i h s).encAt = s.encAt := (rfl)
@[simp] theorem setDfH_twLast (i : Nat) (h : DfHid) (s : State) : (setDfH i h s).twLast = s.twLast := (rfl)
@[simp] theorem setDfH_sentErr (i : Nat) (h : DfHid) (s : State) : (setDfH i h s).sentErr = s.sentErr := (rfl)
@[simp] theorem setDfH_sentWas (i : Nat) (h : DfHid) (s : State) : (setDfH i h s).sentWas = s.sentWas := (rfl)
@[simp] theorem setDfH_cal (i : Nat) (h : DfHid) (s : State) : (setDfH i h s).cal = s.cal := (rfl)
@[simp] theorem setDfH_mt (i : Nat) (h : DfHid) (s : State) : (setDfH i h s).mt = s.mt := (rfl)
@[simp] theorem setDfH_inj (i : Nat) (h : DfHid) (s : State) : (setDfH i h s).inj = s.inj := (rfl)
@[simp] theorem setDfH_capt (i : Nat) (h : DfHid) (s : State) : (setDfH i h s).capt = s.capt := (rfl)
@[simp] theorem setDfH_profAt (i : Nat) (h : DfHid) (s : State) : (setDfH i h s).profAt = s.profAt := (rfl)
@[simp] theorem setDfH_cars (i : Nat) (h : DfHid) (s : State) : (setDfH i h s).cars = s.cars := (rfl)
@[simp] theorem setDfH_legs (i : Nat) (h : DfHid) (s : State) : (setDfH i h s).legs = s.legs := (rfl)
@[simp] theorem setDfH_pairs (i : Nat) (h : DfHid) (s : State) : (setDfH i h s).pairs = s.pairs := (rfl)
@[simp] theorem setDfH_groups (i : Nat) (h : DfHid) (s : State) : (setDfH i h s).groups = s.groups := (rfl)
@[simp] theorem setDfH_brake (i : Nat) (h : DfHid) (s : State) : (setDfH i h s).brake = s.brake := (rfl)
@[simp] theorem setDfH_genS (i : Nat) (h : DfHid) (s : State) : (setDfH i h s).genS = s.genS := (rfl)
@[simp] theorem setDfH_ntcWarn (i : Nat) (h : DfHid) (s : State) : (setDfH i h s).ntcWarn = s.ntcWarn := (rfl)
@[simp] theorem setDfH_ntcShut (i : Nat) (h : DfHid) (s : State) : (setDfH i h s).ntcShut = s.ntcShut := (rfl)
@[simp] theorem setDfH_hb (i : Nat) (h : DfHid) (s : State) : (setDfH i h s).hb = s.hb := (rfl)
@[simp] theorem setDfH_adu (i : Nat) (h : DfHid) (s : State) : (setDfH i h s).adu = s.adu := (rfl)
@[simp] theorem setDfH_kd (i : Nat) (h : DfHid) (s : State) : (setDfH i h s).kd = s.kd := (rfl)
@[simp] theorem setDfH_eth (i : Nat) (h : DfHid) (s : State) : (setDfH i h s).eth = s.eth := (rfl)
@[simp] theorem setDfH_sc (i : Nat) (h : DfHid) (s : State) : (setDfH i h s).sc = s.sc := (rfl)
@[simp] theorem setDfH_led (i : Nat) (h : DfHid) (s : State) : (setDfH i h s).led = s.led := (rfl)
@[simp] theorem setDfH_stag (i : Nat) (h : DfHid) (s : State) : (setDfH i h s).stag = s.stag := (rfl)
@[simp] theorem setDfH_ant (i : Nat) (h : DfHid) (s : State) : (setDfH i h s).ant = s.ant := (rfl)
@[simp] theorem setDfH_bw (i : Nat) (h : DfHid) (s : State) : (setDfH i h s).bw = s.bw := (rfl)
@[simp] theorem rg_setDfH (i : Nat) (h : DfHid) (s : State) (pg off : Nat) : rg (setDfH i h s) pg off = rg s pg off := (rfl)

/-! `setAduH` -/

@[simp] theorem setAduH_pending (u : Nat) (h : AduHid) (s : State) : (setAduH u h s).pending = s.pending := (rfl)
@[simp] theorem setAduH_variant (u : Nat) (h : AduHid) (s : State) : (setAduH u h s).variant = s.variant := (rfl)
@[simp] theorem setAduH_tick (u : Nat) (h : AduHid) (s : State) : (setAduH u h s).tick = s.tick := (rfl)
@[simp] theorem setAduH_freeCtr (u : Nat) (h : AduHid) (s : State) : (setAduH u h s).freeCtr = s.freeCtr := (rfl)
@[simp] theorem setAduH_reply (u : Nat) (h : AduHid) (s : State) : (setAduH u h s).reply = s.reply := (rfl)
@[simp] theorem setAduH_regs (u : Nat) (h : AduHid) (s : State) : (setAduH u h s).regs = s.regs := (rfl)
@[simp] theorem setAduH_mem (u : Nat) (h : AduHid) (s : State) : (setAduH u h s).mem = s.mem := (rfl)
@[simp] theorem setAduH_now (u : Nat) (h : AduHid) (s : State) : (setAduH u h s).now = s.now := (rfl)
@[simp] theorem setAduH_upset (u : Nat) (h : AduHid) (s : State) : (setAduH u h s).upset = s.upset := (rfl)
@[simp] theorem setAduH_dev (u : Nat) (h : AduHid) (s : State) : (setAduH u h s).dev = s.dev := (rfl)
@[simp] theorem setAduH_nv (u : Nat) (h : AduHid) (s : State) : (setAduH u h s).nv = s.nv := (rfl)
@[simp] theorem setAduH_det (u : Nat) (h : AduHid) (s : State) : (setAduH u h s).det = s.det := (rfl)
@[simp] theorem setAduH_hive (u : Nat) (h : AduHid) (s : State) : (setAduH u h s).hive = s.hive := (rfl)
@[simp] theorem setAduH_dma (u : Nat) (h : AduHid) (s : State) : (setAduH u h s).dma = s.dma := (rfl)
@[simp] theorem setAduH_dmaTurn (u : Nat) (h : AduHid) (s : State) : (setAduH u h s).dmaTurn = s.dmaTurn := (rfl)
@[simp] theorem setAduH_chk (u : Nat) (h : AduHid) (s : State) : (setAduH u h s).chk = s.chk := (rfl)
@[simp] theorem setAduH_armNow (u : Nat) (h : AduHid) (s : State) : (setAduH u h s).armNow = s.armNow := (rfl)
@[simp] theorem setAduH_disNow (u : Nat) (h : AduHid) (s : State) : (setAduH u h s).disNow = s.disNow := (rfl)
@[simp] theorem setAduH_tracks (u : Nat) (h : AduHid) (s : State) : (setAduH u h s).tracks = s.tracks := (rfl)
@[simp] theorem setAduH_slots (u : Nat) (h : AduHid) (s : State) : (setAduH u h s).slots = s.slots := (rfl)
@[simp] theorem setAduH_sets (u : Nat) (h : AduHid) (s : State) : (setAduH u h s).sets = s.sets := (rfl)
@[simp] theorem setAduH_sdOn (u : Nat) (h : AduHid) (s : State) : (setAduH u h s).sdOn = s.sdOn := (rfl)
@[simp] theorem setAduH_hvsOn (u : Nat) (h : AduHid) (s : State) : (setAduH u h s).hvsOn = s.hvsOn := (rfl)
@[simp] theorem setAduH_sdOsr (u : Nat) (h : AduHid) (s : State) : (setAduH u h s).sdOsr = s.sdOsr := (rfl)
@[simp] theorem setAduH_sdGot (u : Nat) (h : AduHid) (s : State) : (setAduH u h s).sdGot = s.sdGot := (rfl)
@[simp] theorem setAduH_sar (u : Nat) (h : AduHid) (s : State) : (setAduH u h s).sar = s.sar := (rfl)
@[simp] theorem setAduH_rsv (u : Nat) (h : AduHid) (s : State) : (setAduH u h s).rsv = s.rsv := (rfl)
@[simp] theorem setAduH_enc (u : Nat) (h : AduHid) (s : State) : (setAduH u h s).enc = s.enc := (rfl)
@[simp] theorem setAduH_encAt (u : Nat) (h : AduHid) (s : State) : (setAduH u h s).encAt = s.encAt := (rfl)
@[simp] theorem setAduH_twLast (u : Nat) (h : AduHid) (s : State) : (setAduH u h s).twLast = s.twLast := (rfl)
@[simp] theorem setAduH_sentErr (u : Nat) (h : AduHid) (s : State) : (setAduH u h s).sentErr = s.sentErr := (rfl)
@[simp] theorem setAduH_sentWas (u : Nat) (h : AduHid) (s : State) : (setAduH u h s).sentWas = s.sentWas := (rfl)
@[simp] theorem setAduH_cal (u : Nat) (h : AduHid) (s : State) : (setAduH u h s).cal = s.cal := (rfl)
@[simp] theorem setAduH_mt (u : Nat) (h : AduHid) (s : State) : (setAduH u h s).mt = s.mt := (rfl)
@[simp] theorem setAduH_inj (u : Nat) (h : AduHid) (s : State) : (setAduH u h s).inj = s.inj := (rfl)
@[simp] theorem setAduH_capt (u : Nat) (h : AduHid) (s : State) : (setAduH u h s).capt = s.capt := (rfl)
@[simp] theorem setAduH_profAt (u : Nat) (h : AduHid) (s : State) : (setAduH u h s).profAt = s.profAt := (rfl)
@[simp] theorem setAduH_cars (u : Nat) (h : AduHid) (s : State) : (setAduH u h s).cars = s.cars := (rfl)
@[simp] theorem setAduH_legs (u : Nat) (h : AduHid) (s : State) : (setAduH u h s).legs = s.legs := (rfl)
@[simp] theorem setAduH_pairs (u : Nat) (h : AduHid) (s : State) : (setAduH u h s).pairs = s.pairs := (rfl)
@[simp] theorem setAduH_groups (u : Nat) (h : AduHid) (s : State) : (setAduH u h s).groups = s.groups := (rfl)
@[simp] theorem setAduH_brake (u : Nat) (h : AduHid) (s : State) : (setAduH u h s).brake = s.brake := (rfl)
@[simp] theorem setAduH_genS (u : Nat) (h : AduHid) (s : State) : (setAduH u h s).genS = s.genS := (rfl)
@[simp] theorem setAduH_ntcWarn (u : Nat) (h : AduHid) (s : State) : (setAduH u h s).ntcWarn = s.ntcWarn := (rfl)
@[simp] theorem setAduH_ntcShut (u : Nat) (h : AduHid) (s : State) : (setAduH u h s).ntcShut = s.ntcShut := (rfl)
@[simp] theorem setAduH_df (u : Nat) (h : AduHid) (s : State) : (setAduH u h s).df = s.df := (rfl)
@[simp] theorem setAduH_hb (u : Nat) (h : AduHid) (s : State) : (setAduH u h s).hb = s.hb := (rfl)
@[simp] theorem setAduH_kd (u : Nat) (h : AduHid) (s : State) : (setAduH u h s).kd = s.kd := (rfl)
@[simp] theorem setAduH_eth (u : Nat) (h : AduHid) (s : State) : (setAduH u h s).eth = s.eth := (rfl)
@[simp] theorem setAduH_sc (u : Nat) (h : AduHid) (s : State) : (setAduH u h s).sc = s.sc := (rfl)
@[simp] theorem setAduH_led (u : Nat) (h : AduHid) (s : State) : (setAduH u h s).led = s.led := (rfl)
@[simp] theorem setAduH_stag (u : Nat) (h : AduHid) (s : State) : (setAduH u h s).stag = s.stag := (rfl)
@[simp] theorem setAduH_ant (u : Nat) (h : AduHid) (s : State) : (setAduH u h s).ant = s.ant := (rfl)
@[simp] theorem setAduH_bw (u : Nat) (h : AduHid) (s : State) : (setAduH u h s).bw = s.bw := (rfl)
@[simp] theorem rg_setAduH (u : Nat) (h : AduHid) (s : State) (pg off : Nat) : rg (setAduH u h s) pg off = rg s pg off := (rfl)

/-! `setKdH` -/

@[simp] theorem setKdH_pending (k : Nat) (h : KdHid) (s : State) : (setKdH k h s).pending = s.pending := (rfl)
@[simp] theorem setKdH_variant (k : Nat) (h : KdHid) (s : State) : (setKdH k h s).variant = s.variant := (rfl)
@[simp] theorem setKdH_tick (k : Nat) (h : KdHid) (s : State) : (setKdH k h s).tick = s.tick := (rfl)
@[simp] theorem setKdH_freeCtr (k : Nat) (h : KdHid) (s : State) : (setKdH k h s).freeCtr = s.freeCtr := (rfl)
@[simp] theorem setKdH_reply (k : Nat) (h : KdHid) (s : State) : (setKdH k h s).reply = s.reply := (rfl)
@[simp] theorem setKdH_regs (k : Nat) (h : KdHid) (s : State) : (setKdH k h s).regs = s.regs := (rfl)
@[simp] theorem setKdH_mem (k : Nat) (h : KdHid) (s : State) : (setKdH k h s).mem = s.mem := (rfl)
@[simp] theorem setKdH_now (k : Nat) (h : KdHid) (s : State) : (setKdH k h s).now = s.now := (rfl)
@[simp] theorem setKdH_upset (k : Nat) (h : KdHid) (s : State) : (setKdH k h s).upset = s.upset := (rfl)
@[simp] theorem setKdH_dev (k : Nat) (h : KdHid) (s : State) : (setKdH k h s).dev = s.dev := (rfl)
@[simp] theorem setKdH_nv (k : Nat) (h : KdHid) (s : State) : (setKdH k h s).nv = s.nv := (rfl)
@[simp] theorem setKdH_det (k : Nat) (h : KdHid) (s : State) : (setKdH k h s).det = s.det := (rfl)
@[simp] theorem setKdH_hive (k : Nat) (h : KdHid) (s : State) : (setKdH k h s).hive = s.hive := (rfl)
@[simp] theorem setKdH_dma (k : Nat) (h : KdHid) (s : State) : (setKdH k h s).dma = s.dma := (rfl)
@[simp] theorem setKdH_dmaTurn (k : Nat) (h : KdHid) (s : State) : (setKdH k h s).dmaTurn = s.dmaTurn := (rfl)
@[simp] theorem setKdH_chk (k : Nat) (h : KdHid) (s : State) : (setKdH k h s).chk = s.chk := (rfl)
@[simp] theorem setKdH_armNow (k : Nat) (h : KdHid) (s : State) : (setKdH k h s).armNow = s.armNow := (rfl)
@[simp] theorem setKdH_disNow (k : Nat) (h : KdHid) (s : State) : (setKdH k h s).disNow = s.disNow := (rfl)
@[simp] theorem setKdH_tracks (k : Nat) (h : KdHid) (s : State) : (setKdH k h s).tracks = s.tracks := (rfl)
@[simp] theorem setKdH_slots (k : Nat) (h : KdHid) (s : State) : (setKdH k h s).slots = s.slots := (rfl)
@[simp] theorem setKdH_sets (k : Nat) (h : KdHid) (s : State) : (setKdH k h s).sets = s.sets := (rfl)
@[simp] theorem setKdH_sdOn (k : Nat) (h : KdHid) (s : State) : (setKdH k h s).sdOn = s.sdOn := (rfl)
@[simp] theorem setKdH_hvsOn (k : Nat) (h : KdHid) (s : State) : (setKdH k h s).hvsOn = s.hvsOn := (rfl)
@[simp] theorem setKdH_sdOsr (k : Nat) (h : KdHid) (s : State) : (setKdH k h s).sdOsr = s.sdOsr := (rfl)
@[simp] theorem setKdH_sdGot (k : Nat) (h : KdHid) (s : State) : (setKdH k h s).sdGot = s.sdGot := (rfl)
@[simp] theorem setKdH_sar (k : Nat) (h : KdHid) (s : State) : (setKdH k h s).sar = s.sar := (rfl)
@[simp] theorem setKdH_rsv (k : Nat) (h : KdHid) (s : State) : (setKdH k h s).rsv = s.rsv := (rfl)
@[simp] theorem setKdH_enc (k : Nat) (h : KdHid) (s : State) : (setKdH k h s).enc = s.enc := (rfl)
@[simp] theorem setKdH_encAt (k : Nat) (h : KdHid) (s : State) : (setKdH k h s).encAt = s.encAt := (rfl)
@[simp] theorem setKdH_twLast (k : Nat) (h : KdHid) (s : State) : (setKdH k h s).twLast = s.twLast := (rfl)
@[simp] theorem setKdH_sentErr (k : Nat) (h : KdHid) (s : State) : (setKdH k h s).sentErr = s.sentErr := (rfl)
@[simp] theorem setKdH_sentWas (k : Nat) (h : KdHid) (s : State) : (setKdH k h s).sentWas = s.sentWas := (rfl)
@[simp] theorem setKdH_cal (k : Nat) (h : KdHid) (s : State) : (setKdH k h s).cal = s.cal := (rfl)
@[simp] theorem setKdH_mt (k : Nat) (h : KdHid) (s : State) : (setKdH k h s).mt = s.mt := (rfl)
@[simp] theorem setKdH_inj (k : Nat) (h : KdHid) (s : State) : (setKdH k h s).inj = s.inj := (rfl)
@[simp] theorem setKdH_capt (k : Nat) (h : KdHid) (s : State) : (setKdH k h s).capt = s.capt := (rfl)
@[simp] theorem setKdH_profAt (k : Nat) (h : KdHid) (s : State) : (setKdH k h s).profAt = s.profAt := (rfl)
@[simp] theorem setKdH_cars (k : Nat) (h : KdHid) (s : State) : (setKdH k h s).cars = s.cars := (rfl)
@[simp] theorem setKdH_legs (k : Nat) (h : KdHid) (s : State) : (setKdH k h s).legs = s.legs := (rfl)
@[simp] theorem setKdH_pairs (k : Nat) (h : KdHid) (s : State) : (setKdH k h s).pairs = s.pairs := (rfl)
@[simp] theorem setKdH_groups (k : Nat) (h : KdHid) (s : State) : (setKdH k h s).groups = s.groups := (rfl)
@[simp] theorem setKdH_brake (k : Nat) (h : KdHid) (s : State) : (setKdH k h s).brake = s.brake := (rfl)
@[simp] theorem setKdH_genS (k : Nat) (h : KdHid) (s : State) : (setKdH k h s).genS = s.genS := (rfl)
@[simp] theorem setKdH_ntcWarn (k : Nat) (h : KdHid) (s : State) : (setKdH k h s).ntcWarn = s.ntcWarn := (rfl)
@[simp] theorem setKdH_ntcShut (k : Nat) (h : KdHid) (s : State) : (setKdH k h s).ntcShut = s.ntcShut := (rfl)
@[simp] theorem setKdH_df (k : Nat) (h : KdHid) (s : State) : (setKdH k h s).df = s.df := (rfl)
@[simp] theorem setKdH_hb (k : Nat) (h : KdHid) (s : State) : (setKdH k h s).hb = s.hb := (rfl)
@[simp] theorem setKdH_adu (k : Nat) (h : KdHid) (s : State) : (setKdH k h s).adu = s.adu := (rfl)
@[simp] theorem setKdH_eth (k : Nat) (h : KdHid) (s : State) : (setKdH k h s).eth = s.eth := (rfl)
@[simp] theorem setKdH_sc (k : Nat) (h : KdHid) (s : State) : (setKdH k h s).sc = s.sc := (rfl)
@[simp] theorem setKdH_led (k : Nat) (h : KdHid) (s : State) : (setKdH k h s).led = s.led := (rfl)
@[simp] theorem setKdH_stag (k : Nat) (h : KdHid) (s : State) : (setKdH k h s).stag = s.stag := (rfl)
@[simp] theorem setKdH_ant (k : Nat) (h : KdHid) (s : State) : (setKdH k h s).ant = s.ant := (rfl)
@[simp] theorem setKdH_bw (k : Nat) (h : KdHid) (s : State) : (setKdH k h s).bw = s.bw := (rfl)
@[simp] theorem rg_setKdH (k : Nat) (h : KdHid) (s : State) (pg off : Nat) : rg (setKdH k h s) pg off = rg s pg off := (rfl)

/-! `setEth` -/

@[simp] theorem setEth_pending (h : EthHid) (s : State) : (setEth h s).pending = s.pending := (rfl)
@[simp] theorem setEth_variant (h : EthHid) (s : State) : (setEth h s).variant = s.variant := (rfl)
@[simp] theorem setEth_tick (h : EthHid) (s : State) : (setEth h s).tick = s.tick := (rfl)
@[simp] theorem setEth_freeCtr (h : EthHid) (s : State) : (setEth h s).freeCtr = s.freeCtr := (rfl)
@[simp] theorem setEth_reply (h : EthHid) (s : State) : (setEth h s).reply = s.reply := (rfl)
@[simp] theorem setEth_regs (h : EthHid) (s : State) : (setEth h s).regs = s.regs := (rfl)
@[simp] theorem setEth_mem (h : EthHid) (s : State) : (setEth h s).mem = s.mem := (rfl)
@[simp] theorem setEth_now (h : EthHid) (s : State) : (setEth h s).now = s.now := (rfl)
@[simp] theorem setEth_upset (h : EthHid) (s : State) : (setEth h s).upset = s.upset := (rfl)
@[simp] theorem setEth_dev (h : EthHid) (s : State) : (setEth h s).dev = s.dev := (rfl)
@[simp] theorem setEth_nv (h : EthHid) (s : State) : (setEth h s).nv = s.nv := (rfl)
@[simp] theorem setEth_det (h : EthHid) (s : State) : (setEth h s).det = s.det := (rfl)
@[simp] theorem setEth_hive (h : EthHid) (s : State) : (setEth h s).hive = s.hive := (rfl)
@[simp] theorem setEth_dma (h : EthHid) (s : State) : (setEth h s).dma = s.dma := (rfl)
@[simp] theorem setEth_dmaTurn (h : EthHid) (s : State) : (setEth h s).dmaTurn = s.dmaTurn := (rfl)
@[simp] theorem setEth_chk (h : EthHid) (s : State) : (setEth h s).chk = s.chk := (rfl)
@[simp] theorem setEth_armNow (h : EthHid) (s : State) : (setEth h s).armNow = s.armNow := (rfl)
@[simp] theorem setEth_disNow (h : EthHid) (s : State) : (setEth h s).disNow = s.disNow := (rfl)
@[simp] theorem setEth_tracks (h : EthHid) (s : State) : (setEth h s).tracks = s.tracks := (rfl)
@[simp] theorem setEth_slots (h : EthHid) (s : State) : (setEth h s).slots = s.slots := (rfl)
@[simp] theorem setEth_sets (h : EthHid) (s : State) : (setEth h s).sets = s.sets := (rfl)
@[simp] theorem setEth_sdOn (h : EthHid) (s : State) : (setEth h s).sdOn = s.sdOn := (rfl)
@[simp] theorem setEth_hvsOn (h : EthHid) (s : State) : (setEth h s).hvsOn = s.hvsOn := (rfl)
@[simp] theorem setEth_sdOsr (h : EthHid) (s : State) : (setEth h s).sdOsr = s.sdOsr := (rfl)
@[simp] theorem setEth_sdGot (h : EthHid) (s : State) : (setEth h s).sdGot = s.sdGot := (rfl)
@[simp] theorem setEth_sar (h : EthHid) (s : State) : (setEth h s).sar = s.sar := (rfl)
@[simp] theorem setEth_rsv (h : EthHid) (s : State) : (setEth h s).rsv = s.rsv := (rfl)
@[simp] theorem setEth_enc (h : EthHid) (s : State) : (setEth h s).enc = s.enc := (rfl)
@[simp] theorem setEth_encAt (h : EthHid) (s : State) : (setEth h s).encAt = s.encAt := (rfl)
@[simp] theorem setEth_twLast (h : EthHid) (s : State) : (setEth h s).twLast = s.twLast := (rfl)
@[simp] theorem setEth_sentErr (h : EthHid) (s : State) : (setEth h s).sentErr = s.sentErr := (rfl)
@[simp] theorem setEth_sentWas (h : EthHid) (s : State) : (setEth h s).sentWas = s.sentWas := (rfl)
@[simp] theorem setEth_cal (h : EthHid) (s : State) : (setEth h s).cal = s.cal := (rfl)
@[simp] theorem setEth_mt (h : EthHid) (s : State) : (setEth h s).mt = s.mt := (rfl)
@[simp] theorem setEth_inj (h : EthHid) (s : State) : (setEth h s).inj = s.inj := (rfl)
@[simp] theorem setEth_capt (h : EthHid) (s : State) : (setEth h s).capt = s.capt := (rfl)
@[simp] theorem setEth_profAt (h : EthHid) (s : State) : (setEth h s).profAt = s.profAt := (rfl)
@[simp] theorem setEth_cars (h : EthHid) (s : State) : (setEth h s).cars = s.cars := (rfl)
@[simp] theorem setEth_legs (h : EthHid) (s : State) : (setEth h s).legs = s.legs := (rfl)
@[simp] theorem setEth_pairs (h : EthHid) (s : State) : (setEth h s).pairs = s.pairs := (rfl)
@[simp] theorem setEth_groups (h : EthHid) (s : State) : (setEth h s).groups = s.groups := (rfl)
@[simp] theorem setEth_brake (h : EthHid) (s : State) : (setEth h s).brake = s.brake := (rfl)
@[simp] theorem setEth_genS (h : EthHid) (s : State) : (setEth h s).genS = s.genS := (rfl)
@[simp] theorem setEth_ntcWarn (h : EthHid) (s : State) : (setEth h s).ntcWarn = s.ntcWarn := (rfl)
@[simp] theorem setEth_ntcShut (h : EthHid) (s : State) : (setEth h s).ntcShut = s.ntcShut := (rfl)
@[simp] theorem setEth_df (h : EthHid) (s : State) : (setEth h s).df = s.df := (rfl)
@[simp] theorem setEth_hb (h : EthHid) (s : State) : (setEth h s).hb = s.hb := (rfl)
@[simp] theorem setEth_adu (h : EthHid) (s : State) : (setEth h s).adu = s.adu := (rfl)
@[simp] theorem setEth_kd (h : EthHid) (s : State) : (setEth h s).kd = s.kd := (rfl)
@[simp] theorem setEth_sc (h : EthHid) (s : State) : (setEth h s).sc = s.sc := (rfl)
@[simp] theorem setEth_led (h : EthHid) (s : State) : (setEth h s).led = s.led := (rfl)
@[simp] theorem setEth_stag (h : EthHid) (s : State) : (setEth h s).stag = s.stag := (rfl)
@[simp] theorem setEth_ant (h : EthHid) (s : State) : (setEth h s).ant = s.ant := (rfl)
@[simp] theorem setEth_bw (h : EthHid) (s : State) : (setEth h s).bw = s.bw := (rfl)
@[simp] theorem rg_setEth (h : EthHid) (s : State) (pg off : Nat) : rg (setEth h s) pg off = rg s pg off := (rfl)

/-! `setSc` -/

@[simp] theorem setSc_pending (h : ScHid) (s : State) : (setSc h s).pending = s.pending := (rfl)
@[simp] theorem setSc_variant (h : ScHid) (s : State) : (setSc h s).variant = s.variant := (rfl)
@[simp] theorem setSc_tick (h : ScHid) (s : State) : (setSc h s).tick = s.tick := (rfl)
@[simp] theorem setSc_freeCtr (h : ScHid) (s : State) : (setSc h s).freeCtr = s.freeCtr := (rfl)
@[simp] theorem setSc_reply (h : ScHid) (s : State) : (setSc h s).reply = s.reply := (rfl)
@[simp] theorem setSc_regs (h : ScHid) (s : State) : (setSc h s).regs = s.regs := (rfl)
@[simp] theorem setSc_mem (h : ScHid) (s : State) : (setSc h s).mem = s.mem := (rfl)
@[simp] theorem setSc_now (h : ScHid) (s : State) : (setSc h s).now = s.now := (rfl)
@[simp] theorem setSc_upset (h : ScHid) (s : State) : (setSc h s).upset = s.upset := (rfl)
@[simp] theorem setSc_dev (h : ScHid) (s : State) : (setSc h s).dev = s.dev := (rfl)
@[simp] theorem setSc_nv (h : ScHid) (s : State) : (setSc h s).nv = s.nv := (rfl)
@[simp] theorem setSc_det (h : ScHid) (s : State) : (setSc h s).det = s.det := (rfl)
@[simp] theorem setSc_hive (h : ScHid) (s : State) : (setSc h s).hive = s.hive := (rfl)
@[simp] theorem setSc_dma (h : ScHid) (s : State) : (setSc h s).dma = s.dma := (rfl)
@[simp] theorem setSc_dmaTurn (h : ScHid) (s : State) : (setSc h s).dmaTurn = s.dmaTurn := (rfl)
@[simp] theorem setSc_chk (h : ScHid) (s : State) : (setSc h s).chk = s.chk := (rfl)
@[simp] theorem setSc_armNow (h : ScHid) (s : State) : (setSc h s).armNow = s.armNow := (rfl)
@[simp] theorem setSc_disNow (h : ScHid) (s : State) : (setSc h s).disNow = s.disNow := (rfl)
@[simp] theorem setSc_tracks (h : ScHid) (s : State) : (setSc h s).tracks = s.tracks := (rfl)
@[simp] theorem setSc_slots (h : ScHid) (s : State) : (setSc h s).slots = s.slots := (rfl)
@[simp] theorem setSc_sets (h : ScHid) (s : State) : (setSc h s).sets = s.sets := (rfl)
@[simp] theorem setSc_sdOn (h : ScHid) (s : State) : (setSc h s).sdOn = s.sdOn := (rfl)
@[simp] theorem setSc_hvsOn (h : ScHid) (s : State) : (setSc h s).hvsOn = s.hvsOn := (rfl)
@[simp] theorem setSc_sdOsr (h : ScHid) (s : State) : (setSc h s).sdOsr = s.sdOsr := (rfl)
@[simp] theorem setSc_sdGot (h : ScHid) (s : State) : (setSc h s).sdGot = s.sdGot := (rfl)
@[simp] theorem setSc_sar (h : ScHid) (s : State) : (setSc h s).sar = s.sar := (rfl)
@[simp] theorem setSc_rsv (h : ScHid) (s : State) : (setSc h s).rsv = s.rsv := (rfl)
@[simp] theorem setSc_enc (h : ScHid) (s : State) : (setSc h s).enc = s.enc := (rfl)
@[simp] theorem setSc_encAt (h : ScHid) (s : State) : (setSc h s).encAt = s.encAt := (rfl)
@[simp] theorem setSc_twLast (h : ScHid) (s : State) : (setSc h s).twLast = s.twLast := (rfl)
@[simp] theorem setSc_sentErr (h : ScHid) (s : State) : (setSc h s).sentErr = s.sentErr := (rfl)
@[simp] theorem setSc_sentWas (h : ScHid) (s : State) : (setSc h s).sentWas = s.sentWas := (rfl)
@[simp] theorem setSc_cal (h : ScHid) (s : State) : (setSc h s).cal = s.cal := (rfl)
@[simp] theorem setSc_mt (h : ScHid) (s : State) : (setSc h s).mt = s.mt := (rfl)
@[simp] theorem setSc_inj (h : ScHid) (s : State) : (setSc h s).inj = s.inj := (rfl)
@[simp] theorem setSc_capt (h : ScHid) (s : State) : (setSc h s).capt = s.capt := (rfl)
@[simp] theorem setSc_profAt (h : ScHid) (s : State) : (setSc h s).profAt = s.profAt := (rfl)
@[simp] theorem setSc_cars (h : ScHid) (s : State) : (setSc h s).cars = s.cars := (rfl)
@[simp] theorem setSc_legs (h : ScHid) (s : State) : (setSc h s).legs = s.legs := (rfl)
@[simp] theorem setSc_pairs (h : ScHid) (s : State) : (setSc h s).pairs = s.pairs := (rfl)
@[simp] theorem setSc_groups (h : ScHid) (s : State) : (setSc h s).groups = s.groups := (rfl)
@[simp] theorem setSc_brake (h : ScHid) (s : State) : (setSc h s).brake = s.brake := (rfl)
@[simp] theorem setSc_genS (h : ScHid) (s : State) : (setSc h s).genS = s.genS := (rfl)
@[simp] theorem setSc_ntcWarn (h : ScHid) (s : State) : (setSc h s).ntcWarn = s.ntcWarn := (rfl)
@[simp] theorem setSc_ntcShut (h : ScHid) (s : State) : (setSc h s).ntcShut = s.ntcShut := (rfl)
@[simp] theorem setSc_df (h : ScHid) (s : State) : (setSc h s).df = s.df := (rfl)
@[simp] theorem setSc_hb (h : ScHid) (s : State) : (setSc h s).hb = s.hb := (rfl)
@[simp] theorem setSc_adu (h : ScHid) (s : State) : (setSc h s).adu = s.adu := (rfl)
@[simp] theorem setSc_kd (h : ScHid) (s : State) : (setSc h s).kd = s.kd := (rfl)
@[simp] theorem setSc_eth (h : ScHid) (s : State) : (setSc h s).eth = s.eth := (rfl)
@[simp] theorem setSc_led (h : ScHid) (s : State) : (setSc h s).led = s.led := (rfl)
@[simp] theorem setSc_stag (h : ScHid) (s : State) : (setSc h s).stag = s.stag := (rfl)
@[simp] theorem setSc_ant (h : ScHid) (s : State) : (setSc h s).ant = s.ant := (rfl)
@[simp] theorem setSc_bw (h : ScHid) (s : State) : (setSc h s).bw = s.bw := (rfl)
@[simp] theorem rg_setSc (h : ScHid) (s : State) (pg off : Nat) : rg (setSc h s) pg off = rg s pg off := (rfl)

/-! `setLed` -/

@[simp] theorem setLed_pending (h : LedHid) (s : State) : (setLed h s).pending = s.pending := (rfl)
@[simp] theorem setLed_variant (h : LedHid) (s : State) : (setLed h s).variant = s.variant := (rfl)
@[simp] theorem setLed_tick (h : LedHid) (s : State) : (setLed h s).tick = s.tick := (rfl)
@[simp] theorem setLed_freeCtr (h : LedHid) (s : State) : (setLed h s).freeCtr = s.freeCtr := (rfl)
@[simp] theorem setLed_reply (h : LedHid) (s : State) : (setLed h s).reply = s.reply := (rfl)
@[simp] theorem setLed_regs (h : LedHid) (s : State) : (setLed h s).regs = s.regs := (rfl)
@[simp] theorem setLed_mem (h : LedHid) (s : State) : (setLed h s).mem = s.mem := (rfl)
@[simp] theorem setLed_now (h : LedHid) (s : State) : (setLed h s).now = s.now := (rfl)
@[simp] theorem setLed_upset (h : LedHid) (s : State) : (setLed h s).upset = s.upset := (rfl)
@[simp] theorem setLed_dev (h : LedHid) (s : State) : (setLed h s).dev = s.dev := (rfl)
@[simp] theorem setLed_nv (h : LedHid) (s : State) : (setLed h s).nv = s.nv := (rfl)
@[simp] theorem setLed_det (h : LedHid) (s : State) : (setLed h s).det = s.det := (rfl)
@[simp] theorem setLed_hive (h : LedHid) (s : State) : (setLed h s).hive = s.hive := (rfl)
@[simp] theorem setLed_dma (h : LedHid) (s : State) : (setLed h s).dma = s.dma := (rfl)
@[simp] theorem setLed_dmaTurn (h : LedHid) (s : State) : (setLed h s).dmaTurn = s.dmaTurn := (rfl)
@[simp] theorem setLed_chk (h : LedHid) (s : State) : (setLed h s).chk = s.chk := (rfl)
@[simp] theorem setLed_armNow (h : LedHid) (s : State) : (setLed h s).armNow = s.armNow := (rfl)
@[simp] theorem setLed_disNow (h : LedHid) (s : State) : (setLed h s).disNow = s.disNow := (rfl)
@[simp] theorem setLed_tracks (h : LedHid) (s : State) : (setLed h s).tracks = s.tracks := (rfl)
@[simp] theorem setLed_slots (h : LedHid) (s : State) : (setLed h s).slots = s.slots := (rfl)
@[simp] theorem setLed_sets (h : LedHid) (s : State) : (setLed h s).sets = s.sets := (rfl)
@[simp] theorem setLed_sdOn (h : LedHid) (s : State) : (setLed h s).sdOn = s.sdOn := (rfl)
@[simp] theorem setLed_hvsOn (h : LedHid) (s : State) : (setLed h s).hvsOn = s.hvsOn := (rfl)
@[simp] theorem setLed_sdOsr (h : LedHid) (s : State) : (setLed h s).sdOsr = s.sdOsr := (rfl)
@[simp] theorem setLed_sdGot (h : LedHid) (s : State) : (setLed h s).sdGot = s.sdGot := (rfl)
@[simp] theorem setLed_sar (h : LedHid) (s : State) : (setLed h s).sar = s.sar := (rfl)
@[simp] theorem setLed_rsv (h : LedHid) (s : State) : (setLed h s).rsv = s.rsv := (rfl)
@[simp] theorem setLed_enc (h : LedHid) (s : State) : (setLed h s).enc = s.enc := (rfl)
@[simp] theorem setLed_encAt (h : LedHid) (s : State) : (setLed h s).encAt = s.encAt := (rfl)
@[simp] theorem setLed_twLast (h : LedHid) (s : State) : (setLed h s).twLast = s.twLast := (rfl)
@[simp] theorem setLed_sentErr (h : LedHid) (s : State) : (setLed h s).sentErr = s.sentErr := (rfl)
@[simp] theorem setLed_sentWas (h : LedHid) (s : State) : (setLed h s).sentWas = s.sentWas := (rfl)
@[simp] theorem setLed_cal (h : LedHid) (s : State) : (setLed h s).cal = s.cal := (rfl)
@[simp] theorem setLed_mt (h : LedHid) (s : State) : (setLed h s).mt = s.mt := (rfl)
@[simp] theorem setLed_inj (h : LedHid) (s : State) : (setLed h s).inj = s.inj := (rfl)
@[simp] theorem setLed_capt (h : LedHid) (s : State) : (setLed h s).capt = s.capt := (rfl)
@[simp] theorem setLed_profAt (h : LedHid) (s : State) : (setLed h s).profAt = s.profAt := (rfl)
@[simp] theorem setLed_cars (h : LedHid) (s : State) : (setLed h s).cars = s.cars := (rfl)
@[simp] theorem setLed_legs (h : LedHid) (s : State) : (setLed h s).legs = s.legs := (rfl)
@[simp] theorem setLed_pairs (h : LedHid) (s : State) : (setLed h s).pairs = s.pairs := (rfl)
@[simp] theorem setLed_groups (h : LedHid) (s : State) : (setLed h s).groups = s.groups := (rfl)
@[simp] theorem setLed_brake (h : LedHid) (s : State) : (setLed h s).brake = s.brake := (rfl)
@[simp] theorem setLed_genS (h : LedHid) (s : State) : (setLed h s).genS = s.genS := (rfl)
@[simp] theorem setLed_ntcWarn (h : LedHid) (s : State) : (setLed h s).ntcWarn = s.ntcWarn := (rfl)
@[simp] theorem setLed_ntcShut (h : LedHid) (s : State) : (setLed h s).ntcShut = s.ntcShut := (rfl)
@[simp] theorem setLed_df (h : LedHid) (s : State) : (setLed h s).df = s.df := (rfl)
@[simp] theorem setLed_hb (h : LedHid) (s : State) : (setLed h s).hb = s.hb := (rfl)
@[simp] theorem setLed_adu (h : LedHid) (s : State) : (setLed h s).adu = s.adu := (rfl)
@[simp] theorem setLed_kd (h : LedHid) (s : State) : (setLed h s).kd = s.kd := (rfl)
@[simp] theorem setLed_eth (h : LedHid) (s : State) : (setLed h s).eth = s.eth := (rfl)
@[simp] theorem setLed_sc (h : LedHid) (s : State) : (setLed h s).sc = s.sc := (rfl)
@[simp] theorem setLed_stag (h : LedHid) (s : State) : (setLed h s).stag = s.stag := (rfl)
@[simp] theorem setLed_ant (h : LedHid) (s : State) : (setLed h s).ant = s.ant := (rfl)
@[simp] theorem setLed_bw (h : LedHid) (s : State) : (setLed h s).bw = s.bw := (rfl)
@[simp] theorem rg_setLed (h : LedHid) (s : State) (pg off : Nat) : rg (setLed h s) pg off = rg s pg off := (rfl)

/-! `setLedNv` -/

@[simp] theorem setLedNv_pending (h : LedNv) (s : State) : (setLedNv h s).pending = s.pending := (rfl)
@[simp] theorem setLedNv_variant (h : LedNv) (s : State) : (setLedNv h s).variant = s.variant := (rfl)
@[simp] theorem setLedNv_tick (h : LedNv) (s : State) : (setLedNv h s).tick = s.tick := (rfl)
@[simp] theorem setLedNv_freeCtr (h : LedNv) (s : State) : (setLedNv h s).freeCtr = s.freeCtr := (rfl)
@[simp] theorem setLedNv_reply (h : LedNv) (s : State) : (setLedNv h s).reply = s.reply := (rfl)
@[simp] theorem setLedNv_regs (h : LedNv) (s : State) : (setLedNv h s).regs = s.regs := (rfl)
@[simp] theorem setLedNv_mem (h : LedNv) (s : State) : (setLedNv h s).mem = s.mem := (rfl)
@[simp] theorem setLedNv_now (h : LedNv) (s : State) : (setLedNv h s).now = s.now := (rfl)
@[simp] theorem setLedNv_upset (h : LedNv) (s : State) : (setLedNv h s).upset = s.upset := (rfl)
@[simp] theorem setLedNv_dev (h : LedNv) (s : State) : (setLedNv h s).dev = s.dev := (rfl)
@[simp] theorem setLedNv_det (h : LedNv) (s : State) : (setLedNv h s).det = s.det := (rfl)
@[simp] theorem setLedNv_hive (h : LedNv) (s : State) : (setLedNv h s).hive = s.hive := (rfl)
@[simp] theorem setLedNv_dma (h : LedNv) (s : State) : (setLedNv h s).dma = s.dma := (rfl)
@[simp] theorem setLedNv_dmaTurn (h : LedNv) (s : State) : (setLedNv h s).dmaTurn = s.dmaTurn := (rfl)
@[simp] theorem setLedNv_chk (h : LedNv) (s : State) : (setLedNv h s).chk = s.chk := (rfl)
@[simp] theorem setLedNv_armNow (h : LedNv) (s : State) : (setLedNv h s).armNow = s.armNow := (rfl)
@[simp] theorem setLedNv_disNow (h : LedNv) (s : State) : (setLedNv h s).disNow = s.disNow := (rfl)
@[simp] theorem setLedNv_tracks (h : LedNv) (s : State) : (setLedNv h s).tracks = s.tracks := (rfl)
@[simp] theorem setLedNv_slots (h : LedNv) (s : State) : (setLedNv h s).slots = s.slots := (rfl)
@[simp] theorem setLedNv_sets (h : LedNv) (s : State) : (setLedNv h s).sets = s.sets := (rfl)
@[simp] theorem setLedNv_sdOn (h : LedNv) (s : State) : (setLedNv h s).sdOn = s.sdOn := (rfl)
@[simp] theorem setLedNv_hvsOn (h : LedNv) (s : State) : (setLedNv h s).hvsOn = s.hvsOn := (rfl)
@[simp] theorem setLedNv_sdOsr (h : LedNv) (s : State) : (setLedNv h s).sdOsr = s.sdOsr := (rfl)
@[simp] theorem setLedNv_sdGot (h : LedNv) (s : State) : (setLedNv h s).sdGot = s.sdGot := (rfl)
@[simp] theorem setLedNv_sar (h : LedNv) (s : State) : (setLedNv h s).sar = s.sar := (rfl)
@[simp] theorem setLedNv_rsv (h : LedNv) (s : State) : (setLedNv h s).rsv = s.rsv := (rfl)
@[simp] theorem setLedNv_enc (h : LedNv) (s : State) : (setLedNv h s).enc = s.enc := (rfl)
@[simp] theorem setLedNv_encAt (h : LedNv) (s : State) : (setLedNv h s).encAt = s.encAt := (rfl)
@[simp] theorem setLedNv_twLast (h : LedNv) (s : State) : (setLedNv h s).twLast = s.twLast := (rfl)
@[simp] theorem setLedNv_sentErr (h : LedNv) (s : State) : (setLedNv h s).sentErr = s.sentErr := (rfl)
@[simp] theorem setLedNv_sentWas (h : LedNv) (s : State) : (setLedNv h s).sentWas = s.sentWas := (rfl)
@[simp] theorem setLedNv_cal (h : LedNv) (s : State) : (setLedNv h s).cal = s.cal := (rfl)
@[simp] theorem setLedNv_mt (h : LedNv) (s : State) : (setLedNv h s).mt = s.mt := (rfl)
@[simp] theorem setLedNv_inj (h : LedNv) (s : State) : (setLedNv h s).inj = s.inj := (rfl)
@[simp] theorem setLedNv_capt (h : LedNv) (s : State) : (setLedNv h s).capt = s.capt := (rfl)
@[simp] theorem setLedNv_profAt (h : LedNv) (s : State) : (setLedNv h s).profAt = s.profAt := (rfl)
@[simp] theorem setLedNv_cars (h : LedNv) (s : State) : (setLedNv h s).cars = s.cars := (rfl)
@[simp] theorem setLedNv_legs (h : LedNv) (s : State) : (setLedNv h s).legs = s.legs := (rfl)
@[simp] theorem setLedNv_pairs (h : LedNv) (s : State) : (setLedNv h s).pairs = s.pairs := (rfl)
@[simp] theorem setLedNv_groups (h : LedNv) (s : State) : (setLedNv h s).groups = s.groups := (rfl)
@[simp] theorem setLedNv_brake (h : LedNv) (s : State) : (setLedNv h s).brake = s.brake := (rfl)
@[simp] theorem setLedNv_genS (h : LedNv) (s : State) : (setLedNv h s).genS = s.genS := (rfl)
@[simp] theorem setLedNv_ntcWarn (h : LedNv) (s : State) : (setLedNv h s).ntcWarn = s.ntcWarn := (rfl)
@[simp] theorem setLedNv_ntcShut (h : LedNv) (s : State) : (setLedNv h s).ntcShut = s.ntcShut := (rfl)
@[simp] theorem setLedNv_df (h : LedNv) (s : State) : (setLedNv h s).df = s.df := (rfl)
@[simp] theorem setLedNv_hb (h : LedNv) (s : State) : (setLedNv h s).hb = s.hb := (rfl)
@[simp] theorem setLedNv_adu (h : LedNv) (s : State) : (setLedNv h s).adu = s.adu := (rfl)
@[simp] theorem setLedNv_kd (h : LedNv) (s : State) : (setLedNv h s).kd = s.kd := (rfl)
@[simp] theorem setLedNv_eth (h : LedNv) (s : State) : (setLedNv h s).eth = s.eth := (rfl)
@[simp] theorem setLedNv_sc (h : LedNv) (s : State) : (setLedNv h s).sc = s.sc := (rfl)
@[simp] theorem setLedNv_led (h : LedNv) (s : State) : (setLedNv h s).led = s.led := (rfl)
@[simp] theorem setLedNv_stag (h : LedNv) (s : State) : (setLedNv h s).stag = s.stag := (rfl)
@[simp] theorem setLedNv_ant (h : LedNv) (s : State) : (setLedNv h s).ant = s.ant := (rfl)
@[simp] theorem setLedNv_bw (h : LedNv) (s : State) : (setLedNv h s).bw = s.bw := (rfl)
@[simp] theorem rg_setLedNv (h : LedNv) (s : State) (pg off : Nat) : rg (setLedNv h s) pg off = rg s pg off := (rfl)

/-! `setStagH` -/

@[simp] theorem setStagH_pending (x : Nat) (h : StagHid) (s : State) : (setStagH x h s).pending = s.pending := (rfl)
@[simp] theorem setStagH_variant (x : Nat) (h : StagHid) (s : State) : (setStagH x h s).variant = s.variant := (rfl)
@[simp] theorem setStagH_tick (x : Nat) (h : StagHid) (s : State) : (setStagH x h s).tick = s.tick := (rfl)
@[simp] theorem setStagH_freeCtr (x : Nat) (h : StagHid) (s : State) : (setStagH x h s).freeCtr = s.freeCtr := (rfl)
@[simp] theorem setStagH_reply (x : Nat) (h : StagHid) (s : State) : (setStagH x h s).reply = s.reply := (rfl)
@[simp] theorem setStagH_regs (x : Nat) (h : StagHid) (s : State) : (setStagH x h s).regs = s.regs := (rfl)
@[simp] theorem setStagH_mem (x : Nat) (h : StagHid) (s : State) : (setStagH x h s).mem = s.mem := (rfl)
@[simp] theorem setStagH_now (x : Nat) (h : StagHid) (s : State) : (setStagH x h s).now = s.now := (rfl)
@[simp] theorem setStagH_upset (x : Nat) (h : StagHid) (s : State) : (setStagH x h s).upset = s.upset := (rfl)
@[simp] theorem setStagH_dev (x : Nat) (h : StagHid) (s : State) : (setStagH x h s).dev = s.dev := (rfl)
@[simp] theorem setStagH_nv (x : Nat) (h : StagHid) (s : State) : (setStagH x h s).nv = s.nv := (rfl)
@[simp] theorem setStagH_det (x : Nat) (h : StagHid) (s : State) : (setStagH x h s).det = s.det := (rfl)
@[simp] theorem setStagH_hive (x : Nat) (h : StagHid) (s : State) : (setStagH x h s).hive = s.hive := (rfl)
@[simp] theorem setStagH_dma (x : Nat) (h : StagHid) (s : State) : (setStagH x h s).dma = s.dma := (rfl)
@[simp] theorem setStagH_dmaTurn (x : Nat) (h : StagHid) (s : State) : (setStagH x h s).dmaTurn = s.dmaTurn := (rfl)
@[simp] theorem setStagH_chk (x : Nat) (h : StagHid) (s : State) : (setStagH x h s).chk = s.chk := (rfl)
@[simp] theorem setStagH_armNow (x : Nat) (h : StagHid) (s : State) : (setStagH x h s).armNow = s.armNow := (rfl)
@[simp] theorem setStagH_disNow (x : Nat) (h : StagHid) (s : State) : (setStagH x h s).disNow = s.disNow := (rfl)
@[simp] theorem setStagH_tracks (x : Nat) (h : StagHid) (s : State) : (setStagH x h s).tracks = s.tracks := (rfl)
@[simp] theorem setStagH_slots (x : Nat) (h : StagHid) (s : State) : (setStagH x h s).slots = s.slots := (rfl)
@[simp] theorem setStagH_sets (x : Nat) (h : StagHid) (s : State) : (setStagH x h s).sets = s.sets := (rfl)
@[simp] theorem setStagH_sdOn (x : Nat) (h : StagHid) (s : State) : (setStagH x h s).sdOn = s.sdOn := (rfl)
@[simp] theorem setStagH_hvsOn (x : Nat) (h : StagHid) (s : State) : (setStagH x h s).hvsOn = s.hvsOn := (rfl)
@[simp] theorem setStagH_sdOsr (x : Nat) (h : StagHid) (s : State) : (setStagH x h s).sdOsr = s.sdOsr := (rfl)
@[simp] theorem setStagH_sdGot (x : Nat) (h : StagHid) (s : State) : (setStagH x h s).sdGot = s.sdGot := (rfl)
@[simp] theorem setStagH_sar (x : Nat) (h : StagHid) (s : State) : (setStagH x h s).sar = s.sar := (rfl)
@[simp] theorem setStagH_rsv (x : Nat) (h : StagHid) (s : State) : (setStagH x h s).rsv = s.rsv := (rfl)
@[simp] theorem setStagH_enc (x : Nat) (h : StagHid) (s : State) : (setStagH x h s).enc = s.enc := (rfl)
@[simp] theorem setStagH_encAt (x : Nat) (h : StagHid) (s : State) : (setStagH x h s).encAt = s.encAt := (rfl)
@[simp] theorem setStagH_twLast (x : Nat) (h : StagHid) (s : State) : (setStagH x h s).twLast = s.twLast := (rfl)
@[simp] theorem setStagH_sentErr (x : Nat) (h : StagHid) (s : State) : (setStagH x h s).sentErr = s.sentErr := (rfl)
@[simp] theorem setStagH_sentWas (x : Nat) (h : StagHid) (s : State) : (setStagH x h s).sentWas = s.sentWas := (rfl)
@[simp] theorem setStagH_cal (x : Nat) (h : StagHid) (s : State) : (setStagH x h s).cal = s.cal := (rfl)
@[simp] theorem setStagH_mt (x : Nat) (h : StagHid) (s : State) : (setStagH x h s).mt = s.mt := (rfl)
@[simp] theorem setStagH_inj (x : Nat) (h : StagHid) (s : State) : (setStagH x h s).inj = s.inj := (rfl)
@[simp] theorem setStagH_capt (x : Nat) (h : StagHid) (s : State) : (setStagH x h s).capt = s.capt := (rfl)
@[simp] theorem setStagH_profAt (x : Nat) (h : StagHid) (s : State) : (setStagH x h s).profAt = s.profAt := (rfl)
@[simp] theorem setStagH_cars (x : Nat) (h : StagHid) (s : State) : (setStagH x h s).cars = s.cars := (rfl)
@[simp] theorem setStagH_legs (x : Nat) (h : StagHid) (s : State) : (setStagH x h s).legs = s.legs := (rfl)
@[simp] theorem setStagH_pairs (x : Nat) (h : StagHid) (s : State) : (setStagH x h s).pairs = s.pairs := (rfl)
@[simp] theorem setStagH_groups (x : Nat) (h : StagHid) (s : State) : (setStagH x h s).groups = s.groups := (rfl)
@[simp] theorem setStagH_brake (x : Nat) (h : StagHid) (s : State) : (setStagH x h s).brake = s.brake := (rfl)
@[simp] theorem setStagH_genS (x : Nat) (h : StagHid) (s : State) : (setStagH x h s).genS = s.genS := (rfl)
@[simp] theorem setStagH_ntcWarn (x : Nat) (h : StagHid) (s : State) : (setStagH x h s).ntcWarn = s.ntcWarn := (rfl)
@[simp] theorem setStagH_ntcShut (x : Nat) (h : StagHid) (s : State) : (setStagH x h s).ntcShut = s.ntcShut := (rfl)
@[simp] theorem setStagH_df (x : Nat) (h : StagHid) (s : State) : (setStagH x h s).df = s.df := (rfl)
@[simp] theorem setStagH_hb (x : Nat) (h : StagHid) (s : State) : (setStagH x h s).hb = s.hb := (rfl)
@[simp] theorem setStagH_adu (x : Nat) (h : StagHid) (s : State) : (setStagH x h s).adu = s.adu := (rfl)
@[simp] theorem setStagH_kd (x : Nat) (h : StagHid) (s : State) : (setStagH x h s).kd = s.kd := (rfl)
@[simp] theorem setStagH_eth (x : Nat) (h : StagHid) (s : State) : (setStagH x h s).eth = s.eth := (rfl)
@[simp] theorem setStagH_sc (x : Nat) (h : StagHid) (s : State) : (setStagH x h s).sc = s.sc := (rfl)
@[simp] theorem setStagH_led (x : Nat) (h : StagHid) (s : State) : (setStagH x h s).led = s.led := (rfl)
@[simp] theorem setStagH_ant (x : Nat) (h : StagHid) (s : State) : (setStagH x h s).ant = s.ant := (rfl)
@[simp] theorem setStagH_bw (x : Nat) (h : StagHid) (s : State) : (setStagH x h s).bw = s.bw := (rfl)
@[simp] theorem rg_setStagH (x : Nat) (h : StagHid) (s : State) (pg off : Nat) : rg (setStagH x h s) pg off = rg s pg off := (rfl)

/-! `setAntH` -/

@[simp] theorem setAntH_pending (x : Nat) (h : AntHid) (s : State) : (setAntH x h s).pending = s.pending := (rfl)
@[simp] theorem setAntH_variant (x : Nat) (h : AntHid) (s : State) : (setAntH x h s).variant = s.variant := (rfl)
@[simp] theorem setAntH_tick (x : Nat) (h : AntHid) (s : State) : (setAntH x h s).tick = s.tick := (rfl)
@[simp] theorem setAntH_freeCtr (x : Nat) (h : AntHid) (s : State) : (setAntH x h s).freeCtr = s.freeCtr := (rfl)
@[simp] theorem setAntH_reply (x : Nat) (h : AntHid) (s : State) : (setAntH x h s).reply = s.reply := (rfl)
@[simp] theorem setAntH_regs (x : Nat) (h : AntHid) (s : State) : (setAntH x h s).regs = s.regs := (rfl)
@[simp] theorem setAntH_mem (x : Nat) (h : AntHid) (s : State) : (setAntH x h s).mem = s.mem := (rfl)
@[simp] theorem setAntH_now (x : Nat) (h : AntHid) (s : State) : (setAntH x h s).now = s.now := (rfl)
@[simp] theorem setAntH_upset (x : Nat) (h : AntHid) (s : State) : (setAntH x h s).upset = s.upset := (rfl)
@[simp] theorem setAntH_dev (x : Nat) (h : AntHid) (s : State) : (setAntH x h s).dev = s.dev := (rfl)
@[simp] theorem setAntH_nv (x : Nat) (h : AntHid) (s : State) : (setAntH x h s).nv = s.nv := (rfl)
@[simp] theorem setAntH_det (x : Nat) (h : AntHid) (s : State) : (setAntH x h s).det = s.det := (rfl)
@[simp] theorem setAntH_hive (x : Nat) (h : AntHid) (s : State) : (setAntH x h s).hive = s.hive := (rfl)
@[simp] theorem setAntH_dma (x : Nat) (h : AntHid) (s : State) : (setAntH x h s).dma = s.dma := (rfl)
@[simp] theorem setAntH_dmaTurn (x : Nat) (h : AntHid) (s : State) : (setAntH x h s).dmaTurn = s.dmaTurn := (rfl)
@[simp] theorem setAntH_chk (x : Nat) (h : AntHid) (s : State) : (setAntH x h s).chk = s.chk := (rfl)
@[simp] theorem setAntH_armNow (x : Nat) (h : AntHid) (s : State) : (setAntH x h s).armNow = s.armNow := (rfl)
@[simp] theorem setAntH_disNow (x : Nat) (h : AntHid) (s : State) : (setAntH x h s).disNow = s.disNow := (rfl)
@[simp] theorem setAntH_tracks (x : Nat) (h : AntHid) (s : State) : (setAntH x h s).tracks = s.tracks := (rfl)
@[simp] theorem setAntH_slots (x : Nat) (h : AntHid) (s : State) : (setAntH x h s).slots = s.slots := (rfl)
@[simp] theorem setAntH_sets (x : Nat) (h : AntHid) (s : State) : (setAntH x h s).sets = s.sets := (rfl)
@[simp] theorem setAntH_sdOn (x : Nat) (h : AntHid) (s : State) : (setAntH x h s).sdOn = s.sdOn := (rfl)
@[simp] theorem setAntH_hvsOn (x : Nat) (h : AntHid) (s : State) : (setAntH x h s).hvsOn = s.hvsOn := (rfl)
@[simp] theorem setAntH_sdOsr (x : Nat) (h : AntHid) (s : State) : (setAntH x h s).sdOsr = s.sdOsr := (rfl)
@[simp] theorem setAntH_sdGot (x : Nat) (h : AntHid) (s : State) : (setAntH x h s).sdGot = s.sdGot := (rfl)
@[simp] theorem setAntH_sar (x : Nat) (h : AntHid) (s : State) : (setAntH x h s).sar = s.sar := (rfl)
@[simp] theorem setAntH_rsv (x : Nat) (h : AntHid) (s : State) : (setAntH x h s).rsv = s.rsv := (rfl)
@[simp] theorem setAntH_enc (x : Nat) (h : AntHid) (s : State) : (setAntH x h s).enc = s.enc := (rfl)
@[simp] theorem setAntH_encAt (x : Nat) (h : AntHid) (s : State) : (setAntH x h s).encAt = s.encAt := (rfl)
@[simp] theorem setAntH_twLast (x : Nat) (h : AntHid) (s : State) : (setAntH x h s).twLast = s.twLast := (rfl)
@[simp] theorem setAntH_sentErr (x : Nat) (h : AntHid) (s : State) : (setAntH x h s).sentErr = s.sentErr := (rfl)
@[simp] theorem setAntH_sentWas (x : Nat) (h : AntHid) (s : State) : (setAntH x h s).sentWas = s.sentWas := (rfl)
@[simp] theorem setAntH_cal (x : Nat) (h : AntHid) (s : State) : (setAntH x h s).cal = s.cal := (rfl)
@[simp] theorem setAntH_mt (x : Nat) (h : AntHid) (s : State) : (setAntH x h s).mt = s.mt := (rfl)
@[simp] theorem setAntH_inj (x : Nat) (h : AntHid) (s : State) : (setAntH x h s).inj = s.inj := (rfl)
@[simp] theorem setAntH_capt (x : Nat) (h : AntHid) (s : State) : (setAntH x h s).capt = s.capt := (rfl)
@[simp] theorem setAntH_profAt (x : Nat) (h : AntHid) (s : State) : (setAntH x h s).profAt = s.profAt := (rfl)
@[simp] theorem setAntH_cars (x : Nat) (h : AntHid) (s : State) : (setAntH x h s).cars = s.cars := (rfl)
@[simp] theorem setAntH_legs (x : Nat) (h : AntHid) (s : State) : (setAntH x h s).legs = s.legs := (rfl)
@[simp] theorem setAntH_pairs (x : Nat) (h : AntHid) (s : State) : (setAntH x h s).pairs = s.pairs := (rfl)
@[simp] theorem setAntH_groups (x : Nat) (h : AntHid) (s : State) : (setAntH x h s).groups = s.groups := (rfl)
@[simp] theorem setAntH_brake (x : Nat) (h : AntHid) (s : State) : (setAntH x h s).brake = s.brake := (rfl)
@[simp] theorem setAntH_genS (x : Nat) (h : AntHid) (s : State) : (setAntH x h s).genS = s.genS := (rfl)
@[simp] theorem setAntH_ntcWarn (x : Nat) (h : AntHid) (s : State) : (setAntH x h s).ntcWarn = s.ntcWarn := (rfl)
@[simp] theorem setAntH_ntcShut (x : Nat) (h : AntHid) (s : State) : (setAntH x h s).ntcShut = s.ntcShut := (rfl)
@[simp] theorem setAntH_df (x : Nat) (h : AntHid) (s : State) : (setAntH x h s).df = s.df := (rfl)
@[simp] theorem setAntH_hb (x : Nat) (h : AntHid) (s : State) : (setAntH x h s).hb = s.hb := (rfl)
@[simp] theorem setAntH_adu (x : Nat) (h : AntHid) (s : State) : (setAntH x h s).adu = s.adu := (rfl)
@[simp] theorem setAntH_kd (x : Nat) (h : AntHid) (s : State) : (setAntH x h s).kd = s.kd := (rfl)
@[simp] theorem setAntH_eth (x : Nat) (h : AntHid) (s : State) : (setAntH x h s).eth = s.eth := (rfl)
@[simp] theorem setAntH_sc (x : Nat) (h : AntHid) (s : State) : (setAntH x h s).sc = s.sc := (rfl)
@[simp] theorem setAntH_led (x : Nat) (h : AntHid) (s : State) : (setAntH x h s).led = s.led := (rfl)
@[simp] theorem setAntH_stag (x : Nat) (h : AntHid) (s : State) : (setAntH x h s).stag = s.stag := (rfl)
@[simp] theorem setAntH_bw (x : Nat) (h : AntHid) (s : State) : (setAntH x h s).bw = s.bw := (rfl)
@[simp] theorem rg_setAntH (x : Nat) (h : AntHid) (s : State) (pg off : Nat) : rg (setAntH x h s) pg off = rg s pg off := (rfl)

/-! `setDmaH` -/

@[simp] theorem setDmaH_pending (c : Nat) (h : DmaCh) (s : State) : (setDmaH c h s).pending = s.pending := (rfl)
@[simp] theorem setDmaH_variant (c : Nat) (h : DmaCh) (s : State) : (setDmaH c h s).variant = s.variant := (rfl)
@[simp] theorem setDmaH_tick (c : Nat) (h : DmaCh) (s : State) : (setDmaH c h s).tick = s.tick := (rfl)
@[simp] theorem setDmaH_freeCtr (c : Nat) (h : DmaCh) (s : State) : (setDmaH c h s).freeCtr = s.freeCtr := (rfl)
@[simp] theorem setDmaH_reply (c : Nat) (h : DmaCh) (s : State) : (setDmaH c h s).reply = s.reply := (rfl)
@[simp] theorem setDmaH_regs (c : Nat) (h : DmaCh) (s : State) : (setDmaH c h s).regs = s.regs := (rfl)
@[simp] theorem setDmaH_mem (c : Nat) (h : DmaCh) (s : State) : (setDmaH c h s).mem = s.mem := (rfl)
@[simp] theorem setDmaH_now (c : Nat) (h : DmaCh) (s : State) : (setDmaH c h s).now = s.now := (rfl)
@[simp] theorem setDmaH_upset (c : Nat) (h : DmaCh) (s : State) : (setDmaH c h s).upset = s.upset := (rfl)
@[simp] theorem setDmaH_dev (c : Nat) (h : DmaCh) (s : State) : (setDmaH c h s).dev = s.dev := (rfl)
@[simp] theorem setDmaH_nv (c : Nat) (h : DmaCh) (s : State) : (setDmaH c h s).nv = s.nv := (rfl)
@[simp] theorem setDmaH_det (c : Nat) (h : DmaCh) (s : State) : (setDmaH c h s).det = s.det := (rfl)
@[simp] theorem setDmaH_hive (c : Nat) (h : DmaCh) (s : State) : (setDmaH c h s).hive = s.hive := (rfl)
@[simp] theorem setDmaH_dmaTurn (c : Nat) (h : DmaCh) (s : State) : (setDmaH c h s).dmaTurn = s.dmaTurn := (rfl)
@[simp] theorem setDmaH_chk (c : Nat) (h : DmaCh) (s : State) : (setDmaH c h s).chk = s.chk := (rfl)
@[simp] theorem setDmaH_armNow (c : Nat) (h : DmaCh) (s : State) : (setDmaH c h s).armNow = s.armNow := (rfl)
@[simp] theorem setDmaH_disNow (c : Nat) (h : DmaCh) (s : State) : (setDmaH c h s).disNow = s.disNow := (rfl)
@[simp] theorem setDmaH_tracks (c : Nat) (h : DmaCh) (s : State) : (setDmaH c h s).tracks = s.tracks := (rfl)
@[simp] theorem setDmaH_slots (c : Nat) (h : DmaCh) (s : State) : (setDmaH c h s).slots = s.slots := (rfl)
@[simp] theorem setDmaH_sets (c : Nat) (h : DmaCh) (s : State) : (setDmaH c h s).sets = s.sets := (rfl)
@[simp] theorem setDmaH_sdOn (c : Nat) (h : DmaCh) (s : State) : (setDmaH c h s).sdOn = s.sdOn := (rfl)
@[simp] theorem setDmaH_hvsOn (c : Nat) (h : DmaCh) (s : State) : (setDmaH c h s).hvsOn = s.hvsOn := (rfl)
@[simp] theorem setDmaH_sdOsr (c : Nat) (h : DmaCh) (s : State) : (setDmaH c h s).sdOsr = s.sdOsr := (rfl)
@[simp] theorem setDmaH_sdGot (c : Nat) (h : DmaCh) (s : State) : (setDmaH c h s).sdGot = s.sdGot := (rfl)
@[simp] theorem setDmaH_sar (c : Nat) (h : DmaCh) (s : State) : (setDmaH c h s).sar = s.sar := (rfl)
@[simp] theorem setDmaH_rsv (c : Nat) (h : DmaCh) (s : State) : (setDmaH c h s).rsv = s.rsv := (rfl)
@[simp] theorem setDmaH_enc (c : Nat) (h : DmaCh) (s : State) : (setDmaH c h s).enc = s.enc := (rfl)
@[simp] theorem setDmaH_encAt (c : Nat) (h : DmaCh) (s : State) : (setDmaH c h s).encAt = s.encAt := (rfl)
@[simp] theorem setDmaH_twLast (c : Nat) (h : DmaCh) (s : State) : (setDmaH c h s).twLast = s.twLast := (rfl)
@[simp] theorem setDmaH_sentErr (c : Nat) (h : DmaCh) (s : State) : (setDmaH c h s).sentErr = s.sentErr := (rfl)
@[simp] theorem setDmaH_sentWas (c : Nat) (h : DmaCh) (s : State) : (setDmaH c h s).sentWas = s.sentWas := (rfl)
@[simp] theorem setDmaH_cal (c : Nat) (h : DmaCh) (s : State) : (setDmaH c h s).cal = s.cal := (rfl)
@[simp] theorem setDmaH_mt (c : Nat) (h : DmaCh) (s : State) : (setDmaH c h s).mt = s.mt := (rfl)
@[simp] theorem setDmaH_inj (c : Nat) (h : DmaCh) (s : State) : (setDmaH c h s).inj = s.inj := (rfl)
@[simp] theorem setDmaH_capt (c : Nat) (h : DmaCh) (s : State) : (setDmaH c h s).capt = s.capt := (rfl)
@[simp] theorem setDmaH_profAt (c : Nat) (h : DmaCh) (s : State) : (setDmaH c h s).profAt = s.profAt := (rfl)
@[simp] theorem setDmaH_cars (c : Nat) (h : DmaCh) (s : State) : (setDmaH c h s).cars = s.cars := (rfl)
@[simp] theorem setDmaH_legs (c : Nat) (h : DmaCh) (s : State) : (setDmaH c h s).legs = s.legs := (rfl)
@[simp] theorem setDmaH_pairs (c : Nat) (h : DmaCh) (s : State) : (setDmaH c h s).pairs = s.pairs := (rfl)
@[simp] theorem setDmaH_groups (c : Nat) (h : DmaCh) (s : State) : (setDmaH c h s).groups = s.groups := (rfl)
@[simp] theorem setDmaH_brake (c : Nat) (h : DmaCh) (s : State) : (setDmaH c h s).brake = s.brake := (rfl)
@[simp] theorem setDmaH_genS (c : Nat) (h : DmaCh) (s : State) : (setDmaH c h s).genS = s.genS := (rfl)
@[simp] theorem setDmaH_ntcWarn (c : Nat) (h : DmaCh) (s : State) : (setDmaH c h s).ntcWarn = s.ntcWarn := (rfl)
@[simp] theorem setDmaH_ntcShut (c : Nat) (h : DmaCh) (s : State) : (setDmaH c h s).ntcShut = s.ntcShut := (rfl)
@[simp] theorem setDmaH_df (c : Nat) (h : DmaCh) (s : State) : (setDmaH c h s).df = s.df := (rfl)
@[simp] theorem setDmaH_hb (c : Nat) (h : DmaCh) (s : State) : (setDmaH c h s).hb = s.hb := (rfl)
@[simp] theorem setDmaH_adu (c : Nat) (h : DmaCh) (s : State) : (setDmaH c h s).adu = s.adu := (rfl)
@[simp] theorem setDmaH_kd (c : Nat) (h : DmaCh) (s : State) : (setDmaH c h s).kd = s.kd := (rfl)
@[simp] theorem setDmaH_eth (c : Nat) (h : DmaCh) (s : State) : (setDmaH c h s).eth = s.eth := (rfl)
@[simp] theorem setDmaH_sc (c : Nat) (h : DmaCh) (s : State) : (setDmaH c h s).sc = s.sc := (rfl)
@[simp] theorem setDmaH_led (c : Nat) (h : DmaCh) (s : State) : (setDmaH c h s).led = s.led := (rfl)
@[simp] theorem setDmaH_stag (c : Nat) (h : DmaCh) (s : State) : (setDmaH c h s).stag = s.stag := (rfl)
@[simp] theorem setDmaH_ant (c : Nat) (h : DmaCh) (s : State) : (setDmaH c h s).ant = s.ant := (rfl)
@[simp] theorem setDmaH_bw (c : Nat) (h : DmaCh) (s : State) : (setDmaH c h s).bw = s.bw := (rfl)
@[simp] theorem rg_setDmaH (c : Nat) (h : DmaCh) (s : State) (pg off : Nat) : rg (setDmaH c h s) pg off = rg s pg off := (rfl)

end Sys2Proof.Machine
end

