-- ==== Sys2Proof/Laws/Registers.lean ====
section
/-! SUPPORT. The sparse maps, the registers they hold and the fields of a register: what a read gives after a write, and that a
write keeps the canonical form. -/
namespace Sys2Proof.Machine

/-! ## Sparse maps -/

theorem sget_sdel_same {α : Type} (d : Nat → α) (k : Nat) (l : List (Nat × α)) : sget d (sdel k l) k = d k := by
  induction l with
  | nil => rfl
  | cons e l ih => obtain ⟨a, w⟩ := e; by_cases h : a = k <;> simp [sdel, sget, h, ih]

theorem sget_sdel_other {α : Type} (d : Nat → α) {k j : Nat} (h : j ≠ k) (l : List (Nat × α)) :
    sget d (sdel k l) j = sget d l j := by
  induction l with
  | nil => rfl
  | cons e l ih =>
    obtain ⟨a, w⟩ := e
    by_cases ha : a = k
    · subst ha; simp [sdel, sget, ih, Ne.symm h]
    · simp [sdel, sget, ha, ih]

theorem sget_sins_same {α : Type} (d : Nat → α) (k : Nat) (v : α) (l : List (Nat × α)) : sget d (sins k v l) k = v := by
  induction l with
  | nil => simp [sins, sget]
  | cons e l ih =>
    obtain ⟨a, w⟩ := e
    rcases Nat.lt_trichotomy k a with h | h | h
    · simp [sins, sget, h]
    · subst h; simp [sins, sget]
    · have h1 : ¬ k < a := by omega
      have h2 : ¬ k = a := by omega
      have h3 : ¬ a = k := by omega
      simp [sins, sget, h1, h2, h3, ih]

theorem sget_sins_other {α : Type} (d : Nat → α) {k j : Nat} (h : j ≠ k) (v : α) (l : List (Nat × α)) :
    sget d (sins k v l) j = sget d l j := by
  induction l with
  | nil => simp [sins, sget, Ne.symm h]
  | cons e l ih =>
    obtain ⟨a, w⟩ := e
    rcases Nat.lt_trichotomy k a with hl | hl | hl
    · simp [sins, sget, hl, Ne.symm h]
    · subst hl; simp [sins, sget, Ne.symm h]
    · have h1 : ¬ k < a := by omega
      have h2 : ¬ k = a := by omega
      simp [sins, sget, h1, h2, ih]

/-- A read of the key written gives the value written. -/
theorem sget_sset_same {α : Type} [DecidableEq α] (d : Nat → α) (m : List (Nat × α)) (k : Nat) (v : α) :
    sget d (sset d m k v) k = v := by
  cases m with
  | nil => by_cases h : v = d k <;> simp [sset, sget, h]
  | cons e l =>
    by_cases h : v = d k
    · simp only [sset, h, if_true]; exact sget_sdel_same d k _
    · simp only [sset, h, if_false]; exact sget_sins_same d k v _

/-- A read of any other key gives what it gave. -/
theorem sget_sset_other {α : Type} [DecidableEq α] (d : Nat → α) (m : List (Nat × α)) {k j : Nat} (v : α) (h : j ≠ k) :
    sget d (sset d m k v) j = sget d m j := by
  cases m with
  | nil => by_cases hv : v = d k <;> simp [sset, sget, hv, Ne.symm h]
  | cons e l =>
    by_cases hv : v = d k
    · simp only [sset, hv, if_true]; exact sget_sdel_other d h _
    · simp only [sset, hv, if_false]; exact sget_sins_other d h v _

/-- The canonical form of a sparse map, as a recursion. -/
theorem swf_cons {α : Type} [DecidableEq α] (d : Nat → α) (e : Nat × α) (l : List (Nat × α)) :
    swf d (e :: l) = true ↔ (∀ x ∈ l, e.1 < x.1) ∧ e.2 ≠ d e.1 ∧ swf d l = true := by
  simp only [swf, Bool.and_eq_true, decide_eq_true_eq, List.map_cons, List.pairwise_cons, List.all_cons, List.mem_map]
  constructor
  · rintro ⟨⟨h1, h2⟩, h3, h4⟩
    exact ⟨fun x hx => h1 _ ⟨x, hx, rfl⟩, by simpa using h3, h2, h4⟩
  · rintro ⟨h1, h2, h3, h4⟩
    exact ⟨⟨by rintro a ⟨x, hx, rfl⟩; exact h1 x hx, h3⟩, by simpa using h2, h4⟩

theorem mem_sdel {α : Type} {k : Nat} {l : List (Nat × α)} {x : Nat × α} (h : x ∈ sdel k l) : x ∈ l := by
  induction l with
  | nil => simp [sdel] at h
  | cons e l ih =>
    obtain ⟨a, w⟩ := e
    by_cases ha : a = k
    · simp only [sdel, ha, if_true] at h; exact List.mem_cons_of_mem _ (ih h)
    · simp only [sdel, ha, if_false, List.mem_cons] at h
      rcases h with h | h
      · simp [h]
      · exact List.mem_cons_of_mem _ (ih h)

theorem mem_sins {α : Type} {k : Nat} {v : α} {l : List (Nat × α)} {x : Nat × α} (h : x ∈ sins k v l) :
    x = (k, v) ∨ x ∈ l := by
  induction l with
  | nil => simpa [sins] using h
  | cons e l ih =>
    obtain ⟨a, w⟩ := e
    by_cases h1 : k < a
    · simpa [sins, h1] using h
    · by_cases h2 : k = a
      · subst h2
        simp only [sins, h1, if_false, if_true] at h
        rcases List.mem_cons.1 h with h | h
        · exact Or.inl h
        · exact Or.inr (List.mem_cons_of_mem _ h)
      · simp only [sins, h1, h2, if_false, List.mem_cons] at h
        rcases h with h | h
        · right; simp [h]
        · rcases ih h with h | h
          · left; exact h
          · right; exact List.mem_cons_of_mem _ h

theorem swf_sdel {α : Type} [DecidableEq α] (d : Nat → α) (k : Nat) {l : List (Nat × α)} (h : swf d l = true) :
    swf d (sdel k l) = true := by
  induction l with
  | nil => simpa [sdel] using h
  | cons e l ih =>
    obtain ⟨a, w⟩ := e
    obtain ⟨h1, h2, h3⟩ := (swf_cons d (a, w) l).1 h
    by_cases ha : a = k
    · simp only [sdel, ha, if_true]; exact ih h3
    · simp only [sdel, ha, if_false]
      exact (swf_cons d _ _).2 ⟨fun x hx => h1 x (mem_sdel hx), h2, ih h3⟩

theorem swf_sins {α : Type} [DecidableEq α] (d : Nat → α) (k : Nat) {v : α} (hv : v ≠ d k) {l : List (Nat × α)}
    (h : swf d l = true) : swf d (sins k v l) = true := by
  induction l with
  | nil => exact (swf_cons d _ _).2 ⟨by simp, hv, h⟩
  | cons e l ih =>
    obtain ⟨a, w⟩ := e
    obtain ⟨h1, h2, h3⟩ := (swf_cons d (a, w) l).1 h
    by_cases hk : k < a
    · simp only [sins, hk, if_true]
      refine (swf_cons d _ _).2 ⟨?_, hv, h⟩
      intro x hx
      rcases List.mem_cons.1 hx with hx | hx
      · simpa [hx] using hk
      · exact Nat.lt_trans hk (h1 x hx)
    · by_cases he : k = a
      · subst he
        simp only [sins, hk, if_false, if_true]
        exact (swf_cons d _ _).2 ⟨h1, hv, h3⟩
      · simp only [sins, hk, he, if_false]
        refine (swf_cons d _ _).2 ⟨?_, h2, ih h3⟩
        intro x hx
        rcases mem_sins hx with hx | hx
        · simp only [hx]; omega
        · exact h1 x hx

/-- A write keeps the canonical form. -/
theorem swf_sset {α : Type} [DecidableEq α] (d : Nat → α) {m : List (Nat × α)} (k : Nat) (v : α) (h : swf d m = true) :
    swf d (sset d m k v) = true := by
  cases m with
  | nil =>
    by_cases hv : v = d k
    · simp [sset, hv, swf]
    · simp only [sset, hv, if_false]
      exact (swf_cons d _ _).2 ⟨by simp, hv, h⟩
  | cons e l =>
    by_cases hv : v = d k
    · simp only [sset, hv, if_true]; exact swf_sdel d k h
    · simp only [sset, hv, if_false]; exact swf_sins d k hv h

/-- Leaving entries out keeps the canonical form. -/
theorem swf_filter {α : Type} [DecidableEq α] (d : Nat → α) (f : Nat × α → Bool) {m : List (Nat × α)} (h : swf d m = true) :
    swf d (m.filter f) = true := by
  induction m with
  | nil => simpa using h
  | cons e l ih =>
    obtain ⟨h1, h2, h3⟩ := (swf_cons d e l).1 h
    by_cases hf : f e = true
    · rw [List.filter_cons_of_pos hf]
      exact (swf_cons d _ _).2 ⟨fun x hx => h1 x (List.mem_filter.1 hx).1, h2, ih h3⟩
    · rw [List.filter_cons_of_neg hf]; exact ih h3

/-! ## Registers -/

/-- A register reads as the 32 bits written to it. -/
theorem rg_setRg_same (s : State) (p o v : Nat) : rg (setRg p o v s) p o = v % 2 ^ 32 := by
  simp [rg, setRg, sget_sset_same, BitVec.toNat_ofNat]

/-- A write leaves every register at another address as it was. -/
theorem rg_setRg_ne (s : State) {p o q k : Nat} (v : Nat) (h : q * 4096 + k ≠ p * 4096 + o) :
    rg (setRg p o v s) q k = rg s q k := by
  simp [rg, setRg, sget_sset_other _ _ _ h]

/-- A write leaves every register of another page as it was. -/
theorem rg_setRg_page (s : State) {p o q k : Nat} (v : Nat) (h : q ≠ p) (ho : o < 4096) (hk : k < 4096) :
    rg (setRg p o v s) q k = rg s q k := rg_setRg_ne s v (by omega)

/-- A write leaves every other register of its page as it was. -/
theorem rg_setRg_off (s : State) {p o k : Nat} (v : Nat) (h : k ≠ o) : rg (setRg p o v s) p k = rg s p k :=
  rg_setRg_ne s v (by omega)

/-- Every register reads as a word of 32 bits. -/
theorem rg_lt (s : State) (p o : Nat) : rg s p o < 2 ^ 32 := BitVec.isLt _

/-- Every part of the state that a register write leaves alone reads registers alike. -/
theorem rg_congr {s t : State} (hv : t.variant = s.variant) (hr : t.regs = s.regs) (p o : Nat) : rg t p o = rg s p o := by
  simp [rg, hv, hr]

/-! ## Fields -/

theorem bits_lt (v lo w : Nat) : bits v lo w < 2 ^ w := Nat.mod_lt _ (Nat.two_pow_pos w)

theorem bits_mul_le (v lo w : Nat) : bits v lo w * 2 ^ lo ≤ v := by
  unfold bits
  calc v / 2 ^ lo % 2 ^ w * 2 ^ lo ≤ v / 2 ^ lo * 2 ^ lo := Nat.mul_le_mul_right _ (Nat.mod_le _ _)
    _ ≤ v := Nat.div_mul_le_self v _

/-- The word splits at a field: what stands below it, the field, and what stands above. -/
theorem bits_split (v lo w : Nat) : v = v % 2 ^ lo + 2 ^ lo * (bits v lo w + 2 ^ w * (v / 2 ^ lo / 2 ^ w)) := by
  have h1 := Nat.mod_add_div v (2 ^ lo)
  have h2 := Nat.mod_add_div (v / 2 ^ lo) (2 ^ w)
  unfold bits
  rw [h2, h1]

/-- A field written reads as written. -/
theorem bits_putBits_same (v lo w x : Nat) : bits (putBits v lo w x) lo w = x % 2 ^ w := by
  have hs := bits_split v lo w
  set b := bits v lo w with hb
  set a := v % 2 ^ lo
  set c := v / 2 ^ lo / 2 ^ w
  have h0 : a < 2 ^ lo := Nat.mod_lt _ (Nat.two_pow_pos lo)
  have hx : putBits v lo w x = a + 2 ^ lo * (x % 2 ^ w + 2 ^ w * c) := by
    unfold putBits
    rw [← hb]
    have e1 : v = a + 2 ^ lo * (2 ^ w * c) + b * 2 ^ lo := by rw [hs]; ring
    have e2 : v - b * 2 ^ lo = a + 2 ^ lo * (2 ^ w * c) := by omega
    rw [e2]; ring
  rw [hx]
  unfold bits
  rw [Nat.add_mul_div_left _ _ (Nat.two_pow_pos lo), Nat.div_eq_of_lt h0, Nat.zero_add, Nat.add_mul_mod_self_left,
    Nat.mod_mod]

/-- A word with a field replaced, bit by bit. -/
theorem testBit_putBits (v lo w x i : Nat) :
    (putBits v lo w x).testBit i = if lo ≤ i ∧ i < lo + w then x.testBit (i - lo) else v.testBit i := by
  have hs := bits_split v lo w
  set b := bits v lo w with hb
  set a := v % 2 ^ lo with ha
  set c := v / 2 ^ lo / 2 ^ w with hc
  have h0 : a < 2 ^ lo := Nat.mod_lt _ (Nat.two_pow_pos lo)
  have hx : putBits v lo w x = 2 ^ lo * (2 ^ w * c + x % 2 ^ w) + a := by
    unfold putBits
    rw [← hb]
    have e1 : v = a + 2 ^ lo * (2 ^ w * c) + b * 2 ^ lo := by rw [hs]; ring
    have e2 : v - b * 2 ^ lo = a + 2 ^ lo * (2 ^ w * c) := by omega
    rw [e2]; ring
  rw [hx, Nat.testBit_two_pow_mul_add _ h0]
  by_cases h1 : i < lo
  · have h2 : ¬ (lo ≤ i ∧ i < lo + w) := by omega
    simp only [h1, if_true, h2, if_false, ha, Nat.testBit_mod_two_pow, decide_true, Bool.true_and]
  · simp only [h1, if_false]
    rw [Nat.testBit_two_pow_mul_add _ (Nat.mod_lt _ (Nat.two_pow_pos w))]
    by_cases h2 : i - lo < w
    · have h3 : lo ≤ i ∧ i < lo + w := by omega
      simp only [h2, if_true, h3, and_self, Nat.testBit_mod_two_pow, decide_true, Bool.true_and]
    · have h3 : ¬ (lo ≤ i ∧ i < lo + w) := by omega
      simp only [h2, if_false, h3, hc]
      rw [Nat.div_div_eq_div_mul, ← Nat.pow_add, Nat.testBit_div_two_pow]
      congr 1; omega

/-- A field, bit by bit. -/
theorem testBit_bits (v lo w i : Nat) : (bits v lo w).testBit i = (decide (i < w) && v.testBit (lo + i)) := by
  unfold bits
  rw [Nat.testBit_mod_two_pow, Nat.testBit_div_two_pow, Nat.add_comm i lo]

/-- A field that does not meet the one written reads as before. -/
theorem bits_putBits_apart (v lo w x lo' w' : Nat) (h : lo' + w' ≤ lo ∨ lo + w ≤ lo') :
    bits (putBits v lo w x) lo' w' = bits v lo' w' := by
  apply Nat.eq_of_testBit_eq
  intro i
  rw [testBit_bits, testBit_bits, testBit_putBits]
  by_cases hi : i < w'
  · have : ¬ (lo ≤ lo' + i ∧ lo' + i < lo + w) := by omega
    simp only [this, if_false]
  · simp only [hi, decide_false, Bool.false_and]

/-- A field that fits reads back whole. -/
theorem bits_putBits_fit (v lo w : Nat) {x : Nat} (h : x < 2 ^ w) : bits (putBits v lo w x) lo w = x := by
  rw [bits_putBits_same, Nat.mod_eq_of_lt h]

/-- A bit of a word is a field of width 1. -/
theorem bit_eq_bits (v i : Nat) : bit v i = (bits v i 1 == 1) := by simp [bit, bits]

/-- Bits of a natural number, as Lean tests them. -/
theorem bit_testBit (v i : Nat) : bit v i = v.testBit i := by
  rw [Nat.testBit_eq_decide_div_mod_eq]
  unfold bit
  by_cases h : v / 2 ^ i % 2 = 1 <;> simp [h]

/-- A word whose fields are replaced within 32 bits stays a word. -/
theorem putBits_lt {v lo w : Nat} (x : Nat) (hv : v < 2 ^ 32) (h : lo + w ≤ 32) : putBits v lo w x < 2 ^ 32 := by
  apply Nat.lt_pow_two_of_testBit
  intro i hi
  rw [testBit_putBits]
  have : ¬ (lo ≤ i ∧ i < lo + w) := by omega
  simp only [this, if_false]
  exact Nat.testBit_lt_two_pow (Nat.lt_of_lt_of_le hv (Nat.pow_le_pow_right (by decide) hi))

/-- Setting a flag keeps a word a word. -/
theorem orN_lt {a b : Nat} (ha : a < 2 ^ 32) (hb : b < 2 ^ 32) : orN a b < 2 ^ 32 := Nat.or_lt_two_pow ha hb

theorem testBit_orN (a b i : Nat) : (orN a b).testBit i = (a.testBit i || b.testBit i) := by simp [orN]

/-! ## Fields of registers -/

theorem rg_setFld_same (s : State) (p o lo w x : Nat) (h : lo + w ≤ 32) :
    rg (setFld p o lo w x s) p o = putBits (rg s p o) lo w x := by
  unfold setFld; rw [rg_setRg_same, Nat.mod_eq_of_lt (putBits_lt x (rg_lt s p o) h)]

theorem rg_setFld_ne (s : State) {p o q k : Nat} (lo w x : Nat) (h : q * 4096 + k ≠ p * 4096 + o) :
    rg (setFld p o lo w x s) q k = rg s q k := rg_setRg_ne s _ h

/-- A field written reads as written. -/
theorem fld_setFld_same (s : State) (p o lo w x : Nat) (h : lo + w ≤ 32) : fld (setFld p o lo w x s) p o lo w = x % 2 ^ w := by
  unfold fld; rw [rg_setFld_same s p o lo w x h, bits_putBits_same]

/-- A bit written reads as written. -/
theorem rbit_setBit_same (s : State) (p o i : Nat) (b : Bool) (h : i < 32) : rbit (setBit p o i b s) p o i = b := by
  unfold rbit setBit
  rw [bit_eq_bits]
  have := fld_setFld_same s p o i 1 (b2n b) (by omega)
  unfold fld at this
  rw [this]
  cases b <;> rfl

/-- A flag set reads 1. -/
theorem rbit_flag_same (s : State) (p i : Nat) (h : i < 32) : rbit (flag p i s) p 0x10 i = true := by
  unfold rbit flag
  rw [rg_setRg_same, Nat.mod_eq_of_lt (orN_lt (rg_lt s p 0x10) (Nat.pow_lt_pow_right (by decide) h)), bit_testBit,
    testBit_orN, Nat.testBit_two_pow_self, Bool.or_true]

theorem rg_flag_ne (s : State) {p q k : Nat} (i : Nat) (h : q * 4096 + k ≠ p * 4096 + 0x10) :
    rg (flag p i s) q k = rg s q k := rg_setRg_ne s _ h

end Sys2Proof.Machine
end

