-- ==== Sys2Proof/Laws/Core.lean ====
section
/-! SUPPORT. What the operations leave alone: the queue, the ordering code, time, memory, the non-volatile parts and the Stag
pairs (`State.core`), one lemma for each operation that touches none of them. -/
namespace Sys2Proof.Machine
set_option linter.all false
/-- What almost every operation leaves alone: the queue, the ordering code, time, memory, the non-volatile parts and the Stag
pairs. -/
def State.core (s : State) := (s.pending, s.variant, s.tick, s.mem, s.nv, s.stag)

/-- Two states agree on the core when they agree on each of its parts. -/
theorem core_mk {t s : State} (h1 : t.pending = s.pending) (h2 : t.variant = s.variant) (h3 : t.tick = s.tick) (h4 : t.mem = s.mem)
    (h5 : t.nv = s.nv) (h6 : t.stag = s.stag) : t.core = s.core := by
  simp only [State.core, h1, h2, h3, h4, h5, h6]

theorem core_pending {s t : State} (h : t.core = s.core) : t.pending = s.pending := congrArg (fun x => x.1) h
theorem core_variant {s t : State} (h : t.core = s.core) : t.variant = s.variant := congrArg (fun x => x.2.1) h
theorem core_tick {s t : State} (h : t.core = s.core) : t.tick = s.tick := congrArg (fun x => x.2.2.1) h
theorem core_mem {s t : State} (h : t.core = s.core) : t.mem = s.mem := congrArg (fun x => x.2.2.2.1) h
theorem core_nv {s t : State} (h : t.core = s.core) : t.nv = s.nv := congrArg (fun x => x.2.2.2.2.1) h
theorem core_stag {s t : State} (h : t.core = s.core) : t.stag = s.stag := congrArg (fun x => x.2.2.2.2.2) h

theorem core_of_mk {a b c x3 x4 x5 d x7 x8 x9 e x11 x12 x13 x14 x15 x16 x17 x18 x19 x20 x21 x22 x23 x24 x25 x26 x27 x28 x29
    x30 x31 x32 x33 x34 x35 x36 x37 x38 x39 x40 x41 x42 x43 x44 x45 x46 x47 x48 x49 x50 x51 f x53 x54} : (State.mk a b c x3 x4
    x5 d x7 x8 x9 e x11 x12 x13 x14 x15 x16 x17 x18 x19 x20 x21 x22 x23 x24 x25 x26 x27 x28 x29 x30 x31 x32 x33 x34 x35 x36 x37
    x38 x39 x40 x41 x42 x43 x44 x45 x46 x47 x48 x49 x50 x51 f x53 x54).core = (a, b, c, d, e, f) := (rfl)

theorem core_eta (s : State) : (s.pending, s.variant, s.tick, s.mem, s.nv, s.stag) = s.core := (rfl)

theorem core_ite (c : Prop) [Decidable c] (a b : State) : (if c then a else b).core = if c then a.core else b.core :=
  apply_ite _ _ _ _

theorem foldl_core {α : Type} {g : State → α → State} (h : ∀ s a, (g s a).core = s.core) (l : List α) (s : State) :
    (l.foldl g s).core = s.core := by
  induction l generalizing s with
  | nil => rfl
  | cons a l ih => exact (ih _).trans (h s a)

theorem foldl_core_mem {α : Type} {g : State → α → State} {l : List α} (h : ∀ a ∈ l, ∀ s, (g s a).core = s.core) (s : State) :
    (l.foldl g s).core = s.core := by
  induction l generalizing s with
  | nil => rfl
  | cons a l ih =>
    exact (ih (fun b hb => h b (List.mem_cons_of_mem _ hb)) _).trans (h a (List.mem_cons_self ..) s)

theorem forRange_core {g : Nat → State → State} (h : ∀ i s, (g i s).core = s.core) (n : Nat) (s : State) :
    (forRange n g s).core = s.core := foldl_core (fun s i => h i s) _ s

theorem setRg_core (p o v : Nat) (s : State) : (setRg p o v s).core = s.core := core_mk rfl rfl rfl rfl rfl rfl
theorem setFld_core (p o lo w x : Nat) (s : State) : (setFld p o lo w x s).core = s.core := core_mk rfl rfl rfl rfl rfl rfl
theorem setBit_core (p o i : Nat) (b : Bool) (s : State) : (setBit p o i b s).core = s.core := core_mk rfl rfl rfl rfl rfl rfl
theorem incSat_core (p o lo w n : Nat) (s : State) : (incSat p o lo w n s).core = s.core := core_mk rfl rfl rfl rfl rfl rfl
theorem incWrap_core (p o lo w n : Nat) (s : State) : (incWrap p o lo w n s).core = s.core := core_mk rfl rfl rfl rfl rfl rfl
theorem setBlockState_core (p c : Nat) (s : State) : (setBlockState p c s).core = s.core := core_mk rfl rfl rfl rfl rfl rfl
theorem flag_core (p i : Nat) (s : State) : (flag p i s).core = s.core := core_mk rfl rfl rfl rfl rfl rfl
theorem refuse_core (acc : Access) (p o v : Nat) (r : Reason) (s : State) : (refuse acc p o v r s).core = s.core := core_mk rfl rfl rfl rfl rfl rfl
theorem freeStep_core (s : State) : (freeStep s).core = s.core := core_mk rfl rfl rfl rfl rfl rfl
theorem setTrk_core (n : Nat) (t : Track) (s : State) : (setTrk n t s).core = s.core := core_mk rfl rfl rfl rfl rfl rfl
theorem setSlotH_core (i : Nat) (x : SlotHid) (s : State) : (setSlotH i x s).core = s.core := core_mk rfl rfl rfl rfl rfl rfl
theorem setSetH_core (k : Nat) (x : SetHid) (s : State) : (setSetH k x s).core = s.core := core_mk rfl rfl rfl rfl rfl rfl
theorem setSarH_core (n : Nat) (x : SarHid) (s : State) : (setSarH n x s).core = s.core := core_mk rfl rfl rfl rfl rfl rfl
theorem setRsvH_core (r : Nat) (x : RsvHid) (s : State) : (setRsvH r x s).core = s.core := core_mk rfl rfl rfl rfl rfl rfl
theorem setMtH_core (e : Nat) (h : MtHid) (s : State) : (setMtH e h s).core = s.core := core_mk rfl rfl rfl rfl rfl rfl
theorem setCapH_core (c : Nat) (x : CapHid) (s : State) : (setCapH c x s).core = s.core := core_mk rfl rfl rfl rfl rfl rfl
theorem setInjH_core (c : Nat) (x : InjHid) (s : State) : (setInjH c x s).core = s.core := core_mk rfl rfl rfl rfl rfl rfl
theorem setLegH_core (m : Nat) (l : LegHid) (s : State) : (setLegH m l s).core = s.core := core_mk rfl rfl rfl rfl rfl rfl
theorem setCarH_core (n : Nat) (c : CarHid) (s : State) : (setCarH n c s).core = s.core := core_mk rfl rfl rfl rfl rfl rfl
theorem setPairH_core (k : Nat) (p : PairHid) (s : State) : (setPairH k p s).core = s.core := core_mk rfl rfl rfl rfl rfl rfl
theorem setGroupH_core (g : Nat) (x : GroupHid) (s : State) : (setGroupH g x s).core = s.core := core_mk rfl rfl rfl rfl rfl rfl
theorem setDfH_core (i : Nat) (h : DfHid) (s : State) : (setDfH i h s).core = s.core := core_mk rfl rfl rfl rfl rfl rfl
theorem setAduH_core (u : Nat) (h : AduHid) (s : State) : (setAduH u h s).core = s.core := core_mk rfl rfl rfl rfl rfl rfl
theorem setKdH_core (k : Nat) (h : KdHid) (s : State) : (setKdH k h s).core = s.core := core_mk rfl rfl rfl rfl rfl rfl
theorem setEth_core (h : EthHid) (s : State) : (setEth h s).core = s.core := core_mk rfl rfl rfl rfl rfl rfl
theorem setSc_core (h : ScHid) (s : State) : (setSc h s).core = s.core := core_mk rfl rfl rfl rfl rfl rfl
theorem setLed_core (h : LedHid) (s : State) : (setLed h s).core = s.core := core_mk rfl rfl rfl rfl rfl rfl
theorem setDmaH_core (c : Nat) (h : DmaCh) (s : State) : (setDmaH c h s).core = s.core := core_mk rfl rfl rfl rfl rfl rfl
theorem setAntH_core (x : Nat) (h : AntHid) (s : State) : (setAntH x h s).core = s.core := core_mk rfl rfl rfl rfl rfl rfl
theorem flagIf_core (c : Bool) (p i : Nat) (s : State) : (flagIf c p i s).core = s.core := by
  unfold flagIf
  repeat' (first | with_reducible rfl | (simp only [↓flag_core, ↓core_ite, ite_self, id_eq, ↓core_of_mk, core_eta]; done) | split | (simp only [↓flag_core, ↓core_ite, ite_self, id_eq, ↓core_of_mk, core_eta]))

theorem bwSeen_core (ps : List Nat) (n : Nat) (wr : Bool) (s : State) : (bwSeen ps n wr s).core = s.core := by
  unfold bwSeen
  repeat' (first | with_reducible rfl | (simp only [↓core_ite, ite_self, id_eq, ↓core_of_mk, core_eta]; done) | split | (with_reducible refine Eq.trans (foldl_core (fun _ _ => ?_) _ _) ?_) | (simp only [↓core_ite, ite_self, id_eq, ↓core_of_mk, core_eta]))

theorem stagSeen_core (acc : Access) (dev den : Bool) (s : State) : (stagSeen acc dev den s).core = s.core := by
  unfold stagSeen
  repeat' (first | with_reducible rfl | (simp only [↓core_ite, ite_self, id_eq, ↓core_of_mk, core_eta]; done) | split | (simp only [↓core_ite, ite_self, id_eq, ↓core_of_mk, core_eta]))

theorem tally_core (acc : Access) (ps : List Nat) (n : Nat) (wr dev : Bool) (s : State) : (tally acc ps n wr dev s).core = s.core := by
  unfold tally
  repeat' (first | with_reducible rfl | (simp only [↓stagSeen_core, ↓bwSeen_core, ↓core_ite, ite_self, id_eq, ↓core_of_mk, core_eta]; done) | split | (simp only [↓stagSeen_core, ↓bwSeen_core, ↓core_ite, ite_self, id_eq, ↓core_of_mk, core_eta]))

theorem pactDeny_core (acc : Access) (p o : Nat) (wr : Bool) (s : State) : (pactDeny acc p o wr s).core = s.core := by
  unfold pactDeny
  repeat' (first | with_reducible rfl | (simp only [↓setRg_core, ↓stagSeen_core, ↓flag_core, ↓incSat_core, ↓core_ite, ite_self, id_eq, ↓core_of_mk, core_eta]; done) | split | (simp only [↓setRg_core, ↓stagSeen_core, ↓flag_core, ↓incSat_core, ↓core_ite, ite_self, id_eq, ↓core_of_mk, core_eta]))

theorem busErr_core (s : State) : (busErr s).core = s.core := by
  unfold busErr
  repeat' (first | with_reducible rfl | (simp only [↓core_ite, ite_self, id_eq, ↓core_of_mk, core_eta]; done) | split | (simp only [↓core_ite, ite_self, id_eq, ↓core_of_mk, core_eta]))

theorem onBus_core {acc : Access} {p o : Nat} {f : State → State} (h : ∀ s, (f s).core = s.core) (s : State) :
    (onBus acc p o f s).core = s.core := by
  unfold onBus
  simp only [↓core_ite, busErr_core, pactDeny_core]
  repeat' split
  all_goals first | rfl | (simp only [core_of_mk, core_eta]; exact (tally_core _ _ _ _ _ _).trans (h s))

theorem onBusRead_core {acc : Access} {p o : Nat} {rd : State → Nat} {f : State → State} (h : ∀ s, (f s).core = s.core) (s : State) :
    (onBusRead acc p o rd f s).core = s.core := by
  unfold onBusRead
  simp only [↓core_ite, busErr_core, pactDeny_core]
  repeat' split
  all_goals first | rfl | (simp only [core_of_mk, core_eta]; exact (tally_core _ _ _ _ _ _).trans (h s))

theorem detBreach_core (kind p : Nat) (s : State) : (detBreach kind p s).core = s.core := by
  unfold detBreach
  repeat' (first | with_reducible rfl | (simp only [↓setRg_core, ↓core_ite, ite_self, id_eq, ↓core_of_mk, core_eta]; done) | split | (simp only [↓setRg_core, ↓core_ite, ite_self, id_eq, ↓core_of_mk, core_eta]))

theorem saveStale_core (s : State) : (saveStale s).core = s.core := by
  unfold saveStale
  repeat' (first | with_reducible rfl | (simp only [↓setBit_core, ↓core_ite, ite_self, id_eq, ↓core_of_mk, core_eta]; done) | split | (simp only [↓setBit_core, ↓core_ite, ite_self, id_eq, ↓core_of_mk, core_eta]))

theorem afterConfigChange_core (p : Nat) (epoch : Bool) (s : State) : (afterConfigChange p epoch s).core = s.core := by
  unfold afterConfigChange
  repeat' (first | with_reducible rfl | (simp only [↓setBit_core, ↓saveStale_core, ↓detBreach_core, ↓core_ite, ite_self, id_eq, ↓core_of_mk, core_eta]; done) | split | (simp only [↓setBit_core, ↓saveStale_core, ↓detBreach_core, ↓core_ite, ite_self, id_eq, ↓core_of_mk, core_eta]))

theorem blockConfig_core (p o v : Nat) (s : State) : (blockConfig p o v s).core = s.core := by
  unfold blockConfig
  repeat' (first | with_reducible rfl | (simp only [↓setRg_core, ↓afterConfigChange_core, ↓core_ite, ite_self, id_eq, ↓core_of_mk, core_eta]; done) | split | (simp only [↓setRg_core, ↓afterConfigChange_core, ↓core_ite, ite_self, id_eq, ↓core_of_mk, core_eta]))

theorem storeReg_core (r : RegRow) (p o new : Nat) (s : State) : (storeReg r p o new s).core = s.core := by
  unfold storeReg
  repeat' (first | with_reducible rfl | (simp only [↓setRg_core, ↓setBit_core, ↓afterConfigChange_core, ↓core_ite, ite_self, id_eq, ↓core_of_mk, core_eta]; done) | split | (simp only [↓setRg_core, ↓setBit_core, ↓afterConfigChange_core, ↓core_ite, ite_self, id_eq, ↓core_of_mk, core_eta]))

theorem busStore_core {acc : Access} {p o v : Nat} {chk : Nat → Nat → Option Reason} {f : State → State}
    (h : ∀ s, (f s).core = s.core) (s : State) : (busStore acc p o v chk f s).core = s.core := by
  unfold busStore
  repeat' (first | with_reducible rfl | (simp only [h, refuse_core, storeReg_core]; done) | split | (simp only [h, refuse_core, storeReg_core, ↓core_ite]))

theorem copyEpochRegs_core (k : PageKind) (i p : Nat) (s : State) : (copyEpochRegs k i p s).core = s.core := by
  unfold copyEpochRegs
  repeat' (first | with_reducible rfl | (simp only [↓setRg_core, ↓core_ite, ite_self, id_eq, ↓core_of_mk, core_eta]; done) | split | (with_reducible refine Eq.trans (foldl_core (fun _ _ => ?_) _ _) ?_) | (simp only [↓setRg_core, ↓core_ite, ite_self, id_eq, ↓core_of_mk, core_eta]))

theorem forgetLines_core (p : Nat) (s : State) : (forgetLines p s).core = s.core := by
  unfold forgetLines
  repeat' (first | with_reducible rfl | (simp only [↓core_ite, ite_self, id_eq, ↓core_of_mk, core_eta]; done) | split | (simp only [↓core_ite, ite_self, id_eq, ↓core_of_mk, core_eta]))

theorem dropFallen_core (p : Nat) (s : State) : (dropFallen p s).core = s.core := by
  unfold dropFallen
  repeat' (first | with_reducible rfl | (simp only [↓core_ite, ite_self, id_eq, ↓core_of_mk, core_eta]; done) | split | (simp only [↓core_ite, ite_self, id_eq, ↓core_of_mk, core_eta]))

theorem pulseAt_core (t n p : Nat) (s : State) : (pulseAt t n p s).core = s.core := by
  unfold pulseAt
  repeat' (first | with_reducible rfl | (simp only [↓core_ite, ite_self, id_eq, ↓core_of_mk, core_eta]; done) | split | (simp only [↓core_ite, ite_self, id_eq, ↓core_of_mk, core_eta]))

theorem pulse_core (n p : Nat) (s : State) : (pulse n p s).core = s.core := by
  unfold pulse
  repeat' (first | with_reducible rfl | (simp only [↓pulseAt_core, ↓core_ite, ite_self, id_eq, ↓core_of_mk, core_eta]; done) | split | (simp only [↓pulseAt_core, ↓core_ite, ite_self, id_eq, ↓core_of_mk, core_eta]))

theorem setArith_core (p o : Nat) (evt : Option Nat) (at_ : Option Nat) (flags : Nat) (s : State) : (setArith p o evt at_ flags s).core = s.core := by
  unfold setArith
  repeat' (first | with_reducible rfl | (simp only [↓setRg_core, ↓flag_core, ↓setBit_core, ↓core_ite, ite_self, id_eq, ↓core_of_mk, core_eta]; done) | split | (simp only [↓setRg_core, ↓flag_core, ↓setBit_core, ↓core_ite, ite_self, id_eq, ↓core_of_mk, core_eta]))

theorem clearArith_core (p o v : Nat) (s : State) : (clearArith p o v s).core = s.core := by
  unfold clearArith
  repeat' (first | with_reducible rfl | (simp only [↓setRg_core, ↓setFld_core, ↓core_ite, ite_self, id_eq, ↓core_of_mk, core_eta]; done) | split | (with_reducible refine Eq.trans (foldl_core (fun _ _ => ?_) _ _) ?_) | (simp only [↓setRg_core, ↓setFld_core, ↓core_ite, ite_self, id_eq, ↓core_of_mk, core_eta]))

theorem detBoundary_core (b : Nat) (s : State) : (detBoundary b s).core = s.core := by
  unfold detBoundary
  repeat' (first | with_reducible rfl | (simp only [↓setRg_core, ↓core_ite, ite_self, id_eq, ↓core_of_mk, core_eta]; done) | split | (with_reducible refine Eq.trans (foldl_core (fun _ _ => ?_) _ _) ?_) | (simp only [↓setRg_core, ↓core_ite, ite_self, id_eq, ↓core_of_mk, core_eta]))

theorem detClear_core (v : Nat) (s : State) : (detClear v s).core = s.core := by
  unfold detClear
  repeat' (first | with_reducible rfl | (simp only [↓setRg_core, ↓core_ite, ite_self, id_eq, ↓core_of_mk, core_eta]; done) | split | (simp only [↓setRg_core, ↓core_ite, ite_self, id_eq, ↓core_of_mk, core_eta]))

theorem eccLog_core (region finder addr : Nat) (ue : Bool) (syn : Nat) (s : State) : (eccLog region finder addr ue syn s).core = s.core := by
  unfold eccLog
  repeat' (first | with_reducible rfl | (simp only [↓incSat_core, ↓setBit_core, ↓setRg_core, ↓core_ite, ite_self, id_eq, ↓core_of_mk, core_eta]; done) | split | (simp only [↓incSat_core, ↓setBit_core, ↓setRg_core, ↓core_ite, ite_self, id_eq, ↓core_of_mk, core_eta]))

theorem eccFound_core (told : Bool) (region finder addr : Nat) (e : Ecc) (s : State) : (eccFound told region finder addr e s).core = s.core := by
  unfold eccFound
  repeat' (first | with_reducible rfl | (simp only [↓flagIf_core, ↓eccLog_core, ↓flag_core, ↓core_ite, ite_self, id_eq, ↓core_of_mk, core_eta]; done) | split | (simp only [↓flagIf_core, ↓eccLog_core, ↓flag_core, ↓core_ite, ite_self, id_eq, ↓core_of_mk, core_eta]))

theorem setUpset_core (a : Nat) (e : Ecc) (s : State) : (setUpset a e s).core = s.core := by
  unfold setUpset
  repeat' (first | with_reducible rfl | (simp only [↓core_ite, ite_self, id_eq, ↓core_of_mk, core_eta]; done) | split | (simp only [↓core_ite, ite_self, id_eq, ↓core_of_mk, core_eta]))

theorem eccRead_core (region finder addr a : Nat) (e : Ecc) (s : State) : (eccRead region finder addr a e s).core = s.core := by
  unfold eccRead
  repeat' (first | with_reducible rfl | (simp only [↓eccFound_core, ↓setUpset_core, ↓core_ite, ite_self, id_eq, ↓core_of_mk, core_eta]; done) | split | (simp only [↓eccFound_core, ↓setUpset_core, ↓core_ite, ite_self, id_eq, ↓core_of_mk, core_eta]))

theorem eccWrite_core (region finder addr a : Nat) (e : Ecc) (s : State) : (eccWrite region finder addr a e s).core = s.core := by
  unfold eccWrite
  repeat' (first | with_reducible rfl | (simp only [↓eccFound_core, ↓setUpset_core, ↓core_ite, ite_self, id_eq, ↓core_of_mk, core_eta]; done) | split | (simp only [↓eccFound_core, ↓setUpset_core, ↓core_ite, ite_self, id_eq, ↓core_of_mk, core_eta]))

theorem ethCount_core (i : Nat) (s : State) : (ethCount i s).core = s.core := by
  unfold ethCount
  repeat' (first | with_reducible rfl | (simp only [↓incSat_core, ↓core_ite, ite_self, id_eq, ↓core_of_mk, core_eta]; done) | split | (simp only [↓incSat_core, ↓core_ite, ite_self, id_eq, ↓core_of_mk, core_eta]))

theorem ethKick_core (s : State) : (ethKick s).core = s.core := by
  unfold ethKick
  repeat' (first | with_reducible rfl | (simp only [↓setEth_core, ↓bwSeen_core, ↓core_ite, ite_self, id_eq, ↓core_of_mk, core_eta]; done) | split | (simp only [↓setEth_core, ↓bwSeen_core, ↓core_ite, ite_self, id_eq, ↓core_of_mk, core_eta]))

theorem ethOffer_core (q : Nat) (f : List Nat) (s : State) : (ethOffer q f s).core = s.core := by
  unfold ethOffer
  repeat' (first | with_reducible rfl | (simp only [↓ethCount_core, ↓ethKick_core, ↓setEth_core, ↓core_ite, ite_self, id_eq, ↓core_of_mk, core_eta]; done) | split | (simp only [↓ethCount_core, ↓ethKick_core, ↓setEth_core, ↓core_ite, ite_self, id_eq, ↓core_of_mk, core_eta]))

theorem ethStream_core (d : UdpTo) (f : List Nat) (s : State) : (ethStream d f s).core = s.core := by
  unfold ethStream
  repeat' (first | with_reducible rfl | (simp only [↓ethCount_core, ↓ethKick_core, ↓setEth_core, ↓core_ite, ite_self, id_eq, ↓core_of_mk, core_eta]; done) | split | (simp only [↓ethCount_core, ↓ethKick_core, ↓setEth_core, ↓core_ite, ite_self, id_eq, ↓core_of_mk, core_eta]))

theorem streamSend_core (s : State) : (streamSend s).core = s.core := by
  unfold streamSend
  repeat' (first | with_reducible rfl | (simp only [↓ethStream_core, ↓setEth_core, ↓core_ite, ite_self, id_eq, ↓core_of_mk, core_eta]; done) | split | (simp only [↓ethStream_core, ↓setEth_core, ↓core_ite, ite_self, id_eq, ↓core_of_mk, core_eta]))

theorem streamRecord_core (r : List Nat) (s : State) : (streamRecord r s).core = s.core := by
  unfold streamRecord
  repeat' (first | with_reducible rfl | (simp only [↓ethCount_core, ↓streamSend_core, ↓setEth_core, ↓core_ite, ite_self, id_eq, ↓core_of_mk, core_eta]; done) | split | (with_reducible refine Eq.trans (foldl_core (fun _ _ => ?_) _ _) ?_) | (simp only [↓ethCount_core, ↓streamSend_core, ↓setEth_core, ↓core_ite, ite_self, id_eq, ↓core_of_mk, core_eta]))

theorem codeStep_core (c : Nat) (was now : ChanHid) (s : State) : (codeStep c was now s).core = s.core := by
  unfold codeStep
  repeat' (first | with_reducible rfl | (simp only [↓setFld_core, ↓core_ite, ite_self, id_eq, ↓core_of_mk, core_eta]; done) | split | (simp only [↓setFld_core, ↓core_ite, ite_self, id_eq, ↓core_of_mk, core_eta]))

theorem drivePair_core (k : Nat) (s : State) : (drivePair k s).core = s.core := by
  unfold drivePair
  repeat' (first | with_reducible rfl | (simp only [↓setPairH_core, ↓incWrap_core, ↓codeStep_core, ↓incSat_core, ↓core_ite, ite_self, id_eq, ↓core_of_mk, core_eta]; done) | split | (simp only [↓setPairH_core, ↓incWrap_core, ↓codeStep_core, ↓incSat_core, ↓core_ite, ite_self, id_eq, ↓core_of_mk, core_eta]))

theorem driveGroup_core (g : Nat) (s : State) : (driveGroup g s).core = s.core := by
  unfold driveGroup
  repeat' (first | with_reducible rfl | (simp only [↓drivePair_core, ↓core_ite, ite_self, id_eq, ↓core_of_mk, core_eta]; done) | split | (with_reducible refine Eq.trans (foldl_core (fun _ _ => ?_) _ _) ?_) | (simp only [↓drivePair_core, ↓core_ite, ite_self, id_eq, ↓core_of_mk, core_eta]))

theorem driveTile_core (t : Nat) (s : State) : (driveTile t s).core = s.core := by
  unfold driveTile
  repeat' (first | with_reducible rfl | (simp only [↓drivePair_core, ↓core_ite, ite_self, id_eq, ↓core_of_mk, core_eta]; done) | split | (with_reducible refine Eq.trans (forRange_core (fun _ _ => ?_) _ _) ?_) | (simp only [↓drivePair_core, ↓core_ite, ite_self, id_eq, ↓core_of_mk, core_eta]))

theorem refreshTile_core (t : Nat) (s : State) : (refreshTile t s).core = s.core := by
  unfold refreshTile
  repeat' (first | with_reducible rfl | (simp only [↓setFld_core, ↓driveGroup_core, ↓setGroupH_core, ↓setRg_core, ↓setBlockState_core, ↓driveTile_core, ↓core_ite, ite_self, id_eq, ↓core_of_mk, core_eta]; done) | split | (with_reducible refine Eq.trans (forRange_core (fun _ _ => ?_) _ _) ?_) | (simp only [↓setFld_core, ↓driveGroup_core, ↓setGroupH_core, ↓setRg_core, ↓setBlockState_core, ↓driveTile_core, ↓core_ite, ite_self, id_eq, ↓core_of_mk, core_eta]))

theorem refreshTiles_core (s : State) : (refreshTiles s).core = s.core := by
  unfold refreshTiles
  repeat' (first | with_reducible rfl | (simp only [↓refreshTile_core, ↓core_ite, ite_self, id_eq, ↓core_of_mk, core_eta]; done) | split | (with_reducible refine Eq.trans (forRange_core (fun _ _ => ?_) _ _) ?_) | (simp only [↓refreshTile_core, ↓core_ite, ite_self, id_eq, ↓core_of_mk, core_eta]))

theorem pairRelease_core (k : Nat) (s : State) : (pairRelease k s).core = s.core := by
  unfold pairRelease
  repeat' (first | with_reducible rfl | (simp only [↓setPairH_core, ↓core_ite, ite_self, id_eq, ↓core_of_mk, core_eta]; done) | split | (simp only [↓setPairH_core, ↓core_ite, ite_self, id_eq, ↓core_of_mk, core_eta]))

theorem setOutputs_core (m : Nat) (hi lo : Bool) (s : State) : (setOutputs m hi lo s).core = s.core := by
  unfold setOutputs
  repeat' (first | with_reducible rfl | (simp only [↓setFld_core, ↓setLegH_core, ↓setPairH_core, ↓drivePair_core, ↓pairRelease_core, ↓core_ite, ite_self, id_eq, ↓core_of_mk, core_eta]; done) | split | (simp only [↓setFld_core, ↓setLegH_core, ↓setPairH_core, ↓drivePair_core, ↓pairRelease_core, ↓core_ite, ite_self, id_eq, ↓core_of_mk, core_eta]))

theorem refreshOut_core (m : Nat) (s : State) : (refreshOut m s).core = s.core := by
  unfold refreshOut
  repeat' (first | with_reducible rfl | (simp only [↓setOutputs_core, ↓setBit_core, ↓core_ite, ite_self, id_eq, ↓core_of_mk, core_eta]; done) | split | (simp only [↓setOutputs_core, ↓setBit_core, ↓core_ite, ite_self, id_eq, ↓core_of_mk, core_eta]))

theorem clearPulses_core (m : Nat) (s : State) : (clearPulses m s).core = s.core := by
  unfold clearPulses
  repeat' (first | with_reducible rfl | (simp only [↓setRg_core, ↓setBit_core, ↓setLegH_core, ↓core_ite, ite_self, id_eq, ↓core_of_mk, core_eta]; done) | split | (simp only [↓setRg_core, ↓setBit_core, ↓setLegH_core, ↓core_ite, ite_self, id_eq, ↓core_of_mk, core_eta]))

theorem enterSafe_core (m cause : Nat) (s : State) : (enterSafe m cause s).core = s.core := by
  unfold enterSafe
  repeat' (first | with_reducible rfl | (simp only [↓clearPulses_core, ↓setFld_core, ↓flag_core, ↓setLegH_core, ↓core_ite, ite_self, id_eq, ↓core_of_mk, core_eta]; done) | split | (simp only [↓clearPulses_core, ↓setFld_core, ↓flag_core, ↓setLegH_core, ↓core_ite, ite_self, id_eq, ↓core_of_mk, core_eta]))

theorem safeClear_core (m : Nat) (s : State) : (safeClear m s).core = s.core := by
  unfold safeClear
  repeat' (first | with_reducible rfl | (simp only [↓setFld_core, ↓setLegH_core, ↓core_ite, ite_self, id_eq, ↓core_of_mk, core_eta]; done) | split | (simp only [↓setFld_core, ↓setLegH_core, ↓core_ite, ite_self, id_eq, ↓core_of_mk, core_eta]))

theorem safeCheck_core (m : Nat) (s : State) : (safeCheck m s).core = s.core := by
  unfold safeCheck
  repeat' (first | with_reducible rfl | (simp only [↓setFld_core, ↓setLegH_core, ↓enterSafe_core, ↓safeClear_core, ↓core_ite, ite_self, id_eq, ↓core_of_mk, core_eta]; done) | split | (simp only [↓setFld_core, ↓setLegH_core, ↓enterSafe_core, ↓safeClear_core, ↓core_ite, ite_self, id_eq, ↓core_of_mk, core_eta]))

theorem setOvr_core (m code : Nat) (s : State) : (setOvr m code s).core = s.core := by
  unfold setOvr
  repeat' (first | with_reducible rfl | (simp only [↓refreshOut_core, ↓setLegH_core, ↓core_ite, ite_self, id_eq, ↓core_of_mk, core_eta]; done) | split | (simp only [↓refreshOut_core, ↓setLegH_core, ↓core_ite, ite_self, id_eq, ↓core_of_mk, core_eta]))

theorem setDfPhSt_core (i p st : Nat) (s : State) : (setDfPhSt i p st s).core = s.core := by
  unfold setDfPhSt
  repeat' (first | with_reducible rfl | (simp only [↓setFld_core, ↓core_ite, ite_self, id_eq, ↓core_of_mk, core_eta]; done) | split | (simp only [↓setFld_core, ↓core_ite, ite_self, id_eq, ↓core_of_mk, core_eta]))

theorem setDfPhase_core (i p : Nat) (x : DfPhase) (s : State) : (setDfPhase i p x s).core = s.core := by
  unfold setDfPhase
  repeat' (first | with_reducible rfl | (simp only [↓setDfH_core, ↓core_ite, ite_self, id_eq, ↓core_of_mk, core_eta]; done) | split | (simp only [↓setDfH_core, ↓core_ite, ite_self, id_eq, ↓core_of_mk, core_eta]))

theorem dfOverrides_core (i : Nat) (s : State) : (dfOverrides i s).core = s.core := by
  unfold dfOverrides
  repeat' (first | with_reducible rfl | (simp only [↓setOvr_core, ↓core_ite, ite_self, id_eq, ↓core_of_mk, core_eta]; done) | split | (with_reducible refine Eq.trans (forRange_core (fun _ _ => ?_) _ _) ?_) | (simp only [↓setOvr_core, ↓core_ite, ite_self, id_eq, ↓core_of_mk, core_eta]))

theorem dfShowPhases_core (i : Nat) (s : State) : (dfShowPhases i s).core = s.core := by
  unfold dfShowPhases
  repeat' (first | with_reducible rfl | (simp only [↓setBit_core, ↓setFld_core, ↓core_ite, ite_self, id_eq, ↓core_of_mk, core_eta]; done) | split | (simp only [↓setBit_core, ↓setFld_core, ↓core_ite, ite_self, id_eq, ↓core_of_mk, core_eta]))

theorem dfShowRef_core (i : Nat) (s : State) : (dfShowRef i s).core = s.core := by
  unfold dfShowRef
  repeat' (first | with_reducible rfl | (simp only [↓setBit_core, ↓setRg_core, ↓core_ite, ite_self, id_eq, ↓core_of_mk, core_eta]; done) | split | (simp only [↓setBit_core, ↓setRg_core, ↓core_ite, ite_self, id_eq, ↓core_of_mk, core_eta]))

theorem dfShowHot_core (i : Nat) (s : State) : (dfShowHot i s).core = s.core := by
  unfold dfShowHot
  repeat' (first | with_reducible rfl | (simp only [↓flag_core, ↓setBit_core, ↓core_ite, ite_self, id_eq, ↓core_of_mk, core_eta]; done) | split | (simp only [↓flag_core, ↓setBit_core, ↓core_ite, ite_self, id_eq, ↓core_of_mk, core_eta]))

theorem dfGo_core (i st : Nat) (cause : Option Nat) (s : State) : (dfGo i st cause s).core = s.core := by
  unfold dfGo
  repeat' (first | with_reducible rfl | (simp only [↓flag_core, ↓setBlockState_core, ↓setFld_core, ↓setDfPhSt_core, ↓dfShowHot_core, ↓dfShowRef_core, ↓dfOverrides_core, ↓dfShowPhases_core, ↓core_ite, ite_self, id_eq, ↓core_of_mk, core_eta]; done) | split | (with_reducible refine Eq.trans (forRange_core (fun _ _ => ?_) _ _) ?_) | (simp only [↓flag_core, ↓setBlockState_core, ↓setFld_core, ↓setDfPhSt_core, ↓dfShowHot_core, ↓dfShowRef_core, ↓dfOverrides_core, ↓dfShowPhases_core, ↓core_ite, ite_self, id_eq, ↓core_of_mk, core_eta]))

theorem dfUndoStop_core (i : Nat) (s : State) : (dfUndoStop i s).core = s.core := by
  unfold dfUndoStop
  repeat' (first | with_reducible rfl | (simp only [↓refuse_core, ↓setDfH_core, ↓core_ite, ite_self, id_eq, ↓core_of_mk, core_eta]; done) | split | (simp only [↓refuse_core, ↓setDfH_core, ↓core_ite, ite_self, id_eq, ↓core_of_mk, core_eta]))

theorem hbOverrides_core (s : State) : (hbOverrides s).core = s.core := by
  unfold hbOverrides
  repeat' (first | with_reducible rfl | (simp only [↓setOvr_core, ↓core_ite, ite_self, id_eq, ↓core_of_mk, core_eta]; done) | split | (with_reducible refine Eq.trans (forRange_core (fun _ _ => ?_) _ _) ?_) | (simp only [↓setOvr_core, ↓core_ite, ite_self, id_eq, ↓core_of_mk, core_eta]))

theorem pilotSwitch_core (s : State) : (pilotSwitch s).core = s.core := by
  unfold pilotSwitch
  repeat' (first | with_reducible rfl | (simp only [↓setBit_core, ↓hbOverrides_core, ↓core_ite, ite_self, id_eq, ↓core_of_mk, core_eta]; done) | split | (simp only [↓setBit_core, ↓hbOverrides_core, ↓core_ite, ite_self, id_eq, ↓core_of_mk, core_eta]))

theorem chgEnd_core (c : Nat) (s : State) : (chgEnd c s).core = s.core := by
  unfold chgEnd
  repeat' (first | with_reducible rfl | (simp only [↓setFld_core, ↓setBit_core, ↓pilotSwitch_core, ↓flag_core, ↓core_ite, ite_self, id_eq, ↓core_of_mk, core_eta]; done) | split | (simp only [↓setFld_core, ↓setBit_core, ↓pilotSwitch_core, ↓flag_core, ↓core_ite, ite_self, id_eq, ↓core_of_mk, core_eta]))

theorem hbGo_core (st : Nat) (s : State) : (hbGo st s).core = s.core := by
  unfold hbGo
  repeat' (first | with_reducible rfl | (simp only [↓chgEnd_core, ↓setFld_core, ↓flag_core, ↓setBlockState_core, ↓pilotSwitch_core, ↓hbOverrides_core, ↓core_ite, ite_self, id_eq, ↓core_of_mk, core_eta]; done) | split | (simp only [↓chgEnd_core, ↓setFld_core, ↓flag_core, ↓setBlockState_core, ↓pilotSwitch_core, ↓hbOverrides_core, ↓core_ite, ite_self, id_eq, ↓core_of_mk, core_eta]))

theorem hbDfLeft_core (s : State) : (hbDfLeft s).core = s.core := by
  unfold hbDfLeft
  repeat' (first | with_reducible rfl | (simp only [↓hbGo_core, ↓chgEnd_core, ↓core_ite, ite_self, id_eq, ↓core_of_mk, core_eta]; done) | split | (simp only [↓hbGo_core, ↓chgEnd_core, ↓core_ite, ite_self, id_eq, ↓core_of_mk, core_eta]))

theorem dfEnter_core (i st : Nat) (cause : Option Nat) (s : State) : (dfEnter i st cause s).core = s.core := by
  unfold dfEnter
  repeat' (first | with_reducible rfl | (simp only [↓dfGo_core, ↓hbDfLeft_core, ↓core_ite, ite_self, id_eq, ↓core_of_mk, core_eta]; done) | split | (simp only [↓dfGo_core, ↓hbDfLeft_core, ↓core_ite, ite_self, id_eq, ↓core_of_mk, core_eta]))

theorem dfReact_core (o : State) (i : Nat) (s : State) : (dfReact o i s).core = s.core := by
  unfold dfReact
  repeat' (first | with_reducible rfl | (simp only [↓dfEnter_core, ↓core_ite, ite_self, id_eq, ↓core_of_mk, core_eta]; done) | split | (simp only [↓dfEnter_core, ↓core_ite, ite_self, id_eq, ↓core_of_mk, core_eta]))

theorem dfReached_core (i : Nat) (s : State) : (dfReached i s).core = s.core := by
  unfold dfReached
  repeat' (first | with_reducible rfl | (simp only [↓setDfH_core, ↓dfShowRef_core, ↓flag_core, ↓dfEnter_core, ↓core_ite, ite_self, id_eq, ↓core_of_mk, core_eta]; done) | split | (simp only [↓setDfH_core, ↓dfShowRef_core, ↓flag_core, ↓dfEnter_core, ↓core_ite, ite_self, id_eq, ↓core_of_mk, core_eta]))

theorem dfSetTarget_core (i : Nat) (t : Int) (s : State) : (dfSetTarget i t s).core = s.core := by
  unfold dfSetTarget
  repeat' (first | with_reducible rfl | (simp only [↓dfReached_core, ↓dfShowRef_core, ↓setDfH_core, ↓core_ite, ite_self, id_eq, ↓core_of_mk, core_eta]; done) | split | (simp only [↓dfReached_core, ↓dfShowRef_core, ↓setDfH_core, ↓core_ite, ite_self, id_eq, ↓core_of_mk, core_eta]))

theorem dfTransferred_core (i : Nat) (s : State) : (dfTransferred i s).core = s.core := by
  unfold dfTransferred
  repeat' (first | with_reducible rfl | (simp only [↓dfSetTarget_core, ↓core_ite, ite_self, id_eq, ↓core_of_mk, core_eta]; done) | split | (simp only [↓dfSetTarget_core, ↓core_ite, ite_self, id_eq, ↓core_of_mk, core_eta]))

theorem hbTransferred_core (o s : State) : (hbTransferred o s).core = s.core := by
  unfold hbTransferred
  repeat' (first | with_reducible rfl | (simp only [↓pilotSwitch_core, ↓setFld_core, ↓core_ite, ite_self, id_eq, ↓core_of_mk, core_eta]; done) | split | (simp only [↓pilotSwitch_core, ↓setFld_core, ↓core_ite, ite_self, id_eq, ↓core_of_mk, core_eta]))

theorem aduOvr_core (u code : Nat) (s : State) : (aduOvr u code s).core = s.core := by
  unfold aduOvr
  repeat' (first | with_reducible rfl | (simp only [↓setOvr_core, ↓core_ite, ite_self, id_eq, ↓core_of_mk, core_eta]; done) | split | (with_reducible refine Eq.trans (forRange_core (fun _ _ => ?_) _ _) ?_) | (simp only [↓setOvr_core, ↓core_ite, ite_self, id_eq, ↓core_of_mk, core_eta]))

theorem aduOverrides_core (u : Nat) (s : State) : (aduOverrides u s).core = s.core := by
  unfold aduOverrides
  repeat' (first | with_reducible rfl | (simp only [↓aduOvr_core, ↓core_ite, ite_self, id_eq, ↓core_of_mk, core_eta]; done) | split | (simp only [↓aduOvr_core, ↓core_ite, ite_self, id_eq, ↓core_of_mk, core_eta]))

theorem aduEnter_core (u st : Nat) (cause : Option Nat) (s : State) : (aduEnter u st cause s).core = s.core := by
  unfold aduEnter
  repeat' (first | with_reducible rfl | (simp only [↓flag_core, ↓setBlockState_core, ↓setFld_core, ↓setBit_core, ↓aduOverrides_core, ↓core_ite, ite_self, id_eq, ↓core_of_mk, core_eta]; done) | split | (simp only [↓flag_core, ↓setBlockState_core, ↓setFld_core, ↓setBit_core, ↓aduOverrides_core, ↓core_ite, ite_self, id_eq, ↓core_of_mk, core_eta]))

theorem unitsLeaveRun_core (s : State) : (unitsLeaveRun s).core = s.core := by
  unfold unitsLeaveRun
  repeat' (first | with_reducible rfl | (simp only [↓hbGo_core, ↓aduEnter_core, ↓core_ite, ite_self, id_eq, ↓core_of_mk, core_eta]; done) | split | (with_reducible refine Eq.trans (forRange_core (fun _ _ => ?_) _ _) ?_) | (simp only [↓hbGo_core, ↓aduEnter_core, ↓core_ite, ite_self, id_eq, ↓core_of_mk, core_eta]))

theorem refreshLegs_core (s : State) : (refreshLegs s).core = s.core := by
  unfold refreshLegs
  repeat' (first | with_reducible rfl | (simp only [↓refreshOut_core, ↓core_ite, ite_self, id_eq, ↓core_of_mk, core_eta]; done) | split | (with_reducible refine Eq.trans (forRange_core (fun _ _ => ?_) _ _) ?_) | (simp only [↓refreshOut_core, ↓core_ite, ite_self, id_eq, ↓core_of_mk, core_eta]))

theorem safeLegs_core (s : State) : (safeLegs s).core = s.core := by
  unfold safeLegs
  repeat' (first | with_reducible rfl | (simp only [↓refreshLegs_core, ↓dfReact_core, ↓safeCheck_core, ↓core_ite, ite_self, id_eq, ↓core_of_mk, core_eta]; done) | split | (with_reducible refine Eq.trans (forRange_core (fun _ _ => ?_) _ _) ?_) | (simp only [↓refreshLegs_core, ↓dfReact_core, ↓safeCheck_core, ↓core_ite, ite_self, id_eq, ↓core_of_mk, core_eta]))

theorem noteLate_core (p : Nat) (s : State) : (noteLate p s).core = s.core := by
  unfold noteLate
  repeat' (first | with_reducible rfl | (simp only [↓core_ite, ite_self, id_eq, ↓core_of_mk, core_eta]; done) | split | (simp only [↓core_ite, ite_self, id_eq, ↓core_of_mk, core_eta]))

theorem dropLate_core (p : Nat) (s : State) : (dropLate p s).core = s.core := by
  unfold dropLate
  repeat' (first | with_reducible rfl | (simp only [↓core_ite, ite_self, id_eq, ↓core_of_mk, core_eta]; done) | split | (simp only [↓core_ite, ite_self, id_eq, ↓core_of_mk, core_eta]))

theorem degShow_core (s : State) : (degShow s).core = s.core := by
  unfold degShow
  repeat' (first | with_reducible rfl | (simp only [↓setRg_core, ↓core_ite, ite_self, id_eq, ↓core_of_mk, core_eta]; done) | split | (simp only [↓setRg_core, ↓core_ite, ite_self, id_eq, ↓core_of_mk, core_eta]))

theorem fwReact_core (s : State) : (fwReact s).core = s.core := by
  unfold fwReact
  repeat' (first | with_reducible rfl | (simp only [↓flag_core, ↓core_ite, ite_self, id_eq, ↓core_of_mk, core_eta]; done) | split | (simp only [↓flag_core, ↓core_ite, ite_self, id_eq, ↓core_of_mk, core_eta]))

theorem spareReact_core (s : State) : (spareReact s).core = s.core := by
  unfold spareReact
  repeat' (first | with_reducible rfl | (simp only [↓setFld_core, ↓core_ite, ite_self, id_eq, ↓core_of_mk, core_eta]; done) | split | (simp only [↓setFld_core, ↓core_ite, ite_self, id_eq, ↓core_of_mk, core_eta]))

theorem devEnter_core (old t : DevState) (cmd : Bool) (s : State) : (devEnter old t cmd s).core = s.core := by
  unfold devEnter
  repeat' (first | with_reducible rfl | (simp only [↓core_ite, ite_self, id_eq, ↓core_of_mk, core_eta]; done) | split | (simp only [↓core_ite, ite_self, id_eq, ↓core_of_mk, core_eta]))

theorem kdStart_core (k : Nat) (s : State) : (kdStart k s).core = s.core := by
  unfold kdStart
  repeat' (first | with_reducible rfl | (simp only [↓setBlockState_core, ↓core_ite, ite_self, id_eq, ↓core_of_mk, core_eta]; done) | split | (simp only [↓setBlockState_core, ↓core_ite, ite_self, id_eq, ↓core_of_mk, core_eta]))

theorem enterState_core (t : DevState) (cause : Nat) (cmd : Bool) (s : State) : (enterState t cause cmd s).core = s.core := by
  unfold enterState
  repeat' (first | with_reducible rfl | (simp only [↓setRg_core, ↓flagIf_core, ↓devEnter_core, ↓unitsLeaveRun_core, ↓kdStart_core, ↓fwReact_core, ↓spareReact_core, ↓degShow_core, ↓refreshLegs_core, ↓refreshTiles_core, ↓core_ite, ite_self, id_eq, ↓core_of_mk, core_eta]; done) | split | (with_reducible refine Eq.trans (forRange_core (fun _ _ => ?_) _ _) ?_) | (simp only [↓setRg_core, ↓flagIf_core, ↓devEnter_core, ↓unitsLeaveRun_core, ↓kdStart_core, ↓fwReact_core, ↓spareReact_core, ↓degShow_core, ↓refreshLegs_core, ↓refreshTiles_core, ↓core_ite, ite_self, id_eq, ↓core_of_mk, core_eta]))

theorem unTransit_core (a : Nat) (c : Option (Access × Nat)) (s : State) : (unTransit a c s).core = s.core := by
  unfold unTransit
  repeat' (first | with_reducible rfl | (simp only [↓setFld_core, ↓refuse_core, ↓core_ite, ite_self, id_eq, ↓core_of_mk, core_eta]; done) | split | (simp only [↓setFld_core, ↓refuse_core, ↓core_ite, ite_self, id_eq, ↓core_of_mk, core_eta]))

theorem transit_core (due : DevState → Option DevState) (cause : Nat) (s : State) : (transit due cause s).core = s.core := by
  unfold transit
  repeat' (first | with_reducible rfl | (simp only [↓enterState_core, ↓unTransit_core, ↓core_ite, ite_self, id_eq, ↓core_of_mk, core_eta]; done) | split | (simp only [↓enterState_core, ↓unTransit_core, ↓core_ite, ite_self, id_eq, ↓core_of_mk, core_eta]))

theorem goSafe_core (cause : Nat) (s : State) : (goSafe cause s).core = s.core := by
  unfold goSafe
  repeat' (first | with_reducible rfl | (simp only [↓transit_core, ↓core_ite, ite_self, id_eq, ↓core_of_mk, core_eta]; done) | split | (simp only [↓transit_core, ↓core_ite, ite_self, id_eq, ↓core_of_mk, core_eta]))

theorem goLatched_core (cause : Nat) (s : State) : (goLatched cause s).core = s.core := by
  unfold goLatched
  repeat' (first | with_reducible rfl | (simp only [↓transit_core, ↓core_ite, ite_self, id_eq, ↓core_of_mk, core_eta]; done) | split | (simp only [↓transit_core, ↓core_ite, ite_self, id_eq, ↓core_of_mk, core_eta]))

theorem classC_core (cause : Nat) (s : State) : (classC cause s).core = s.core := by
  unfold classC
  repeat' (first | with_reducible rfl | (simp only [↓transit_core, ↓core_ite, ite_self, id_eq, ↓core_of_mk, core_eta]; done) | split | (simp only [↓transit_core, ↓core_ite, ite_self, id_eq, ↓core_of_mk, core_eta]))

theorem enterHeld_core (cmd : Bool) (s : State) : (enterHeld cmd s).core = s.core := by
  unfold enterHeld
  repeat' (first | with_reducible rfl | (simp only [↓enterState_core, ↓core_ite, ite_self, id_eq, ↓core_of_mk, core_eta]; done) | split | (simp only [↓enterState_core, ↓core_ite, ite_self, id_eq, ↓core_of_mk, core_eta]))

theorem stopComplete_core (s : State) : (stopComplete s).core = s.core := by
  unfold stopComplete
  repeat' (first | with_reducible rfl | (simp only [↓enterState_core, ↓core_ite, ite_self, id_eq, ↓core_of_mk, core_eta]; done) | split | (simp only [↓enterState_core, ↓core_ite, ite_self, id_eq, ↓core_of_mk, core_eta]))

theorem saveStart_core (origin : Nat) (s : State) : (saveStart origin s).core = s.core := by
  unfold saveStart
  repeat' (first | with_reducible rfl | (simp only [↓setRg_core, ↓core_ite, ite_self, id_eq, ↓core_of_mk, core_eta]; done) | split | (simp only [↓setRg_core, ↓core_ite, ite_self, id_eq, ↓core_of_mk, core_eta]))

theorem bootEntry_core (cmd : Bool) (cause : Nat) (s : State) : (bootEntry cmd cause s).core = s.core := by
  unfold bootEntry
  repeat' (first | with_reducible rfl | (simp only [↓setRg_core, ↓freeStep_core, ↓enterState_core, ↓core_ite, ite_self, id_eq, ↓core_of_mk, core_eta]; done) | split | (with_reducible refine Eq.trans (forRange_core (fun _ _ => ?_) _ _) ?_) | (simp only [↓setRg_core, ↓freeStep_core, ↓enterState_core, ↓core_ite, ite_self, id_eq, ↓core_of_mk, core_eta]))

theorem restartFrom_core (byReset : Bool) (s : State) : (restartFrom byReset s).core = s.core := by
  unfold restartFrom
  repeat' (first | with_reducible rfl | (simp only [↓unTransit_core, ↓core_ite, ite_self, id_eq, ↓core_of_mk, core_eta]; done) | split | (simp only [↓unTransit_core, ↓core_ite, ite_self, id_eq, ↓core_of_mk, core_eta]))

theorem wakeStart_core (vin src : Nat) (svcen : Bool) (s : State) : (wakeStart vin src svcen s).core = s.core := by
  unfold wakeStart
  repeat' (first | with_reducible rfl | (simp only [↓setRg_core, ↓bootEntry_core, ↓core_ite, ite_self, id_eq, ↓core_of_mk, core_eta]; done) | split | (simp only [↓setRg_core, ↓bootEntry_core, ↓core_ite, ite_self, id_eq, ↓core_of_mk, core_eta]))

theorem vinMeasure_core (vin : Nat) (s : State) : (vinMeasure vin s).core = s.core := by
  unfold vinMeasure
  repeat' (first | with_reducible rfl | (simp only [↓setRg_core, ↓core_ite, ite_self, id_eq, ↓core_of_mk, core_eta]; done) | split | (simp only [↓setRg_core, ↓core_ite, ite_self, id_eq, ↓core_of_mk, core_eta]))

theorem bandEnter_core (frm : List Nat) (b : Nat) (fl : Option Nat) (vin : Nat) (s : State) : (bandEnter frm b fl vin s).core = s.core := by
  unfold bandEnter
  repeat' (first | with_reducible rfl | (simp only [↓vinMeasure_core, ↓setRg_core, ↓refreshLegs_core, ↓flag_core, ↓core_ite, ite_self, id_eq, ↓core_of_mk, core_eta]; done) | split | (simp only [↓vinMeasure_core, ↓setRg_core, ↓refreshLegs_core, ↓flag_core, ↓core_ite, ite_self, id_eq, ↓core_of_mk, core_eta]))

theorem suppliesOff_core (s : State) : (suppliesOff s).core = s.core := by
  unfold suppliesOff
  repeat' (first | with_reducible rfl | (simp only [↓refreshTiles_core, ↓setRg_core, ↓core_ite, ite_self, id_eq, ↓core_of_mk, core_eta]; done) | split | (simp only [↓refreshTiles_core, ↓setRg_core, ↓core_ite, ite_self, id_eq, ↓core_of_mk, core_eta]))

theorem setTxStat_core (k b st : Nat) (s : State) : (setTxStat k b st s).core = s.core := by
  unfold setTxStat
  repeat' (first | with_reducible rfl | (simp only [↓setFld_core, ↓core_ite, ite_self, id_eq, ↓core_of_mk, core_eta]; done) | split | (simp only [↓setFld_core, ↓core_ite, ite_self, id_eq, ↓core_of_mk, core_eta]))

theorem kdOff_core (k : Nat) (s : State) : (kdOff k s).core = s.core := by
  unfold kdOff
  repeat' (first | with_reducible rfl | (simp only [↓setTxStat_core, ↓setBlockState_core, ↓setKdH_core, ↓core_ite, ite_self, id_eq, ↓core_of_mk, core_eta]; done) | split | (simp only [↓setTxStat_core, ↓setBlockState_core, ↓setKdH_core, ↓core_ite, ite_self, id_eq, ↓core_of_mk, core_eta]))

theorem kdBrownOut_core (s : State) : (kdBrownOut s).core = s.core := by
  unfold kdBrownOut
  repeat' (first | with_reducible rfl | (simp only [↓kdOff_core, ↓setBit_core, ↓core_ite, ite_self, id_eq, ↓core_of_mk, core_eta]; done) | split | (with_reducible refine Eq.trans (forRange_core (fun _ _ => ?_) _ _) ?_) | (simp only [↓kdOff_core, ↓setBit_core, ↓core_ite, ite_self, id_eq, ↓core_of_mk, core_eta]))

theorem shutdown_core (s : State) : (shutdown s).core = s.core := by
  unfold shutdown
  repeat' (first | with_reducible rfl | (simp only [↓suppliesOff_core, ↓saveStart_core, ↓core_ite, ite_self, id_eq, ↓core_of_mk, core_eta]; done) | split | (simp only [↓suppliesOff_core, ↓saveStart_core, ↓core_ite, ite_self, id_eq, ↓core_of_mk, core_eta]))

theorem scarabTested_core (s : State) : (scarabTested s).core = s.core := by
  unfold scarabTested
  repeat' (first | with_reducible rfl | (simp only [↓setBit_core, ↓core_ite, ite_self, id_eq, ↓core_of_mk, core_eta]; done) | split | (simp only [↓setBit_core, ↓core_ite, ite_self, id_eq, ↓core_of_mk, core_eta]))

theorem carCount_core (n sel : Nat) (s : State) : (carCount n sel s).core = s.core := by
  unfold carCount
  repeat' (first | with_reducible rfl | (simp only [↓pulseAt_core, ↓setCarH_core, ↓core_ite, ite_self, id_eq, ↓core_of_mk, core_eta]; done) | split | (simp only [↓pulseAt_core, ↓setCarH_core, ↓core_ite, ite_self, id_eq, ↓core_of_mk, core_eta]))

theorem setOutH_core (m : Nat) (hi : Bool) (o : OutHid) (s : State) : (setOutH m hi o s).core = s.core := by
  unfold setOutH
  repeat' (first | with_reducible rfl | (simp only [↓setLegH_core, ↓core_ite, ite_self, id_eq, ↓core_of_mk, core_eta]; done) | split | (simp only [↓setLegH_core, ↓core_ite, ite_self, id_eq, ↓core_of_mk, core_eta]))

theorem setDebt_core (m : Nat) (hi : Bool) (d : Int) (s : State) : (setDebt m hi d s).core = s.core := by
  unfold setDebt
  repeat' (first | with_reducible rfl | (simp only [↓flagIf_core, ↓setFld_core, ↓core_ite, ite_self, id_eq, ↓core_of_mk, core_eta]; done) | split | (simp only [↓flagIf_core, ↓setFld_core, ↓core_ite, ite_self, id_eq, ↓core_of_mk, core_eta]))

theorem countDrop_core (m : Nat) (s : State) : (countDrop m s).core = s.core := by
  unfold countDrop
  repeat' (first | with_reducible rfl | (simp only [↓flag_core, ↓incSat_core, ↓core_ite, ite_self, id_eq, ↓core_of_mk, core_eta]; done) | split | (simp only [↓flag_core, ↓incSat_core, ↓core_ite, ite_self, id_eq, ↓core_of_mk, core_eta]))

theorem countStretch_core (m : Nat) (s : State) : (countStretch m s).core = s.core := by
  unfold countStretch
  repeat' (first | with_reducible rfl | (simp only [↓flag_core, ↓incSat_core, ↓core_ite, ite_self, id_eq, ↓core_of_mk, core_eta]; done) | split | (simp only [↓flag_core, ↓incSat_core, ↓core_ite, ite_self, id_eq, ↓core_of_mk, core_eta]))

theorem refEdge_core (m : Nat) (rise : Bool) (x : Nat) (s : State) : (refEdge m rise x s).core = s.core := by
  unfold refEdge
  repeat' (first | with_reducible rfl | (simp only [↓setOutH_core, ↓core_ite, ite_self, id_eq, ↓core_of_mk, core_eta]; done) | split | (simp only [↓setOutH_core, ↓core_ite, ite_self, id_eq, ↓core_of_mk, core_eta]))

theorem legCount_core (m : Nat) (rise : Bool) (s : State) : (legCount m rise s).core = s.core := by
  unfold legCount
  repeat' (first | with_reducible rfl | (simp only [↓pulseAt_core, ↓setLegH_core, ↓core_ite, ite_self, id_eq, ↓core_of_mk, core_eta]; done) | split | (simp only [↓pulseAt_core, ↓setLegH_core, ↓core_ite, ite_self, id_eq, ↓core_of_mk, core_eta]))

theorem takeEdge_core (m : Nat) (x : Nat) (rise : Bool) (s : State) : (takeEdge m x rise s).core = s.core := by
  unfold takeEdge
  repeat' (first | with_reducible rfl | (simp only [↓legCount_core, ↓setLegH_core, ↓refEdge_core, ↓core_ite, ite_self, id_eq, ↓core_of_mk, core_eta]; done) | split | (simp only [↓legCount_core, ↓setLegH_core, ↓refEdge_core, ↓core_ite, ite_self, id_eq, ↓core_of_mk, core_eta]))

theorem endPulse_core (m : Nat) (hi : Bool) (r : Nat) (s : State) : (endPulse m hi r s).core = s.core := by
  unfold endPulse
  repeat' (first | with_reducible rfl | (simp only [↓setOutH_core, ↓countStretch_core, ↓setDebt_core, ↓core_ite, ite_self, id_eq, ↓core_of_mk, core_eta]; done) | split | (simp only [↓setOutH_core, ↓countStretch_core, ↓setDebt_core, ↓core_ite, ite_self, id_eq, ↓core_of_mk, core_eta]))

theorem beginPulse_core (m : Nat) (hi : Bool) (x : Nat) (extra : Int) (long : Bool) (s : State) : (beginPulse m hi x extra long s).core = s.core := by
  unfold beginPulse
  repeat' (first | with_reducible rfl | (simp only [↓setOutH_core, ↓core_ite, ite_self, id_eq, ↓core_of_mk, core_eta]; done) | split | (simp only [↓setOutH_core, ↓core_ite, ite_self, id_eq, ↓core_of_mk, core_eta]))

theorem turnOnEdge_core (m : Nat) (hi : Bool) (x : Nat) (s : State) : (turnOnEdge m hi x s).core = s.core := by
  unfold turnOnEdge
  repeat' (first | with_reducible rfl | (simp only [↓setOutH_core, ↓beginPulse_core, ↓countStretch_core, ↓countDrop_core, ↓setDebt_core, ↓core_ite, ite_self, id_eq, ↓core_of_mk, core_eta]; done) | split | (simp only [↓setOutH_core, ↓beginPulse_core, ↓countStretch_core, ↓countDrop_core, ↓setDebt_core, ↓core_ite, ite_self, id_eq, ↓core_of_mk, core_eta]))

theorem turnOffEdge_core (m : Nat) (hi : Bool) (r : Nat) (s : State) : (turnOffEdge m hi r s).core = s.core := by
  unfold turnOffEdge
  repeat' (first | with_reducible rfl | (simp only [↓setOutH_core, ↓endPulse_core, ↓core_ite, ite_self, id_eq, ↓core_of_mk, core_eta]; done) | split | (simp only [↓setOutH_core, ↓endPulse_core, ↓core_ite, ite_self, id_eq, ↓core_of_mk, core_eta]))

theorem outRun_core (m : Nat) (hi : Bool) (lim n : Nat) (s : State) : (outRun m hi lim n s).core = s.core := by
  induction n generalizing s with
  | zero => rfl
  | succ n ih =>
    unfold outRun
    dsimp only
    repeat' (first | with_reducible rfl | (simp only [ih, ↓setOutH_core, ↓turnOnEdge_core, ↓turnOffEdge_core, ↓core_ite, ite_self]; done) | split)

theorem endEarly_core (m : Nat) (hi : Bool) (lim : Nat) (s : State) : (endEarly m hi lim s).core = s.core := by
  unfold endEarly
  repeat' (first | with_reducible rfl | (simp only [↓endPulse_core, ↓core_ite, ite_self, id_eq, ↓core_of_mk, core_eta]; done) | split | (simp only [↓endPulse_core, ↓core_ite, ite_self, id_eq, ↓core_of_mk, core_eta]))

theorem showShadow_core (m : Nat) (s : State) : (showShadow m s).core = s.core := by
  unfold showShadow
  repeat' (first | with_reducible rfl | (simp only [↓setBit_core, ↓core_ite, ite_self, id_eq, ↓core_of_mk, core_eta]; done) | split | (simp only [↓setBit_core, ↓core_ite, ite_self, id_eq, ↓core_of_mk, core_eta]))

theorem setActive_core (m : Nat) (b : Bool) (v : Option Nat) (s : State) : (setActive m b v s).core = s.core := by
  unfold setActive
  repeat' (first | with_reducible rfl | (simp only [↓setRg_core, ↓core_ite, ite_self, id_eq, ↓core_of_mk, core_eta]; done) | split | (simp only [↓setRg_core, ↓core_ite, ite_self, id_eq, ↓core_of_mk, core_eta]))

theorem countLate_core (m k : Nat) (s : State) : (countLate m k s).core = s.core := by
  unfold countLate
  repeat' (first | with_reducible rfl | (simp only [↓flag_core, ↓incSat_core, ↓core_ite, ite_self, id_eq, ↓core_of_mk, core_eta]; done) | split | (simp only [↓flag_core, ↓incSat_core, ↓core_ite, ite_self, id_eq, ↓core_of_mk, core_eta]))

theorem reload_core (m : Nat) (s : State) : (reload m s).core = s.core := by
  unfold reload
  repeat' (first | with_reducible rfl | (simp only [↓setActive_core, ↓showShadow_core, ↓countLate_core, ↓setLegH_core, ↓core_ite, ite_self, id_eq, ↓core_of_mk, core_eta]; done) | split | (simp only [↓setActive_core, ↓showShadow_core, ↓countLate_core, ↓setLegH_core, ↓core_ite, ite_self, id_eq, ↓core_of_mk, core_eta]))

theorem applyHeld_core (m frac : Nat) (s : State) : (applyHeld m frac s).core = s.core := by
  unfold applyHeld
  repeat' (first | with_reducible rfl | (simp only [↓showShadow_core, ↓setLegH_core, ↓setActive_core, ↓core_ite, ite_self, id_eq, ↓core_of_mk, core_eta]; done) | split | (simp only [↓showShadow_core, ↓setLegH_core, ↓setActive_core, ↓core_ite, ite_self, id_eq, ↓core_of_mk, core_eta]))

theorem holdValue_core (m : Nat) (b : Bool) (v : Nat) (s : State) : (holdValue m b v s).core = s.core := by
  unfold holdValue
  repeat' (first | with_reducible rfl | (simp only [↓flag_core, ↓incSat_core, ↓showShadow_core, ↓setLegH_core, ↓applyHeld_core, ↓core_ite, ite_self, id_eq, ↓core_of_mk, core_eta]; done) | split | (simp only [↓flag_core, ↓incSat_core, ↓showShadow_core, ↓setLegH_core, ↓applyHeld_core, ↓core_ite, ite_self, id_eq, ↓core_of_mk, core_eta]))

theorem applyNow_core (m : Nat) (b : Bool) (v : Nat) (s : State) : (applyNow m b v s).core = s.core := by
  unfold applyNow
  repeat' (first | with_reducible rfl | (simp only [↓showShadow_core, ↓setActive_core, ↓setLegH_core, ↓core_ite, ite_self, id_eq, ↓core_of_mk, core_eta]; done) | split | (simp only [↓showShadow_core, ↓setActive_core, ↓setLegH_core, ↓core_ite, ite_self, id_eq, ↓core_of_mk, core_eta]))

theorem arrive_core (m : Nat) (b : Bool) (v : Nat) (safe : Bool) (s : State) : (arrive m b v safe s).core = s.core := by
  unfold arrive
  repeat' (first | with_reducible rfl | (simp only [↓setRg_core, ↓showShadow_core, ↓setLegH_core, ↓countLate_core, ↓applyNow_core, ↓holdValue_core, ↓core_ite, ite_self, id_eq, ↓core_of_mk, core_eta]; done) | split | (simp only [↓setRg_core, ↓showShadow_core, ↓setLegH_core, ↓countLate_core, ↓applyNow_core, ↓holdValue_core, ↓core_ite, ite_self, id_eq, ↓core_of_mk, core_eta]))

theorem deliverNow_core (owner m : Nat) (b : Bool) (v : Nat) (s : State) : (deliverNow owner m b v s).core = s.core := by
  unfold deliverNow
  repeat' (first | with_reducible rfl | (simp only [↓arrive_core, ↓flag_core, ↓core_ite, ite_self, id_eq, ↓core_of_mk, core_eta]; done) | split | (simp only [↓arrive_core, ↓flag_core, ↓core_ite, ite_self, id_eq, ↓core_of_mk, core_eta]))

theorem deliver_core (owner m : Nat) (b : Bool) (v at_ : Nat) (s : State) : (deliver owner m b v at_ s).core = s.core := by
  unfold deliver
  repeat' (first | with_reducible rfl | (simp only [↓deliverNow_core, ↓setLegH_core, ↓core_ite, ite_self, id_eq, ↓core_of_mk, core_eta]; done) | split | (simp only [↓deliverNow_core, ↓setLegH_core, ↓core_ite, ite_self, id_eq, ↓core_of_mk, core_eta]))

theorem releaseHolds_core (ms : List Nat) (s : State) : (releaseHolds ms s).core = s.core := by
  unfold releaseHolds
  repeat' (first | with_reducible rfl | (simp only [↓setBit_core, ↓setLegH_core, ↓arrive_core, ↓core_ite, ite_self, id_eq, ↓core_of_mk, core_eta]; done) | split | (with_reducible refine Eq.trans (foldl_core (fun _ _ => ?_) _ _) ?_) | (simp only [↓setBit_core, ↓setLegH_core, ↓arrive_core, ↓core_ite, ite_self, id_eq, ↓core_of_mk, core_eta]))

theorem commitArrive_core (group : Bool) (vals : List CommitVal) (s : State) : (commitArrive group vals s).core = s.core := by
  unfold commitArrive
  repeat' (first | with_reducible rfl | (simp only [↓flag_core, ↓arrive_core, ↓core_ite, ite_self, id_eq, ↓core_of_mk, core_eta]; done) | split | (with_reducible refine Eq.trans (foldl_core (fun _ _ => ?_) _ _) ?_) | (simp only [↓flag_core, ↓arrive_core, ↓core_ite, ite_self, id_eq, ↓core_of_mk, core_eta]))

theorem applyForce_core (due : Nat × Nat → Bool) (m : Nat) (s : State) : (applyForce due m s).core = s.core := by
  unfold applyForce
  repeat' (first | with_reducible rfl | (simp only [↓refreshOut_core, ↓setLegH_core, ↓core_ite, ite_self, id_eq, ↓core_of_mk, core_eta]; done) | split | (simp only [↓refreshOut_core, ↓setLegH_core, ↓core_ite, ite_self, id_eq, ↓core_of_mk, core_eta]))

theorem startRef_core (m x : Nat) (s : State) : (startRef m x s).core = s.core := by
  unfold startRef
  repeat' (first | with_reducible rfl | (simp only [↓setLegH_core, ↓core_ite, ite_self, id_eq, ↓core_of_mk, core_eta]; done) | split | (simp only [↓setLegH_core, ↓core_ite, ite_self, id_eq, ↓core_of_mk, core_eta]))

theorem followTo_core (m x : Nat) (s : State) : (followTo m x s).core = s.core := by
  unfold followTo
  repeat' (first | with_reducible rfl | (simp only [↓takeEdge_core, ↓core_ite, ite_self, id_eq, ↓core_of_mk, core_eta]; done) | split | (with_reducible refine Eq.trans (foldl_core (fun _ _ => ?_) _ _) ?_) | (simp only [↓takeEdge_core, ↓core_ite, ite_self, id_eq, ↓core_of_mk, core_eta]))

theorem resumeLeg_core (m frac : Nat) (s : State) : (resumeLeg m frac s).core = s.core := by
  unfold resumeLeg
  repeat' (first | with_reducible rfl | (simp only [↓setLegH_core, ↓refreshOut_core, ↓startRef_core, ↓setFld_core, ↓followTo_core, ↓core_ite, ite_self, id_eq, ↓core_of_mk, core_eta]; done) | split | (simp only [↓setLegH_core, ↓refreshOut_core, ↓startRef_core, ↓setFld_core, ↓followTo_core, ↓core_ite, ite_self, id_eq, ↓core_of_mk, core_eta]))

theorem legEvent_core (n : Nat) (zero : Bool) (frac m : Nat) (s : State) : (legEvent n zero frac m s).core = s.core := by
  unfold legEvent
  repeat' (first | with_reducible rfl | (simp only [↓applyForce_core, ↓reload_core, ↓applyHeld_core, ↓resumeLeg_core, ↓core_ite, ite_self, id_eq, ↓core_of_mk, core_eta]; done) | split | (simp only [↓applyForce_core, ↓reload_core, ↓applyHeld_core, ↓resumeLeg_core, ↓core_ite, ite_self, id_eq, ↓core_of_mk, core_eta]))

theorem zeroEvent_core (n frac : Nat) (s : State) : (zeroEvent n frac s).core = s.core := by
  unfold zeroEvent
  repeat' (first | with_reducible rfl | (simp only [↓setRg_core, ↓incWrap_core, ↓setCarH_core, ↓legEvent_core, ↓carCount_core, ↓core_ite, ite_self, id_eq, ↓core_of_mk, core_eta]; done) | split | (with_reducible refine Eq.trans (forRange_core (fun _ _ => ?_) _ _) ?_) | (simp only [↓setRg_core, ↓incWrap_core, ↓setCarH_core, ↓legEvent_core, ↓carCount_core, ↓core_ite, ite_self, id_eq, ↓core_of_mk, core_eta]))

theorem periodEvent_core (n frac : Nat) (s : State) : (periodEvent n frac s).core = s.core := by
  unfold periodEvent
  repeat' (first | with_reducible rfl | (simp only [↓legEvent_core, ↓carCount_core, ↓setCarH_core, ↓core_ite, ite_self, id_eq, ↓core_of_mk, core_eta]; done) | split | (with_reducible refine Eq.trans (forRange_core (fun _ _ => ?_) _ _) ?_) | (simp only [↓legEvent_core, ↓carCount_core, ↓setCarH_core, ↓core_ite, ite_self, id_eq, ↓core_of_mk, core_eta]))

theorem resync_core (n : Nat) (s : State) : (resync n s).core = s.core := by
  unfold resync
  repeat' (first | with_reducible rfl | (simp only [↓setCarH_core, ↓setRg_core, ↓incWrap_core, ↓zeroEvent_core, ↓core_ite, ite_self, id_eq, ↓core_of_mk, core_eta]; done) | split | (simp only [↓setCarH_core, ↓setRg_core, ↓incWrap_core, ↓zeroEvent_core, ↓core_ite, ite_self, id_eq, ↓core_of_mk, core_eta]))

theorem deliverPeriod_core (n t : Nat) (s : State) : (deliverPeriod n t s).core = s.core := by
  unfold deliverPeriod
  repeat' (first | with_reducible rfl | (simp only [↓setBit_core, ↓setRg_core, ↓core_ite, ite_self, id_eq, ↓core_of_mk, core_eta]; done) | split | (simp only [↓setBit_core, ↓setRg_core, ↓core_ite, ite_self, id_eq, ↓core_of_mk, core_eta]))

theorem releaseLock_core (n : Nat) (s : State) : (releaseLock n s).core = s.core := by
  unfold releaseLock
  repeat' (first | with_reducible rfl | (simp only [↓setBit_core, ↓core_ite, ite_self, id_eq, ↓core_of_mk, core_eta]; done) | split | (simp only [↓setBit_core, ↓core_ite, ite_self, id_eq, ↓core_of_mk, core_eta]))

theorem carStart_core (n : Nat) (s : State) : (carStart n s).core = s.core := by
  unfold carStart
  repeat' (first | with_reducible rfl | (simp only [↓setRg_core, ↓setCarH_core, ↓zeroEvent_core, ↓core_ite, ite_self, id_eq, ↓core_of_mk, core_eta]; done) | split | (simp only [↓setRg_core, ↓setCarH_core, ↓zeroEvent_core, ↓core_ite, ite_self, id_eq, ↓core_of_mk, core_eta]))

theorem chainStep_core (n : Nat) (s : State) : (chainStep n s).core = s.core := by
  unfold chainStep
  repeat' (first | with_reducible rfl | (simp only [↓resync_core, ↓core_ite, ite_self, id_eq, ↓core_of_mk, core_eta]; done) | split | (simp only [↓resync_core, ↓core_ite, ite_self, id_eq, ↓core_of_mk, core_eta]))

theorem chainSync_core (s : State) : (chainSync s).core = s.core := by
  unfold chainSync
  repeat' (first | with_reducible rfl | (simp only [↓chainStep_core, ↓core_ite, ite_self, id_eq, ↓core_of_mk, core_eta]; done) | split | (with_reducible refine Eq.trans (forRange_core (fun _ _ => ?_) _ _) ?_) | (simp only [↓chainStep_core, ↓core_ite, ite_self, id_eq, ↓core_of_mk, core_eta]))

theorem carSettle_core (n : Nat) (s : State) : (carSettle n s).core = s.core := by
  unfold carSettle
  repeat' (first | with_reducible rfl | (simp only [↓chainStep_core, ↓zeroEvent_core, ↓periodEvent_core, ↓core_ite, ite_self, id_eq, ↓core_of_mk, core_eta]; done) | split | (simp only [↓chainStep_core, ↓zeroEvent_core, ↓periodEvent_core, ↓core_ite, ite_self, id_eq, ↓core_of_mk, core_eta]))

theorem carEnable_core (n : Nat) (on : Bool) (s : State) : (carEnable n on s).core = s.core := by
  unfold carEnable
  repeat' (first | with_reducible rfl | (simp only [↓refreshLegs_core, ↓setCarH_core, ↓core_ite, ite_self, id_eq, ↓core_of_mk, core_eta]; done) | split | (simp only [↓refreshLegs_core, ↓setCarH_core, ↓core_ite, ite_self, id_eq, ↓core_of_mk, core_eta]))

theorem gcommit_core (n : Nat) (s : State) : (gcommit n s).core = s.core := by
  unfold gcommit
  repeat' (first | with_reducible rfl | (simp only [↓releaseHolds_core, ↓core_ite, ite_self, id_eq, ↓core_of_mk, core_eta]; done) | split | (simp only [↓releaseHolds_core, ↓core_ite, ite_self, id_eq, ↓core_of_mk, core_eta]))

theorem carEff_core (n o v : Nat) (was : Bool) (per : Nat) (s : State) : (carEff n o v was per s).core = s.core := by
  unfold carEff
  repeat' (first | with_reducible rfl | (simp only [↓gcommit_core, ↓carEnable_core, ↓setCarH_core, ↓core_ite, ite_self, id_eq, ↓core_of_mk, core_eta]; done) | split | (simp only [↓gcommit_core, ↓carEnable_core, ↓setCarH_core, ↓core_ite, ite_self, id_eq, ↓core_of_mk, core_eta]))

theorem carWrite_core (acc : Access) (n o v : Nat) (s : State) : (carWrite acc n o v s).core = s.core := by
  unfold carWrite
  repeat' (first | with_reducible rfl | (simp only [↓carEff_core, ↓core_ite, ite_self, id_eq, ↓core_of_mk, core_eta]; done) | split | (with_reducible refine Eq.trans (busStore_core (fun _ => ?_) _) ?_) | (simp only [↓carEff_core, ↓core_ite, ite_self, id_eq, ↓core_of_mk, core_eta]))

theorem legEnable_core (m : Nat) (on : Bool) (s : State) : (legEnable m on s).core = s.core := by
  unfold legEnable
  repeat' (first | with_reducible rfl | (simp only [↓refreshOut_core, ↓safeCheck_core, ↓setLegH_core, ↓setFld_core, ↓clearPulses_core, ↓core_ite, ite_self, id_eq, ↓core_of_mk, core_eta]; done) | split | (simp only [↓refreshOut_core, ↓safeCheck_core, ↓setLegH_core, ↓setFld_core, ↓clearPulses_core, ↓core_ite, ite_self, id_eq, ↓core_of_mk, core_eta]))

theorem legEff_core (m o v ctrl : Nat) (s : State) : (legEff m o v ctrl s).core = s.core := by
  unfold legEff
  repeat' (first | with_reducible rfl | (simp only [↓setRg_core, ↓releaseHolds_core, ↓legEnable_core, ↓setLegH_core, ↓arrive_core, ↓core_ite, ite_self, id_eq, ↓core_of_mk, core_eta]; done) | split | (simp only [↓setRg_core, ↓releaseHolds_core, ↓legEnable_core, ↓setLegH_core, ↓arrive_core, ↓core_ite, ite_self, id_eq, ↓core_of_mk, core_eta]))

theorem legWrite_core (acc : Access) (m o v : Nat) (s : State) : (legWrite acc m o v s).core = s.core := by
  unfold legWrite
  repeat' (first | with_reducible rfl | (simp only [↓legEff_core, ↓core_ite, ite_self, id_eq, ↓core_of_mk, core_eta]; done) | split | (with_reducible refine Eq.trans (busStore_core (fun _ => ?_) _) ?_) | (simp only [↓legEff_core, ↓core_ite, ite_self, id_eq, ↓core_of_mk, core_eta]))

theorem refreshBegin_core (m : Nat) (s : State) : (refreshBegin m s).core = s.core := by
  unfold refreshBegin
  repeat' (first | with_reducible rfl | (simp only [↓setLegH_core, ↓core_ite, ite_self, id_eq, ↓core_of_mk, core_eta]; done) | split | (simp only [↓setLegH_core, ↓core_ite, ite_self, id_eq, ↓core_of_mk, core_eta]))

theorem refreshEnd_core (m : Nat) (s : State) : (refreshEnd m s).core = s.core := by
  unfold refreshEnd
  repeat' (first | with_reducible rfl | (simp only [↓setLegH_core, ↓countDrop_core, ↓core_ite, ite_self, id_eq, ↓core_of_mk, core_eta]; done) | split | (simp only [↓setLegH_core, ↓countDrop_core, ↓core_ite, ite_self, id_eq, ↓core_of_mk, core_eta]))

theorem legTick_core (m : Nat) (s : State) : (legTick m s).core = s.core := by
  unfold legTick
  repeat' (first | with_reducible rfl | (simp only [↓takeEdge_core, ↓setLegH_core, ↓outRun_core, ↓endEarly_core, ↓refreshEnd_core, ↓refreshBegin_core, ↓refreshOut_core, ↓core_ite, ite_self, id_eq, ↓core_of_mk, core_eta]; done) | split | (with_reducible refine Eq.trans (foldl_core (fun _ _ => ?_) _ _) ?_) | (simp only [↓takeEdge_core, ↓setLegH_core, ↓outRun_core, ↓endEarly_core, ↓refreshEnd_core, ↓refreshBegin_core, ↓refreshOut_core, ↓core_ite, ite_self, id_eq, ↓core_of_mk, core_eta]))

theorem legBegin_core (m : Nat) (s : State) : (legBegin m s).core = s.core := by
  unfold legBegin
  repeat' (first | with_reducible rfl | (simp only [↓showShadow_core, ↓setLegH_core, ↓setActive_core, ↓deliverNow_core, ↓applyForce_core, ↓core_ite, ite_self, id_eq, ↓core_of_mk, core_eta]; done) | split | (with_reducible refine Eq.trans (foldl_core (fun _ _ => ?_) _ _) ?_) | (simp only [↓showShadow_core, ↓setLegH_core, ↓setActive_core, ↓deliverNow_core, ↓applyForce_core, ↓core_ite, ite_self, id_eq, ↓core_of_mk, core_eta]))

theorem carTick_core (n : Nat) (s : State) : (carTick n s).core = s.core := by
  unfold carTick
  repeat' (first | with_reducible rfl | (simp only [↓setCarH_core, ↓setRg_core, ↓core_ite, ite_self, id_eq, ↓core_of_mk, core_eta]; done) | split | (simp only [↓setCarH_core, ↓setRg_core, ↓core_ite, ite_self, id_eq, ↓core_of_mk, core_eta]))

theorem carStarts_core (s : State) : (carStarts s).core = s.core := by
  unfold carStarts
  repeat' (first | with_reducible rfl | (simp only [↓carStart_core, ↓core_ite, ite_self, id_eq, ↓core_of_mk, core_eta]; done) | split | (with_reducible refine Eq.trans (forRange_core (fun _ _ => ?_) _ _) ?_) | (simp only [↓carStart_core, ↓core_ite, ite_self, id_eq, ↓core_of_mk, core_eta]))

theorem fireflyTick_core (s : State) : (fireflyTick s).core = s.core := by
  unfold fireflyTick
  repeat' (first | with_reducible rfl | (simp only [↓carTick_core, ↓legTick_core, ↓carSettle_core, ↓core_ite, ite_self, id_eq, ↓core_of_mk, core_eta]; done) | split | (with_reducible refine Eq.trans (forRange_core (fun _ _ => ?_) _ _) ?_) | (simp only [↓carTick_core, ↓legTick_core, ↓carSettle_core, ↓core_ite, ite_self, id_eq, ↓core_of_mk, core_eta]))

theorem setChanH_core (c : Nat) (x : ChanHid) (s : State) : (setChanH c x s).core = s.core := by
  unfold setChanH
  repeat' (first | with_reducible rfl | (simp only [↓setPairH_core, ↓core_ite, ite_self, id_eq, ↓core_of_mk, core_eta]; done) | split | (simp only [↓setPairH_core, ↓core_ite, ite_self, id_eq, ↓core_of_mk, core_eta]))

theorem setLedChan_core (c : Nat) (h : LedChan) (s : State) : (setLedChan c h s).core = s.core := by
  unfold setLedChan
  repeat' (first | with_reducible rfl | (simp only [↓setLed_core, ↓core_ite, ite_self, id_eq, ↓core_of_mk, core_eta]; done) | split | (simp only [↓setLed_core, ↓core_ite, ite_self, id_eq, ↓core_of_mk, core_eta]))

theorem ledMeasure_core (c : Nat) (s : State) : (ledMeasure c s).core = s.core := by
  unfold ledMeasure
  repeat' (first | with_reducible rfl | (simp only [↓setLedChan_core, ↓core_ite, ite_self, id_eq, ↓core_of_mk, core_eta]; done) | split | (simp only [↓setLedChan_core, ↓core_ite, ite_self, id_eq, ↓core_of_mk, core_eta]))

theorem ledTemp_core (n : Nat) (x : Int) (s : State) : (ledTemp n x s).core = s.core := by
  unfold ledTemp
  repeat' (first | with_reducible rfl | (simp only [↓setLedChan_core, ↓core_ite, ite_self, id_eq, ↓core_of_mk, core_eta]; done) | split | (with_reducible refine Eq.trans (forRange_core (fun _ _ => ?_) _ _) ?_) | (simp only [↓setLedChan_core, ↓core_ite, ite_self, id_eq, ↓core_of_mk, core_eta]))

theorem preCharge_core (fs i : Nat) (s : State) : (preCharge fs i s).core = s.core := by
  unfold preCharge
  repeat' (first | with_reducible rfl | (simp only [↓setLed_core, ↓core_ite, ite_self, id_eq, ↓core_of_mk, core_eta]; done) | split | (simp only [↓setLed_core, ↓core_ite, ite_self, id_eq, ↓core_of_mk, core_eta]))

theorem dfTrip_core (i p : Nat) (s : State) : (dfTrip i p s).core = s.core := by
  unfold dfTrip
  repeat' (first | with_reducible rfl | (simp only [↓flag_core, ↓setFld_core, ↓setDfPhase_core, ↓dfOverrides_core, ↓dfShowPhases_core, ↓setDfPhSt_core, ↓goLatched_core, ↓dfEnter_core, ↓dfUndoStop_core, ↓core_ite, ite_self, id_eq, ↓core_of_mk, core_eta]; done) | split | (simp only [↓flag_core, ↓setFld_core, ↓setDfPhase_core, ↓dfOverrides_core, ↓dfShowPhases_core, ↓setDfPhSt_core, ↓goLatched_core, ↓dfEnter_core, ↓dfUndoStop_core, ↓core_ite, ite_self, id_eq, ↓core_of_mk, core_eta]))

theorem awaitResume_core (k : Nat) (s : State) : (awaitResume k s).core = s.core := by
  unfold awaitResume
  repeat' (first | with_reducible rfl | (simp only [↓drivePair_core, ↓setPairH_core, ↓core_ite, ite_self, id_eq, ↓core_of_mk, core_eta]; done) | split | (simp only [↓drivePair_core, ↓setPairH_core, ↓core_ite, ite_self, id_eq, ↓core_of_mk, core_eta]))

theorem countTrip_core (k at_ : Nat) (s : State) : (countTrip k at_ s).core = s.core := by
  unfold countTrip
  repeat' (first | with_reducible rfl | (simp only [↓setFld_core, ↓setPairH_core, ↓goLatched_core, ↓refreshTile_core, ↓setBit_core, ↓core_ite, ite_self, id_eq, ↓core_of_mk, core_eta]; done) | split | (simp only [↓setFld_core, ↓setPairH_core, ↓goLatched_core, ↓refreshTile_core, ↓setBit_core, ↓core_ite, ite_self, id_eq, ↓core_of_mk, core_eta]))

theorem singleTrip_core (k at_ : Nat) (s : State) : (singleTrip k at_ s).core = s.core := by
  unfold singleTrip
  repeat' (first | with_reducible rfl | (simp only [↓awaitResume_core, ↓dfTrip_core, ↓countTrip_core, ↓core_ite, ite_self, id_eq, ↓core_of_mk, core_eta]; done) | split | (simp only [↓awaitResume_core, ↓dfTrip_core, ↓countTrip_core, ↓core_ite, ite_self, id_eq, ↓core_of_mk, core_eta]))

theorem classifyTrip_core (c : Nat) (s : State) : (classifyTrip c s).core = s.core := by
  unfold classifyTrip
  repeat' (first | with_reducible rfl | (simp only [↓singleTrip_core, ↓driveGroup_core, ↓setFld_core, ↓setGroupH_core, ↓core_ite, ite_self, id_eq, ↓core_of_mk, core_eta]; done) | split | (simp only [↓singleTrip_core, ↓driveGroup_core, ↓setFld_core, ↓setGroupH_core, ↓core_ite, ite_self, id_eq, ↓core_of_mk, core_eta]))

theorem trip_core (c : Nat) (hard ovld : Bool) (s : State) : (trip c hard ovld s).core = s.core := by
  unfold trip
  repeat' (first | with_reducible rfl | (simp only [↓setRg_core, ↓incWrap_core, ↓setChanH_core, ↓flag_core, ↓setBit_core, ↓setPairH_core, ↓classifyTrip_core, ↓drivePair_core, ↓core_ite, ite_self, id_eq, ↓core_of_mk, core_eta]; done) | split | (simp only [↓setRg_core, ↓incWrap_core, ↓setChanH_core, ↓flag_core, ↓setBit_core, ↓setPairH_core, ↓classifyTrip_core, ↓drivePair_core, ↓core_ite, ite_self, id_eq, ↓core_of_mk, core_eta]))

theorem softEnd_core (c : Nat) (s : State) : (softEnd c s).core = s.core := by
  unfold softEnd
  repeat' (first | with_reducible rfl | (simp only [↓drivePair_core, ↓setChanH_core, ↓core_ite, ite_self, id_eq, ↓core_of_mk, core_eta]; done) | split | (simp only [↓drivePair_core, ↓setChanH_core, ↓core_ite, ite_self, id_eq, ↓core_of_mk, core_eta]))

theorem decide__core (g d : Nat) (cs : List Nat) (s : State) : (decide_ g d cs s).core = s.core := by
  unfold decide_
  repeat' (first | with_reducible rfl | (simp only [↓setPairH_core, ↓setRg_core, ↓flagIf_core, ↓goSafe_core, ↓driveGroup_core, ↓core_ite, ite_self, id_eq, ↓core_of_mk, core_eta]; done) | split | (with_reducible refine Eq.trans (forRange_core (fun _ _ => ?_) _ _) ?_) | (with_reducible refine Eq.trans (foldl_core (fun _ _ => ?_) _ _) ?_) | (simp only [↓setPairH_core, ↓setRg_core, ↓flagIf_core, ↓goSafe_core, ↓driveGroup_core, ↓core_ite, ite_self, id_eq, ↓core_of_mk, core_eta]))

theorem windowClose_core (g : Nat) (s : State) : (windowClose g s).core = s.core := by
  unfold windowClose
  repeat' (first | with_reducible rfl | (simp only [↓setGroupH_core, ↓singleTrip_core, ↓decide__core, ↓core_ite, ite_self, id_eq, ↓core_of_mk, core_eta]; done) | split | (with_reducible refine Eq.trans (foldl_core (fun _ _ => ?_) _ _) ?_) | (simp only [↓setGroupH_core, ↓singleTrip_core, ↓decide__core, ↓core_ite, ite_self, id_eq, ↓core_of_mk, core_eta]))

theorem endDecisions_core (s : State) : (endDecisions s).core = s.core := by
  unfold endDecisions
  repeat' (first | with_reducible rfl | (simp only [↓driveGroup_core, ↓setGroupH_core, ↓setRg_core, ↓core_ite, ite_self, id_eq, ↓core_of_mk, core_eta]; done) | split | (with_reducible refine Eq.trans (forRange_core (fun _ _ => ?_) _ _) ?_) | (simp only [↓driveGroup_core, ↓setGroupH_core, ↓setRg_core, ↓core_ite, ite_self, id_eq, ↓core_of_mk, core_eta]))

theorem channelUvlo_core (c : Nat) (neg : Bool) (v held : Nat) (s : State) : (channelUvlo c neg v held s).core = s.core := by
  unfold channelUvlo
  repeat' (first | with_reducible rfl | (simp only [↓driveTile_core, ↓flag_core, ↓setBit_core, ↓core_ite, ite_self, id_eq, ↓core_of_mk, core_eta]; done) | split | (simp only [↓driveTile_core, ↓flag_core, ↓setBit_core, ↓core_ite, ite_self, id_eq, ↓core_of_mk, core_eta]))

theorem channelUvloRecover_core (c : Nat) (neg : Bool) (v held : Nat) (s : State) : (channelUvloRecover c neg v held s).core = s.core := by
  unfold channelUvloRecover
  repeat' (first | with_reducible rfl | (simp only [↓drivePair_core, ↓setPairH_core, ↓setBit_core, ↓core_ite, ite_self, id_eq, ↓core_of_mk, core_eta]; done) | split | (with_reducible refine Eq.trans (forRange_core (fun _ _ => ?_) _ _) ?_) | (simp only [↓drivePair_core, ↓setPairH_core, ↓setBit_core, ↓core_ite, ite_self, id_eq, ↓core_of_mk, core_eta]))

theorem setImain_core (c isns : Nat) (s : State) : (setImain c isns s).core = s.core := by
  unfold setImain
  repeat' (first | with_reducible rfl | (simp only [↓setFld_core, ↓freeStep_core, ↓core_ite, ite_self, id_eq, ↓core_of_mk, core_eta]; done) | split | (simp only [↓setFld_core, ↓freeStep_core, ↓core_ite, ite_self, id_eq, ↓core_of_mk, core_eta]))

theorem measure_core (c isns vds : Nat) (s : State) : (measure c isns vds s).core = s.core := by
  unfold measure
  repeat' (first | with_reducible rfl | (simp only [↓setPairH_core, ↓ledMeasure_core, ↓setImain_core, ↓setRg_core, ↓core_ite, ite_self, id_eq, ↓core_of_mk, core_eta]; done) | split | (simp only [↓setPairH_core, ↓ledMeasure_core, ↓setImain_core, ↓setRg_core, ↓core_ite, ite_self, id_eq, ↓core_of_mk, core_eta]))

theorem ntcStore_core (n : Nat) (x : Int) (s : State) : (ntcStore n x s).core = s.core := by
  unfold ntcStore
  repeat' (first | with_reducible rfl | (simp only [↓setBit_core, ↓setFld_core, ↓flagIf_core, ↓ledTemp_core, ↓core_ite, ite_self, id_eq, ↓core_of_mk, core_eta]; done) | split | (simp only [↓setBit_core, ↓setFld_core, ↓flagIf_core, ↓ledTemp_core, ↓core_ite, ite_self, id_eq, ↓core_of_mk, core_eta]))

theorem ntcConvert_core (n : Nat) (ohms : Option Nat) (s : State) : (ntcConvert n ohms s).core = s.core := by
  unfold ntcConvert
  repeat' (first | with_reducible rfl | (simp only [↓flag_core, ↓setBit_core, ↓ntcStore_core, ↓freeStep_core, ↓core_ite, ite_self, id_eq, ↓core_of_mk, core_eta]; done) | split | (simp only [↓flag_core, ↓setBit_core, ↓ntcStore_core, ↓freeStep_core, ↓core_ite, ite_self, id_eq, ↓core_of_mk, core_eta]))

theorem pairTick_core (k : Nat) (s : State) : (pairTick k s).core = s.core := by
  unfold pairTick
  repeat' (first | with_reducible rfl | (simp only [↓softEnd_core, ↓awaitResume_core, ↓drivePair_core, ↓pairRelease_core, ↓core_ite, ite_self, id_eq, ↓core_of_mk, core_eta]; done) | split | (simp only [↓softEnd_core, ↓awaitResume_core, ↓drivePair_core, ↓pairRelease_core, ↓core_ite, ite_self, id_eq, ↓core_of_mk, core_eta]))

theorem ironTick_core (s : State) : (ironTick s).core = s.core := by
  unfold ironTick
  repeat' (first | with_reducible rfl | (simp only [↓pairTick_core, ↓windowClose_core, ↓core_ite, ite_self, id_eq, ↓core_of_mk, core_eta]; done) | split | (with_reducible refine Eq.trans (forRange_core (fun _ _ => ?_) _ _) ?_) | (simp only [↓pairTick_core, ↓windowClose_core, ↓core_ite, ite_self, id_eq, ↓core_of_mk, core_eta]))

theorem ovldCode_core (c : Nat) (s : State) : (ovldCode c s).core = s.core := by
  unfold ovldCode
  repeat' (first | with_reducible rfl | (simp only [↓setBit_core, ↓setChanH_core, ↓core_ite, ite_self, id_eq, ↓core_of_mk, core_eta]; done) | split | (simp only [↓setBit_core, ↓setChanH_core, ↓core_ite, ite_self, id_eq, ↓core_of_mk, core_eta]))

theorem protEff_core (p o was : Nat) (s : State) : (protEff p o was s).core = s.core := by
  unfold protEff
  repeat' (first | with_reducible rfl | (simp only [↓setFld_core, ↓core_ite, ite_self, id_eq, ↓core_of_mk, core_eta]; done) | split | (simp only [↓setFld_core, ↓core_ite, ite_self, id_eq, ↓core_of_mk, core_eta]))

theorem icEff_core (t o was : Nat) (s : State) : (icEff t o was s).core = s.core := by
  unfold icEff
  repeat' (first | with_reducible rfl | (simp only [↓refreshTile_core, ↓protEff_core, ↓core_ite, ite_self, id_eq, ↓core_of_mk, core_eta]; done) | split | (simp only [↓refreshTile_core, ↓protEff_core, ↓core_ite, ite_self, id_eq, ↓core_of_mk, core_eta]))

theorem icWrite_core (acc : Access) (t o v : Nat) (s : State) : (icWrite acc t o v s).core = s.core := by
  unfold icWrite
  repeat' (first | with_reducible rfl | (simp only [↓icEff_core, ↓core_ite, ite_self, id_eq, ↓core_of_mk, core_eta]; done) | split | (with_reducible refine Eq.trans (busStore_core (fun _ => ?_) _) ?_) | (simp only [↓icEff_core, ↓core_ite, ite_self, id_eq, ↓core_of_mk, core_eta]))

theorem brkDrive_core (n : Nat) (s : State) : (brkDrive n s).core = s.core := by
  unfold brkDrive
  repeat' (first | with_reducible rfl | (simp only [↓setBit_core, ↓flag_core, ↓flagIf_core, ↓core_ite, ite_self, id_eq, ↓core_of_mk, core_eta]; done) | split | (simp only [↓setBit_core, ↓flag_core, ↓flagIf_core, ↓core_ite, ite_self, id_eq, ↓core_of_mk, core_eta]))

theorem brkMeet_core (n : Nat) (was : Bool) (s : State) : (brkMeet n was s).core = s.core := by
  unfold brkMeet
  repeat' (first | with_reducible rfl | (simp only [↓flagIf_core, ↓core_ite, ite_self, id_eq, ↓core_of_mk, core_eta]; done) | split | (simp only [↓flagIf_core, ↓core_ite, ite_self, id_eq, ↓core_of_mk, core_eta]))

theorem brakeDrive_core (s : State) : (brakeDrive s).core = s.core := by
  unfold brakeDrive
  repeat' (first | with_reducible rfl | (simp only [↓brkDrive_core, ↓core_ite, ite_self, id_eq, ↓core_of_mk, core_eta]; done) | split | (simp only [↓brkDrive_core, ↓core_ite, ite_self, id_eq, ↓core_of_mk, core_eta]))

theorem brakeTick_core (s : State) : (brakeTick s).core = s.core := by
  unfold brakeTick
  repeat' (first | with_reducible rfl | (simp only [↓brakeDrive_core, ↓core_ite, ite_self, id_eq, ↓core_of_mk, core_eta]; done) | split | (simp only [↓brakeDrive_core, ↓core_ite, ite_self, id_eq, ↓core_of_mk, core_eta]))

theorem brkUpdate_core (n : Nat) (s : State) : (brkUpdate n s).core = s.core := by
  unfold brkUpdate
  repeat' (first | with_reducible rfl | (simp only [↓setRg_core, ↓flag_core, ↓setBit_core, ↓core_ite, ite_self, id_eq, ↓core_of_mk, core_eta]; done) | split | (simp only [↓setRg_core, ↓flag_core, ↓setBit_core, ↓core_ite, ite_self, id_eq, ↓core_of_mk, core_eta]))

theorem dcLinkOv_core (s : State) : (dcLinkOv s).core = s.core := by
  unfold dcLinkOv
  repeat' (first | with_reducible rfl | (simp only [↓flag_core, ↓setBit_core, ↓incSat_core, ↓refreshLegs_core, ↓brakeDrive_core, ↓goLatched_core, ↓core_ite, ite_self, id_eq, ↓core_of_mk, core_eta]; done) | split | (simp only [↓flag_core, ↓setBit_core, ↓incSat_core, ↓refreshLegs_core, ↓brakeDrive_core, ↓goLatched_core, ↓core_ite, ite_self, id_eq, ↓core_of_mk, core_eta]))

theorem brakeEff_core (o : Nat) (s : State) : (brakeEff o s).core = s.core := by
  unfold brakeEff
  repeat' (first | with_reducible rfl | (simp only [↓brakeDrive_core, ↓refreshLegs_core, ↓core_ite, ite_self, id_eq, ↓core_of_mk, core_eta]; done) | split | (simp only [↓brakeDrive_core, ↓refreshLegs_core, ↓core_ite, ite_self, id_eq, ↓core_of_mk, core_eta]))

theorem brakeWrite_core (acc : Access) (o v : Nat) (s : State) : (brakeWrite acc o v s).core = s.core := by
  unfold brakeWrite
  repeat' (first | with_reducible rfl | (simp only [↓brakeEff_core, ↓core_ite, ite_self, id_eq, ↓core_of_mk, core_eta]; done) | split | (with_reducible refine Eq.trans (busStore_core (fun _ => ?_) _) ?_) | (simp only [↓brakeEff_core, ↓core_ite, ite_self, id_eq, ↓core_of_mk, core_eta]))

theorem setOmega_core (n : Nat) (w : Int) (s : State) : (setOmega n w s).core = s.core := by
  unfold setOmega
  repeat' (first | with_reducible rfl | (simp only [↓setBit_core, ↓setTrk_core, ↓core_ite, ite_self, id_eq, ↓core_of_mk, core_eta]; done) | split | (simp only [↓setBit_core, ↓setTrk_core, ↓core_ite, ite_self, id_eq, ↓core_of_mk, core_eta]))

theorem reseatSlot_core (i : Nat) (s : State) : (reseatSlot i s).core = s.core := by
  unfold reseatSlot
  repeat' (first | with_reducible rfl | (simp only [↓setBit_core, ↓setSlotH_core, ↓setFld_core, ↓core_ite, ite_self, id_eq, ↓core_of_mk, core_eta]; done) | split | (simp only [↓setBit_core, ↓setSlotH_core, ↓setFld_core, ↓core_ite, ite_self, id_eq, ↓core_of_mk, core_eta]))

theorem reseatDone_core (i : Nat) (s : State) : (reseatDone i s).core = s.core := by
  unfold reseatDone
  repeat' (first | with_reducible rfl | (simp only [↓flag_core, ↓setRg_core, ↓setSlotH_core, ↓core_ite, ite_self, id_eq, ↓core_of_mk, core_eta]; done) | split | (simp only [↓flag_core, ↓setRg_core, ↓setSlotH_core, ↓core_ite, ite_self, id_eq, ↓core_of_mk, core_eta]))

theorem slotFires_core (i : Nat) (s : State) : (slotFires i s).core = s.core := by
  unfold slotFires
  repeat' (first | with_reducible rfl | (simp only [↓incWrap_core, ↓setSlotH_core, ↓setBit_core, ↓core_ite, ite_self, id_eq, ↓core_of_mk, core_eta]; done) | split | (simp only [↓incWrap_core, ↓setSlotH_core, ↓setBit_core, ↓core_ite, ite_self, id_eq, ↓core_of_mk, core_eta]))

theorem slotEvent_core (i : Nat) (fwd : Bool) (o : Int) (l : Lattice) (catching : Bool) (s : State) : (slotEvent i fwd o l catching s).core = s.core := by
  unfold slotEvent
  repeat' (first | with_reducible rfl | (simp only [↓setFld_core, ↓setSlotH_core, ↓flag_core, ↓incSat_core, ↓slotFires_core, ↓core_ite, ite_self, id_eq, ↓core_of_mk, core_eta]; done) | split | (simp only [↓setFld_core, ↓setSlotH_core, ↓flag_core, ↓incSat_core, ↓slotFires_core, ↓core_ite, ite_self, id_eq, ↓core_of_mk, core_eta]))

theorem slotEval_core (i : Nat) (s : State) : (slotEval i s).core = s.core := by
  unfold slotEval
  repeat' (first | with_reducible rfl | (simp only [↓slotFires_core, ↓setSlotH_core, ↓slotEvent_core, ↓core_ite, ite_self, id_eq, ↓core_of_mk, core_eta]; done) | split | (simp only [↓slotFires_core, ↓setSlotH_core, ↓slotEvent_core, ↓core_ite, ite_self, id_eq, ↓core_of_mk, core_eta]))

theorem reseatLock_core (n : Nat) (s : State) : (reseatLock n s).core = s.core := by
  unfold reseatLock
  repeat' (first | with_reducible rfl | (simp only [↓setTrk_core, ↓core_ite, ite_self, id_eq, ↓core_of_mk, core_eta]; done) | split | (simp only [↓setTrk_core, ↓core_ite, ite_self, id_eq, ↓core_of_mk, core_eta]))

theorem releaseCarriers_core (map : Nat) (s : State) : (releaseCarriers map s).core = s.core := by
  unfold releaseCarriers
  repeat' (first | with_reducible rfl | (simp only [↓releaseLock_core, ↓core_ite, ite_self, id_eq, ↓core_of_mk, core_eta]; done) | split | (with_reducible refine Eq.trans (forRange_core (fun _ _ => ?_) _ _) ?_) | (simp only [↓releaseLock_core, ↓core_ite, ite_self, id_eq, ↓core_of_mk, core_eta]))

theorem lockCheck_core (n : Nat) (s : State) : (lockCheck n s).core = s.core := by
  unfold lockCheck
  repeat' (first | with_reducible rfl | (simp only [↓setTrk_core, ↓releaseCarriers_core, ↓setBit_core, ↓core_ite, ite_self, id_eq, ↓core_of_mk, core_eta]; done) | split | (simp only [↓setTrk_core, ↓releaseCarriers_core, ↓setBit_core, ↓core_ite, ite_self, id_eq, ↓core_of_mk, core_eta]))

theorem recordD_core (n : Nat) (s : State) : (recordD n s).core = s.core := by
  unfold recordD
  repeat' (first | with_reducible rfl | (simp only [↓setFld_core, ↓freeStep_core, ↓core_ite, ite_self, id_eq, ↓core_of_mk, core_eta]; done) | split | (simp only [↓setFld_core, ↓freeStep_core, ↓core_ite, ite_self, id_eq, ↓core_of_mk, core_eta]))

theorem lockEvent_core (n : Nat) (dir : Int) (l : Lattice) (s : State) : (lockEvent n dir l s).core = s.core := by
  unfold lockEvent
  repeat' (first | with_reducible rfl | (simp only [↓recordD_core, ↓setTrk_core, ↓flagIf_core, ↓setBit_core, ↓core_ite, ite_self, id_eq, ↓core_of_mk, core_eta]; done) | split | (simp only [↓recordD_core, ↓setTrk_core, ↓flagIf_core, ↓setBit_core, ↓core_ite, ite_self, id_eq, ↓core_of_mk, core_eta]))

theorem lockDeliver_core (n : Nat) (s : State) : (lockDeliver n s).core = s.core := by
  unfold lockDeliver
  repeat' (first | with_reducible rfl | (simp only [↓resync_core, ↓deliverPeriod_core, ↓setTrk_core, ↓core_ite, ite_self, id_eq, ↓core_of_mk, core_eta]; done) | split | (with_reducible refine Eq.trans (forRange_core (fun _ _ => ?_) _ _) ?_) | (simp only [↓resync_core, ↓deliverPeriod_core, ↓setTrk_core, ↓core_ite, ite_self, id_eq, ↓core_of_mk, core_eta]))

theorem reseatAll_core (n : Nat) (s : State) : (reseatAll n s).core = s.core := by
  unfold reseatAll
  repeat' (first | with_reducible rfl | (simp only [↓reseatLock_core, ↓reseatSlot_core, ↓core_ite, ite_self, id_eq, ↓core_of_mk, core_eta]; done) | split | (with_reducible refine Eq.trans (forRange_core (fun _ _ => ?_) _ _) ?_) | (simp only [↓reseatLock_core, ↓reseatSlot_core, ↓core_ite, ite_self, id_eq, ↓core_of_mk, core_eta]))

theorem trackGo_core (n st cause : Nat) (s : State) : (trackGo n st cause s).core = s.core := by
  unfold trackGo
  repeat' (first | with_reducible rfl | (simp only [↓flag_core, ↓setBlockState_core, ↓setTrk_core, ↓setOmega_core, ↓setFld_core, ↓incSat_core, ↓reseatAll_core, ↓lockCheck_core, ↓core_ite, ite_self, id_eq, ↓core_of_mk, core_eta]; done) | split | (simp only [↓flag_core, ↓setBlockState_core, ↓setTrk_core, ↓setOmega_core, ↓setFld_core, ↓incSat_core, ↓reseatAll_core, ↓lockCheck_core, ↓core_ite, ite_self, id_eq, ↓core_of_mk, core_eta]))

theorem trackFault_core (n : Nat) (s : State) : (trackFault n s).core = s.core := by
  unfold trackFault
  repeat' (first | with_reducible rfl | (simp only [↓flag_core, ↓trackGo_core, ↓core_ite, ite_self, id_eq, ↓core_of_mk, core_eta]; done) | split | (simp only [↓flag_core, ↓trackGo_core, ↓core_ite, ite_self, id_eq, ↓core_of_mk, core_eta]))

theorem sourceFault_core (ty inst : Nat) (s : State) : (sourceFault ty inst s).core = s.core := by
  unfold sourceFault
  repeat' (first | with_reducible rfl | (simp only [↓trackFault_core, ↓core_ite, ite_self, id_eq, ↓core_of_mk, core_eta]; done) | split | (with_reducible refine Eq.trans (forRange_core (fun _ _ => ?_) _ _) ?_) | (simp only [↓trackFault_core, ↓core_ite, ite_self, id_eq, ↓core_of_mk, core_eta]))

theorem offer_core (n : Nat) (c : Corr) (s : State) : (offer n c s).core = s.core := by
  unfold offer
  repeat' (first | with_reducible rfl | (simp only [↓setTrk_core, ↓core_ite, ite_self, id_eq, ↓core_of_mk, core_eta]; done) | split | (simp only [↓setTrk_core, ↓core_ite, ite_self, id_eq, ↓core_of_mk, core_eta]))

theorem applyCorr_core (n : Nat) (e : Int) (s : State) : (applyCorr n e s).core = s.core := by
  unfold applyCorr
  repeat' (first | with_reducible rfl | (simp only [↓setOmega_core, ↓setTrk_core, ↓lockCheck_core, ↓incWrap_core, ↓setArith_core, ↓core_ite, ite_self, id_eq, ↓core_of_mk, core_eta]; done) | split | (simp only [↓setOmega_core, ↓setTrk_core, ↓lockCheck_core, ↓incWrap_core, ↓setArith_core, ↓core_ite, ite_self, id_eq, ↓core_of_mk, core_eta]))

theorem firstCorr_core (n : Nat) (c : Corr) (e : Int) (s : State) : (firstCorr n c e s).core = s.core := by
  unfold firstCorr
  repeat' (first | with_reducible rfl | (simp only [↓setOmega_core, ↓setTrk_core, ↓lockCheck_core, ↓setRg_core, ↓incWrap_core, ↓trackGo_core, ↓core_ite, ite_self, id_eq, ↓core_of_mk, core_eta]; done) | split | (simp only [↓setOmega_core, ↓setTrk_core, ↓lockCheck_core, ↓setRg_core, ↓incWrap_core, ↓trackGo_core, ↓core_ite, ite_self, id_eq, ↓core_of_mk, core_eta]))

theorem takeCorr_core (n : Nat) (c : Corr) (e : Int) (s : State) : (takeCorr n c e s).core = s.core := by
  unfold takeCorr
  repeat' (first | with_reducible rfl | (simp only [↓setRg_core, ↓firstCorr_core, ↓trackGo_core, ↓applyCorr_core, ↓setTrk_core, ↓core_ite, ite_self, id_eq, ↓core_of_mk, core_eta]; done) | split | (simp only [↓setRg_core, ↓firstCorr_core, ↓trackGo_core, ↓applyCorr_core, ↓setTrk_core, ↓core_ite, ite_self, id_eq, ↓core_of_mk, core_eta]))

theorem correct_core (n : Nat) (s : State) : (correct n s).core = s.core := by
  unfold correct
  repeat' (first | with_reducible rfl | (simp only [↓setTrk_core, ↓flag_core, ↓incSat_core, ↓setArith_core, ↓takeCorr_core, ↓setBit_core, ↓core_ite, ite_self, id_eq, ↓core_of_mk, core_eta]; done) | split | (simp only [↓setTrk_core, ↓flag_core, ↓incSat_core, ↓setArith_core, ↓takeCorr_core, ↓setBit_core, ↓core_ite, ite_self, id_eq, ↓core_of_mk, core_eta]))

theorem trackTransferred_core (o : State) (n : Nat) (s : State) : (trackTransferred o n s).core = s.core := by
  unfold trackTransferred
  repeat' (first | with_reducible rfl | (simp only [↓setOmega_core, ↓releaseCarriers_core, ↓lockCheck_core, ↓reseatLock_core, ↓core_ite, ite_self, id_eq, ↓core_of_mk, core_eta]; done) | split | (simp only [↓setOmega_core, ↓releaseCarriers_core, ↓lockCheck_core, ↓reseatLock_core, ↓core_ite, ite_self, id_eq, ↓core_of_mk, core_eta]))

theorem slotTransferred_core (o : State) (i : Nat) (s : State) : (slotTransferred o i s).core = s.core := by
  unfold slotTransferred
  repeat' (first | with_reducible rfl | (simp only [↓reseatSlot_core, ↓core_ite, ite_self, id_eq, ↓core_of_mk, core_eta]; done) | split | (simp only [↓reseatSlot_core, ↓core_ite, ite_self, id_eq, ↓core_of_mk, core_eta]))

theorem trackEnable_core (n : Nat) (s : State) : (trackEnable n s).core = s.core := by
  unfold trackEnable
  repeat' (first | with_reducible rfl | (simp only [↓setOmega_core, ↓trackGo_core, ↓setTrk_core, ↓core_ite, ite_self, id_eq, ↓core_of_mk, core_eta]; done) | split | (simp only [↓setOmega_core, ↓trackGo_core, ↓setTrk_core, ↓core_ite, ite_self, id_eq, ↓core_of_mk, core_eta]))

theorem atEff_core (n o v : Nat) (was : Bool) (s : State) : (atEff n o v was s).core = s.core := by
  unfold atEff
  repeat' (first | with_reducible rfl | (simp only [↓trackGo_core, ↓trackEnable_core, ↓core_ite, ite_self, id_eq, ↓core_of_mk, core_eta]; done) | split | (simp only [↓trackGo_core, ↓trackEnable_core, ↓core_ite, ite_self, id_eq, ↓core_of_mk, core_eta]))

theorem atWrite_core (acc : Access) (n o v : Nat) (s : State) : (atWrite acc n o v s).core = s.core := by
  unfold atWrite
  repeat' (first | with_reducible rfl | (simp only [↓clearArith_core, ↓atEff_core, ↓core_ite, ite_self, id_eq, ↓core_of_mk, core_eta]; done) | split | (with_reducible refine Eq.trans (busStore_core (fun _ => ?_) _) ?_) | (simp only [↓clearArith_core, ↓atEff_core, ↓core_ite, ite_self, id_eq, ↓core_of_mk, core_eta]))

theorem slotsWrite_core (acc : Access) (p o v : Nat) (s : State) : (slotsWrite acc p o v s).core = s.core := by
  unfold slotsWrite
  repeat' (first | with_reducible rfl | (simp only [↓core_ite, ite_self, id_eq, ↓core_of_mk, core_eta]; done) | split | (with_reducible refine Eq.trans (busStore_core (fun _ => ?_) _) ?_) | (simp only [↓core_ite, ite_self, id_eq, ↓core_of_mk, core_eta]))

theorem slotsTick_core (s : State) : (slotsTick s).core = s.core := by
  unfold slotsTick
  repeat' (first | with_reducible rfl | (simp only [↓setSlotH_core, ↓core_ite, ite_self, id_eq, ↓core_of_mk, core_eta]; done) | split | (with_reducible refine Eq.trans (forRange_core (fun _ _ => ?_) _ _) ?_) | (simp only [↓setSlotH_core, ↓core_ite, ite_self, id_eq, ↓core_of_mk, core_eta]))

theorem trackTick_core (n : Nat) (s : State) : (trackTick n s).core = s.core := by
  unfold trackTick
  repeat' (first | with_reducible rfl | (simp only [↓setTrk_core, ↓core_ite, ite_self, id_eq, ↓core_of_mk, core_eta]; done) | split | (simp only [↓setTrk_core, ↓core_ite, ite_self, id_eq, ↓core_of_mk, core_eta]))

theorem posLatch_core (n : Nat) (s : State) : (posLatch n s).core = s.core := by
  unfold posLatch
  repeat' (first | with_reducible rfl | (simp only [↓setRg_core, ↓core_ite, ite_self, id_eq, ↓core_of_mk, core_eta]; done) | split | (simp only [↓setRg_core, ↓core_ite, ite_self, id_eq, ↓core_of_mk, core_eta]))

theorem calSat_core (sat : Bool) (c : Nat) (s : State) : (calSat sat c s).core = s.core := by
  unfold calSat
  repeat' (first | with_reducible rfl | (simp only [↓flag_core, ↓setBit_core, ↓core_ite, ite_self, id_eq, ↓core_of_mk, core_eta]; done) | split | (simp only [↓flag_core, ↓setBit_core, ↓core_ite, ite_self, id_eq, ↓core_of_mk, core_eta]))

theorem convSat_core (ys : List (Nat × Int × Bool)) (s : State) : (convSat ys s).core = s.core := by
  unfold convSat
  repeat' (first | with_reducible rfl | (simp only [↓calSat_core, ↓core_ite, ite_self, id_eq, ↓core_of_mk, core_eta]; done) | split | (with_reducible refine Eq.trans (foldl_core (fun _ _ => ?_) _ _) ?_) | (simp only [↓calSat_core, ↓core_ite, ite_self, id_eq, ↓core_of_mk, core_eta]))

theorem zeroFeed_core (code : Nat) (raw : Int) (s : State) : (zeroFeed code raw s).core = s.core := by
  unfold zeroFeed
  repeat' (first | with_reducible rfl | (simp only [↓core_ite, ite_self, id_eq, ↓core_of_mk, core_eta]; done) | split | (simp only [↓core_ite, ite_self, id_eq, ↓core_of_mk, core_eta]))

theorem sdgTransferred_core (o : State) (g : Nat) (s : State) : (sdgTransferred o g s).core = s.core := by
  unfold sdgTransferred
  repeat' (first | with_reducible rfl | (simp only [↓core_ite, ite_self, id_eq, ↓core_of_mk, core_eta]; done) | split | (simp only [↓core_ite, ite_self, id_eq, ↓core_of_mk, core_eta]))

theorem sdRaw_core (n : Nat) (w : List Bool) (s : State) : (sdRaw n w s).core = s.core := by
  unfold sdRaw
  repeat' (first | with_reducible rfl | (simp only [↓zeroFeed_core, ↓setFld_core, ↓core_ite, ite_self, id_eq, ↓core_of_mk, core_eta]; done) | split | (simp only [↓zeroFeed_core, ↓setFld_core, ↓core_ite, ite_self, id_eq, ↓core_of_mk, core_eta]))

theorem mapAsm_core (f : SetAsm → SetAsm) (s : State) : (mapAsm f s).core = s.core := by
  unfold mapAsm
  repeat' (first | with_reducible rfl | (simp only [↓core_ite, ite_self, id_eq, ↓core_of_mk, core_eta]; done) | split | (simp only [↓core_ite, ite_self, id_eq, ↓core_of_mk, core_eta]))

theorem loseWhere_core (cause : Nat) (c : SetChan → Bool) (s : State) : (loseWhere cause c s).core = s.core := by
  unfold loseWhere
  repeat' (first | with_reducible rfl | (simp only [↓mapAsm_core, ↓core_ite, ite_self, id_eq, ↓core_of_mk, core_eta]; done) | split | (simp only [↓mapAsm_core, ↓core_ite, ite_self, id_eq, ↓core_of_mk, core_eta]))

theorem sdFault_core (g b ev : Nat) (inputs : List Nat) (s : State) : (sdFault g b ev inputs s).core = s.core := by
  unfold sdFault
  repeat' (first | with_reducible rfl | (simp only [↓loseWhere_core, ↓flag_core, ↓setBit_core, ↓core_ite, ite_self, id_eq, ↓core_of_mk, core_eta]; done) | split | (simp only [↓loseWhere_core, ↓flag_core, ↓setBit_core, ↓core_ite, ite_self, id_eq, ↓core_of_mk, core_eta]))

theorem sdEnables_core (g : Nat) (s : State) : (sdEnables g s).core = s.core := by
  unfold sdEnables
  repeat' (first | with_reducible rfl | (simp only [↓loseWhere_core, ↓core_ite, ite_self, id_eq, ↓core_of_mk, core_eta]; done) | split | (with_reducible refine Eq.trans (forRange_core (fun _ _ => ?_) _ _) ?_) | (simp only [↓loseWhere_core, ↓core_ite, ite_self, id_eq, ↓core_of_mk, core_eta]))

theorem sdgWrite_core (acc : Access) (g o v : Nat) (s : State) : (sdgWrite acc g o v s).core = s.core := by
  unfold sdgWrite
  repeat' (first | with_reducible rfl | (simp only [↓sdEnables_core, ↓core_ite, ite_self, id_eq, ↓core_of_mk, core_eta]; done) | split | (with_reducible refine Eq.trans (busStore_core (fun _ => ?_) _) ?_) | (simp only [↓sdEnables_core, ↓core_ite, ite_self, id_eq, ↓core_of_mk, core_eta]))

theorem setCur_core (k : Nat) (f : SetAsm → SetAsm) (s : State) : (setCur k f s).core = s.core := by
  unfold setCur
  repeat' (first | with_reducible rfl | (simp only [↓setSetH_core, ↓core_ite, ite_self, id_eq, ↓core_of_mk, core_eta]; done) | split | (simp only [↓setSetH_core, ↓core_ite, ite_self, id_eq, ↓core_of_mk, core_eta]))

theorem sarRequest_core (n ch k : Nat) (s : State) : (sarRequest n ch k s).core = s.core := by
  unfold sarRequest
  repeat' (first | with_reducible rfl | (simp only [↓setCur_core, ↓setSarH_core, ↓flag_core, ↓setBit_core, ↓core_ite, ite_self, id_eq, ↓core_of_mk, core_eta]; done) | split | (simp only [↓setCur_core, ↓setSarH_core, ↓flag_core, ↓setBit_core, ↓core_ite, ite_self, id_eq, ↓core_of_mk, core_eta]))

theorem sarKeep_core (n : Nat) (keep : List SarConv) (s : State) : (sarKeep n keep s).core = s.core := by
  unfold sarKeep
  repeat' (first | with_reducible rfl | (simp only [↓setSarH_core, ↓setCur_core, ↓core_ite, ite_self, id_eq, ↓core_of_mk, core_eta]; done) | split | (with_reducible refine Eq.trans (foldl_core (fun _ _ => ?_) _ _) ?_) | (simp only [↓setSarH_core, ↓setCur_core, ↓core_ite, ite_self, id_eq, ↓core_of_mk, core_eta]))

theorem sarResult_core (n : Nat) (e : Nat × SarConv × Int) (s : State) : (sarResult n e s).core = s.core := by
  unfold sarResult
  repeat' (first | with_reducible rfl | (simp only [↓setFld_core, ↓incWrap_core, ↓zeroFeed_core, ↓setSetH_core, ↓core_ite, ite_self, id_eq, ↓core_of_mk, core_eta]; done) | split | (simp only [↓setFld_core, ↓incWrap_core, ↓zeroFeed_core, ↓setSetH_core, ↓core_ite, ite_self, id_eq, ↓core_of_mk, core_eta]))

theorem sarDue_core (n : Nat) (s : State) : (sarDue n s).core = s.core := by
  unfold sarDue
  repeat' (first | with_reducible rfl | (simp only [↓sarResult_core, ↓setSarH_core, ↓core_ite, ite_self, id_eq, ↓core_of_mk, core_eta]; done) | split | (with_reducible refine Eq.trans (foldl_core (fun _ _ => ?_) _ _) ?_) | (simp only [↓sarResult_core, ↓setSarH_core, ↓core_ite, ite_self, id_eq, ↓core_of_mk, core_eta]))

theorem sarDone_core (n : Nat) (uv : Int) (s : State) : (sarDone n uv s).core = s.core := by
  unfold sarDone
  repeat' (first | with_reducible rfl | (simp only [↓sarDue_core, ↓setSarH_core, ↓core_ite, ite_self, id_eq, ↓core_of_mk, core_eta]; done) | split | (simp only [↓sarDue_core, ↓setSarH_core, ↓core_ite, ite_self, id_eq, ↓core_of_mk, core_eta]))

theorem sarScan_core (n : Nat) (s : State) : (sarScan n s).core = s.core := by
  unfold sarScan
  repeat' (first | with_reducible rfl | (simp only [↓setBit_core, ↓incSat_core, ↓setSarH_core, ↓core_ite, ite_self, id_eq, ↓core_of_mk, core_eta]; done) | split | (simp only [↓setBit_core, ↓incSat_core, ↓setSarH_core, ↓core_ite, ite_self, id_eq, ↓core_of_mk, core_eta]))

theorem sarEnables_core (n : Nat) (s : State) : (sarEnables n s).core = s.core := by
  unfold sarEnables
  repeat' (first | with_reducible rfl | (simp only [↓loseWhere_core, ↓setSarH_core, ↓core_ite, ite_self, id_eq, ↓core_of_mk, core_eta]; done) | split | (simp only [↓loseWhere_core, ↓setSarH_core, ↓core_ite, ite_self, id_eq, ↓core_of_mk, core_eta]))

theorem sarWrite_core (acc : Access) (n o v : Nat) (s : State) : (sarWrite acc n o v s).core = s.core := by
  unfold sarWrite
  repeat' (first | with_reducible rfl | (simp only [↓sarEnables_core, ↓core_ite, ite_self, id_eq, ↓core_of_mk, core_eta]; done) | split | (with_reducible refine Eq.trans (busStore_core (fun _ => ?_) _) ?_) | (simp only [↓sarEnables_core, ↓core_ite, ite_self, id_eq, ↓core_of_mk, core_eta]))

theorem hvsResult_core (i : Nat) (mv : Int) (fault : Bool) (s : State) : (hvsResult i mv fault s).core = s.core := by
  unfold hvsResult
  repeat' (first | with_reducible rfl | (simp only [↓setFld_core, ↓incWrap_core, ↓setRg_core, ↓flagIf_core, ↓mapAsm_core, ↓preCharge_core, ↓zeroFeed_core, ↓loseWhere_core, ↓core_ite, ite_self, id_eq, ↓core_of_mk, core_eta]; done) | split | (simp only [↓setFld_core, ↓incWrap_core, ↓setRg_core, ↓flagIf_core, ↓mapAsm_core, ↓preCharge_core, ↓zeroFeed_core, ↓loseWhere_core, ↓core_ite, ite_self, id_eq, ↓core_of_mk, core_eta]))

theorem hvsEnables_core (i : Nat) (s : State) : (hvsEnables i s).core = s.core := by
  unfold hvsEnables
  repeat' (first | with_reducible rfl | (simp only [↓loseWhere_core, ↓core_ite, ite_self, id_eq, ↓core_of_mk, core_eta]; done) | split | (simp only [↓loseWhere_core, ↓core_ite, ite_self, id_eq, ↓core_of_mk, core_eta]))

theorem hvsWrite_core (acc : Access) (o v : Nat) (s : State) : (hvsWrite acc o v s).core = s.core := by
  unfold hvsWrite
  repeat' (first | with_reducible rfl | (simp only [↓hvsEnables_core, ↓core_ite, ite_self, id_eq, ↓core_of_mk, core_eta]; done) | split | (with_reducible refine Eq.trans (forRange_core (fun _ _ => ?_) _ _) ?_) | (with_reducible refine Eq.trans (busStore_core (fun _ => ?_) _) ?_) | (simp only [↓hvsEnables_core, ↓core_ite, ite_self, id_eq, ↓core_of_mk, core_eta]))

theorem rsvFault_core (r b : Nat) (s : State) : (rsvFault r b s).core = s.core := by
  unfold rsvFault
  repeat' (first | with_reducible rfl | (simp only [↓sourceFault_core, ↓flag_core, ↓setBit_core, ↓setRsvH_core, ↓core_ite, ite_self, id_eq, ↓core_of_mk, core_eta]; done) | split | (simp only [↓sourceFault_core, ↓flag_core, ↓setBit_core, ↓setRsvH_core, ↓core_ite, ite_self, id_eq, ↓core_of_mk, core_eta]))

theorem rsvSample_core (r : Nat) (sn cs : Int) (ph : Nat) (s : State) : (rsvSample r sn cs ph s).core = s.core := by
  unfold rsvSample
  repeat' (first | with_reducible rfl | (simp only [↓setRg_core, ↓setRsvH_core, ↓calSat_core, ↓rsvFault_core, ↓core_ite, ite_self, id_eq, ↓core_of_mk, core_eta]; done) | split | (simp only [↓setRg_core, ↓setRsvH_core, ↓calSat_core, ↓rsvFault_core, ↓core_ite, ite_self, id_eq, ↓core_of_mk, core_eta]))

theorem rsvDeliver_core (r : Nat) (s : State) : (rsvDeliver r s).core = s.core := by
  unfold rsvDeliver
  repeat' (first | with_reducible rfl | (simp only [↓setRg_core, ↓setRsvH_core, ↓offer_core, ↓core_ite, ite_self, id_eq, ↓core_of_mk, core_eta]; done) | split | (with_reducible refine Eq.trans (forRange_core (fun _ _ => ?_) _ _) ?_) | (simp only [↓setRg_core, ↓setRsvH_core, ↓offer_core, ↓core_ite, ite_self, id_eq, ↓core_of_mk, core_eta]))

theorem angleLatch_core (r : Nat) (s : State) : (angleLatch r s).core = s.core := by
  unfold angleLatch
  repeat' (first | with_reducible rfl | (simp only [↓setRg_core, ↓core_ite, ite_self, id_eq, ↓core_of_mk, core_eta]; done) | split | (simp only [↓setRg_core, ↓core_ite, ite_self, id_eq, ↓core_of_mk, core_eta]))

theorem rsvEnable_core (r : Nat) (s : State) : (rsvEnable r s).core = s.core := by
  unfold rsvEnable
  repeat' (first | with_reducible rfl | (simp only [↓setRsvH_core, ↓core_ite, ite_self, id_eq, ↓core_of_mk, core_eta]; done) | split | (simp only [↓setRsvH_core, ↓core_ite, ite_self, id_eq, ↓core_of_mk, core_eta]))

theorem rsvWrite_core (acc : Access) (r o v : Nat) (s : State) : (rsvWrite acc r o v s).core = s.core := by
  unfold rsvWrite
  repeat' (first | with_reducible rfl | (simp only [↓rsvEnable_core, ↓core_ite, ite_self, id_eq, ↓core_of_mk, core_eta]; done) | split | (with_reducible refine Eq.trans (busStore_core (fun _ => ?_) _) ?_) | (simp only [↓rsvEnable_core, ↓core_ite, ite_self, id_eq, ↓core_of_mk, core_eta]))

theorem encEdge_core (i : Nat) (a b z : Bool) (s : State) : (encEdge i a b z s).core = s.core := by
  unfold encEdge
  repeat' (first | with_reducible rfl | (simp only [↓sourceFault_core, ↓flag_core, ↓setBit_core, ↓setRg_core, ↓core_ite, ite_self, id_eq, ↓core_of_mk, core_eta]; done) | split | (simp only [↓sourceFault_core, ↓flag_core, ↓setBit_core, ↓setRg_core, ↓core_ite, ite_self, id_eq, ↓core_of_mk, core_eta]))

theorem encDeliver_core (n : Nat) (s0 : State) : (encDeliver n s0).core = s0.core := by
  unfold encDeliver
  repeat' (first | with_reducible rfl | (simp only [↓offer_core, ↓core_ite, ite_self, id_eq, ↓core_of_mk, core_eta]; done) | split | (simp only [↓offer_core, ↓core_ite, ite_self, id_eq, ↓core_of_mk, core_eta]))

theorem hallEdge_core (i code : Nat) (s : State) : (hallEdge i code s).core = s.core := by
  unfold hallEdge
  repeat' (first | with_reducible rfl | (simp only [↓setRg_core, ↓sourceFault_core, ↓flag_core, ↓setBit_core, ↓offer_core, ↓core_ite, ite_self, id_eq, ↓core_of_mk, core_eta]; done) | split | (with_reducible refine Eq.trans (forRange_core (fun _ _ => ?_) _ _) ?_) | (simp only [↓setRg_core, ↓sourceFault_core, ↓flag_core, ↓setBit_core, ↓offer_core, ↓core_ite, ite_self, id_eq, ↓core_of_mk, core_eta]))

theorem twEdge_core (j : Nat) (s : State) : (twEdge j s).core = s.core := by
  unfold twEdge
  repeat' (first | with_reducible rfl | (simp only [↓setRg_core, ↓flag_core, ↓setBit_core, ↓core_ite, ite_self, id_eq, ↓core_of_mk, core_eta]; done) | split | (simp only [↓setRg_core, ↓flag_core, ↓setBit_core, ↓core_ite, ite_self, id_eq, ↓core_of_mk, core_eta]))

theorem sentFrame_core (i : Nat) (p : SentPulses) (st : Nat) (ns : List (Fin 16)) (slow : Option (Nat × Nat)) (s : State) : (sentFrame i p st ns slow s).core = s.core := by
  unfold sentFrame
  repeat' (first | with_reducible rfl | (simp only [↓loseWhere_core, ↓flag_core, ↓setBit_core, ↓setRg_core, ↓zeroFeed_core, ↓core_ite, ite_self, id_eq, ↓core_of_mk, core_eta]; done) | split | (simp only [↓loseWhere_core, ↓flag_core, ↓setBit_core, ↓setRg_core, ↓zeroFeed_core, ↓core_ite, ite_self, id_eq, ↓core_of_mk, core_eta]))

theorem encWrite_core (acc : Access) (o v : Nat) (s : State) : (encWrite acc o v s).core = s.core := by
  unfold encWrite
  repeat' (first | with_reducible rfl | (simp only [↓core_ite, ite_self, id_eq, ↓core_of_mk, core_eta]; done) | split | (with_reducible refine Eq.trans (forRange_core (fun _ _ => ?_) _ _) ?_) | (with_reducible refine Eq.trans (busStore_core (fun _ => ?_) _) ?_) | (simp only [↓core_ite, ite_self, id_eq, ↓core_of_mk, core_eta]))

theorem mtRequest_core (e src at_ : Nat) (s : State) : (mtRequest e src at_ s).core = s.core := by
  unfold mtRequest
  repeat' (first | with_reducible rfl | (simp only [↓core_ite, ite_self, id_eq, ↓core_of_mk, core_eta]; done) | split | (simp only [↓core_ite, ite_self, id_eq, ↓core_of_mk, core_eta]))

theorem writeElems_core (k : Nat) (els : List Int) (s : State) : (writeElems k els s).core = s.core := by
  unfold writeElems
  repeat' (first | with_reducible rfl | (simp only [↓setRg_core, ↓core_ite, ite_self, id_eq, ↓core_of_mk, core_eta]; done) | split | (with_reducible refine Eq.trans (forRange_core (fun _ _ => ?_) _ _) ?_) | (simp only [↓setRg_core, ↓core_ite, ite_self, id_eq, ↓core_of_mk, core_eta]))

theorem writeRecord_core (k : Nat) (els : List Int) (cause : Nat) (a : SetAsm) (s : State) : (writeRecord k els cause a s).core = s.core := by
  unfold writeRecord
  repeat' (first | with_reducible rfl | (simp only [↓writeElems_core, ↓setRg_core, ↓incWrap_core, ↓core_ite, ite_self, id_eq, ↓core_of_mk, core_eta]; done) | split | (simp only [↓writeElems_core, ↓setRg_core, ↓incWrap_core, ↓core_ite, ite_self, id_eq, ↓core_of_mk, core_eta]))

theorem showBusy_core (k : Nat) (s : State) : (showBusy k s).core = s.core := by
  unfold showBusy
  repeat' (first | with_reducible rfl | (simp only [↓setBit_core, ↓core_ite, ite_self, id_eq, ↓core_of_mk, core_eta]; done) | split | (simp only [↓setBit_core, ↓core_ite, ite_self, id_eq, ↓core_of_mk, core_eta]))

theorem loseSet_core (k cause : Nat) (a : SetAsm) (s : State) : (loseSet k cause a s).core = s.core := by
  unfold loseSet
  repeat' (first | with_reducible rfl | (simp only [↓writeRecord_core, ↓showBusy_core, ↓incSat_core, ↓setSetH_core, ↓pulse_core, ↓detBreach_core, ↓mtRequest_core, ↓core_ite, ite_self, id_eq, ↓core_of_mk, core_eta]; done) | split | (simp only [↓writeRecord_core, ↓showBusy_core, ↓incSat_core, ↓setSetH_core, ↓pulse_core, ↓detBreach_core, ↓mtRequest_core, ↓core_ite, ite_self, id_eq, ↓core_of_mk, core_eta]))

theorem startSet_core (k : Nat) (s : State) : (startSet k s).core = s.core := by
  unfold startSet
  repeat' (first | with_reducible rfl | (simp only [↓showBusy_core, ↓setSetH_core, ↓sarRequest_core, ↓core_ite, ite_self, id_eq, ↓core_of_mk, core_eta]; done) | split | (with_reducible refine Eq.trans (foldl_core (fun _ _ => ?_) _ _) ?_) | (simp only [↓showBusy_core, ↓setSetH_core, ↓sarRequest_core, ↓core_ite, ite_self, id_eq, ↓core_of_mk, core_eta]))

theorem dropQueued_core (k : Nat) (s : State) : (dropQueued k s).core = s.core := by
  unfold dropQueued
  repeat' (first | with_reducible rfl | (simp only [↓sarKeep_core, ↓core_ite, ite_self, id_eq, ↓core_of_mk, core_eta]; done) | split | (with_reducible refine Eq.trans (forRange_core (fun _ _ => ?_) _ _) ?_) | (simp only [↓sarKeep_core, ↓core_ite, ite_self, id_eq, ↓core_of_mk, core_eta]))

theorem triggerSet_core (k : Nat) (s : State) : (triggerSet k s).core = s.core := by
  unfold triggerSet
  repeat' (first | with_reducible rfl | (simp only [↓startSet_core, ↓setSetH_core, ↓flag_core, ↓incSat_core, ↓loseSet_core, ↓dropQueued_core, ↓core_ite, ite_self, id_eq, ↓core_of_mk, core_eta]; done) | split | (simp only [↓startSet_core, ↓setSetH_core, ↓flag_core, ↓incSat_core, ↓loseSet_core, ↓dropQueued_core, ↓core_ite, ite_self, id_eq, ↓core_of_mk, core_eta]))

theorem mainsOffer_core (k : Nat) (els : List Int) (trig : Nat) (s : State) : (mainsOffer k els trig s).core = s.core := by
  unfold mainsOffer
  repeat' (first | with_reducible rfl | (simp only [↓offer_core, ↓setArith_core, ↓core_ite, ite_self, id_eq, ↓core_of_mk, core_eta]; done) | split | (with_reducible refine Eq.trans (forRange_core (fun _ _ => ?_) _ _) ?_) | (simp only [↓offer_core, ↓setArith_core, ↓core_ite, ite_self, id_eq, ↓core_of_mk, core_eta]))

theorem gotKeep_core (got : List (Nat × Nat × Int)) (s : State) : (gotKeep got s).core = s.core := by
  unfold gotKeep
  repeat' (first | with_reducible rfl | (simp only [↓core_ite, ite_self, id_eq, ↓core_of_mk, core_eta]; done) | split | (simp only [↓core_ite, ite_self, id_eq, ↓core_of_mk, core_eta]))

theorem finishSet_core (k : Nat) (a : SetAsm) (raws : List (Nat × Int)) (s : State) : (finishSet k a raws s).core = s.core := by
  unfold finishSet
  repeat' (first | with_reducible rfl | (simp only [↓showBusy_core, ↓setSetH_core, ↓writeRecord_core, ↓convSat_core, ↓mainsOffer_core, ↓pulse_core, ↓mtRequest_core, ↓core_ite, ite_self, id_eq, ↓core_of_mk, core_eta]; done) | split | (simp only [↓showBusy_core, ↓setSetH_core, ↓writeRecord_core, ↓convSat_core, ↓mainsOffer_core, ↓pulse_core, ↓mtRequest_core, ↓core_ite, ite_self, id_eq, ↓core_of_mk, core_eta]))

theorem setsTick_core (s : State) : (setsTick s).core = s.core := by
  unfold setsTick
  repeat' (first | with_reducible rfl | (simp only [↓mapAsm_core, ↓core_ite, ite_self, id_eq, ↓core_of_mk, core_eta]; done) | split | (simp only [↓mapAsm_core, ↓core_ite, ite_self, id_eq, ↓core_of_mk, core_eta]))

theorem recalSet_core (k : Nat) (s : State) : (recalSet k s).core = s.core := by
  unfold recalSet
  repeat' (first | with_reducible rfl | (simp only [↓setTrk_core, ↓convSat_core, ↓writeElems_core, ↓setSetH_core, ↓core_ite, ite_self, id_eq, ↓core_of_mk, core_eta]; done) | split | (with_reducible refine Eq.trans (forRange_core (fun _ _ => ?_) _ _) ?_) | (simp only [↓setTrk_core, ↓convSat_core, ↓writeElems_core, ↓setSetH_core, ↓core_ite, ite_self, id_eq, ↓core_of_mk, core_eta]))

theorem calTransferred_core (s : State) : (calTransferred s).core = s.core := by
  unfold calTransferred
  repeat' (first | with_reducible rfl | (simp only [↓recalSet_core, ↓setRg_core, ↓setBit_core, ↓core_ite, ite_self, id_eq, ↓core_of_mk, core_eta]; done) | split | (with_reducible refine Eq.trans (forRange_core (fun _ _ => ?_) _ _) ?_) | (simp only [↓recalSet_core, ↓setRg_core, ↓setBit_core, ↓core_ite, ite_self, id_eq, ↓core_of_mk, core_eta]))

theorem completeSet_core (k : Nat) (ws : List (List Bool)) (s : State) : (completeSet k ws s).core = s.core := by
  unfold completeSet
  repeat' (first | with_reducible rfl | (simp only [↓loseSet_core, ↓setSetH_core, ↓finishSet_core, ↓gotKeep_core, ↓core_ite, ite_self, id_eq, ↓core_of_mk, core_eta]; done) | split | (simp only [↓loseSet_core, ↓setSetH_core, ↓finishSet_core, ↓gotKeep_core, ↓core_ite, ite_self, id_eq, ↓core_of_mk, core_eta]))

theorem setsTransferred_core (o : State) (s : State) : (setsTransferred o s).core = s.core := by
  unfold setsTransferred
  repeat' (first | with_reducible rfl | (simp only [↓showBusy_core, ↓setSetH_core, ↓dropQueued_core, ↓core_ite, ite_self, id_eq, ↓core_of_mk, core_eta]; done) | split | (with_reducible refine Eq.trans (forRange_core (fun _ _ => ?_) _ _) ?_) | (simp only [↓showBusy_core, ↓setSetH_core, ↓dropQueued_core, ↓core_ite, ite_self, id_eq, ↓core_of_mk, core_eta]))

theorem setsWrite_core (acc : Access) (o v : Nat) (s : State) : (setsWrite acc o v s).core = s.core := by
  unfold setsWrite
  repeat' (first | with_reducible rfl | (simp only [↓core_ite, ite_self, id_eq, ↓core_of_mk, core_eta]; done) | split | (with_reducible refine Eq.trans (busStore_core (fun _ => ?_) _) ?_) | (simp only [↓core_ite, ite_self, id_eq, ↓core_of_mk, core_eta]))

theorem loadWord_core (a : Nat) (v : Word) (s : State) : (loadWord a v s).core = s.core := by
  unfold loadWord
  repeat' (first | with_reducible rfl | (simp only [↓setFld_core, ↓setRg_core, ↓core_ite, ite_self, id_eq, ↓core_of_mk, core_eta]; done) | split | (simp only [↓setFld_core, ↓setRg_core, ↓core_ite, ite_self, id_eq, ↓core_of_mk, core_eta]))

theorem factoryPage_core (p : Nat) (s : State) : (factoryPage p s).core = s.core := by
  unfold factoryPage
  repeat' (first | with_reducible rfl | (simp only [↓setRg_core, ↓core_ite, ite_self, id_eq, ↓core_of_mk, core_eta]; done) | split | (simp only [↓setRg_core, ↓core_ite, ite_self, id_eq, ↓core_of_mk, core_eta]))

theorem loadPage_core (p : Nat) (vals : List (Nat × Word)) (s : State) : (loadPage p vals s).core = s.core := by
  unfold loadPage
  repeat' (first | with_reducible rfl | (simp only [↓loadWord_core, ↓factoryPage_core, ↓core_ite, ite_self, id_eq, ↓core_of_mk, core_eta]; done) | split | (with_reducible refine Eq.trans (foldl_core (fun _ _ => ?_) _ _) ?_) | (simp only [↓loadWord_core, ↓factoryPage_core, ↓core_ite, ite_self, id_eq, ↓core_of_mk, core_eta]))

theorem calState_core (c : Nat) (s : State) : (calState c s).core = s.core := by
  unfold calState
  repeat' (first | with_reducible rfl | (simp only [↓setBit_core, ↓setBlockState_core, ↓core_ite, ite_self, id_eq, ↓core_of_mk, core_eta]; done) | split | (simp only [↓setBit_core, ↓setBlockState_core, ↓core_ite, ite_self, id_eq, ↓core_of_mk, core_eta]))

theorem calShow_core (s : State) : (calShow s).core = s.core := by
  unfold calShow
  repeat' (first | with_reducible rfl | (simp only [↓setRg_core, ↓setFld_core, ↓setBit_core, ↓core_ite, ite_self, id_eq, ↓core_of_mk, core_eta]; done) | split | (simp only [↓setRg_core, ↓setFld_core, ↓setBit_core, ↓core_ite, ite_self, id_eq, ↓core_of_mk, core_eta]))

theorem calCompare_core (s : State) : (calCompare s).core = s.core := by
  unfold calCompare
  repeat' (first | with_reducible rfl | (simp only [↓flagIf_core, ↓setBit_core, ↓core_ite, ite_self, id_eq, ↓core_of_mk, core_eta]; done) | split | (simp only [↓flagIf_core, ↓setBit_core, ↓core_ite, ite_self, id_eq, ↓core_of_mk, core_eta]))

theorem calStoreStart_core (origin : Nat) (s : State) : (calStoreStart origin s).core = s.core := by
  unfold calStoreStart
  repeat' (first | with_reducible rfl | (simp only [↓calState_core, ↓core_ite, ite_self, id_eq, ↓core_of_mk, core_eta]; done) | split | (simp only [↓calState_core, ↓core_ite, ite_self, id_eq, ↓core_of_mk, core_eta]))

theorem calRecall_core (s : State) : (calRecall s).core = s.core := by
  unfold calRecall
  repeat' (first | with_reducible rfl | (simp only [↓loadPage_core, ↓calCompare_core, ↓calShow_core, ↓afterConfigChange_core, ↓core_ite, ite_self, id_eq, ↓core_of_mk, core_eta]; done) | split | (simp only [↓loadPage_core, ↓calCompare_core, ↓calShow_core, ↓afterConfigChange_core, ↓core_ite, ite_self, id_eq, ↓core_of_mk, core_eta]))

theorem setOffset_core (c : Nat) (v : Int) (s : State) : (setOffset c v s).core = s.core := by
  unfold setOffset
  repeat' (first | with_reducible rfl | (simp only [↓setBit_core, ↓setFld_core, ↓core_ite, ite_self, id_eq, ↓core_of_mk, core_eta]; done) | split | (simp only [↓setBit_core, ↓setFld_core, ↓core_ite, ite_self, id_eq, ↓core_of_mk, core_eta]))

theorem zeroEnd_core (s : State) : (zeroEnd s).core = s.core := by
  unfold zeroEnd
  repeat' (first | with_reducible rfl | (simp only [↓calState_core, ↓setOffset_core, ↓setRg_core, ↓core_ite, ite_self, id_eq, ↓core_of_mk, core_eta]; done) | split | (simp only [↓calState_core, ↓setOffset_core, ↓setRg_core, ↓core_ite, ite_self, id_eq, ↓core_of_mk, core_eta]))

theorem calEff_core (o v : Nat) (s : State) : (calEff o v s).core = s.core := by
  unfold calEff
  repeat' (first | with_reducible rfl | (simp only [↓calState_core, ↓calStoreStart_core, ↓calRecall_core, ↓core_ite, ite_self, id_eq, ↓core_of_mk, core_eta]; done) | split | (simp only [↓calState_core, ↓calStoreStart_core, ↓calRecall_core, ↓core_ite, ite_self, id_eq, ↓core_of_mk, core_eta]))

theorem calWrite_core (acc : Access) (o v : Nat) (s : State) : (calWrite acc o v s).core = s.core := by
  unfold calWrite
  repeat' (first | with_reducible rfl | (simp only [↓calEff_core, ↓core_ite, ite_self, id_eq, ↓core_of_mk, core_eta]; done) | split | (with_reducible refine Eq.trans (busStore_core (fun _ => ?_) _) ?_) | (simp only [↓calEff_core, ↓core_ite, ite_self, id_eq, ↓core_of_mk, core_eta]))

theorem scrChannel_core (c : Nat) (s : State) : (scrChannel c s).core = s.core := by
  unfold scrChannel
  repeat' (first | with_reducible rfl | (simp only [↓ovldCode_core, ↓calSat_core, ↓setRg_core, ↓core_ite, ite_self, id_eq, ↓core_of_mk, core_eta]; done) | split | (simp only [↓ovldCode_core, ↓calSat_core, ↓setRg_core, ↓core_ite, ite_self, id_eq, ↓core_of_mk, core_eta]))

theorem setMtPc_core (e a : Nat) (s : State) : (setMtPc e a s).core = s.core := by
  unfold setMtPc
  repeat' (first | with_reducible rfl | (simp only [↓setRg_core, ↓core_ite, ite_self, id_eq, ↓core_of_mk, core_eta]; done) | split | (simp only [↓setRg_core, ↓core_ite, ite_self, id_eq, ↓core_of_mk, core_eta]))

theorem freshWords_core (a b : Nat) (s : State) : (freshWords a b s).core = s.core := by
  unfold freshWords
  repeat' (first | with_reducible rfl | (simp only [↓core_ite, ite_self, id_eq, ↓core_of_mk, core_eta]; done) | split | (simp only [↓core_ite, ite_self, id_eq, ↓core_of_mk, core_eta]))

theorem capDrop_core (c : Nat) (s : State) : (capDrop c s).core = s.core := by
  unfold capDrop
  repeat' (first | with_reducible rfl | (simp only [↓incSat_core, ↓core_ite, ite_self, id_eq, ↓core_of_mk, core_eta]; done) | split | (simp only [↓incSat_core, ↓core_ite, ite_self, id_eq, ↓core_of_mk, core_eta]))

theorem spreadAgain_core (e : Nat) (s : State) : (spreadAgain e s).core = s.core := by
  unfold spreadAgain
  repeat' (first | with_reducible rfl | (simp only [↓setMtH_core, ↓core_ite, ite_self, id_eq, ↓core_of_mk, core_eta]; done) | split | (simp only [↓setMtH_core, ↓core_ite, ite_self, id_eq, ↓core_of_mk, core_eta]))

theorem trackOut_core (e ret : Nat) (els : List Int) (s : State) : (trackOut e ret els s).core = s.core := by
  unfold trackOut
  repeat' (first | with_reducible rfl | (simp only [↓offer_core, ↓core_ite, ite_self, id_eq, ↓core_of_mk, core_eta]; done) | split | (with_reducible refine Eq.trans (forRange_core (fun _ _ => ?_) _ _) ?_) | (simp only [↓offer_core, ↓core_ite, ite_self, id_eq, ↓core_of_mk, core_eta]))

theorem mtArith_core (e ret fl pc : Nat) (s : State) : (mtArith e ret fl pc s).core = s.core := by
  unfold mtArith
  repeat' (first | with_reducible rfl | (simp only [↓setArith_core, ↓setMtH_core, ↓setFld_core, ↓core_ite, ite_self, id_eq, ↓core_of_mk, core_eta]; done) | split | (simp only [↓setArith_core, ↓setMtH_core, ↓setFld_core, ↓core_ite, ite_self, id_eq, ↓core_of_mk, core_eta]))

theorem overrun_core (e kind cyc : Nat) (s : State) : (overrun e kind cyc s).core = s.core := by
  unfold overrun
  repeat' (first | with_reducible rfl | (simp only [↓setRg_core, ↓setMtH_core, ↓detBreach_core, ↓flag_core, ↓incSat_core, ↓core_ite, ite_self, id_eq, ↓core_of_mk, core_eta]; done) | split | (simp only [↓setRg_core, ↓setMtH_core, ↓detBreach_core, ↓flag_core, ↓incSat_core, ↓core_ite, ite_self, id_eq, ↓core_of_mk, core_eta]))

theorem mtLeave_core (e st ret : Nat) (s : State) : (mtLeave e st ret s).core = s.core := by
  unfold mtLeave
  repeat' (first | with_reducible rfl | (simp only [↓setBlockState_core, ↓setMtH_core, ↓core_ite, ite_self, id_eq, ↓core_of_mk, core_eta]; done) | split | (simp only [↓setBlockState_core, ↓setMtH_core, ↓core_ite, ite_self, id_eq, ↓core_of_mk, core_eta]))

theorem mtFail_core (e cause addr : Nat) (s : State) : (mtFail e cause addr s).core = s.core := by
  unfold mtFail
  repeat' (first | with_reducible rfl | (simp only [↓flag_core, ↓incSat_core, ↓setRg_core, ↓refreshLegs_core, ↓setBlockState_core, ↓core_ite, ite_self, id_eq, ↓core_of_mk, core_eta]; done) | split | (simp only [↓flag_core, ↓incSat_core, ↓setRg_core, ↓refreshLegs_core, ↓setBlockState_core, ↓core_ite, ite_self, id_eq, ↓core_of_mk, core_eta]))

theorem countConsec_core (e : Nat) (byHalt : Bool) (s : State) : (countConsec e byHalt s).core = s.core := by
  unfold countConsec
  repeat' (first | with_reducible rfl | (simp only [↓incSat_core, ↓setFld_core, ↓core_ite, ite_self, id_eq, ↓core_of_mk, core_eta]; done) | split | (simp only [↓incSat_core, ↓setFld_core, ↓core_ite, ite_self, id_eq, ↓core_of_mk, core_eta]))

theorem mtCut_core (e c : Nat) (s : State) : (mtCut e c s).core = s.core := by
  unfold mtCut
  repeat' (first | with_reducible rfl | (simp only [↓setMtH_core, ↓setMtPc_core, ↓core_ite, ite_self, id_eq, ↓core_of_mk, core_eta]; done) | split | (with_reducible refine Eq.trans (foldl_core (fun _ _ => ?_) _ _) ?_) | (simp only [↓setMtH_core, ↓setMtPc_core, ↓core_ite, ite_self, id_eq, ↓core_of_mk, core_eta]))

theorem mtAbortOff_core (e : Nat) (s : State) : (mtAbortOff e s).core = s.core := by
  unfold mtAbortOff
  repeat' (first | with_reducible rfl | (simp only [↓mtLeave_core, ↓mtCut_core, ↓setMtH_core, ↓countConsec_core, ↓core_ite, ite_self, id_eq, ↓core_of_mk, core_eta]; done) | split | (simp only [↓mtLeave_core, ↓mtCut_core, ↓setMtH_core, ↓countConsec_core, ↓core_ite, ite_self, id_eq, ↓core_of_mk, core_eta]))

theorem injStart_core (e c : Nat) (s : State) : (injStart e c s).core = s.core := by
  unfold injStart
  repeat' (first | with_reducible rfl | (simp only [↓setRg_core, ↓setInjH_core, ↓core_ite, ite_self, id_eq, ↓core_of_mk, core_eta]; done) | split | (simp only [↓setRg_core, ↓setInjH_core, ↓core_ite, ite_self, id_eq, ↓core_of_mk, core_eta]))

theorem mtLatch_core (e : Nat) (s : State) : (mtLatch e s).core = s.core := by
  unfold mtLatch
  repeat' (first | with_reducible rfl | (simp only [↓setMtH_core, ↓injStart_core, ↓setMtPc_core, ↓setRg_core, ↓core_ite, ite_self, id_eq, ↓core_of_mk, core_eta]; done) | split | (with_reducible refine Eq.trans (forRange_core (fun _ _ => ?_) _ _) ?_) | (simp only [↓setMtH_core, ↓injStart_core, ↓setMtPc_core, ↓setRg_core, ↓core_ite, ite_self, id_eq, ↓core_of_mk, core_eta]))

theorem mtDiscard_core (e : Nat) (s : State) : (mtDiscard e s).core = s.core := by
  unfold mtDiscard
  repeat' (first | with_reducible rfl | (simp only [↓incSat_core, ↓setMtH_core, ↓detBreach_core, ↓core_ite, ite_self, id_eq, ↓core_of_mk, core_eta]; done) | split | (simp only [↓incSat_core, ↓setMtH_core, ↓detBreach_core, ↓core_ite, ite_self, id_eq, ↓core_of_mk, core_eta]))

theorem mtPrefer_core (e src : Nat) (s : State) : (mtPrefer e src s).core = s.core := by
  unfold mtPrefer
  repeat' (first | with_reducible rfl | (simp only [↓setMtPc_core, ↓setMtH_core, ↓core_ite, ite_self, id_eq, ↓core_of_mk, core_eta]; done) | split | (simp only [↓setMtPc_core, ↓setMtH_core, ↓core_ite, ite_self, id_eq, ↓core_of_mk, core_eta]))

theorem mailboxCopy_core (e : Nat) (s : State) : (mailboxCopy e s).core = s.core := by
  unfold mailboxCopy
  repeat' (first | with_reducible rfl | (simp only [↓setRg_core, ↓incWrap_core, ↓core_ite, ite_self, id_eq, ↓core_of_mk, core_eta]; done) | split | (with_reducible refine Eq.trans (forRange_core (fun _ _ => ?_) _ _) ?_) | (simp only [↓setRg_core, ↓incWrap_core, ↓core_ite, ite_self, id_eq, ↓core_of_mk, core_eta]))

theorem injTransferred_core (o : State) (c : Nat) (s : State) : (injTransferred o c s).core = s.core := by
  unfold injTransferred
  repeat' (first | with_reducible rfl | (simp only [↓setRg_core, ↓setInjH_core, ↓setFld_core, ↓core_ite, ite_self, id_eq, ↓core_of_mk, core_eta]; done) | split | (simp only [↓setRg_core, ↓setInjH_core, ↓setFld_core, ↓core_ite, ite_self, id_eq, ↓core_of_mk, core_eta]))

theorem capTransferred_core (o : State) (c : Nat) (s : State) : (capTransferred o c s).core = s.core := by
  unfold capTransferred
  repeat' (first | with_reducible rfl | (simp only [↓setRg_core, ↓setCapH_core, ↓core_ite, ite_self, id_eq, ↓core_of_mk, core_eta]; done) | split | (simp only [↓setRg_core, ↓setCapH_core, ↓core_ite, ite_self, id_eq, ↓core_of_mk, core_eta]))

theorem mtsTransferred_core (o s : State) : (mtsTransferred o s).core = s.core := by
  unfold mtsTransferred
  repeat' (first | with_reducible rfl | (simp only [↓capTransferred_core, ↓injTransferred_core, ↓core_ite, ite_self, id_eq, ↓core_of_mk, core_eta]; done) | split | (with_reducible refine Eq.trans (forRange_core (fun _ _ => ?_) _ _) ?_) | (simp only [↓capTransferred_core, ↓injTransferred_core, ↓core_ite, ite_self, id_eq, ↓core_of_mk, core_eta]))

theorem injUndo_core (e : Nat) (s : State) : (injUndo e s).core = s.core := by
  unfold injUndo
  repeat' (first | with_reducible rfl | (simp only [↓setRg_core, ↓setInjH_core, ↓core_ite, ite_self, id_eq, ↓core_of_mk, core_eta]; done) | split | (with_reducible refine Eq.trans (forRange_core (fun _ _ => ?_) _ _) ?_) | (simp only [↓setRg_core, ↓setInjH_core, ↓core_ite, ite_self, id_eq, ↓core_of_mk, core_eta]))

theorem mtIdle_core (e : Nat) (s : State) : (mtIdle e s).core = s.core := by
  unfold mtIdle
  repeat' (first | with_reducible rfl | (simp only [↓setBlockState_core, ↓setMtH_core, ↓core_ite, ite_self, id_eq, ↓core_of_mk, core_eta]; done) | split | (simp only [↓setBlockState_core, ↓setMtH_core, ↓core_ite, ite_self, id_eq, ↓core_of_mk, core_eta]))

theorem mtClear_core (e : Nat) (s : State) : (mtClear e s).core = s.core := by
  unfold mtClear
  repeat' (first | with_reducible rfl | (simp only [↓refreshLegs_core, ↓mtIdle_core, ↓setFld_core, ↓core_ite, ite_self, id_eq, ↓core_of_mk, core_eta]; done) | split | (simp only [↓refreshLegs_core, ↓mtIdle_core, ↓setFld_core, ↓core_ite, ite_self, id_eq, ↓core_of_mk, core_eta]))

theorem mtOff_core (e : Nat) (s : State) : (mtOff e s).core = s.core := by
  unfold mtOff
  repeat' (first | with_reducible rfl | (simp only [↓mtAbortOff_core, ↓refreshLegs_core, ↓setBit_core, ↓setBlockState_core, ↓setMtH_core, ↓core_ite, ite_self, id_eq, ↓core_of_mk, core_eta]; done) | split | (simp only [↓mtAbortOff_core, ↓refreshLegs_core, ↓setBit_core, ↓setBlockState_core, ↓setMtH_core, ↓core_ite, ite_self, id_eq, ↓core_of_mk, core_eta]))

theorem mtArithClear_core (e v : Nat) (s : State) : (mtArithClear e v s).core = s.core := by
  unfold mtArithClear
  repeat' (first | with_reducible rfl | (simp only [↓clearArith_core, ↓setMtH_core, ↓core_ite, ite_self, id_eq, ↓core_of_mk, core_eta]; done) | split | (simp only [↓clearArith_core, ↓setMtH_core, ↓core_ite, ite_self, id_eq, ↓core_of_mk, core_eta]))

theorem profBegin_core (s : State) : (profBegin s).core = s.core := by
  unfold profBegin
  repeat' (first | with_reducible rfl | (simp only [↓core_ite, ite_self, id_eq, ↓core_of_mk, core_eta]; done) | split | (simp only [↓core_ite, ite_self, id_eq, ↓core_of_mk, core_eta]))

theorem mtsWrite_core (acc : Access) (o v : Nat) (s : State) : (mtsWrite acc o v s).core = s.core := by
  unfold mtsWrite
  repeat' (first | with_reducible rfl | (simp only [↓profBegin_core, ↓core_ite, ite_self, id_eq, ↓core_of_mk, core_eta]; done) | split | (with_reducible refine Eq.trans (busStore_core (fun _ => ?_) _) ?_) | (simp only [↓profBegin_core, ↓core_ite, ite_self, id_eq, ↓core_of_mk, core_eta]))

theorem refuseWindow_core (acc : Access) (e off v : Nat) (r : Reason) (s : State) : (refuseWindow acc e off v r s).core = s.core := by
  unfold refuseWindow
  repeat' (first | with_reducible rfl | (simp only [↓setRg_core, ↓refuse_core, ↓core_ite, ite_self, id_eq, ↓core_of_mk, core_eta]; done) | split | (simp only [↓setRg_core, ↓refuse_core, ↓core_ite, ite_self, id_eq, ↓core_of_mk, core_eta]))

theorem mtReadEcc_core (as : List Nat) (ecc : Ecc) (s : State) : (mtReadEcc as ecc s).core = s.core := by
  unfold mtReadEcc
  repeat' (first | with_reducible rfl | (simp only [↓eccRead_core, ↓core_ite, ite_self, id_eq, ↓core_of_mk, core_eta]; done) | split | (with_reducible refine Eq.trans (foldl_core (fun _ _ => ?_) _ _) ?_) | (simp only [↓eccRead_core, ↓core_ite, ite_self, id_eq, ↓core_of_mk, core_eta]))

theorem fetchEcc_core (e : Nat) (ecc : Ecc) (s : State) : (fetchEcc e ecc s).core = s.core := by
  unfold fetchEcc
  repeat' (first | with_reducible rfl | (simp only [↓mtReadEcc_core, ↓core_ite, ite_self, id_eq, ↓core_of_mk, core_eta]; done) | split | (simp only [↓mtReadEcc_core, ↓core_ite, ite_self, id_eq, ↓core_of_mk, core_eta]))

theorem mtBranch_core (e target c : Nat) (s : State) : (mtBranch e target c s).core = s.core := by
  unfold mtBranch
  repeat' (first | with_reducible rfl | (simp only [↓setMtPc_core, ↓setMtH_core, ↓core_ite, ite_self, id_eq, ↓core_of_mk, core_eta]; done) | split | (simp only [↓setMtPc_core, ↓setMtH_core, ↓core_ite, ite_self, id_eq, ↓core_of_mk, core_eta]))

theorem mtRetire_core (e first ret : Nat) (s : State) : (mtRetire e first ret s).core = s.core := by
  unfold mtRetire
  repeat' (first | with_reducible rfl | (simp only [↓setMtH_core, ↓core_ite, ite_self, id_eq, ↓core_of_mk, core_eta]; done) | split | (simp only [↓setMtH_core, ↓core_ite, ite_self, id_eq, ↓core_of_mk, core_eta]))

theorem detBoundaries_core (doms : List Nat) (s : State) : (detBoundaries doms s).core = s.core := by
  unfold detBoundaries
  repeat' (first | with_reducible rfl | (simp only [↓detBoundary_core, ↓core_ite, ite_self, id_eq, ↓core_of_mk, core_eta]; done) | split | (with_reducible refine Eq.trans (foldl_core (fun _ _ => ?_) _ _) ?_) | (simp only [↓detBoundary_core, ↓core_ite, ite_self, id_eq, ↓core_of_mk, core_eta]))

theorem keepArmed_core (was : State) (moved : List Nat) (s : State) : (keepArmed was moved s).core = s.core := by
  unfold keepArmed
  repeat' (first | with_reducible rfl | (simp only [↓noteLate_core, ↓setBit_core, ↓core_ite, ite_self, id_eq, ↓core_of_mk, core_eta]; done) | split | (with_reducible refine Eq.trans (foldl_core (fun _ _ => ?_) _ _) ?_) | (simp only [↓noteLate_core, ↓setBit_core, ↓core_ite, ite_self, id_eq, ↓core_of_mk, core_eta]))

theorem profEnd_core (s : State) : (profEnd s).core = s.core := by
  unfold profEnd
  repeat' (first | with_reducible rfl | (simp only [↓setRg_core, ↓setMtH_core, ↓incWrap_core, ↓core_ite, ite_self, id_eq, ↓core_of_mk, core_eta]; done) | split | (with_reducible refine Eq.trans (forRange_core (fun _ _ => ?_) _ _) ?_) | (simp only [↓setRg_core, ↓setMtH_core, ↓incWrap_core, ↓core_ite, ite_self, id_eq, ↓core_of_mk, core_eta]))

theorem commitArrival_core (e : Nat) (s : State) : (commitArrival e s).core = s.core := by
  unfold commitArrival
  repeat' (first | with_reducible rfl | (simp only [↓commitArrive_core, ↓setMtH_core, ↓core_ite, ite_self, id_eq, ↓core_of_mk, core_eta]; done) | split | (simp only [↓commitArrive_core, ↓setMtH_core, ↓core_ite, ite_self, id_eq, ↓core_of_mk, core_eta]))

theorem dfShowOrder_core (i : Nat) (s : State) : (dfShowOrder i s).core = s.core := by
  unfold dfShowOrder
  repeat' (first | with_reducible rfl | (simp only [↓setFld_core, ↓setRg_core, ↓core_ite, ite_self, id_eq, ↓core_of_mk, core_eta]; done) | split | (with_reducible refine Eq.trans (foldl_core (fun _ _ => ?_) _ _) ?_) | (simp only [↓setFld_core, ↓setRg_core, ↓core_ite, ite_self, id_eq, ↓core_of_mk, core_eta]))

theorem dfDraw_core (i : Nat) (s : State) : (dfDraw i s).core = s.core := by
  unfold dfDraw
  repeat' (first | with_reducible rfl | (simp only [↓dfShowOrder_core, ↓setDfH_core, ↓blockConfig_core, ↓core_ite, ite_self, id_eq, ↓core_of_mk, core_eta]; done) | split | (with_reducible refine Eq.trans (foldl_core (fun _ _ => ?_) _ _) ?_) | (simp only [↓dfShowOrder_core, ↓setDfH_core, ↓blockConfig_core, ↓core_ite, ite_self, id_eq, ↓core_of_mk, core_eta]))

theorem dfSetR_core (i : Nat) (v : Int) (s : State) : (dfSetR i v s).core = s.core := by
  unfold dfSetR
  repeat' (first | with_reducible rfl | (simp only [↓dfShowRef_core, ↓setDfH_core, ↓core_ite, ite_self, id_eq, ↓core_of_mk, core_eta]; done) | split | (simp only [↓dfShowRef_core, ↓setDfH_core, ↓core_ite, ite_self, id_eq, ↓core_of_mk, core_eta]))

theorem dfRunEntry_core (i : Nat) (s : State) : (dfRunEntry i s).core = s.core := by
  unfold dfRunEntry
  repeat' (first | with_reducible rfl | (simp only [↓setDfPhSt_core, ↓setDfH_core, ↓dfShowOrder_core, ↓dfEnter_core, ↓dfSetTarget_core, ↓dfSetR_core, ↓dfShowRef_core, ↓core_ite, ite_self, id_eq, ↓core_of_mk, core_eta]; done) | split | (with_reducible refine Eq.trans (forRange_core (fun _ _ => ?_) _ _) ?_) | (simp only [↓setDfPhSt_core, ↓setDfH_core, ↓dfShowOrder_core, ↓dfEnter_core, ↓dfSetTarget_core, ↓dfSetR_core, ↓dfShowRef_core, ↓core_ite, ite_self, id_eq, ↓core_of_mk, core_eta]))

theorem dfStop_core (acc : Access) (w i : Nat) (s : State) : (dfStop acc w i s).core = s.core := by
  unfold dfStop
  repeat' (first | with_reducible rfl | (simp only [↓setDfH_core, ↓dfSetTarget_core, ↓dfEnter_core, ↓core_ite, ite_self, id_eq, ↓core_of_mk, core_eta]; done) | split | (simp only [↓setDfH_core, ↓dfSetTarget_core, ↓dfEnter_core, ↓core_ite, ite_self, id_eq, ↓core_of_mk, core_eta]))

theorem dfClear_core (i : Nat) (s : State) : (dfClear i s).core = s.core := by
  unfold dfClear
  repeat' (first | with_reducible rfl | (simp only [↓setFld_core, ↓setDfPhase_core, ↓setDfPhSt_core, ↓dfShowPhases_core, ↓core_ite, ite_self, id_eq, ↓core_of_mk, core_eta]; done) | split | (with_reducible refine Eq.trans (forRange_core (fun _ _ => ?_) _ _) ?_) | (simp only [↓setFld_core, ↓setDfPhase_core, ↓setDfPhSt_core, ↓dfShowPhases_core, ↓core_ite, ite_self, id_eq, ↓core_of_mk, core_eta]))

theorem dfEnable_core (i : Nat) (s : State) : (dfEnable i s).core = s.core := by
  unfold dfEnable
  repeat' (first | with_reducible rfl | (simp only [↓setDfPhSt_core, ↓dfEnter_core, ↓dfOverrides_core, ↓dfShowPhases_core, ↓core_ite, ite_self, id_eq, ↓core_of_mk, core_eta]; done) | split | (with_reducible refine Eq.trans (forRange_core (fun _ _ => ?_) _ _) ?_) | (simp only [↓setDfPhSt_core, ↓dfEnter_core, ↓dfOverrides_core, ↓dfShowPhases_core, ↓core_ite, ite_self, id_eq, ↓core_of_mk, core_eta]))

theorem dfDisable_core (i : Nat) (s : State) : (dfDisable i s).core = s.core := by
  unfold dfDisable
  repeat' (first | with_reducible rfl | (simp only [↓dfEnter_core, ↓setDfH_core, ↓core_ite, ite_self, id_eq, ↓core_of_mk, core_eta]; done) | split | (simp only [↓dfEnter_core, ↓setDfH_core, ↓core_ite, ite_self, id_eq, ↓core_of_mk, core_eta]))

theorem dfArith_core (i flags : Nat) (s : State) : (dfArith i flags s).core = s.core := by
  unfold dfArith
  repeat' (first | with_reducible rfl | (simp only [↓setArith_core, ↓core_ite, ite_self, id_eq, ↓core_of_mk, core_eta]; done) | split | (simp only [↓setArith_core, ↓core_ite, ite_self, id_eq, ↓core_of_mk, core_eta]))

theorem dfEstimate_core (i p : Nat) (s : State) : (dfEstimate i p s).core = s.core := by
  unfold dfEstimate
  repeat' (first | with_reducible rfl | (simp only [↓setFld_core, ↓setDfPhase_core, ↓core_ite, ite_self, id_eq, ↓core_of_mk, core_eta]; done) | split | (simp only [↓setFld_core, ↓setDfPhase_core, ↓core_ite, ite_self, id_eq, ↓core_of_mk, core_eta]))

theorem dfDropOne_core (i p : Nat) (s : State) : (dfDropOne i p s).core = s.core := by
  unfold dfDropOne
  repeat' (first | with_reducible rfl | (simp only [↓setDfPhSt_core, ↓flag_core, ↓setDfPhase_core, ↓core_ite, ite_self, id_eq, ↓core_of_mk, core_eta]; done) | split | (simp only [↓setDfPhSt_core, ↓flag_core, ↓setDfPhase_core, ↓core_ite, ite_self, id_eq, ↓core_of_mk, core_eta]))

theorem dfThermal_core (i : Nat) (s : State) : (dfThermal i s).core = s.core := by
  unfold dfThermal
  repeat' (first | with_reducible rfl | (simp only [↓dfEstimate_core, ↓dfDropOne_core, ↓dfShowHot_core, ↓dfOverrides_core, ↓dfShowPhases_core, ↓dfEnter_core, ↓core_ite, ite_self, id_eq, ↓core_of_mk, core_eta]; done) | split | (with_reducible refine Eq.trans (forRange_core (fun _ _ => ?_) _ _) ?_) | (simp only [↓dfEstimate_core, ↓dfDropOne_core, ↓dfShowHot_core, ↓dfOverrides_core, ↓dfShowPhases_core, ↓dfEnter_core, ↓core_ite, ite_self, id_eq, ↓core_of_mk, core_eta]))

theorem dfHiccup_core (i : Nat) (s : State) : (dfHiccup i s).core = s.core := by
  unfold dfHiccup
  repeat' (first | with_reducible rfl | (simp only [↓setDfH_core, ↓dfUndoStop_core, ↓goLatched_core, ↓dfEnter_core, ↓core_ite, ite_self, id_eq, ↓core_of_mk, core_eta]; done) | split | (simp only [↓setDfH_core, ↓dfUndoStop_core, ↓goLatched_core, ↓dfEnter_core, ↓core_ite, ite_self, id_eq, ↓core_of_mk, core_eta]))

theorem dfSlow_core (i : Nat) (s : State) : (dfSlow i s).core = s.core := by
  unfold dfSlow
  repeat' (first | with_reducible rfl | (simp only [↓setRg_core, ↓setDfH_core, ↓flag_core, ↓setBit_core, ↓dfHiccup_core, ↓core_ite, ite_self, id_eq, ↓core_of_mk, core_eta]; done) | split | (simp only [↓setRg_core, ↓setDfH_core, ↓flag_core, ↓setBit_core, ↓dfHiccup_core, ↓core_ite, ite_self, id_eq, ↓core_of_mk, core_eta]))

theorem dfSwarm_core (i : Nat) (s : State) : (dfSwarm i s).core = s.core := by
  unfold dfSwarm
  repeat' (first | with_reducible rfl | (simp only [↓dfShowOrder_core, ↓setDfH_core, ↓setLegH_core, ↓flag_core, ↓incSat_core, ↓core_ite, ite_self, id_eq, ↓core_of_mk, core_eta]; done) | split | (with_reducible refine Eq.trans (foldl_core (fun _ _ => ?_) _ _) ?_) | (simp only [↓dfShowOrder_core, ↓setDfH_core, ↓setLegH_core, ↓flag_core, ↓incSat_core, ↓core_ite, ite_self, id_eq, ↓core_of_mk, core_eta]))

theorem dfAbort_core (i : Nat) (s : State) : (dfAbort i s).core = s.core := by
  unfold dfAbort
  repeat' (first | with_reducible rfl | (simp only [↓setDfPhase_core, ↓setDfPhSt_core, ↓setDfH_core, ↓dfShowPhases_core, ↓flag_core, ↓incSat_core, ↓core_ite, ite_self, id_eq, ↓core_of_mk, core_eta]; done) | split | (simp only [↓setDfPhase_core, ↓setDfPhSt_core, ↓setDfH_core, ↓dfShowPhases_core, ↓flag_core, ↓incSat_core, ↓core_ite, ite_self, id_eq, ↓core_of_mk, core_eta]))

theorem dfLoadStep_core (i : Nat) (s : State) : (dfLoadStep i s).core = s.core := by
  unfold dfLoadStep
  repeat' (first | with_reducible rfl | (simp only [↓setDfH_core, ↓dfAbort_core, ↓dfSwarm_core, ↓core_ite, ite_self, id_eq, ↓core_of_mk, core_eta]; done) | split | (simp only [↓setDfH_core, ↓dfAbort_core, ↓dfSwarm_core, ↓core_ite, ite_self, id_eq, ↓core_of_mk, core_eta]))

theorem dfWeights_core (i : Nat) (s : State) : (dfWeights i s).core = s.core := by
  unfold dfWeights
  repeat' (first | with_reducible rfl | (simp only [↓dfOverrides_core, ↓dfShowPhases_core, ↓flag_core, ↓setDfPhSt_core, ↓setDfPhase_core, ↓core_ite, ite_self, id_eq, ↓core_of_mk, core_eta]; done) | split | (with_reducible refine Eq.trans (forRange_core (fun _ _ => ?_) _ _) ?_) | (simp only [↓dfOverrides_core, ↓dfShowPhases_core, ↓flag_core, ↓setDfPhSt_core, ↓setDfPhase_core, ↓core_ite, ite_self, id_eq, ↓core_of_mk, core_eta]))

theorem dfShedStart_core (i : Nat) (s : State) : (dfShedStart i s).core = s.core := by
  unfold dfShedStart
  repeat' (first | with_reducible rfl | (simp only [↓setDfH_core, ↓setDfPhase_core, ↓setDfPhSt_core, ↓dfShowPhases_core, ↓flag_core, ↓core_ite, ite_self, id_eq, ↓core_of_mk, core_eta]; done) | split | (simp only [↓setDfH_core, ↓setDfPhase_core, ↓setDfPhSt_core, ↓dfShowPhases_core, ↓flag_core, ↓core_ite, ite_self, id_eq, ↓core_of_mk, core_eta]))

theorem dfActivate_core (i : Nat) (s : State) : (dfActivate i s).core = s.core := by
  unfold dfActivate
  repeat' (first | with_reducible rfl | (simp only [↓dfOverrides_core, ↓dfShowPhases_core, ↓setDfPhase_core, ↓setDfPhSt_core, ↓core_ite, ite_self, id_eq, ↓core_of_mk, core_eta]; done) | split | (simp only [↓dfOverrides_core, ↓dfShowPhases_core, ↓setDfPhase_core, ↓setDfPhSt_core, ↓core_ite, ite_self, id_eq, ↓core_of_mk, core_eta]))

theorem dfShedding_core (i : Nat) (s : State) : (dfShedding i s).core = s.core := by
  unfold dfShedding
  repeat' (first | with_reducible rfl | (simp only [↓dfWeights_core, ↓dfActivate_core, ↓dfShedStart_core, ↓setDfH_core, ↓core_ite, ite_self, id_eq, ↓core_of_mk, core_eta]; done) | split | (simp only [↓dfWeights_core, ↓dfActivate_core, ↓dfShedStart_core, ↓setDfH_core, ↓core_ite, ite_self, id_eq, ↓core_of_mk, core_eta]))

theorem dfVoltage_core (i : Nat) (s : State) : (dfVoltage i s).core = s.core := by
  unfold dfVoltage
  repeat' (first | with_reducible rfl | (simp only [↓dfShowHot_core, ↓dfArith_core, ↓setRg_core, ↓setDfH_core, ↓core_ite, ite_self, id_eq, ↓core_of_mk, core_eta]; done) | split | (simp only [↓dfShowHot_core, ↓dfArith_core, ↓setRg_core, ↓setDfH_core, ↓core_ite, ite_self, id_eq, ↓core_of_mk, core_eta]))

theorem dfCurrent_core (n i p : Nat) (s : State) : (dfCurrent n i p s).core = s.core := by
  unfold dfCurrent
  repeat' (first | with_reducible rfl | (simp only [↓setDfPhase_core, ↓dfArith_core, ↓setRg_core, ↓deliver_core, ↓core_ite, ite_self, id_eq, ↓core_of_mk, core_eta]; done) | split | (simp only [↓setDfPhase_core, ↓dfArith_core, ↓setRg_core, ↓deliver_core, ↓core_ite, ite_self, id_eq, ↓core_of_mk, core_eta]))

theorem dfSupport_core (i : Nat) (s : State) : (dfSupport i s).core = s.core := by
  unfold dfSupport
  repeat' (first | with_reducible rfl | (simp only [↓setDfH_core, ↓core_ite, ite_self, id_eq, ↓core_of_mk, core_eta]; done) | split | (simp only [↓setDfH_core, ↓core_ite, ite_self, id_eq, ↓core_of_mk, core_eta]))

theorem dfLoops_core (i : Nat) (s : State) : (dfLoops i s).core = s.core := by
  unfold dfLoops
  repeat' (first | with_reducible rfl | (simp only [↓dfCurrent_core, ↓dfVoltage_core, ↓dfSupport_core, ↓core_ite, ite_self, id_eq, ↓core_of_mk, core_eta]; done) | split | (with_reducible refine Eq.trans (foldl_core (fun _ _ => ?_) _ _) ?_) | (simp only [↓dfCurrent_core, ↓dfVoltage_core, ↓dfSupport_core, ↓core_ite, ite_self, id_eq, ↓core_of_mk, core_eta]))

theorem dfFirst_core (i : Nat) (s : State) : (dfFirst i s).core = s.core := by
  unfold dfFirst
  repeat' (first | with_reducible rfl | (simp only [↓dfSetR_core, ↓setDfH_core, ↓dfReached_core, ↓core_ite, ite_self, id_eq, ↓core_of_mk, core_eta]; done) | split | (simp only [↓dfSetR_core, ↓setDfH_core, ↓dfReached_core, ↓core_ite, ite_self, id_eq, ↓core_of_mk, core_eta]))

theorem dfFull_core (i : Nat) (s : State) : (dfFull i s).core = s.core := by
  unfold dfFull
  repeat' (first | with_reducible rfl | (simp only [↓dfLoops_core, ↓dfShedding_core, ↓dfLoadStep_core, ↓dfSlow_core, ↓dfThermal_core, ↓dfFirst_core, ↓core_ite, ite_self, id_eq, ↓core_of_mk, core_eta]; done) | split | (simp only [↓dfLoops_core, ↓dfShedding_core, ↓dfLoadStep_core, ↓dfSlow_core, ↓dfThermal_core, ↓dfFirst_core, ↓core_ite, ite_self, id_eq, ↓core_of_mk, core_eta]))

theorem dfCycle_core (i : Nat) (s : State) : (dfCycle i s).core = s.core := by
  unfold dfCycle
  repeat' (first | with_reducible rfl | (simp only [↓detBreach_core, ↓incSat_core, ↓setDfH_core, ↓dfFull_core, ↓core_ite, ite_self, id_eq, ↓core_of_mk, core_eta]; done) | split | (simp only [↓detBreach_core, ↓incSat_core, ↓setDfH_core, ↓dfFull_core, ↓core_ite, ite_self, id_eq, ↓core_of_mk, core_eta]))

theorem dfTick_core (i : Nat) (s : State) : (dfTick i s).core = s.core := by
  unfold dfTick
  repeat' (first | with_reducible rfl | (simp only [↓dfShowRef_core, ↓setDfH_core, ↓core_ite, ite_self, id_eq, ↓core_of_mk, core_eta]; done) | split | (simp only [↓dfShowRef_core, ↓setDfH_core, ↓core_ite, ite_self, id_eq, ↓core_of_mk, core_eta]))

theorem dfEff_core (acc : Access) (i o v : Nat) (was : Bool) (s : State) : (dfEff acc i o v was s).core = s.core := by
  unfold dfEff
  repeat' (first | with_reducible rfl | (simp only [↓dfClear_core, ↓dfRunEntry_core, ↓dfStop_core, ↓dfDisable_core, ↓dfEnable_core, ↓dfShowPhases_core, ↓setDfPhSt_core, ↓core_ite, ite_self, id_eq, ↓core_of_mk, core_eta]; done) | split | (simp only [↓dfClear_core, ↓dfRunEntry_core, ↓dfStop_core, ↓dfDisable_core, ↓dfEnable_core, ↓dfShowPhases_core, ↓setDfPhSt_core, ↓core_ite, ite_self, id_eq, ↓core_of_mk, core_eta]))

theorem dfWrite_core (acc : Access) (i o v : Nat) (s : State) : (dfWrite acc i o v s).core = s.core := by
  unfold dfWrite
  repeat' (first | with_reducible rfl | (simp only [↓clearArith_core, ↓dfEff_core, ↓core_ite, ite_self, id_eq, ↓core_of_mk, core_eta]; done) | split | (with_reducible refine Eq.trans (busStore_core (fun _ => ?_) _) ?_) | (simp only [↓clearArith_core, ↓dfEff_core, ↓core_ite, ite_self, id_eq, ↓core_of_mk, core_eta]))

theorem dfRestart_core (i : Nat) (s : State) : (dfRestart i s).core = s.core := by
  unfold dfRestart
  repeat' (first | with_reducible rfl | (simp only [↓dfRunEntry_core, ↓dfEnter_core, ↓core_ite, ite_self, id_eq, ↓core_of_mk, core_eta]; done) | split | (simp only [↓dfRunEntry_core, ↓dfEnter_core, ↓core_ite, ite_self, id_eq, ↓core_of_mk, core_eta]))

theorem degSetWrite_core (acc : Access) (v : Nat) (s : State) : (degSetWrite acc v s).core = s.core := by
  unfold degSetWrite
  repeat' (first | with_reducible rfl | (simp only [↓degShow_core, ↓setBit_core, ↓core_ite, ite_self, id_eq, ↓core_of_mk, core_eta]; done) | split | (with_reducible refine Eq.trans (busStore_core (fun _ => ?_) _) ?_) | (simp only [↓degShow_core, ↓setBit_core, ↓core_ite, ite_self, id_eq, ↓core_of_mk, core_eta]))

theorem hbSetIn_core (x : Int) (s : State) : (hbSetIn x s).core = s.core := by
  unfold hbSetIn
  repeat' (first | with_reducible rfl | (simp only [↓setFld_core, ↓core_ite, ite_self, id_eq, ↓core_of_mk, core_eta]; done) | split | (simp only [↓setFld_core, ↓core_ite, ite_self, id_eq, ↓core_of_mk, core_eta]))

theorem hbArith_core (flags : Nat) (s : State) : (hbArith flags s).core = s.core := by
  unfold hbArith
  repeat' (first | with_reducible rfl | (simp only [↓setArith_core, ↓core_ite, ite_self, id_eq, ↓core_of_mk, core_eta]; done) | split | (simp only [↓setArith_core, ↓core_ite, ite_self, id_eq, ↓core_of_mk, core_eta]))

theorem hbGive_core (bat : Bool) (t : Int) (s : State) : (hbGive bat t s).core = s.core := by
  unfold hbGive
  repeat' (first | with_reducible rfl | (simp only [↓setDfH_core, ↓dfSetTarget_core, ↓dfSetR_core, ↓core_ite, ite_self, id_eq, ↓core_of_mk, core_eta]; done) | split | (simp only [↓setDfH_core, ↓dfSetTarget_core, ↓dfSetR_core, ↓core_ite, ite_self, id_eq, ↓core_of_mk, core_eta]))

theorem hbHandOver_core (s : State) : (hbHandOver s).core = s.core := by
  unfold hbHandOver
  repeat' (first | with_reducible rfl | (simp only [↓incSat_core, ↓hbGo_core, ↓setDfH_core, ↓dfShowRef_core, ↓core_ite, ite_self, id_eq, ↓core_of_mk, core_eta]; done) | split | (simp only [↓incSat_core, ↓hbGo_core, ↓setDfH_core, ↓dfShowRef_core, ↓core_ite, ite_self, id_eq, ↓core_of_mk, core_eta]))

theorem hbLoss_core (s : State) : (hbLoss s).core = s.core := by
  unfold hbLoss
  repeat' (first | with_reducible rfl | (simp only [↓hbHandOver_core, ↓flag_core, ↓incSat_core, ↓core_ite, ite_self, id_eq, ↓core_of_mk, core_eta]; done) | split | (simp only [↓hbHandOver_core, ↓flag_core, ↓incSat_core, ↓core_ite, ite_self, id_eq, ↓core_of_mk, core_eta]))

theorem hbEnterSource_core (s : State) : (hbEnterSource s).core = s.core := by
  unfold hbEnterSource
  repeat' (first | with_reducible rfl | (simp only [↓hbGo_core, ↓setFld_core, ↓hbGive_core, ↓setRg_core, ↓hbSetIn_core, ↓core_ite, ite_self, id_eq, ↓core_of_mk, core_eta]; done) | split | (simp only [↓hbGo_core, ↓setFld_core, ↓hbGive_core, ↓setRg_core, ↓hbSetIn_core, ↓core_ite, ite_self, id_eq, ↓core_of_mk, core_eta]))

theorem hbStartDf_core (s : State) : (hbStartDf s).core = s.core := by
  unfold hbStartDf
  repeat' (first | with_reducible rfl | (simp only [↓dfWrite_core, ↓setDfH_core, ↓hbGo_core, ↓core_ite, ite_self, id_eq, ↓core_of_mk, core_eta]; done) | split | (simp only [↓dfWrite_core, ↓setDfH_core, ↓hbGo_core, ↓core_ite, ite_self, id_eq, ↓core_of_mk, core_eta]))

theorem hbQualify_core (vd : Int) (s : State) : (hbQualify vd s).core = s.core := by
  unfold hbQualify
  repeat' (first | with_reducible rfl | (simp only [↓setFld_core, ↓hbEnterSource_core, ↓hbGive_core, ↓hbStartDf_core, ↓core_ite, ite_self, id_eq, ↓core_of_mk, core_eta]; done) | split | (simp only [↓setFld_core, ↓hbEnterSource_core, ↓hbGive_core, ↓hbStartDf_core, ↓core_ite, ite_self, id_eq, ↓core_of_mk, core_eta]))

theorem chgEnter_core (ph : Nat) (s : State) : (chgEnter ph s).core = s.core := by
  unfold chgEnter
  repeat' (first | with_reducible rfl | (simp only [↓setRg_core, ↓setFld_core, ↓flag_core, ↓core_ite, ite_self, id_eq, ↓core_of_mk, core_eta]; done) | split | (simp only [↓setRg_core, ↓setFld_core, ↓flag_core, ↓core_ite, ite_self, id_eq, ↓core_of_mk, core_eta]))

theorem chgCount_core (lost : Bool) (s : State) : (chgCount lost s).core = s.core := by
  unfold chgCount
  repeat' (first | with_reducible rfl | (simp only [↓setRg_core, ↓setFld_core, ↓core_ite, ite_self, id_eq, ↓core_of_mk, core_eta]; done) | split | (simp only [↓setRg_core, ↓setFld_core, ↓core_ite, ite_self, id_eq, ↓core_of_mk, core_eta]))

theorem chgStep_core (s : State) : (chgStep s).core = s.core := by
  unfold chgStep
  repeat' (first | with_reducible rfl | (simp only [↓chgEnter_core, ↓chgEnd_core, ↓core_ite, ite_self, id_eq, ↓core_of_mk, core_eta]; done) | split | (simp only [↓chgEnter_core, ↓chgEnd_core, ↓core_ite, ite_self, id_eq, ↓core_of_mk, core_eta]))

theorem chgCycle_core (s : State) : (chgCycle s).core = s.core := by
  unfold chgCycle
  repeat' (first | with_reducible rfl | (simp only [↓chgEnd_core, ↓chgStep_core, ↓core_ite, ite_self, id_eq, ↓core_of_mk, core_eta]; done) | split | (simp only [↓chgEnd_core, ↓chgStep_core, ↓core_ite, ite_self, id_eq, ↓core_of_mk, core_eta]))

theorem hbSharing_core (s : State) : (hbSharing s).core = s.core := by
  unfold hbSharing
  repeat' (first | with_reducible rfl | (simp only [↓hbGive_core, ↓hbArith_core, ↓setRg_core, ↓core_ite, ite_self, id_eq, ↓core_of_mk, core_eta]; done) | split | (simp only [↓hbGive_core, ↓hbArith_core, ↓setRg_core, ↓core_ite, ite_self, id_eq, ↓core_of_mk, core_eta]))

theorem fgGo_core (st : Nat) (s : State) : (fgGo st s).core = s.core := by
  unfold fgGo
  repeat' (first | with_reducible rfl | (simp only [↓setFld_core, ↓core_ite, ite_self, id_eq, ↓core_of_mk, core_eta]; done) | split | (simp only [↓setFld_core, ↓core_ite, ite_self, id_eq, ↓core_of_mk, core_eta]))

theorem fgIn_core (x : Int) (s : State) : (fgIn x s).core = s.core := by
  unfold fgIn
  repeat' (first | with_reducible rfl | (simp only [↓hbArith_core, ↓hbSetIn_core, ↓core_ite, ite_self, id_eq, ↓core_of_mk, core_eta]; done) | split | (simp only [↓hbArith_core, ↓hbSetIn_core, ↓core_ite, ite_self, id_eq, ↓core_of_mk, core_eta]))

theorem fgStep_core (x : Int) (s : State) : (fgStep x s).core = s.core := by
  unfold fgStep
  repeat' (first | with_reducible rfl | (simp only [↓flag_core, ↓incSat_core, ↓fgIn_core, ↓core_ite, ite_self, id_eq, ↓core_of_mk, core_eta]; done) | split | (simp only [↓flag_core, ↓incSat_core, ↓fgIn_core, ↓core_ite, ite_self, id_eq, ↓core_of_mk, core_eta]))

theorem fgBack_core (s : State) : (fgBack s).core = s.core := by
  unfold fgBack
  repeat' (first | with_reducible rfl | (simp only [↓fgGo_core, ↓setFld_core, ↓flag_core, ↓fgIn_core, ↓core_ite, ite_self, id_eq, ↓core_of_mk, core_eta]; done) | split | (simp only [↓fgGo_core, ↓setFld_core, ↓flag_core, ↓fgIn_core, ↓core_ite, ite_self, id_eq, ↓core_of_mk, core_eta]))

theorem forage_core (vd iin c : Int) (s : State) : (forage vd iin c s).core = s.core := by
  unfold forage
  repeat' (first | with_reducible rfl | (simp only [↓hbSetIn_core, ↓fgGo_core, ↓fgBack_core, ↓fgStep_core, ↓core_ite, ite_self, id_eq, ↓core_of_mk, core_eta]; done) | split | (simp only [↓hbSetIn_core, ↓fgGo_core, ↓fgBack_core, ↓fgStep_core, ↓core_ite, ite_self, id_eq, ↓core_of_mk, core_eta]))

theorem hbForage_core (vd iin : Int) (s : State) : (hbForage vd iin s).core = s.core := by
  unfold hbForage
  repeat' (first | with_reducible rfl | (simp only [↓forage_core, ↓hbSetIn_core, ↓core_ite, ite_self, id_eq, ↓core_of_mk, core_eta]; done) | split | (simp only [↓forage_core, ↓hbSetIn_core, ↓core_ite, ite_self, id_eq, ↓core_of_mk, core_eta]))

theorem hbSource_core (vd iin : Int) (s : State) : (hbSource vd iin s).core = s.core := by
  unfold hbSource
  repeat' (first | with_reducible rfl | (simp only [↓hbLoss_core, ↓hbForage_core, ↓hbSharing_core, ↓chgCycle_core, ↓core_ite, ite_self, id_eq, ↓core_of_mk, core_eta]; done) | split | (simp only [↓hbLoss_core, ↓hbForage_core, ↓hbSharing_core, ↓chgCycle_core, ↓core_ite, ite_self, id_eq, ↓core_of_mk, core_eta]))

theorem hbOutputs_core (vd : Int) (s : State) : (hbOutputs vd s).core = s.core := by
  unfold hbOutputs
  repeat' (first | with_reducible rfl | (simp only [↓core_ite, ite_self, id_eq, ↓core_of_mk, core_eta]; done) | split | (simp only [↓core_ite, ite_self, id_eq, ↓core_of_mk, core_eta]))

theorem hbFresh_core (s : State) : (hbFresh s).core = s.core := by
  unfold hbFresh
  repeat' (first | with_reducible rfl | (simp only [↓incSat_core, ↓core_ite, ite_self, id_eq, ↓core_of_mk, core_eta]; done) | split | (simp only [↓incSat_core, ↓core_ite, ite_self, id_eq, ↓core_of_mk, core_eta]))

theorem hbLimits_core (s : State) : (hbLimits s).core = s.core := by
  unfold hbLimits
  repeat' (first | with_reducible rfl | (simp only [↓setBit_core, ↓setFld_core, ↓hbArith_core, ↓core_ite, ite_self, id_eq, ↓core_of_mk, core_eta]; done) | split | (simp only [↓setBit_core, ↓setFld_core, ↓hbArith_core, ↓core_ite, ite_self, id_eq, ↓core_of_mk, core_eta]))

theorem hbFull_core (s : State) : (hbFull s).core = s.core := by
  unfold hbFull
  repeat' (first | with_reducible rfl | (simp only [↓hbArith_core, ↓setRg_core, ↓chgCount_core, ↓hbFresh_core, ↓hbSource_core, ↓hbQualify_core, ↓hbGive_core, ↓setFld_core, ↓hbOutputs_core, ↓hbLimits_core, ↓pilotSwitch_core, ↓core_ite, ite_self, id_eq, ↓core_of_mk, core_eta]; done) | split | (simp only [↓hbArith_core, ↓setRg_core, ↓chgCount_core, ↓hbFresh_core, ↓hbSource_core, ↓hbQualify_core, ↓hbGive_core, ↓setFld_core, ↓hbOutputs_core, ↓hbLimits_core, ↓pilotSwitch_core, ↓core_ite, ite_self, id_eq, ↓core_of_mk, core_eta]))

theorem hbCycle_core (s : State) : (hbCycle s).core = s.core := by
  unfold hbCycle
  repeat' (first | with_reducible rfl | (simp only [↓detBreach_core, ↓incSat_core, ↓chgCount_core, ↓hbFresh_core, ↓core_ite, ite_self, id_eq, ↓core_of_mk, core_eta]; done) | split | (simp only [↓detBreach_core, ↓incSat_core, ↓chgCount_core, ↓hbFresh_core, ↓core_ite, ite_self, id_eq, ↓core_of_mk, core_eta]))

theorem hbTick_core (s : State) : (hbTick s).core = s.core := by
  unfold hbTick
  repeat' (first | with_reducible rfl | (simp only [↓hbGo_core, ↓hbFull_core, ↓core_ite, ite_self, id_eq, ↓core_of_mk, core_eta]; done) | split | (simp only [↓hbGo_core, ↓hbFull_core, ↓core_ite, ite_self, id_eq, ↓core_of_mk, core_eta]))

theorem hbEnable_core (on : Bool) (s : State) : (hbEnable on s).core = s.core := by
  unfold hbEnable
  repeat' (first | with_reducible rfl | (simp only [↓hbGo_core, ↓setFld_core, ↓core_ite, ite_self, id_eq, ↓core_of_mk, core_eta]; done) | split | (simp only [↓hbGo_core, ↓setFld_core, ↓core_ite, ite_self, id_eq, ↓core_of_mk, core_eta]))

theorem hbDisable_core (s : State) : (hbDisable s).core = s.core := by
  unfold hbDisable
  repeat' (first | with_reducible rfl | (simp only [↓hbEnable_core, ↓core_ite, ite_self, id_eq, ↓core_of_mk, core_eta]; done) | split | (simp only [↓hbEnable_core, ↓core_ite, ite_self, id_eq, ↓core_of_mk, core_eta]))

theorem hbEff_core (o v : Nat) (was : Bool) (s : State) : (hbEff o v was s).core = s.core := by
  unfold hbEff
  repeat' (first | with_reducible rfl | (simp only [↓chgEnter_core, ↓chgEnd_core, ↓pilotSwitch_core, ↓setBit_core, ↓hbDisable_core, ↓hbEnable_core, ↓core_ite, ite_self, id_eq, ↓core_of_mk, core_eta]; done) | split | (simp only [↓chgEnter_core, ↓chgEnd_core, ↓pilotSwitch_core, ↓setBit_core, ↓hbDisable_core, ↓hbEnable_core, ↓core_ite, ite_self, id_eq, ↓core_of_mk, core_eta]))

theorem hbWrite_core (acc : Access) (o v : Nat) (s : State) : (hbWrite acc o v s).core = s.core := by
  unfold hbWrite
  repeat' (first | with_reducible rfl | (simp only [↓clearArith_core, ↓hbEff_core, ↓core_ite, ite_self, id_eq, ↓core_of_mk, core_eta]; done) | split | (with_reducible refine Eq.trans (busStore_core (fun _ => ?_) _) ?_) | (simp only [↓clearArith_core, ↓hbEff_core, ↓core_ite, ite_self, id_eq, ↓core_of_mk, core_eta]))

theorem pilotShow_core (s : State) : (pilotShow s).core = s.core := by
  unfold pilotShow
  repeat' (first | with_reducible rfl | (simp only [↓pilotSwitch_core, ↓setRg_core, ↓core_ite, ite_self, id_eq, ↓core_of_mk, core_eta]; done) | split | (with_reducible refine Eq.trans (foldl_core (fun _ _ => ?_) _ _) ?_) | (simp only [↓pilotSwitch_core, ↓setRg_core, ↓core_ite, ite_self, id_eq, ↓core_of_mk, core_eta]))

theorem pilotUnblock_core (grid : Bool) (s : State) : (pilotUnblock grid s).core = s.core := by
  unfold pilotUnblock
  repeat' (first | with_reducible rfl | (simp only [↓setBit_core, ↓core_ite, ite_self, id_eq, ↓core_of_mk, core_eta]; done) | split | (simp only [↓setBit_core, ↓core_ite, ite_self, id_eq, ↓core_of_mk, core_eta]))

theorem pilotPeriod_core (hi lo : Int) (d per : Nat) (s : State) : (pilotPeriod hi lo d per s).core = s.core := by
  unfold pilotPeriod
  repeat' (first | with_reducible rfl | (simp only [↓setRg_core, ↓setBit_core, ↓flagIf_core, ↓setFld_core, ↓flag_core, ↓pilotShow_core, ↓core_ite, ite_self, id_eq, ↓core_of_mk, core_eta]; done) | split | (simp only [↓setRg_core, ↓setBit_core, ↓flagIf_core, ↓setFld_core, ↓flag_core, ↓pilotShow_core, ↓core_ite, ite_self, id_eq, ↓core_of_mk, core_eta]))

theorem pilotAccept_core (s : State) : (pilotAccept s).core = s.core := by
  unfold pilotAccept
  repeat' (first | with_reducible rfl | (simp only [↓setFld_core, ↓pilotShow_core, ↓pilotUnblock_core, ↓flag_core, ↓core_ite, ite_self, id_eq, ↓core_of_mk, core_eta]; done) | split | (simp only [↓setFld_core, ↓pilotShow_core, ↓pilotUnblock_core, ↓flag_core, ↓core_ite, ite_self, id_eq, ↓core_of_mk, core_eta]))

theorem ppChange_core (r : Nat) (s : State) : (ppChange r s).core = s.core := by
  unfold ppChange
  repeat' (first | with_reducible rfl | (simp only [↓setFld_core, ↓setRg_core, ↓pilotShow_core, ↓pilotUnblock_core, ↓flagIf_core, ↓flag_core, ↓core_ite, ite_self, id_eq, ↓core_of_mk, core_eta]; done) | split | (simp only [↓setFld_core, ↓setRg_core, ↓pilotShow_core, ↓pilotUnblock_core, ↓flagIf_core, ↓flag_core, ↓core_ite, ite_self, id_eq, ↓core_of_mk, core_eta]))

theorem pilotWrite_core (acc : Access) (o v : Nat) (s : State) : (pilotWrite acc o v s).core = s.core := by
  unfold pilotWrite
  repeat' (first | with_reducible rfl | (simp only [↓pilotShow_core, ↓core_ite, ite_self, id_eq, ↓core_of_mk, core_eta]; done) | split | (with_reducible refine Eq.trans (busStore_core (fun _ => ?_) _) ?_) | (simp only [↓pilotShow_core, ↓core_ite, ite_self, id_eq, ↓core_of_mk, core_eta]))

theorem aduShow_core (u : Nat) (i : Int) (s : State) : (aduShow u i s).core = s.core := by
  unfold aduShow
  repeat' (first | with_reducible rfl | (simp only [↓setRg_core, ↓core_ite, ite_self, id_eq, ↓core_of_mk, core_eta]; done) | split | (simp only [↓setRg_core, ↓core_ite, ite_self, id_eq, ↓core_of_mk, core_eta]))

theorem aduHiccup_core (u cause : Nat) (s : State) : (aduHiccup u cause s).core = s.core := by
  unfold aduHiccup
  repeat' (first | with_reducible rfl | (simp only [↓incSat_core, ↓setAduH_core, ↓aduEnter_core, ↓core_ite, ite_self, id_eq, ↓core_of_mk, core_eta]; done) | split | (simp only [↓incSat_core, ↓setAduH_core, ↓aduEnter_core, ↓core_ite, ite_self, id_eq, ↓core_of_mk, core_eta]))

theorem aduOver_core (u : Nat) (s : State) : (aduOver u s).core = s.core := by
  unfold aduOver
  repeat' (first | with_reducible rfl | (simp only [↓aduHiccup_core, ↓flag_core, ↓core_ite, ite_self, id_eq, ↓core_of_mk, core_eta]; done) | split | (simp only [↓aduHiccup_core, ↓flag_core, ↓core_ite, ite_self, id_eq, ↓core_of_mk, core_eta]))

theorem aduRunEntry_core (u : Nat) (s : State) : (aduRunEntry u s).core = s.core := by
  unfold aduRunEntry
  repeat' (first | with_reducible rfl | (simp only [↓setFld_core, ↓aduEnter_core, ↓setAduH_core, ↓core_ite, ite_self, id_eq, ↓core_of_mk, core_eta]; done) | split | (simp only [↓setFld_core, ↓aduEnter_core, ↓setAduH_core, ↓core_ite, ite_self, id_eq, ↓core_of_mk, core_eta]))

theorem aduStop_core (u cause : Nat) (s : State) : (aduStop u cause s).core = s.core := by
  unfold aduStop
  repeat' (first | with_reducible rfl | (simp only [↓aduEnter_core, ↓setAduH_core, ↓core_ite, ite_self, id_eq, ↓core_of_mk, core_eta]; done) | split | (simp only [↓aduEnter_core, ↓setAduH_core, ↓core_ite, ite_self, id_eq, ↓core_of_mk, core_eta]))

theorem aduLoop_core (u hl : Nat) (i : Int) (s : State) : (aduLoop u hl i s).core = s.core := by
  unfold aduLoop
  repeat' (first | with_reducible rfl | (simp only [↓deliver_core, ↓setAduH_core, ↓core_ite, ite_self, id_eq, ↓core_of_mk, core_eta]; done) | split | (simp only [↓deliver_core, ↓setAduH_core, ↓core_ite, ite_self, id_eq, ↓core_of_mk, core_eta]))

theorem aduSetOvr_core (m code : Nat) (s : State) : (aduSetOvr m code s).core = s.core := by
  unfold aduSetOvr
  repeat' (first | with_reducible rfl | (simp only [↓setOvr_core, ↓core_ite, ite_self, id_eq, ↓core_of_mk, core_eta]; done) | split | (simp only [↓setOvr_core, ↓core_ite, ite_self, id_eq, ↓core_of_mk, core_eta]))

theorem aduCommutate_core (u : Nat) (i : Int) (s : State) : (aduCommutate u i s).core = s.core := by
  unfold aduCommutate
  repeat' (first | with_reducible rfl | (simp only [↓setAduH_core, ↓aduSetOvr_core, ↓aduLoop_core, ↓core_ite, ite_self, id_eq, ↓core_of_mk, core_eta]; done) | split | (with_reducible refine Eq.trans (forRange_core (fun _ _ => ?_) _ _) ?_) | (simp only [↓setAduH_core, ↓aduSetOvr_core, ↓aduLoop_core, ↓core_ite, ite_self, id_eq, ↓core_of_mk, core_eta]))

theorem aduInternal_core (u : Nat) (i : Int) (s : State) : (aduInternal u i s).core = s.core := by
  unfold aduInternal
  repeat' (first | with_reducible rfl | (simp only [↓aduLoop_core, ↓aduSetOvr_core, ↓aduCommutate_core, ↓core_ite, ite_self, id_eq, ↓core_of_mk, core_eta]; done) | split | (simp only [↓aduLoop_core, ↓aduSetOvr_core, ↓aduCommutate_core, ↓core_ite, ite_self, id_eq, ↓core_of_mk, core_eta]))

theorem aduPosition_core (u : Nat) (s : State) : (aduPosition u s).core = s.core := by
  unfold aduPosition
  repeat' (first | with_reducible rfl | (simp only [↓setAduH_core, ↓aduInternal_core, ↓aduShow_core, ↓flagIf_core, ↓core_ite, ite_self, id_eq, ↓core_of_mk, core_eta]; done) | split | (simp only [↓setAduH_core, ↓aduInternal_core, ↓aduShow_core, ↓flagIf_core, ↓core_ite, ite_self, id_eq, ↓core_of_mk, core_eta]))

theorem aduCross_core (u : Nat) (s : State) : (aduCross u s).1.core = s.core := by
  unfold aduCross
  repeat' (first | with_reducible rfl | (simp only [↓setAduH_core]; done) | split | dsimp only)

theorem aduRun_core (u : Nat) (s : State) : (aduRun u s).core = s.core := by
  unfold aduRun
  repeat' (first | with_reducible rfl | (simp only [↓aduEnter_core, ↓flag_core, ↓aduShow_core, ↓aduOver_core, ↓aduCross_core, ↓aduHiccup_core, ↓incSat_core, ↓aduPosition_core, ↓core_ite, ite_self, id_eq, ↓core_of_mk, core_eta]; done) | split | (simp only [↓aduEnter_core, ↓flag_core, ↓aduShow_core, ↓aduOver_core, ↓aduCross_core, ↓aduHiccup_core, ↓incSat_core, ↓aduPosition_core, ↓core_ite, ite_self, id_eq, ↓core_of_mk, core_eta]))

theorem plRun_core (s : State) : (plRun s).core = s.core := by
  unfold plRun
  repeat' (first | with_reducible rfl | (simp only [↓aduShow_core, ↓aduOver_core, ↓setAduH_core, ↓setBit_core, ↓flag_core, ↓setFld_core, ↓aduInternal_core, ↓core_ite, ite_self, id_eq, ↓core_of_mk, core_eta]; done) | split | (simp only [↓aduShow_core, ↓aduOver_core, ↓setAduH_core, ↓setBit_core, ↓flag_core, ↓setFld_core, ↓aduInternal_core, ↓core_ite, ite_self, id_eq, ↓core_of_mk, core_eta]))

theorem plWatch_core (s : State) : (plWatch s).core = s.core := by
  unfold plWatch
  repeat' (first | with_reducible rfl | (simp only [↓aduShow_core, ↓flag_core, ↓setFld_core, ↓setAduH_core, ↓core_ite, ite_self, id_eq, ↓core_of_mk, core_eta]; done) | split | (simp only [↓aduShow_core, ↓flag_core, ↓setFld_core, ↓setAduH_core, ↓core_ite, ite_self, id_eq, ↓core_of_mk, core_eta]))

theorem aduOutputs_core (u : Nat) (s : State) : (aduOutputs u s).core = s.core := by
  unfold aduOutputs
  repeat' (first | with_reducible rfl | (simp only [↓setAduH_core, ↓core_ite, ite_self, id_eq, ↓core_of_mk, core_eta]; done) | split | (simp only [↓setAduH_core, ↓core_ite, ite_self, id_eq, ↓core_of_mk, core_eta]))

theorem aduCycle_core (u : Nat) (s : State) : (aduCycle u s).core = s.core := by
  unfold aduCycle
  repeat' (first | with_reducible rfl | (simp only [↓incSat_core, ↓setAduH_core, ↓core_ite, ite_self, id_eq, ↓core_of_mk, core_eta]; done) | split | (simp only [↓incSat_core, ↓setAduH_core, ↓core_ite, ite_self, id_eq, ↓core_of_mk, core_eta]))

theorem aduDecide_core (u : Nat) (l : AduLatch) (s : State) : (aduDecide u l s).core = s.core := by
  unfold aduDecide
  repeat' (first | with_reducible rfl | (simp only [↓aduOutputs_core, ↓plRun_core, ↓aduRun_core, ↓plWatch_core, ↓aduShow_core, ↓core_ite, ite_self, id_eq, ↓core_of_mk, core_eta]; done) | split | (simp only [↓aduOutputs_core, ↓plRun_core, ↓aduRun_core, ↓plWatch_core, ↓aduShow_core, ↓core_ite, ite_self, id_eq, ↓core_of_mk, core_eta]))

theorem aduTick_core (u : Nat) (s : State) : (aduTick u s).core = s.core := by
  unfold aduTick
  repeat' (first | with_reducible rfl | (simp only [↓setAduH_core, ↓aduDecide_core, ↓core_ite, ite_self, id_eq, ↓core_of_mk, core_eta]; done) | split | (simp only [↓setAduH_core, ↓aduDecide_core, ↓core_ite, ite_self, id_eq, ↓core_of_mk, core_eta]))

theorem aduDisable_core (u : Nat) (s : State) : (aduDisable u s).core = s.core := by
  unfold aduDisable
  repeat' (first | with_reducible rfl | (simp only [↓aduEnter_core, ↓setAduH_core, ↓core_ite, ite_self, id_eq, ↓core_of_mk, core_eta]; done) | split | (simp only [↓aduEnter_core, ↓setAduH_core, ↓core_ite, ite_self, id_eq, ↓core_of_mk, core_eta]))

theorem aduEff_core (u o v : Nat) (was : Bool) (s : State) : (aduEff u o v was s).core = s.core := by
  unfold aduEff
  repeat' (first | with_reducible rfl | (simp only [↓aduRunEntry_core, ↓aduStop_core, ↓aduDisable_core, ↓aduOverrides_core, ↓aduEnter_core, ↓core_ite, ite_self, id_eq, ↓core_of_mk, core_eta]; done) | split | (simp only [↓aduRunEntry_core, ↓aduStop_core, ↓aduDisable_core, ↓aduOverrides_core, ↓aduEnter_core, ↓core_ite, ite_self, id_eq, ↓core_of_mk, core_eta]))

theorem aduWrite_core (acc : Access) (u o v : Nat) (s : State) : (aduWrite acc u o v s).core = s.core := by
  unfold aduWrite
  repeat' (first | with_reducible rfl | (simp only [↓aduEff_core, ↓core_ite, ite_self, id_eq, ↓core_of_mk, core_eta]; done) | split | (with_reducible refine Eq.trans (busStore_core (fun _ => ?_) _) ?_) | (simp only [↓aduEff_core, ↓core_ite, ite_self, id_eq, ↓core_of_mk, core_eta]))

theorem plWithdrawn_core (s : State) : (plWithdrawn s).core = s.core := by
  unfold plWithdrawn
  repeat' (first | with_reducible rfl | (simp only [↓setFld_core, ↓setBit_core, ↓aduStop_core, ↓core_ite, ite_self, id_eq, ↓core_of_mk, core_eta]; done) | split | (simp only [↓setFld_core, ↓setBit_core, ↓aduStop_core, ↓core_ite, ite_self, id_eq, ↓core_of_mk, core_eta]))

theorem scEvent_core (n arg : Nat) (s : State) : (scEvent n arg s).core = s.core := by
  unfold scEvent
  repeat' (first | with_reducible rfl | (simp only [↓incWrap_core, ↓pulse_core, ↓setRg_core, ↓core_ite, ite_self, id_eq, ↓core_of_mk, core_eta]; done) | split | (simp only [↓incWrap_core, ↓pulse_core, ↓setRg_core, ↓core_ite, ite_self, id_eq, ↓core_of_mk, core_eta]))

theorem scEventIf_core (c : Bool) (n arg : Nat) (s : State) : (scEventIf c n arg s).core = s.core := by
  unfold scEventIf
  repeat' (first | with_reducible rfl | (simp only [↓scEvent_core, ↓core_ite, ite_self, id_eq, ↓core_of_mk, core_eta]; done) | split | (simp only [↓scEvent_core, ↓core_ite, ite_self, id_eq, ↓core_of_mk, core_eta]))

theorem scGen_core (s : State) : (scGen s).core = s.core := by
  unfold scGen
  repeat' (first | with_reducible rfl | (simp only [↓brakeDrive_core, ↓refreshTiles_core, ↓setFld_core, ↓core_ite, ite_self, id_eq, ↓core_of_mk, core_eta]; done) | split | (with_reducible refine Eq.trans (foldl_core (fun _ _ => ?_) _ _) ?_) | (simp only [↓brakeDrive_core, ↓refreshTiles_core, ↓setFld_core, ↓core_ite, ite_self, id_eq, ↓core_of_mk, core_eta]))

theorem scOutputs_core (s : State) : (scOutputs s).core = s.core := by
  unfold scOutputs
  repeat' (first | with_reducible rfl | (simp only [↓setRg_core, ↓core_ite, ite_self, id_eq, ↓core_of_mk, core_eta]; done) | split | (with_reducible refine Eq.trans (foldl_core (fun _ _ => ?_) _ _) ?_) | (simp only [↓setRg_core, ↓core_ite, ite_self, id_eq, ↓core_of_mk, core_eta]))

theorem scFail_core (code : Nat) (s : State) : (scFail code s).core = s.core := by
  unfold scFail
  repeat' (first | with_reducible rfl | (simp only [↓setFld_core, ↓scOutputs_core, ↓scGen_core, ↓scarabTested_core, ↓goLatched_core, ↓scEvent_core, ↓plWithdrawn_core, ↓core_ite, ite_self, id_eq, ↓core_of_mk, core_eta]; done) | split | (simp only [↓setFld_core, ↓scOutputs_core, ↓scGen_core, ↓scarabTested_core, ↓goLatched_core, ↓scEvent_core, ↓plWithdrawn_core, ↓core_ite, ite_self, id_eq, ↓core_of_mk, core_eta]))

theorem setSinH_core (i : Nat) (x : SinHid) (s : State) : (setSinH i x s).core = s.core := by
  unfold setSinH
  repeat' (first | with_reducible rfl | (simp only [↓setSc_core, ↓core_ite, ite_self, id_eq, ↓core_of_mk, core_eta]; done) | split | (simp only [↓setSc_core, ↓core_ite, ite_self, id_eq, ↓core_of_mk, core_eta]))

theorem sinFault_core (i code : Nat) (s : State) : (sinFault i code s).core = s.core := by
  unfold sinFault
  repeat' (first | with_reducible rfl | (simp only [↓setFld_core, ↓incSat_core, ↓setBit_core, ↓scEvent_core, ↓setSinH_core, ↓core_ite, ite_self, id_eq, ↓core_of_mk, core_eta]; done) | split | (simp only [↓setFld_core, ↓incSat_core, ↓setBit_core, ↓scEvent_core, ↓setSinH_core, ↓core_ite, ite_self, id_eq, ↓core_of_mk, core_eta]))

theorem pulseCheck_core (i : Nat) (b level : Bool) (s : State) : (pulseCheck i b level s).core = s.core := by
  unfold pulseCheck
  repeat' (first | with_reducible rfl | (simp only [↓sinFault_core, ↓setSinH_core, ↓core_ite, ite_self, id_eq, ↓core_of_mk, core_eta]; done) | split | (with_reducible refine Eq.trans (forRange_core (fun _ _ => ?_) _ _) ?_) | (simp only [↓sinFault_core, ↓setSinH_core, ↓core_ite, ite_self, id_eq, ↓core_of_mk, core_eta]))

theorem sinJudge_core (i : Nat) (s : State) : (sinJudge i s).core = s.core := by
  unfold sinJudge
  repeat' (first | with_reducible rfl | (simp only [↓setBit_core, ↓setSinH_core, ↓sinFault_core, ↓core_ite, ite_self, id_eq, ↓core_of_mk, core_eta]; done) | split | (simp only [↓setBit_core, ↓setSinH_core, ↓sinFault_core, ↓core_ite, ite_self, id_eq, ↓core_of_mk, core_eta]))

theorem resetJudge_core (i : Nat) (was : Bool) (s : State) : (resetJudge i was s).core = s.core := by
  unfold resetJudge
  repeat' (first | with_reducible rfl | (simp only [↓setSinH_core, ↓setSc_core, ↓core_ite, ite_self, id_eq, ↓core_of_mk, core_eta]; done) | split | (simp only [↓setSinH_core, ↓setSc_core, ↓core_ite, ite_self, id_eq, ↓core_of_mk, core_eta]))

theorem sinSample_core (a b : Bool) (i : Nat) (s : State) : (sinSample a b i s).core = s.core := by
  unfold sinSample
  repeat' (first | with_reducible rfl | (simp only [↓setBit_core, ↓setSinH_core, ↓resetJudge_core, ↓sinJudge_core, ↓pulseCheck_core, ↓core_ite, ite_self, id_eq, ↓core_of_mk, core_eta]; done) | split | (simp only [↓setBit_core, ↓setSinH_core, ↓resetJudge_core, ↓sinJudge_core, ↓pulseCheck_core, ↓core_ite, ite_self, id_eq, ↓core_of_mk, core_eta]))

theorem scSample_core (a b : Nat) (s : State) : (scSample a b s).core = s.core := by
  unfold scSample
  repeat' (first | with_reducible rfl | (simp only [↓sinSample_core, ↓setSc_core, ↓core_ite, ite_self, id_eq, ↓core_of_mk, core_eta]; done) | split | (with_reducible refine Eq.trans (forRange_core (fun _ _ => ?_) _ _) ?_) | (simp only [↓sinSample_core, ↓setSc_core, ↓core_ite, ite_self, id_eq, ↓core_of_mk, core_eta]))

theorem testPulse_core (n : Nat) (ok : Bool) (s : State) : (testPulse n ok s).core = s.core := by
  unfold testPulse
  repeat' (first | with_reducible rfl | (simp only [↓setSc_core, ↓sinFault_core, ↓setBit_core, ↓core_ite, ite_self, id_eq, ↓core_of_mk, core_eta]; done) | split | (with_reducible refine Eq.trans (forRange_core (fun _ _ => ?_) _ _) ?_) | (simp only [↓setSc_core, ↓sinFault_core, ↓setBit_core, ↓core_ite, ite_self, id_eq, ↓core_of_mk, core_eta]))

theorem twSpeed_core (j a : Nat) (s : State) : (twSpeed j a s).core = s.core := by
  unfold twSpeed
  repeat' (first | with_reducible rfl | (simp only [↓setBit_core, ↓setFld_core, ↓core_ite, ite_self, id_eq, ↓core_of_mk, core_eta]; done) | split | (simp only [↓setBit_core, ↓setFld_core, ↓core_ite, ite_self, id_eq, ↓core_of_mk, core_eta]))

theorem scTooth_core (j p w : Nat) (s : State) : (scTooth j p w s).core = s.core := by
  unfold scTooth
  repeat' (first | with_reducible rfl | (simp only [↓setFld_core, ↓setSc_core, ↓core_ite, ite_self, id_eq, ↓core_of_mk, core_eta]; done) | split | (simp only [↓setFld_core, ↓setSc_core, ↓core_ite, ite_self, id_eq, ↓core_of_mk, core_eta]))

theorem crossCheck_core (a0 a1 : Nat) (s : State) : (crossCheck a0 a1 s).core = s.core := by
  unfold crossCheck
  repeat' (first | with_reducible rfl | (simp only [↓twSpeed_core, ↓setSc_core, ↓setRg_core, ↓scEventIf_core, ↓core_ite, ite_self, id_eq, ↓core_of_mk, core_eta]; done) | split | (simp only [↓twSpeed_core, ↓setSc_core, ↓setRg_core, ↓scEventIf_core, ↓core_ite, ite_self, id_eq, ↓core_of_mk, core_eta]))

theorem setConnState_core (c st : Nat) (s : State) : (setConnState c st s).core = s.core := by
  unfold setConnState
  repeat' (first | with_reducible rfl | (simp only [↓setFld_core, ↓core_ite, ite_self, id_eq, ↓core_of_mk, core_eta]; done) | split | (simp only [↓setFld_core, ↓core_ite, ite_self, id_eq, ↓core_of_mk, core_eta]))

theorem linkNote_core (c d : Nat) (s : State) : (linkNote c d s).core = s.core := by
  unfold linkNote
  repeat' (first | with_reducible rfl | (simp only [↓setSc_core, ↓core_ite, ite_self, id_eq, ↓core_of_mk, core_eta]; done) | split | (simp only [↓setSc_core, ↓core_ite, ite_self, id_eq, ↓core_of_mk, core_eta]))

theorem slsCycle_core (s : State) : (slsCycle s).core = s.core := by
  unfold slsCycle
  repeat' (first | with_reducible rfl | (simp only [↓setBit_core, ↓setSc_core, ↓scEventIf_core, ↓core_ite, ite_self, id_eq, ↓core_of_mk, core_eta]; done) | split | (simp only [↓setBit_core, ↓setSc_core, ↓scEventIf_core, ↓core_ite, ite_self, id_eq, ↓core_of_mk, core_eta]))

theorem sdiCycle_core (s : State) : (sdiCycle s).core = s.core := by
  unfold sdiCycle
  repeat' (first | with_reducible rfl | (simp only [↓setBit_core, ↓setSc_core, ↓scEventIf_core, ↓core_ite, ite_self, id_eq, ↓core_of_mk, core_eta]; done) | split | (simp only [↓setBit_core, ↓setSc_core, ↓scEventIf_core, ↓core_ite, ite_self, id_eq, ↓core_of_mk, core_eta]))

theorem splFault_core (s : State) : (splFault s).core = s.core := by
  unfold splFault
  repeat' (first | with_reducible rfl | (simp only [↓scEvent_core, ↓setBit_core, ↓setFld_core, ↓core_ite, ite_self, id_eq, ↓core_of_mk, core_eta]; done) | split | (simp only [↓scEvent_core, ↓setBit_core, ↓setFld_core, ↓core_ite, ite_self, id_eq, ↓core_of_mk, core_eta]))

theorem splPawl_core (s : State) : (splPawl s).core = s.core := by
  unfold splPawl
  repeat' (first | with_reducible rfl | (simp only [↓setFld_core, ↓splFault_core, ↓setSc_core, ↓core_ite, ite_self, id_eq, ↓core_of_mk, core_eta]; done) | split | (simp only [↓setFld_core, ↓splFault_core, ↓setSc_core, ↓core_ite, ite_self, id_eq, ↓core_of_mk, core_eta]))

theorem splCycle_core (s : State) : (splCycle s).core = s.core := by
  unfold splCycle
  repeat' (first | with_reducible rfl | (simp only [↓setSc_core, ↓plWithdrawn_core, ↓splPawl_core, ↓core_ite, ite_self, id_eq, ↓core_of_mk, core_eta]; done) | split | (simp only [↓setSc_core, ↓plWithdrawn_core, ↓splPawl_core, ↓core_ite, ite_self, id_eq, ↓core_of_mk, core_eta]))

theorem splHold_core (s : State) : (splHold s).core = s.core := by
  unfold splHold
  repeat' (first | with_reducible rfl | (simp only [↓plWithdrawn_core, ↓core_ite, ite_self, id_eq, ↓core_of_mk, core_eta]; done) | split | (simp only [↓plWithdrawn_core, ↓core_ite, ite_self, id_eq, ↓core_of_mk, core_eta]))

theorem splGrant_core (may : Bool) (s : State) : (splGrant may s).core = s.core := by
  unfold splGrant
  repeat' (first | with_reducible rfl | (simp only [↓splHold_core, ↓setFld_core, ↓setBit_core, ↓splPawl_core, ↓core_ite, ite_self, id_eq, ↓core_of_mk, core_eta]; done) | split | (simp only [↓splHold_core, ↓setFld_core, ↓setBit_core, ↓splPawl_core, ↓core_ite, ite_self, id_eq, ↓core_of_mk, core_eta]))

theorem setSs1_core (z c : Nat) (s : State) : (setSs1 z c s).core = s.core := by
  unfold setSs1
  repeat' (first | with_reducible rfl | (simp only [↓setFld_core, ↓core_ite, ite_self, id_eq, ↓core_of_mk, core_eta]; done) | split | (simp only [↓setFld_core, ↓core_ite, ite_self, id_eq, ↓core_of_mk, core_eta]))

theorem ss1Cycle_core (z : Nat) (s : State) : (ss1Cycle z s).core = s.core := by
  unfold ss1Cycle
  repeat' (first | with_reducible rfl | (simp only [↓scEvent_core, ↓setSs1_core, ↓setSc_core, ↓core_ite, ite_self, id_eq, ↓core_of_mk, core_eta]; done) | split | (simp only [↓scEvent_core, ↓setSs1_core, ↓setSc_core, ↓core_ite, ite_self, id_eq, ↓core_of_mk, core_eta]))

theorem zoneStart_core (z : Nat) (s : State) : (zoneStart z s).core = s.core := by
  unfold zoneStart
  repeat' (first | with_reducible rfl | (simp only [↓setBit_core, ↓scEvent_core, ↓setSs1_core, ↓core_ite, ite_self, id_eq, ↓core_of_mk, core_eta]; done) | split | (simp only [↓setBit_core, ↓scEvent_core, ↓setSs1_core, ↓core_ite, ite_self, id_eq, ↓core_of_mk, core_eta]))

theorem zoneRelease_core (z : Nat) (s : State) : (zoneRelease z s).core = s.core := by
  unfold zoneRelease
  repeat' (first | with_reducible rfl | (simp only [↓scEvent_core, ↓setBit_core, ↓core_ite, ite_self, id_eq, ↓core_of_mk, core_eta]; done) | split | (simp only [↓scEvent_core, ↓setBit_core, ↓core_ite, ite_self, id_eq, ↓core_of_mk, core_eta]))

theorem zoneCycle_core (z : Nat) (s : State) : (zoneCycle z s).core = s.core := by
  unfold zoneCycle
  repeat' (first | with_reducible rfl | (simp only [↓setRg_core, ↓setBit_core, ↓setSs1_core, ↓zoneStart_core, ↓zoneRelease_core, ↓core_ite, ite_self, id_eq, ↓core_of_mk, core_eta]; done) | split | (simp only [↓setRg_core, ↓setBit_core, ↓setSs1_core, ↓zoneStart_core, ↓zoneRelease_core, ↓core_ite, ite_self, id_eq, ↓core_of_mk, core_eta]))

theorem discCycle_core (t : Nat) (s : State) : (discCycle t s).core = s.core := by
  unfold discCycle
  repeat' (first | with_reducible rfl | (simp only [↓setSc_core, ↓scEvent_core, ↓setRg_core, ↓setBit_core, ↓core_ite, ite_self, id_eq, ↓core_of_mk, core_eta]; done) | split | (with_reducible refine Eq.trans (forRange_core (fun _ _ => ?_) _ _) ?_) | (simp only [↓setSc_core, ↓scEvent_core, ↓setRg_core, ↓setBit_core, ↓core_ite, ite_self, id_eq, ↓core_of_mk, core_eta]))

theorem scCycle_core (a0 a1 : Nat) (s : State) : (scCycle a0 a1 s).core = s.core := by
  unfold scCycle
  repeat' (first | with_reducible rfl | (simp only [↓setSc_core, ↓splCycle_core, ↓sdiCycle_core, ↓slsCycle_core, ↓twSpeed_core, ↓splGrant_core, ↓zoneCycle_core, ↓ss1Cycle_core, ↓scOutputs_core, ↓scGen_core, ↓discCycle_core, ↓core_ite, ite_self, id_eq, ↓core_of_mk, core_eta]; done) | split | (with_reducible refine Eq.trans (forRange_core (fun _ _ => ?_) _ _) ?_) | (simp only [↓setSc_core, ↓splCycle_core, ↓sdiCycle_core, ↓slsCycle_core, ↓twSpeed_core, ↓splGrant_core, ↓zoneCycle_core, ↓ss1Cycle_core, ↓scOutputs_core, ↓scGen_core, ↓discCycle_core, ↓core_ite, ite_self, id_eq, ↓core_of_mk, core_eta]))

theorem scOperate_core (s : State) : (scOperate s).core = s.core := by
  unfold scOperate
  repeat' (first | with_reducible rfl | (simp only [↓setRg_core, ↓setFld_core, ↓setSc_core, ↓setConnState_core, ↓scOutputs_core, ↓scGen_core, ↓core_ite, ite_self, id_eq, ↓core_of_mk, core_eta]; done) | split | (with_reducible refine Eq.trans (forRange_core (fun _ _ => ?_) _ _) ?_) | (with_reducible refine Eq.trans (foldl_core (fun _ _ => ?_) _ _) ?_) | (simp only [↓setRg_core, ↓setFld_core, ↓setSc_core, ↓setConnState_core, ↓scOutputs_core, ↓scGen_core, ↓core_ite, ite_self, id_eq, ↓core_of_mk, core_eta]))

theorem scHold_core (cause : Nat) (s : State) : (scHold cause s).core = s.core := by
  unfold scHold
  repeat' (first | with_reducible rfl | (simp only [↓scOutputs_core, ↓scGen_core, ↓setFld_core, ↓core_ite, ite_self, id_eq, ↓core_of_mk, core_eta]; done) | split | (simp only [↓scOutputs_core, ↓scGen_core, ↓setFld_core, ↓core_ite, ite_self, id_eq, ↓core_of_mk, core_eta]))

theorem scCheck_core (s : State) : (scCheck s).core = s.core := by
  unfold scCheck
  repeat' (first | with_reducible rfl | (simp only [↓scHold_core, ↓scEvent_core, ↓scOperate_core, ↓setRg_core, ↓setFld_core, ↓setSc_core, ↓core_ite, ite_self, id_eq, ↓core_of_mk, core_eta]; done) | split | (simp only [↓scHold_core, ↓scEvent_core, ↓scOperate_core, ↓setRg_core, ↓setFld_core, ↓setSc_core, ↓core_ite, ite_self, id_eq, ↓core_of_mk, core_eta]))

theorem scRestart_core (s : State) : (scRestart s).core = s.core := by
  unfold scRestart
  repeat' (first | with_reducible rfl | (simp only [↓scOutputs_core, ↓scGen_core, ↓core_ite, ite_self, id_eq, ↓core_of_mk, core_eta]; done) | split | (simp only [↓scOutputs_core, ↓scGen_core, ↓core_ite, ite_self, id_eq, ↓core_of_mk, core_eta]))

theorem soutFault_core (n code : Nat) (s : State) : (soutFault n code s).core = s.core := by
  unfold soutFault
  repeat' (first | with_reducible rfl | (simp only [↓scEvent_core, ↓scOutputs_core, ↓setBit_core, ↓setFld_core, ↓core_ite, ite_self, id_eq, ↓core_of_mk, core_eta]; done) | split | (simp only [↓scEvent_core, ↓scOutputs_core, ↓setBit_core, ↓setFld_core, ↓core_ite, ite_self, id_eq, ↓core_of_mk, core_eta]))

theorem linkCount_core (i : Nat) (s : State) : (linkCount i s).core = s.core := by
  unfold linkCount
  repeat' (first | with_reducible rfl | (simp only [↓flag_core, ↓incWrap_core, ↓core_ite, ite_self, id_eq, ↓core_of_mk, core_eta]; done) | split | (simp only [↓flag_core, ↓incWrap_core, ↓core_ite, ite_self, id_eq, ↓core_of_mk, core_eta]))

theorem linkReject_core (ctx cause : Nat) (s : State) : (linkReject ctx cause s).core = s.core := by
  unfold linkReject
  repeat' (first | with_reducible rfl | (simp only [↓linkCount_core, ↓setRg_core, ↓core_ite, ite_self, id_eq, ↓core_of_mk, core_eta]; done) | split | (simp only [↓linkCount_core, ↓setRg_core, ↓core_ite, ite_self, id_eq, ↓core_of_mk, core_eta]))

theorem putRegBytes_core (p o : Nat) (bs : List Nat) (s : State) : (putRegBytes p o bs s).core = s.core := by
  unfold putRegBytes
  generalize o = k
  induction bs generalizing k s with
  | nil => rfl
  | cons b bs ih => exact (ih _ _).trans (setFld_core _ _ _ _ _ _)

theorem slDeliver_core (port : Nat) (pdu : List Nat) (s : State) : (slDeliver port pdu s).core = s.core := by
  unfold slDeliver
  repeat' (first | with_reducible rfl | (simp only [↓setRg_core, ↓putRegBytes_core, ↓core_ite, ite_self, id_eq, ↓core_of_mk, core_eta]; done) | split | (simp only [↓setRg_core, ↓putRegBytes_core, ↓core_ite, ite_self, id_eq, ↓core_of_mk, core_eta]))

theorem slDemands_core (ctx kind b : Nat) (s : State) : (slDemands ctx kind b s).core = s.core := by
  unfold slDemands
  repeat' (first | with_reducible rfl | (simp only [↓linkNote_core, ↓setSc_core, ↓core_ite, ite_self, id_eq, ↓core_of_mk, core_eta]; done) | split | (simp only [↓linkNote_core, ↓setSc_core, ↓core_ite, ite_self, id_eq, ↓core_of_mk, core_eta]))

theorem slReceive_core (port : Nat) (bs : List Nat) (s : State) : (slReceive port bs s).core = s.core := by
  unfold slReceive
  repeat' (first | with_reducible rfl | (simp only [↓slDeliver_core, ↓linkReject_core, ↓slDemands_core, ↓setSc_core, ↓core_ite, ite_self, id_eq, ↓core_of_mk, core_eta]; done) | split | (simp only [↓slDeliver_core, ↓linkReject_core, ↓slDemands_core, ↓setSc_core, ↓core_ite, ite_self, id_eq, ↓core_of_mk, core_eta]))

theorem candStat_core (st reason off : Nat) (s : State) : (candStat st reason off s).core = s.core := by
  unfold candStat
  repeat' (first | with_reducible rfl | (simp only [↓setRg_core, ↓core_ite, ite_self, id_eq, ↓core_of_mk, core_eta]; done) | split | (simp only [↓setRg_core, ↓core_ite, ite_self, id_eq, ↓core_of_mk, core_eta]))

theorem commission_core (data : List Nat) (s : State) : (commission data s).core = s.core := by
  unfold commission
  repeat' (first | with_reducible rfl | (simp only [↓candStat_core, ↓core_ite, ite_self, id_eq, ↓core_of_mk, core_eta]; done) | split | (simp only [↓candStat_core, ↓core_ite, ite_self, id_eq, ↓core_of_mk, core_eta]))

theorem slAccept_core (w : SlWait) (s : State) : (slAccept w s).core = s.core := by
  unfold slAccept
  repeat' (first | with_reducible rfl | (simp only [↓linkCount_core, ↓commission_core, ↓setSc_core, ↓setRg_core, ↓setConnState_core, ↓core_ite, ite_self, id_eq, ↓core_of_mk, core_eta]; done) | split | (simp only [↓linkCount_core, ↓commission_core, ↓setSc_core, ↓setRg_core, ↓setConnState_core, ↓core_ite, ite_self, id_eq, ↓core_of_mk, core_eta]))

theorem slVerdict_core (num v : Nat) (s : State) : (slVerdict num v s).core = s.core := by
  unfold slVerdict
  repeat' (first | with_reducible rfl | (simp only [↓setSc_core, ↓slAccept_core, ↓linkReject_core, ↓core_ite, ite_self, id_eq, ↓core_of_mk, core_eta]; done) | split | (simp only [↓setSc_core, ↓slAccept_core, ↓linkReject_core, ↓core_ite, ite_self, id_eq, ↓core_of_mk, core_eta]))

theorem slTimeouts_core (s : State) : (slTimeouts s).core = s.core := by
  unfold slTimeouts
  repeat' (first | with_reducible rfl | (simp only [↓setSc_core, ↓linkReject_core, ↓core_ite, ite_self, id_eq, ↓core_of_mk, core_eta]; done) | split | (with_reducible refine Eq.trans (foldl_core (fun _ _ => ?_) _ _) ?_) | (simp only [↓setSc_core, ↓linkReject_core, ↓core_ite, ite_self, id_eq, ↓core_of_mk, core_eta]))

theorem slExpire_core (c : Nat) (s : State) : (slExpire c s).core = s.core := by
  unfold slExpire
  repeat' (first | with_reducible rfl | (simp only [↓linkNote_core, ↓linkCount_core, ↓setConnState_core, ↓core_ite, ite_self, id_eq, ↓core_of_mk, core_eta]; done) | split | (simp only [↓linkNote_core, ↓linkCount_core, ↓setConnState_core, ↓core_ite, ite_self, id_eq, ↓core_of_mk, core_eta]))

theorem slProduce_core (c : Nat) (s : State) : (slProduce c s).core = s.core := by
  unfold slProduce
  repeat' (first | with_reducible rfl | (simp only [↓setSc_core, ↓setRg_core, ↓putRegBytes_core, ↓ethOffer_core, ↓core_ite, ite_self, id_eq, ↓core_of_mk, core_eta]; done) | split | (simp only [↓setSc_core, ↓setRg_core, ↓putRegBytes_core, ↓ethOffer_core, ↓core_ite, ite_self, id_eq, ↓core_of_mk, core_eta]))

theorem candChecked_core (s : State) : (candChecked s).core = s.core := by
  unfold candChecked
  repeat' (first | with_reducible rfl | (simp only [↓candStat_core, ↓setRg_core, ↓setSc_core, ↓core_ite, ite_self, id_eq, ↓core_of_mk, core_eta]; done) | split | (simp only [↓candStat_core, ↓setRg_core, ↓setSc_core, ↓core_ite, ite_self, id_eq, ↓core_of_mk, core_eta]))

theorem safelinkEff_core (o v : Nat) (s : State) : (safelinkEff o v s).core = s.core := by
  unfold safelinkEff
  repeat' (first | with_reducible rfl | (simp only [↓candStat_core, ↓setRg_core, ↓setSc_core, ↓slVerdict_core, ↓core_ite, ite_self, id_eq, ↓core_of_mk, core_eta]; done) | split | (simp only [↓candStat_core, ↓setRg_core, ↓setSc_core, ↓slVerdict_core, ↓core_ite, ite_self, id_eq, ↓core_of_mk, core_eta]))

theorem safelinkWrite_core (acc : Access) (o v : Nat) (s : State) : (safelinkWrite acc o v s).core = s.core := by
  unfold safelinkWrite
  repeat' (first | with_reducible rfl | (simp only [↓safelinkEff_core, ↓core_ite, ite_self, id_eq, ↓core_of_mk, core_eta]; done) | split | (with_reducible refine Eq.trans (busStore_core (fun _ => ?_) _) ?_) | (simp only [↓safelinkEff_core, ↓core_ite, ite_self, id_eq, ↓core_of_mk, core_eta]))

theorem setKdState_core (k st : Nat) (s : State) : (setKdState k st s).core = s.core := by
  unfold setKdState
  repeat' (first | with_reducible rfl | (simp only [↓setBlockState_core, ↓core_ite, ite_self, id_eq, ↓core_of_mk, core_eta]; done) | split | (simp only [↓setBlockState_core, ↓core_ite, ite_self, id_eq, ↓core_of_mk, core_eta]))

theorem kdRecover_core (k : Nat) (s : State) : (kdRecover k s).core = s.core := by
  unfold kdRecover
  repeat' (first | with_reducible rfl | (simp only [↓setKdState_core, ↓setKdH_core, ↓core_ite, ite_self, id_eq, ↓core_of_mk, core_eta]; done) | split | (simp only [↓setKdState_core, ↓setKdH_core, ↓core_ite, ite_self, id_eq, ↓core_of_mk, core_eta]))

theorem kdFrameEnd_core (k : Nat) (s : State) : (kdFrameEnd k s).core = s.core := by
  unfold kdFrameEnd
  repeat' (first | with_reducible rfl | (simp only [↓kdOff_core, ↓kdStart_core, ↓core_ite, ite_self, id_eq, ↓core_of_mk, core_eta]; done) | split | (simp only [↓kdOff_core, ↓kdStart_core, ↓core_ite, ite_self, id_eq, ↓core_of_mk, core_eta]))

theorem kdBusOff_core (k : Nat) (s : State) : (kdBusOff k s).core = s.core := by
  unfold kdBusOff
  repeat' (first | with_reducible rfl | (simp only [↓setTxStat_core, ↓flag_core, ↓incSat_core, ↓setKdState_core, ↓setKdH_core, ↓kdFrameEnd_core, ↓kdRecover_core, ↓core_ite, ite_self, id_eq, ↓core_of_mk, core_eta]; done) | split | (with_reducible refine Eq.trans (forRange_core (fun _ _ => ?_) _ _) ?_) | (simp only [↓setTxStat_core, ↓flag_core, ↓incSat_core, ↓setKdState_core, ↓setKdH_core, ↓kdFrameEnd_core, ↓kdRecover_core, ↓core_ite, ite_self, id_eq, ↓core_of_mk, core_eta]))

theorem kdErrorState_core (k : Nat) (s : State) : (kdErrorState k s).core = s.core := by
  unfold kdErrorState
  repeat' (first | with_reducible rfl | (simp only [↓flag_core, ↓setKdState_core, ↓core_ite, ite_self, id_eq, ↓core_of_mk, core_eta]; done) | split | (simp only [↓flag_core, ↓setKdState_core, ↓core_ite, ite_self, id_eq, ↓core_of_mk, core_eta]))

theorem kdCounters_core (k tec rec : Nat) (s : State) : (kdCounters k tec rec s).core = s.core := by
  unfold kdCounters
  repeat' (first | with_reducible rfl | (simp only [↓setFld_core, ↓kdErrorState_core, ↓flagIf_core, ↓kdBusOff_core, ↓core_ite, ite_self, id_eq, ↓core_of_mk, core_eta]; done) | split | (simp only [↓setFld_core, ↓kdErrorState_core, ↓flagIf_core, ↓kdBusOff_core, ↓core_ite, ite_self, id_eq, ↓core_of_mk, core_eta]))

theorem kdError_core (k : Nat) (tx data : Bool) (code : Nat) (quiet : Bool) (eights : Nat) (s : State) : (kdError k tx data code quiet eights s).core = s.core := by
  unfold kdError
  repeat' (first | with_reducible rfl | (simp only [↓kdCounters_core, ↓incSat_core, ↓setFld_core, ↓core_ite, ite_self, id_eq, ↓core_of_mk, core_eta]; done) | split | (simp only [↓kdCounters_core, ↓incSat_core, ↓setFld_core, ↓core_ite, ite_self, id_eq, ↓core_of_mk, core_eta]))

theorem setKdFifo_core (k f : Nat) (l : List KdRx) (s : State) : (setKdFifo k f l s).core = s.core := by
  unfold setKdFifo
  repeat' (first | with_reducible rfl | (simp only [↓setKdH_core, ↓core_ite, ite_self, id_eq, ↓core_of_mk, core_eta]; done) | split | (simp only [↓setKdH_core, ↓core_ite, ite_self, id_eq, ↓core_of_mk, core_eta]))

theorem kdShow_core (k f : Nat) (s : State) : (kdShow k f s).core = s.core := by
  unfold kdShow
  repeat' (first | with_reducible rfl | (simp only [↓setFld_core, ↓setRg_core, ↓freeStep_core, ↓core_ite, ite_self, id_eq, ↓core_of_mk, core_eta]; done) | split | (with_reducible refine Eq.trans (forRange_core (fun _ _ => ?_) _ _) ?_) | (simp only [↓setFld_core, ↓setRg_core, ↓freeStep_core, ↓core_ite, ite_self, id_eq, ↓core_of_mk, core_eta]))

theorem kdPut_core (k f : Nat) (r : KdRx) (s : State) : (kdPut k f r s).core = s.core := by
  unfold kdPut
  repeat' (first | with_reducible rfl | (simp only [↓flagIf_core, ↓kdShow_core, ↓setKdFifo_core, ↓incWrap_core, ↓core_ite, ite_self, id_eq, ↓core_of_mk, core_eta]; done) | split | (simp only [↓flagIf_core, ↓kdShow_core, ↓setKdFifo_core, ↓incWrap_core, ↓core_ite, ite_self, id_eq, ↓core_of_mk, core_eta]))

theorem kdSettle_core (k : Nat) (s : State) : (kdSettle k s).core = s.core := by
  unfold kdSettle
  repeat' (first | with_reducible rfl | (simp only [↓setKdH_core, ↓kdPut_core, ↓flag_core, ↓incSat_core, ↓core_ite, ite_self, id_eq, ↓core_of_mk, core_eta]; done) | split | (simp only [↓setKdH_core, ↓kdPut_core, ↓flag_core, ↓incSat_core, ↓core_ite, ite_self, id_eq, ↓core_of_mk, core_eta]))

theorem kdStore_core (k f x : Nat) (fr : CanFrame) (ts : Nat) (s : State) : (kdStore k f x fr ts s).core = s.core := by
  unfold kdStore
  repeat' (first | with_reducible rfl | (simp only [↓setKdH_core, ↓kdPut_core, ↓core_ite, ite_self, id_eq, ↓core_of_mk, core_eta]; done) | split | (simp only [↓setKdH_core, ↓kdPut_core, ↓core_ite, ite_self, id_eq, ↓core_of_mk, core_eta]))

theorem kdStranger_core (k : Nat) (fr : CanFrame) (s : State) : (kdStranger k fr s).core = s.core := by
  unfold kdStranger
  repeat' (first | with_reducible rfl | (simp only [↓setFld_core, ↓incSat_core, ↓flag_core, ↓setRg_core, ↓core_ite, ite_self, id_eq, ↓core_of_mk, core_eta]; done) | split | (simp only [↓setFld_core, ↓incSat_core, ↓flag_core, ↓setRg_core, ↓core_ite, ite_self, id_eq, ↓core_of_mk, core_eta]))

theorem kdFilter_core (k : Nat) (fr : CanFrame) (ts : Nat) (s : State) : (kdFilter k fr ts s).core = s.core := by
  unfold kdFilter
  repeat' (first | with_reducible rfl | (simp only [↓kdStranger_core, ↓kdStore_core, ↓slReceive_core, ↓core_ite, ite_self, id_eq, ↓core_of_mk, core_eta]; done) | split | (simp only [↓kdStranger_core, ↓kdStore_core, ↓slReceive_core, ↓core_ite, ite_self, id_eq, ↓core_of_mk, core_eta]))

theorem txStart_core (k : Nat) (s : State) : (txStart k s).core = s.core := by
  unfold txStart
  repeat' (first | with_reducible rfl | (simp only [↓setTxStat_core, ↓setKdH_core, ↓core_ite, ite_self, id_eq, ↓core_of_mk, core_eta]; done) | split | (simp only [↓setTxStat_core, ↓setKdH_core, ↓core_ite, ite_self, id_eq, ↓core_of_mk, core_eta]))

theorem kdDelay_core (k b : Nat) (tdc : Option (Fin 128)) (s : State) : (kdDelay k b tdc s).core = s.core := by
  unfold kdDelay
  repeat' (first | with_reducible rfl | (simp only [↓setFld_core, ↓core_ite, ite_self, id_eq, ↓core_of_mk, core_eta]; done) | split | (simp only [↓setFld_core, ↓core_ite, ite_self, id_eq, ↓core_of_mk, core_eta]))

theorem txEnd_core (k out : Nat) (err : CanErr) (eights : Nat) (tdc : Option (Fin 128)) (age : Nat) (s : State) : (txEnd k out err eights tdc age s).core = s.core := by
  unfold txEnd
  repeat' (first | with_reducible rfl | (simp only [↓kdDelay_core, ↓setKdH_core, ↓flag_core, ↓setRg_core, ↓setTxStat_core, ↓kdFilter_core, ↓incSat_core, ↓kdFrameEnd_core, ↓kdCounters_core, ↓kdError_core, ↓core_ite, ite_self, id_eq, ↓core_of_mk, core_eta]; done) | split | (simp only [↓kdDelay_core, ↓setKdH_core, ↓flag_core, ↓setRg_core, ↓setTxStat_core, ↓kdFilter_core, ↓incSat_core, ↓kdFrameEnd_core, ↓kdCounters_core, ↓kdError_core, ↓core_ite, ite_self, id_eq, ↓core_of_mk, core_eta]))

theorem txCmdEff_core (k v : Nat) (s : State) : (txCmdEff k v s).core = s.core := by
  unfold txCmdEff
  repeat' (first | with_reducible rfl | (simp only [↓setTxStat_core, ↓setKdH_core, ↓flag_core, ↓core_ite, ite_self, id_eq, ↓core_of_mk, core_eta]; done) | split | (with_reducible refine Eq.trans (forRange_core (fun _ _ => ?_) _ _) ?_) | (simp only [↓setTxStat_core, ↓setKdH_core, ↓flag_core, ↓core_ite, ite_self, id_eq, ↓core_of_mk, core_eta]))

theorem kdWake_core (k : Nat) (s : State) : (kdWake k s).core = s.core := by
  unfold kdWake
  repeat' (first | with_reducible rfl | (simp only [↓flag_core, ↓setKdState_core, ↓core_ite, ite_self, id_eq, ↓core_of_mk, core_eta]; done) | split | (simp only [↓flag_core, ↓setKdState_core, ↓core_ite, ite_self, id_eq, ↓core_of_mk, core_eta]))

theorem kdClrCnt_core (k : Nat) (s : State) : (kdClrCnt k s).core = s.core := by
  unfold kdClrCnt
  repeat' (first | with_reducible rfl | (simp only [↓setFld_core, ↓setRg_core, ↓setKdH_core, ↓core_ite, ite_self, id_eq, ↓core_of_mk, core_eta]; done) | split | (with_reducible refine Eq.trans (forRange_core (fun _ _ => ?_) _ _) ?_) | (simp only [↓setFld_core, ↓setRg_core, ↓setKdH_core, ↓core_ite, ite_self, id_eq, ↓core_of_mk, core_eta]))

theorem kdEnable_core (k : Nat) (was : Bool) (s : State) : (kdEnable k was s).core = s.core := by
  unfold kdEnable
  repeat' (first | with_reducible rfl | (simp only [↓kdStart_core, ↓setKdH_core, ↓kdOff_core, ↓core_ite, ite_self, id_eq, ↓core_of_mk, core_eta]; done) | split | (simp only [↓kdStart_core, ↓setKdH_core, ↓kdOff_core, ↓core_ite, ite_self, id_eq, ↓core_of_mk, core_eta]))

theorem kdEff_core (k o v : Nat) (was : Bool) (s : State) : (kdEff k o v was s).core = s.core := by
  unfold kdEff
  repeat' (first | with_reducible rfl | (simp only [↓kdEnable_core, ↓setKdH_core, ↓kdWake_core, ↓kdRecover_core, ↓kdShow_core, ↓setKdFifo_core, ↓kdClrCnt_core, ↓txCmdEff_core, ↓core_ite, ite_self, id_eq, ↓core_of_mk, core_eta]; done) | split | (simp only [↓kdEnable_core, ↓setKdH_core, ↓kdWake_core, ↓kdRecover_core, ↓kdShow_core, ↓setKdFifo_core, ↓kdClrCnt_core, ↓txCmdEff_core, ↓core_ite, ite_self, id_eq, ↓core_of_mk, core_eta]))

theorem kdWrite_core (acc : Access) (k o v : Nat) (s : State) : (kdWrite acc k o v s).core = s.core := by
  unfold kdWrite
  repeat' (first | with_reducible rfl | (simp only [↓kdEff_core, ↓core_ite, ite_self, id_eq, ↓core_of_mk, core_eta]; done) | split | (with_reducible refine Eq.trans (busStore_core (fun _ => ?_) _) ?_) | (simp only [↓kdEff_core, ↓core_ite, ite_self, id_eq, ↓core_of_mk, core_eta]))

theorem kdIntegrated_core (k : Nat) (s : State) : (kdIntegrated k s).core = s.core := by
  unfold kdIntegrated
  repeat' (first | with_reducible rfl | (simp only [↓kdErrorState_core, ↓setKdState_core, ↓setKdH_core, ↓core_ite, ite_self, id_eq, ↓core_of_mk, core_eta]; done) | split | (simp only [↓kdErrorState_core, ↓setKdState_core, ↓setKdH_core, ↓core_ite, ite_self, id_eq, ↓core_of_mk, core_eta]))

theorem kdException_core (k : Nat) (s : State) : (kdException k s).core = s.core := by
  unfold kdException
  repeat' (first | with_reducible rfl | (simp only [↓flag_core, ↓incSat_core, ↓setKdH_core, ↓core_ite, ite_self, id_eq, ↓core_of_mk, core_eta]; done) | split | (simp only [↓flag_core, ↓incSat_core, ↓setKdH_core, ↓core_ite, ite_self, id_eq, ↓core_of_mk, core_eta]))

theorem phyLink_core (link sqi : Nat) (s : State) : (phyLink link sqi s).core = s.core := by
  unfold phyLink
  repeat' (first | with_reducible rfl | (simp only [↓flag_core, ↓setFld_core, ↓setEth_core, ↓incSat_core, ↓ethKick_core, ↓core_ite, ite_self, id_eq, ↓core_of_mk, core_eta]; done) | split | (simp only [↓flag_core, ↓setFld_core, ↓setEth_core, ↓incSat_core, ↓ethKick_core, ↓core_ite, ite_self, id_eq, ↓core_of_mk, core_eta]))

theorem phySwitch_core (s : State) : (phySwitch s).core = s.core := by
  unfold phySwitch
  repeat' (first | with_reducible rfl | (simp only [↓setEth_core, ↓core_ite, ite_self, id_eq, ↓core_of_mk, core_eta]; done) | split | (simp only [↓setEth_core, ↓core_ite, ite_self, id_eq, ↓core_of_mk, core_eta]))

theorem ptpTick_core (s : State) : (ptpTick s).core = s.core := by
  unfold ptpTick
  repeat' (first | with_reducible rfl | (simp only [↓setEth_core, ↓core_ite, ite_self, id_eq, ↓core_of_mk, core_eta]; done) | split | (simp only [↓setEth_core, ↓core_ite, ite_self, id_eq, ↓core_of_mk, core_eta]))

theorem ptpStep_core (v : Nat) (s : State) : (ptpStep v s).core = s.core := by
  unfold ptpStep
  repeat' (first | with_reducible rfl | (simp only [↓setEth_core, ↓core_ite, ite_self, id_eq, ↓core_of_mk, core_eta]; done) | split | (simp only [↓setEth_core, ↓core_ite, ite_self, id_eq, ↓core_of_mk, core_eta]))

theorem ptpLatch_core (s : State) : (ptpLatch s).core = s.core := by
  unfold ptpLatch
  repeat' (first | with_reducible rfl | (simp only [↓setRg_core, ↓core_ite, ite_self, id_eq, ↓core_of_mk, core_eta]; done) | split | (simp only [↓setRg_core, ↓core_ite, ite_self, id_eq, ↓core_of_mk, core_eta]))

theorem tsShow_core (s : State) : (tsShow s).core = s.core := by
  unfold tsShow
  repeat' (first | with_reducible rfl | (simp only [↓setRg_core, ↓freeStep_core, ↓core_ite, ite_self, id_eq, ↓core_of_mk, core_eta]; done) | split | (simp only [↓setRg_core, ↓freeStep_core, ↓core_ite, ite_self, id_eq, ↓core_of_mk, core_eta]))

theorem tsPush_core (ago id : Nat) (s : State) : (tsPush ago id s).core = s.core := by
  unfold tsPush
  repeat' (first | with_reducible rfl | (simp only [↓tsShow_core, ↓setEth_core, ↓flag_core, ↓core_ite, ite_self, id_eq, ↓core_of_mk, core_eta]; done) | split | (simp only [↓tsShow_core, ↓setEth_core, ↓flag_core, ↓core_ite, ite_self, id_eq, ↓core_of_mk, core_eta]))

theorem ptpEff_core (o v : Nat) (s : State) : (ptpEff o v s).core = s.core := by
  unfold ptpEff
  repeat' (first | with_reducible rfl | (simp only [↓tsShow_core, ↓setEth_core, ↓ptpStep_core, ↓core_ite, ite_self, id_eq, ↓core_of_mk, core_eta]; done) | split | (simp only [↓tsShow_core, ↓setEth_core, ↓ptpStep_core, ↓core_ite, ite_self, id_eq, ↓core_of_mk, core_eta]))

theorem ptpWrite_core (acc : Access) (o v : Nat) (s : State) : (ptpWrite acc o v s).core = s.core := by
  unfold ptpWrite
  repeat' (first | with_reducible rfl | (simp only [↓ptpEff_core, ↓core_ite, ite_self, id_eq, ↓core_of_mk, core_eta]; done) | split | (with_reducible refine Eq.trans (busStore_core (fun _ => ?_) _) ?_) | (simp only [↓ptpEff_core, ↓core_ite, ite_self, id_eq, ↓core_of_mk, core_eta]))

theorem slDatagram_core (bs : List Nat) (s : State) : (slDatagram bs s).core = s.core := by
  unfold slDatagram
  repeat' (first | with_reducible rfl | (simp only [↓slReceive_core, ↓ethCount_core, ↓core_ite, ite_self, id_eq, ↓core_of_mk, core_eta]; done) | split | (with_reducible refine Eq.trans (foldl_core (fun _ _ => ?_) _ _) ?_) | (simp only [↓slReceive_core, ↓ethCount_core, ↓core_ite, ite_self, id_eq, ↓core_of_mk, core_eta]))

theorem planFlags_core (p : Plan) (s : State) : (planFlags p s).core = s.core := by
  unfold planFlags
  repeat' (first | with_reducible rfl | (simp only [↓setRg_core, ↓flagIf_core, ↓core_ite, ite_self, id_eq, ↓core_of_mk, core_eta]; done) | split | (simp only [↓setRg_core, ↓flagIf_core, ↓core_ite, ite_self, id_eq, ↓core_of_mk, core_eta]))

theorem planShow_core (p : Plan) (s : State) : (planShow p s).core = s.core := by
  unfold planShow
  repeat' (first | with_reducible rfl | (simp only [↓setRg_core, ↓core_ite, ite_self, id_eq, ↓core_of_mk, core_eta]; done) | split | (with_reducible refine Eq.trans (forRange_core (fun _ _ => ?_) _ _) ?_) | (simp only [↓setRg_core, ↓core_ite, ite_self, id_eq, ↓core_of_mk, core_eta]))

theorem planWrite_core (p : Nat) (x : PlanField) (s : State) : (planWrite p x s).core = s.core := by
  unfold planWrite
  repeat' (first | with_reducible rfl | (simp only [↓setFld_core, ↓afterConfigChange_core, ↓core_ite, ite_self, id_eq, ↓core_of_mk, core_eta]; done) | split | (simp only [↓setFld_core, ↓afterConfigChange_core, ↓core_ite, ite_self, id_eq, ↓core_of_mk, core_eta]))

theorem planPage_core (p : Nat) (xs : List PlanField) (s : State) : (planPage p xs s).core = s.core := by
  unfold planPage
  repeat' (first | with_reducible rfl | (simp only [↓refuse_core, ↓planWrite_core, ↓core_ite, ite_self, id_eq, ↓core_of_mk, core_eta]; done) | split | (with_reducible refine Eq.trans (foldl_core (fun _ _ => ?_) _ _) ?_) | (simp only [↓refuse_core, ↓planWrite_core, ↓core_ite, ite_self, id_eq, ↓core_of_mk, core_eta]))

theorem spareGo_core (s : State) : (spareGo s).core = s.core := by
  unfold spareGo
  repeat' (first | with_reducible rfl | (simp only [↓legWrite_core, ↓setRg_core, ↓setLed_core, ↓core_ite, ite_self, id_eq, ↓core_of_mk, core_eta]; done) | split | (simp only [↓legWrite_core, ↓setRg_core, ↓setLed_core, ↓core_ite, ite_self, id_eq, ↓core_of_mk, core_eta]))

theorem spareWrite_core (acc : Access) (o v : Nat) (s : State) : (spareWrite acc o v s).core = s.core := by
  unfold spareWrite
  repeat' (first | with_reducible rfl | (simp only [↓spareGo_core, ↓core_ite, ite_self, id_eq, ↓core_of_mk, core_eta]; done) | split | (with_reducible refine Eq.trans (busStore_core (fun _ => ?_) _) ?_) | (simp only [↓spareGo_core, ↓core_ite, ite_self, id_eq, ↓core_of_mk, core_eta]))

theorem spareDone_core (s : State) : (spareDone s).core = s.core := by
  unfold spareDone
  repeat' (first | with_reducible rfl | (simp only [↓setRg_core, ↓setLegH_core, ↓legWrite_core, ↓setFld_core, ↓degSetWrite_core, ↓core_ite, ite_self, id_eq, ↓core_of_mk, core_eta]; done) | split | (simp only [↓setRg_core, ↓setLegH_core, ↓legWrite_core, ↓setFld_core, ↓degSetWrite_core, ↓core_ite, ite_self, id_eq, ↓core_of_mk, core_eta]))

theorem pmcWrap_core (x n : Nat) (s : State) : (pmcWrap x n s).core = s.core := by
  unfold pmcWrap
  repeat' (first | with_reducible rfl | (simp only [↓flag_core, ↓setBit_core, ↓core_ite, ite_self, id_eq, ↓core_of_mk, core_eta]; done) | split | (simp only [↓flag_core, ↓setBit_core, ↓core_ite, ite_self, id_eq, ↓core_of_mk, core_eta]))

theorem antAdd_core (x n k : Nat) (s : State) : (antAdd x n k s).core = s.core := by
  unfold antAdd
  repeat' (first | with_reducible rfl | (simp only [↓setAntH_core, ↓pmcWrap_core, ↓core_ite, ite_self, id_eq, ↓core_of_mk, core_eta]; done) | split | (simp only [↓setAntH_core, ↓pmcWrap_core, ↓core_ite, ite_self, id_eq, ↓core_of_mk, core_eta]))

theorem antCount_core (x evt k : Nat) (s : State) : (antCount x evt k s).core = s.core := by
  unfold antCount
  repeat' (first | with_reducible rfl | (simp only [↓antAdd_core, ↓core_ite, ite_self, id_eq, ↓core_of_mk, core_eta]; done) | split | (with_reducible refine Eq.trans (forRange_core (fun _ _ => ?_) _ _) ?_) | (simp only [↓antAdd_core, ↓core_ite, ite_self, id_eq, ↓core_of_mk, core_eta]))

theorem stallCycle_core (x : Nat) (s : State) : (stallCycle x s).core = s.core := by
  unfold stallCycle
  repeat' (first | with_reducible rfl | (simp only [↓antCount_core, ↓setAntH_core, ↓freeStep_core, ↓core_ite, ite_self, id_eq, ↓core_of_mk, core_eta]; done) | split | (simp only [↓antCount_core, ↓setAntH_core, ↓freeStep_core, ↓core_ite, ite_self, id_eq, ↓core_of_mk, core_eta]))

theorem antTick_core (x : Nat) (s : State) : (antTick x s).core = s.core := by
  unfold antTick
  repeat' (first | with_reducible rfl | (simp only [↓setAntH_core, ↓antCount_core, ↓stallCycle_core, ↓freeStep_core, ↓core_ite, ite_self, id_eq, ↓core_of_mk, core_eta]; done) | split | (with_reducible refine Eq.trans (forRange_core (fun _ _ => ?_) _ _) ?_) | (simp only [↓setAntH_core, ↓antCount_core, ↓stallCycle_core, ↓freeStep_core, ↓core_ite, ite_self, id_eq, ↓core_of_mk, core_eta]))

theorem tagReload_core (x : Nat) (s : State) : (tagReload x s).core = s.core := by
  unfold tagReload
  repeat' (first | with_reducible rfl | (simp only [↓setAntH_core, ↓core_ite, ite_self, id_eq, ↓core_of_mk, core_eta]; done) | split | (simp only [↓setAntH_core, ↓core_ite, ite_self, id_eq, ↓core_of_mk, core_eta]))

theorem tagRecord_core (x pc cls : Nat) (raised gone : Bool) (s : State) : (tagRecord x pc cls raised gone s).core = s.core := by
  unfold tagRecord
  repeat' (first | with_reducible rfl | (simp only [↓freeStep_core, ↓setRg_core, ↓setAntH_core, ↓setFld_core, ↓flag_core, ↓setBit_core, ↓core_ite, ite_self, id_eq, ↓core_of_mk, core_eta]; done) | split | (simp only [↓freeStep_core, ↓setRg_core, ↓setAntH_core, ↓setFld_core, ↓flag_core, ↓setBit_core, ↓core_ite, ite_self, id_eq, ↓core_of_mk, core_eta]))

theorem tagIssue_core (x pc cls : Nat) (raised : Bool) (s : State) : (tagIssue x pc cls raised s).core = s.core := by
  unfold tagIssue
  repeat' (first | with_reducible rfl | (simp only [↓tagReload_core, ↓tagRecord_core, ↓setAntH_core, ↓core_ite, ite_self, id_eq, ↓core_of_mk, core_eta]; done) | split | (simp only [↓tagReload_core, ↓tagRecord_core, ↓setAntH_core, ↓core_ite, ite_self, id_eq, ↓core_of_mk, core_eta]))

theorem tagDiscard_core (x : Nat) (s : State) : (tagDiscard x s).core = s.core := by
  unfold tagDiscard
  repeat' (first | with_reducible rfl | (simp only [↓tagReload_core, ↓tagRecord_core, ↓freeStep_core, ↓core_ite, ite_self, id_eq, ↓core_of_mk, core_eta]; done) | split | (simp only [↓tagReload_core, ↓tagRecord_core, ↓freeStep_core, ↓core_ite, ite_self, id_eq, ↓core_of_mk, core_eta]))

theorem tagClear_core (x : Nat) (s : State) : (tagClear x s).core = s.core := by
  unfold tagClear
  repeat' (first | with_reducible rfl | (simp only [↓setRg_core, ↓core_ite, ite_self, id_eq, ↓core_of_mk, core_eta]; done) | split | (with_reducible refine Eq.trans (forRange_core (fun _ _ => ?_) _ _) ?_) | (simp only [↓setRg_core, ↓core_ite, ite_self, id_eq, ↓core_of_mk, core_eta]))

theorem tagSeed_core (x : Nat) (s : State) : (tagSeed x s).core = s.core := by
  unfold tagSeed
  repeat' (first | with_reducible rfl | (simp only [↓tagReload_core, ↓setAntH_core, ↓core_ite, ite_self, id_eq, ↓core_of_mk, core_eta]; done) | split | (simp only [↓tagReload_core, ↓setAntH_core, ↓core_ite, ite_self, id_eq, ↓core_of_mk, core_eta]))

theorem antEff_core (x o v : Nat) (tagWas : Bool) (s : State) : (antEff x o v tagWas s).core = s.core := by
  unfold antEff
  repeat' (first | with_reducible rfl | (simp only [↓tagClear_core, ↓tagSeed_core, ↓setAntH_core, ↓core_ite, ite_self, id_eq, ↓core_of_mk, core_eta]; done) | split | (simp only [↓tagClear_core, ↓tagSeed_core, ↓setAntH_core, ↓core_ite, ite_self, id_eq, ↓core_of_mk, core_eta]))

theorem antWrite_core (acc : Access) (x o v : Nat) (s : State) : (antWrite acc x o v s).core = s.core := by
  unfold antWrite
  repeat' (first | with_reducible rfl | (simp only [↓antEff_core, ↓core_ite, ite_self, id_eq, ↓core_of_mk, core_eta]; done) | split | (with_reducible refine Eq.trans (busStore_core (fun _ => ?_) _) ?_) | (simp only [↓antEff_core, ↓core_ite, ite_self, id_eq, ↓core_of_mk, core_eta]))

theorem antLatch_core (x n : Nat) (s : State) : (antLatch x n s).core = s.core := by
  unfold antLatch
  repeat' (first | with_reducible rfl | (simp only [↓setRg_core, ↓core_ite, ite_self, id_eq, ↓core_of_mk, core_eta]; done) | split | (simp only [↓setRg_core, ↓core_ite, ite_self, id_eq, ↓core_of_mk, core_eta]))

theorem bwStart_core (t : Nat) (s : State) : (bwStart t s).core = s.core := by
  unfold bwStart
  repeat' (first | with_reducible rfl | (simp only [↓core_ite, ite_self, id_eq, ↓core_of_mk, core_eta]; done) | split | (simp only [↓core_ite, ite_self, id_eq, ↓core_of_mk, core_eta]))

theorem bwEnd_core (counts : List BwCount) (s : State) : (bwEnd counts s).core = s.core := by
  unfold bwEnd
  repeat' (first | with_reducible rfl | (simp only [↓setRg_core, ↓bwStart_core, ↓flag_core, ↓incWrap_core, ↓core_ite, ite_self, id_eq, ↓core_of_mk, core_eta]; done) | split | (with_reducible refine Eq.trans (forRange_core (fun _ _ => ?_) _ _) ?_) | (simp only [↓setRg_core, ↓bwStart_core, ↓flag_core, ↓incWrap_core, ↓core_ite, ite_self, id_eq, ↓core_of_mk, core_eta]))

theorem bwCross_core (p : Nat) (s : State) : (bwCross p s).core = s.core := by
  unfold bwCross
  repeat' (first | with_reducible rfl | (simp only [↓flag_core, ↓setBit_core, ↓core_ite, ite_self, id_eq, ↓core_of_mk, core_eta]; done) | split | (simp only [↓flag_core, ↓setBit_core, ↓core_ite, ite_self, id_eq, ↓core_of_mk, core_eta]))

theorem bwTick_core (s : State) : (bwTick s).core = s.core := by
  unfold bwTick
  repeat' (first | with_reducible rfl | (simp only [↓bwCross_core, ↓core_ite, ite_self, id_eq, ↓core_of_mk, core_eta]; done) | split | (with_reducible refine Eq.trans (forRange_core (fun _ _ => ?_) _ _) ?_) | (simp only [↓bwCross_core, ↓core_ite, ite_self, id_eq, ↓core_of_mk, core_eta]))

theorem bwWrite_core (acc : Access) (o v : Nat) (s : State) : (bwWrite acc o v s).core = s.core := by
  unfold bwWrite
  repeat' (first | with_reducible rfl | (simp only [↓bwStart_core, ↓core_ite, ite_self, id_eq, ↓core_of_mk, core_eta]; done) | split | (with_reducible refine Eq.trans (busStore_core (fun _ => ?_) _) ?_) | (simp only [↓bwStart_core, ↓core_ite, ite_self, id_eq, ↓core_of_mk, core_eta]))

theorem setPair_core (x pair stat : Nat) (s : State) : (setPair x pair stat s).core = s.core := by
  unfold setPair
  repeat' (first | with_reducible rfl | (simp only [↓setFld_core, ↓core_ite, ite_self, id_eq, ↓core_of_mk, core_eta]; done) | split | (simp only [↓setFld_core, ↓core_ite, ite_self, id_eq, ↓core_of_mk, core_eta]))

theorem pairRefresh_core (s : State) : (pairRefresh s).core = s.core := by
  unfold pairRefresh
  repeat' (first | with_reducible rfl | (simp only [↓degShow_core, ↓refreshLegs_core, ↓refreshTiles_core, ↓core_ite, ite_self, id_eq, ↓core_of_mk, core_eta]; done) | split | (simp only [↓degShow_core, ↓refreshLegs_core, ↓refreshTiles_core, ↓core_ite, ite_self, id_eq, ↓core_of_mk, core_eta]))

theorem detCount_core (x cause : Nat) (s : State) : (detCount x cause s).core = s.core := by
  unfold detCount
  repeat' (first | with_reducible rfl | (simp only [↓incSat_core, ↓setBit_core, ↓core_ite, ite_self, id_eq, ↓core_of_mk, core_eta]; done) | split | (simp only [↓incSat_core, ↓setBit_core, ↓core_ite, ite_self, id_eq, ↓core_of_mk, core_eta]))

theorem detectAgain_core (x cause seg : Nat) (sweep : Bool) (s : State) : (detectAgain x cause seg sweep s).core = s.core := by
  unfold detectAgain
  repeat' (first | with_reducible rfl | (simp only [↓setFld_core, ↓flag_core, ↓setBit_core, ↓detCount_core, ↓core_ite, ite_self, id_eq, ↓core_of_mk, core_eta]; done) | split | (simp only [↓setFld_core, ↓flag_core, ↓setBit_core, ↓detCount_core, ↓core_ite, ite_self, id_eq, ↓core_of_mk, core_eta]))

theorem pairBack_core (x : Nat) (s : State) : (pairBack x s).core = s.core := by
  unfold pairBack
  repeat' (first | with_reducible rfl | (simp only [↓pairRefresh_core, ↓setPair_core, ↓core_ite, ite_self, id_eq, ↓core_of_mk, core_eta]; done) | split | (simp only [↓pairRefresh_core, ↓setPair_core, ↓core_ite, ite_self, id_eq, ↓core_of_mk, core_eta]))

theorem sweepTick_core (x : Nat) (s : State) : (sweepTick x s).core = s.core := by
  unfold sweepTick
  repeat' (first | with_reducible rfl | (simp only [↓core_ite, ite_self, id_eq, ↓core_of_mk, core_eta]; done) | split | (simp only [↓core_ite, ite_self, id_eq, ↓core_of_mk, core_eta]))

theorem stagWrite_core (acc : Access) (x o v : Nat) (s : State) : (stagWrite acc x o v s).core = s.core := by
  unfold stagWrite
  repeat' (first | with_reducible rfl | (simp only [↓core_ite, ite_self, id_eq, ↓core_of_mk, core_eta]; done) | split | (with_reducible refine Eq.trans (busStore_core (fun _ => ?_) _) ?_) | (simp only [↓core_ite, ite_self, id_eq, ↓core_of_mk, core_eta]))

theorem checkerWrite_core (acc : Access) (o v : Nat) (s : State) : (checkerWrite acc o v s).core = s.core := by
  unfold checkerWrite
  repeat' (first | with_reducible rfl | (simp only [↓pairBack_core, ↓core_ite, ite_self, id_eq, ↓core_of_mk, core_eta]; done) | split | (with_reducible refine Eq.trans (forRange_core (fun _ _ => ?_) _ _) ?_) | (with_reducible refine Eq.trans (busStore_core (fun _ => ?_) _) ?_) | (simp only [↓pairBack_core, ↓core_ite, ite_self, id_eq, ↓core_of_mk, core_eta]))

theorem memctlWrite_core (acc : Access) (o v : Nat) (s : State) : (memctlWrite acc o v s).core = s.core := by
  unfold memctlWrite
  repeat' (first | with_reducible rfl | (simp only [↓setRg_core, ↓core_ite, ite_self, id_eq, ↓core_of_mk, core_eta]; done) | split | (with_reducible refine Eq.trans (busStore_core (fun _ => ?_) _) ?_) | (simp only [↓setRg_core, ↓core_ite, ite_self, id_eq, ↓core_of_mk, core_eta]))

theorem newNonce_core (s : State) : (newNonce s).core = s.core := by
  unfold newNonce
  repeat' (first | with_reducible rfl | (simp only [↓freeStep_core, ↓setRg_core, ↓core_ite, ite_self, id_eq, ↓core_of_mk, core_eta]; done) | split | (with_reducible refine Eq.trans (forRange_core (fun _ _ => ?_) _ _) ?_) | (simp only [↓freeStep_core, ↓setRg_core, ↓core_ite, ite_self, id_eq, ↓core_of_mk, core_eta]))

theorem authenticate_core (s : State) : (authenticate s).core = s.core := by
  unfold authenticate
  repeat' (first | with_reducible rfl | (simp only [↓newNonce_core, ↓setBit_core, ↓flag_core, ↓incSat_core, ↓core_ite, ite_self, id_eq, ↓core_of_mk, core_eta]; done) | split | (simp only [↓newNonce_core, ↓setBit_core, ↓flag_core, ↓incSat_core, ↓core_ite, ite_self, id_eq, ↓core_of_mk, core_eta]))

theorem pairHalt_core (x : Nat) (s : State) : (pairHalt x s).core = s.core := by
  unfold pairHalt
  repeat' (first | with_reducible rfl | (simp only [↓pairRefresh_core, ↓flag_core, ↓setBit_core, ↓setFld_core, ↓core_ite, ite_self, id_eq, ↓core_of_mk, core_eta]; done) | split | (simp only [↓pairRefresh_core, ↓flag_core, ↓setBit_core, ↓setFld_core, ↓core_ite, ite_self, id_eq, ↓core_of_mk, core_eta]))

theorem engineHalt_core (e : Nat) (s : State) : (engineHalt e s).core = s.core := by
  unfold engineHalt
  repeat' (first | with_reducible rfl | (simp only [↓mtCut_core, ↓setMtH_core, ↓refreshLegs_core, ↓flag_core, ↓setBit_core, ↓setBlockState_core, ↓core_ite, ite_self, id_eq, ↓core_of_mk, core_eta]; done) | split | (simp only [↓mtCut_core, ↓setMtH_core, ↓refreshLegs_core, ↓flag_core, ↓setBit_core, ↓setBlockState_core, ↓core_ite, ite_self, id_eq, ↓core_of_mk, core_eta]))

theorem engineResume_core (e : Nat) (s : State) : (engineResume e s).core = s.core := by
  unfold engineResume
  repeat' (first | with_reducible rfl | (simp only [↓setMtH_core, ↓refreshLegs_core, ↓setBit_core, ↓setBlockState_core, ↓mtIdle_core, ↓core_ite, ite_self, id_eq, ↓core_of_mk, core_eta]; done) | split | (simp only [↓setMtH_core, ↓refreshLegs_core, ↓setBit_core, ↓setBlockState_core, ↓mtIdle_core, ↓core_ite, ite_self, id_eq, ↓core_of_mk, core_eta]))

theorem dmaStart_core (c : Nat) (s : State) : (dmaStart c s).core = s.core := by
  unfold dmaStart
  repeat' (first | with_reducible rfl | (simp only [↓setRg_core, ↓setDmaH_core, ↓core_ite, ite_self, id_eq, ↓core_of_mk, core_eta]; done) | split | (simp only [↓setRg_core, ↓setDmaH_core, ↓core_ite, ite_self, id_eq, ↓core_of_mk, core_eta]))

theorem dmaAbort_core (c : Nat) (s : State) : (dmaAbort c s).core = s.core := by
  unfold dmaAbort
  repeat' (first | with_reducible rfl | (simp only [↓setBit_core, ↓core_ite, ite_self, id_eq, ↓core_of_mk, core_eta]; done) | split | (simp only [↓setBit_core, ↓core_ite, ite_self, id_eq, ↓core_of_mk, core_eta]))

theorem dmaFail_core (c cause : Nat) (s : State) : (dmaFail c cause s).core = s.core := by
  unfold dmaFail
  repeat' (first | with_reducible rfl | (simp only [↓flag_core, ↓setFld_core, ↓core_ite, ite_self, id_eq, ↓core_of_mk, core_eta]; done) | split | (simp only [↓flag_core, ↓setFld_core, ↓core_ite, ite_self, id_eq, ↓core_of_mk, core_eta]))

theorem dmaDone_core (c : Nat) (s : State) : (dmaDone c s).core = s.core := by
  unfold dmaDone
  repeat' (first | with_reducible rfl | (simp only [↓flagIf_core, ↓setFld_core, ↓core_ite, ite_self, id_eq, ↓core_of_mk, core_eta]; done) | split | (simp only [↓flagIf_core, ↓setFld_core, ↓core_ite, ite_self, id_eq, ↓core_of_mk, core_eta]))

theorem dmaHiveStart_core (c : Nat) (s : State) : (dmaHiveStart c s).core = s.core := by
  unfold dmaHiveStart
  repeat' (first | with_reducible rfl | (simp only [↓refuse_core, ↓dmaStart_core, ↓core_ite, ite_self, id_eq, ↓core_of_mk, core_eta]; done) | split | (simp only [↓refuse_core, ↓dmaStart_core, ↓core_ite, ite_self, id_eq, ↓core_of_mk, core_eta]))

theorem setPend_core (x n : Nat) (b : Bool) (s : State) : (setPend x n b s).core = s.core := by
  unfold setPend
  repeat' (first | with_reducible rfl | (simp only [↓setBit_core, ↓core_ite, ite_self, id_eq, ↓core_of_mk, core_eta]; done) | split | (simp only [↓setBit_core, ↓core_ite, ite_self, id_eq, ↓core_of_mk, core_eta]))

theorem hiveLatch_core (x n at_ prio : Nat) (s : State) : (hiveLatch x n at_ prio s).core = s.core := by
  unfold hiveLatch
  repeat' (first | with_reducible rfl | (simp only [↓setBit_core, ↓setPend_core, ↓core_ite, ite_self, id_eq, ↓core_of_mk, core_eta]; done) | split | (simp only [↓setBit_core, ↓setPend_core, ↓core_ite, ite_self, id_eq, ↓core_of_mk, core_eta]))

theorem hiveDeliver_core (n p at_ : Nat) (s : State) : (hiveDeliver n p at_ s).core = s.core := by
  unfold hiveDeliver
  repeat' (first | with_reducible rfl | (simp only [↓hiveLatch_core, ↓mtRequest_core, ↓dmaHiveStart_core, ↓bwSeen_core, ↓streamRecord_core, ↓core_ite, ite_self, id_eq, ↓core_of_mk, core_eta]; done) | split | (simp only [↓hiveLatch_core, ↓mtRequest_core, ↓dmaHiveStart_core, ↓bwSeen_core, ↓streamRecord_core, ↓core_ite, ite_self, id_eq, ↓core_of_mk, core_eta]))

theorem hiveSample_core (n p : Nat) (s : State) : (hiveSample n p s).core = s.core := by
  unfold hiveSample
  repeat' (first | with_reducible rfl | (simp only [↓hiveDeliver_core, ↓core_ite, ite_self, id_eq, ↓core_of_mk, core_eta]; done) | split | (simp only [↓hiveDeliver_core, ↓core_ite, ite_self, id_eq, ↓core_of_mk, core_eta]))

theorem hiveEff_core (o v : Nat) (s : State) : (hiveEff o v s).core = s.core := by
  unfold hiveEff
  repeat' (first | with_reducible rfl | (simp only [↓dmaAbort_core, ↓dmaStart_core, ↓core_ite, ite_self, id_eq, ↓core_of_mk, core_eta]; done) | split | (simp only [↓dmaAbort_core, ↓dmaStart_core, ↓core_ite, ite_self, id_eq, ↓core_of_mk, core_eta]))

theorem hiveWrite_core (acc : Access) (o v : Nat) (s : State) : (hiveWrite acc o v s).core = s.core := by
  unfold hiveWrite
  repeat' (first | with_reducible rfl | (simp only [↓hiveEff_core, ↓core_ite, ite_self, id_eq, ↓core_of_mk, core_eta]; done) | split | (with_reducible refine Eq.trans (busStore_core (fun _ => ?_) _) ?_) | (simp only [↓hiveEff_core, ↓core_ite, ite_self, id_eq, ↓core_of_mk, core_eta]))

theorem profileWord_core (p o v : Nat) (s : State) : (profileWord p o v s).core = s.core := by
  unfold profileWord
  repeat' (first | with_reducible rfl | (simp only [↓loadWord_core, ↓afterConfigChange_core, ↓core_ite, ite_self, id_eq, ↓core_of_mk, core_eta]; done) | split | (simp only [↓loadWord_core, ↓afterConfigChange_core, ↓core_ite, ite_self, id_eq, ↓core_of_mk, core_eta]))

theorem profilePage_core (e : Nat × List (Nat × Nat)) (s : State) : (profilePage e s).core = s.core := by
  unfold profilePage
  repeat' (first | with_reducible rfl | (simp only [↓refuse_core, ↓profileWord_core, ↓core_ite, ite_self, id_eq, ↓core_of_mk, core_eta]; done) | split | (with_reducible refine Eq.trans (foldl_core (fun _ _ => ?_) _ _) ?_) | (simp only [↓refuse_core, ↓profileWord_core, ↓core_ite, ite_self, id_eq, ↓core_of_mk, core_eta]))

theorem profileApply_core (s : State) : (profileApply s).core = s.core := by
  unfold profileApply
  repeat' (first | with_reducible rfl | (simp only [↓profilePage_core, ↓afterConfigChange_core, ↓setFld_core, ↓core_ite, ite_self, id_eq, ↓core_of_mk, core_eta]; done) | split | (with_reducible refine Eq.trans (foldl_core (fun _ _ => ?_) _ _) ?_) | (simp only [↓profilePage_core, ↓afterConfigChange_core, ↓setFld_core, ↓core_ite, ite_self, id_eq, ↓core_of_mk, core_eta]))

theorem azStart_core (s : State) : (azStart s).core = s.core := by
  unfold azStart
  repeat' (first | with_reducible rfl | (simp only [↓core_ite, ite_self, id_eq, ↓core_of_mk, core_eta]; done) | split | (simp only [↓core_ite, ite_self, id_eq, ↓core_of_mk, core_eta]))

theorem stopFrom_core (s : State) : (stopFrom s).core = s.core := by
  unfold stopFrom
  repeat' (first | with_reducible rfl | (simp only [↓unTransit_core, ↓core_ite, ite_self, id_eq, ↓core_of_mk, core_eta]; done) | split | (simp only [↓unTransit_core, ↓core_ite, ite_self, id_eq, ↓core_of_mk, core_eta]))

theorem tileStop_core (off : Nat) (s : State) : (tileStop off s).core = s.core := by
  unfold tileStop
  repeat' (first | with_reducible rfl | (simp only [↓refreshTiles_core, ↓setRg_core, ↓core_ite, ite_self, id_eq, ↓core_of_mk, core_eta]; done) | split | (simp only [↓refreshTiles_core, ↓setRg_core, ↓core_ite, ite_self, id_eq, ↓core_of_mk, core_eta]))

theorem supplyWrite_core (acc : Access) (o v : Nat) (s : State) : (supplyWrite acc o v s).core = s.core := by
  unfold supplyWrite
  repeat' (first | with_reducible rfl | (simp only [↓tileStop_core, ↓shutdown_core, ↓core_ite, ite_self, id_eq, ↓core_of_mk, core_eta]; done) | split | (with_reducible refine Eq.trans (busStore_core (fun _ => ?_) _) ?_) | (simp only [↓tileStop_core, ↓shutdown_core, ↓core_ite, ite_self, id_eq, ↓core_of_mk, core_eta]))

theorem cocoonWrite_core (acc : Access) (o v : Nat) (s : State) : (cocoonWrite acc o v s).core = s.core := by
  unfold cocoonWrite
  repeat' (first | with_reducible rfl | (simp only [↓saveStart_core, ↓core_ite, ite_self, id_eq, ↓core_of_mk, core_eta]; done) | split | (with_reducible refine Eq.trans (busStore_core (fun _ => ?_) _) ?_) | (simp only [↓saveStart_core, ↓core_ite, ite_self, id_eq, ↓core_of_mk, core_eta]))

theorem restorePage_core (r : Option PageRec) (p : Nat) (s : State) : (restorePage r p s).core = s.core := by
  unfold restorePage
  repeat' (first | with_reducible rfl | (simp only [↓loadPage_core, ↓setBit_core, ↓factoryPage_core, ↓setRg_core, ↓core_ite, ite_self, id_eq, ↓core_of_mk, core_eta]; done) | split | (simp only [↓loadPage_core, ↓setBit_core, ↓factoryPage_core, ↓setRg_core, ↓core_ite, ite_self, id_eq, ↓core_of_mk, core_eta]))

theorem restoreImage_core (bad : List Nat) (s : State) : (restoreImage bad s).core = s.core := by
  unfold restoreImage
  repeat' (first | with_reducible rfl | (simp only [↓restorePage_core, ↓flag_core, ↓setRg_core, ↓afterConfigChange_core, ↓setFld_core, ↓core_ite, ite_self, id_eq, ↓core_of_mk, core_eta]; done) | split | (with_reducible refine Eq.trans (foldl_core (fun _ _ => ?_) _ _) ?_) | (simp only [↓restorePage_core, ↓flag_core, ↓setRg_core, ↓afterConfigChange_core, ↓setFld_core, ↓core_ite, ite_self, id_eq, ↓core_of_mk, core_eta]))

theorem calRestore_core (s : State) : (calRestore s).core = s.core := by
  unfold calRestore
  repeat' (first | with_reducible rfl | (simp only [↓setBit_core, ↓calRecall_core, ↓calCompare_core, ↓calShow_core, ↓core_ite, ite_self, id_eq, ↓core_of_mk, core_eta]; done) | split | (simp only [↓setBit_core, ↓calRecall_core, ↓calCompare_core, ↓calShow_core, ↓core_ite, ite_self, id_eq, ↓core_of_mk, core_eta]))

theorem enableRestart_core {w : Nat → State → State} (h : ∀ v s, (w v s).core = s.core) (p i : Nat) (s : State) :
    (enableRestart p i w s).core = s.core := by
  unfold enableRestart
  simp only [↓core_ite, setBit_core, h, ite_self]

theorem faultsHold_core (s : State) : (faultsHold s).core = s.core := by
  unfold faultsHold
  repeat' (first | with_reducible rfl | (simp only [↓aduOverrides_core, ↓dfOverrides_core, ↓core_ite, ite_self, id_eq, ↓core_of_mk, core_eta]; done) | split | (with_reducible refine Eq.trans (forRange_core (fun _ _ => ?_) _ _) ?_) | (simp only [↓aduOverrides_core, ↓dfOverrides_core, ↓core_ite, ite_self, id_eq, ↓core_of_mk, core_eta]))

theorem vinRestart_core (s : State) : (vinRestart s).core = s.core := by
  unfold vinRestart
  repeat' (first | with_reducible rfl | (simp only [↓setFld_core, ↓core_ite, ite_self, id_eq, ↓core_of_mk, core_eta]; done) | split | (simp only [↓setFld_core, ↓core_ite, ite_self, id_eq, ↓core_of_mk, core_eta]))

theorem evtClear_core (p v : Nat) (s : State) : (evtClear p v s).core = s.core := by
  unfold evtClear
  repeat' (first | with_reducible rfl | (simp only [↓forgetLines_core, ↓setRg_core, ↓core_ite, ite_self, id_eq, ↓core_of_mk, core_eta]; done) | split | (simp only [↓forgetLines_core, ↓setRg_core, ↓core_ite, ite_self, id_eq, ↓core_of_mk, core_eta]))

theorem evtSet_core (k : PageKind) (p v : Nat) (s : State) : (evtSet k p v s).core = s.core := by
  unfold evtSet
  repeat' (first | with_reducible rfl | (simp only [↓setRg_core, ↓core_ite, ite_self, id_eq, ↓core_of_mk, core_eta]; done) | split | (with_reducible refine Eq.trans (foldl_core (fun _ _ => ?_) _ _) ?_) | (simp only [↓setRg_core, ↓core_ite, ite_self, id_eq, ↓core_of_mk, core_eta]))

theorem rejectClear_core (p v : Nat) (s : State) : (rejectClear p v s).core = s.core := by
  unfold rejectClear
  repeat' (first | with_reducible rfl | (simp only [↓setBit_core, ↓setRg_core, ↓core_ite, ite_self, id_eq, ↓core_of_mk, core_eta]; done) | split | (simp only [↓setBit_core, ↓setRg_core, ↓core_ite, ite_self, id_eq, ↓core_of_mk, core_eta]))

theorem lockWrite_core (acc : Access) (p v : Nat) (s : State) : (lockWrite acc p v s).core = s.core := by
  unfold lockWrite
  repeat' (first | with_reducible rfl | (simp only [↓setBit_core, ↓refuse_core, ↓core_ite, ite_self, id_eq, ↓core_of_mk, core_eta]; done) | split | (simp only [↓setBit_core, ↓refuse_core, ↓core_ite, ite_self, id_eq, ↓core_of_mk, core_eta]))

theorem epochEff_core (p v : Nat) (s : State) : (epochEff p v s).core = s.core := by
  unfold epochEff
  repeat' (first | with_reducible rfl | (simp only [↓noteLate_core, ↓setBit_core, ↓dropLate_core, ↓core_ite, ite_self, id_eq, ↓core_of_mk, core_eta]; done) | split | (simp only [↓noteLate_core, ↓setBit_core, ↓dropLate_core, ↓core_ite, ite_self, id_eq, ↓core_of_mk, core_eta]))

theorem epochWrite_core (acc : Access) (k : PageKind) (i p v : Nat) (s : State) : (epochWrite acc k i p v s).core = s.core := by
  unfold epochWrite
  repeat' (first | with_reducible rfl | (simp only [↓epochEff_core, ↓core_ite, ite_self, id_eq, ↓core_of_mk, core_eta]; done) | split | (with_reducible refine Eq.trans (busStore_core (fun _ => ?_) _) ?_) | (simp only [↓epochEff_core, ↓core_ite, ite_self, id_eq, ↓core_of_mk, core_eta]))

theorem headerWrite_core (acc : Access) (k : PageKind) (i p o v : Nat) (s : State) : (headerWrite acc k i p o v s).core = s.core := by
  unfold headerWrite
  repeat' (first | with_reducible rfl | (simp only [↓evtClear_core, ↓dropFallen_core, ↓evtSet_core, ↓rejectClear_core, ↓lockWrite_core, ↓epochWrite_core, ↓core_ite, ite_self, id_eq, ↓core_of_mk, core_eta]; done) | split | (with_reducible refine Eq.trans (busStore_core (fun _ => ?_) _) ?_) | (simp only [↓evtClear_core, ↓dropFallen_core, ↓evtSet_core, ↓rejectClear_core, ↓lockWrite_core, ↓epochWrite_core, ↓core_ite, ite_self, id_eq, ↓core_of_mk, core_eta]))

theorem pactWrite_core (acc : Access) (o v : Nat) (s : State) : (pactWrite acc o v s).core = s.core := by
  unfold pactWrite
  repeat' (first | with_reducible rfl | (simp only [↓setRg_core, ↓core_ite, ite_self, id_eq, ↓core_of_mk, core_eta]; done) | split | (with_reducible refine Eq.trans (busStore_core (fun _ => ?_) _) ?_) | (simp only [↓setRg_core, ↓core_ite, ite_self, id_eq, ↓core_of_mk, core_eta]))

theorem liveRead_core (acc : Access) (e : Nat) (s : State) : (liveRead acc e s).core = s.core := by
  unfold liveRead
  repeat' (first | with_reducible rfl | (simp only [↓detBreach_core, ↓core_ite, ite_self, id_eq, ↓core_of_mk, core_eta]; done) | split | (simp only [↓detBreach_core, ↓core_ite, ite_self, id_eq, ↓core_of_mk, core_eta]))

theorem pageReadEff_core (acc : Access) (p o : Nat) (s : State) : (pageReadEff acc p o s).core = s.core := by
  unfold pageReadEff
  repeat' (first | with_reducible rfl | (simp only [↓posLatch_core, ↓angleLatch_core, ↓setBit_core, ↓vinRestart_core, ↓freeStep_core, ↓ptpLatch_core, ↓antLatch_core, ↓liveRead_core, ↓core_ite, ite_self, id_eq, ↓core_of_mk, core_eta]; done) | split | (simp only [↓posLatch_core, ↓angleLatch_core, ↓setBit_core, ↓vinRestart_core, ↓freeStep_core, ↓ptpLatch_core, ↓antLatch_core, ↓liveRead_core, ↓core_ite, ite_self, id_eq, ↓core_of_mk, core_eta]))

theorem windowRead_core (acc : Access) (e off n : Nat) (s : State) : (windowRead acc e off n s).core = s.core := by
  unfold windowRead
  repeat' (first | with_reducible rfl | (simp only [↓liveRead_core, ↓core_ite, ite_self, id_eq, ↓core_of_mk, core_eta]; done) | split | (simp only [↓liveRead_core, ↓core_ite, ite_self, id_eq, ↓core_of_mk, core_eta]))

theorem busEcc_core (acc : Access) (a : Nat) (wr : Bool) (s : State) : (busEcc acc a wr s).core = s.core := by
  unfold busEcc
  repeat' (first | with_reducible rfl | (simp only [↓eccWrite_core, ↓eccRead_core, ↓core_ite, ite_self, id_eq, ↓core_of_mk, core_eta]; done) | split | (simp only [↓eccWrite_core, ↓eccRead_core, ↓core_ite, ite_self, id_eq, ↓core_of_mk, core_eta]))

theorem tallyAt_core (acc : Access) (a n : Nat) (wr : Bool) (s : State) : (tallyAt acc a n wr s).core = s.core := by
  unfold tallyAt
  repeat' (first | with_reducible rfl | (simp only [↓tally_core, ↓core_ite, ite_self, id_eq, ↓core_of_mk, core_eta]; done) | split | (simp only [↓tally_core, ↓core_ite, ite_self, id_eq, ↓core_of_mk, core_eta]))

theorem busRead_core (acc : Access) (a n : Nat) (s0 : State) : (busRead acc a n s0).core = s0.core := by
  unfold busRead
  repeat' (first | with_reducible rfl | (simp only [↓busErr_core, ↓busEcc_core, ↓pageReadEff_core, ↓tallyAt_core, ↓windowRead_core, ↓core_ite, ite_self, id_eq, ↓core_of_mk, core_eta]; done) | split | (with_reducible refine Eq.trans (onBus_core (fun _ => ?_) _) ?_) | (with_reducible refine Eq.trans (onBusRead_core (fun _ => ?_) _) ?_) | (simp only [↓busErr_core, ↓busEcc_core, ↓pageReadEff_core, ↓tallyAt_core, ↓windowRead_core, ↓core_ite, ite_self, id_eq, ↓core_of_mk, core_eta]))

theorem mpuFault_core (x : Nat) (s : State) : (mpuFault x s).core = s.core := by
  unfold mpuFault
  repeat' (first | with_reducible rfl | (simp only [↓flag_core, ↓core_ite, ite_self, id_eq, ↓core_of_mk, core_eta]; done) | split | (simp only [↓flag_core, ↓core_ite, ite_self, id_eq, ↓core_of_mk, core_eta]))

theorem stallEcc_core (x : Nat) (s : State) : (stallEcc x s).core = s.core := by
  unfold stallEcc
  repeat' (first | with_reducible rfl | (simp only [↓setAntH_core, ↓core_ite, ite_self, id_eq, ↓core_of_mk, core_eta]; done) | split | (simp only [↓setAntH_core, ↓core_ite, ite_self, id_eq, ↓core_of_mk, core_eta]))

theorem stagEcc_core (x a : Nat) (wr : Bool) (e : Ecc) (s : State) : (stagEcc x a wr e s).core = s.core := by
  unfold stagEcc
  repeat' (first | with_reducible rfl | (simp only [↓antCount_core, ↓stallEcc_core, ↓eccWrite_core, ↓eccRead_core, ↓core_ite, ite_self, id_eq, ↓core_of_mk, core_eta]; done) | split | (simp only [↓antCount_core, ↓stallEcc_core, ↓eccWrite_core, ↓eccRead_core, ↓core_ite, ite_self, id_eq, ↓core_of_mk, core_eta]))

theorem stagBusFail_core (x a : Nat) (wr : Bool) (s : State) : (stagBusFail x a wr s).core = s.core := by
  unfold stagBusFail
  repeat' (first | with_reducible rfl | (simp only [↓pactDeny_core, ↓core_ite, ite_self, id_eq, ↓core_of_mk, core_eta]; done) | split | (simp only [↓pactDeny_core, ↓core_ite, ite_self, id_eq, ↓core_of_mk, core_eta]))

theorem dmaEcc_core (a : Nat) (wr : Bool) (ecc : Ecc) (s : State) : (dmaEcc a wr ecc s).core = s.core := by
  unfold dmaEcc
  repeat' (first | with_reducible rfl | (simp only [↓eccWrite_core, ↓eccRead_core, ↓core_ite, ite_self, id_eq, ↓core_of_mk, core_eta]; done) | split | (simp only [↓eccWrite_core, ↓eccRead_core, ↓core_ite, ite_self, id_eq, ↓core_of_mk, core_eta]))

theorem dmaNext_core (c : Nat) (s : State) : (dmaNext c s).core = s.core := by
  unfold dmaNext
  repeat' (first | with_reducible rfl | (simp only [↓setFld_core, ↓setDmaH_core, ↓dmaDone_core, ↓core_ite, ite_self, id_eq, ↓core_of_mk, core_eta]; done) | split | (simp only [↓setFld_core, ↓setDmaH_core, ↓dmaDone_core, ↓core_ite, ite_self, id_eq, ↓core_of_mk, core_eta]))

end Sys2Proof.Machine
end

