-- ==== Sys2Proof/Laws/Queue.lean ====
section
/-! SUPPORT. The operations that touch memory, time, the non-volatile parts or the Stag pairs: each leaves the queue and the
ordering code as they are (`State.pv`), and memory where it writes none. -/
namespace Sys2Proof.Machine
set_option linter.all false
/-- The queue and the ordering code. -/
def State.pv (s : State) := (s.pending, s.variant)

theorem pv_mk {t s : State} (h1 : t.pending = s.pending) (h2 : t.variant = s.variant) : t.pv = s.pv := by
  simp only [State.pv, h1, h2]

theorem pv_of_core {t s : State} (h : t.core = s.core) : t.pv = s.pv := pv_mk (core_pending h) (core_variant h)

theorem mem_of_core {t s : State} (h : t.core = s.core) : t.mem = s.mem := core_mem h

theorem pv_of_mk {a b x2 x3 x4 x5 x6 x7 x8 x9 x10 x11 x12 x13 x14 x15 x16 x17 x18 x19 x20 x21 x22 x23 x24 x25 x26 x27 x28 x29 x30 x31 x32 x33 x34 x35 x36 x37 x38 x39 x40 x41 x42 x43 x44 x45 x46 x47 x48 x49 x50 x51 x52 x53 x54} : (State.mk a b x2 x3 x4 x5 x6 x7 x8 x9 x10 x11 x12 x13 x14 x15 x16 x17 x18 x19 x20 x21 x22 x23 x24 x25 x26 x27 x28 x29 x30 x31 x32 x33 x34 x35 x36 x37 x38 x39 x40 x41 x42 x43 x44 x45 x46 x47 x48 x49 x50 x51 x52 x53 x54).pv = (a, b) := (rfl)

theorem pv_eta (s : State) : (s.pending, s.variant) = s.pv := (rfl)

theorem mem_of_mk {x0 x1 x2 x3 x4 x5 a x7 x8 x9 x10 x11 x12 x13 x14 x15 x16 x17 x18 x19 x20 x21 x22 x23 x24 x25 x26 x27 x28 x29 x30 x31 x32 x33 x34 x35 x36 x37 x38 x39 x40 x41 x42 x43 x44 x45 x46 x47 x48 x49 x50 x51 x52 x53 x54} : (State.mk x0 x1 x2 x3 x4 x5 a x7 x8 x9 x10 x11 x12 x13 x14 x15 x16 x17 x18 x19 x20 x21 x22 x23 x24 x25 x26 x27 x28 x29 x30 x31 x32 x33 x34 x35 x36 x37 x38 x39 x40 x41 x42 x43 x44 x45 x46 x47 x48 x49 x50 x51 x52 x53 x54).mem = a := (rfl)

theorem pv_ite (c : Prop) [Decidable c] (a b : State) : (if c then a else b).pv = if c then a.pv else b.pv :=
  apply_ite _ _ _ _

theorem foldl_pv {α : Type} {g : State → α → State} (h : ∀ s a, (g s a).pv = s.pv) (l : List α) (s : State) :
    (l.foldl g s).pv = s.pv := by
  induction l generalizing s with
  | nil => rfl
  | cons a l ih => exact (ih _).trans (h s a)

theorem forRange_pv {g : Nat → State → State} (h : ∀ i s, (g i s).pv = s.pv) (n : Nat) (s : State) :
    (forRange n g s).pv = s.pv := foldl_pv (fun s i => h i s) _ s

theorem onBus_pv {acc : Access} {p o : Nat} {f : State → State} (h : ∀ s, (f s).pv = s.pv) (s : State) :
    (onBus acc p o f s).pv = s.pv := by
  unfold onBus
  repeat' split
  · rfl
  · rfl
  · exact pv_of_core (pactDeny_core _ _ _ _ _)
  · exact (pv_of_core (tally_core _ _ _ _ _ _)).trans (h s)

theorem onBusRead_pv {acc : Access} {p o : Nat} {rd : State → Nat} {f : State → State} (h : ∀ s, (f s).pv = s.pv) (s : State) :
    (onBusRead acc p o rd f s).pv = s.pv := by
  unfold onBusRead
  repeat' split
  · rfl
  · rfl
  · exact pv_of_core (pactDeny_core _ _ _ _ _)
  · exact (pv_of_core (tally_core _ _ _ _ _ _)).trans (h s)

theorem busStore_pv {acc : Access} {p o v : Nat} {chk : Nat → Nat → Option Reason} {f : State → State}
    (h : ∀ s, (f s).pv = s.pv) (s : State) : (busStore acc p o v chk f s).pv = s.pv := by
  unfold busStore
  repeat' (first | with_reducible rfl | (simp only [h, pv_of_core (refuse_core _ _ _ _ _ _), pv_of_core (storeReg_core _ _ _ _ _)]; done) | split | (simp only [h, pv_of_core (refuse_core _ _ _ _ _ _), pv_of_core (storeReg_core _ _ _ _ _), ↓pv_ite]))

theorem mem_ite (c : Prop) [Decidable c] (a b : State) : (if c then a else b).mem = if c then a.mem else b.mem :=
  apply_ite _ _ _ _

theorem foldl_mem {α : Type} {g : State → α → State} (h : ∀ s a, (g s a).mem = s.mem) (l : List α) (s : State) :
    (l.foldl g s).mem = s.mem := by
  induction l generalizing s with
  | nil => rfl
  | cons a l ih => exact (ih _).trans (h s a)

theorem forRange_mem {g : Nat → State → State} (h : ∀ i s, (g i s).mem = s.mem) (n : Nat) (s : State) :
    (forRange n g s).mem = s.mem := foldl_mem (fun s i => h i s) _ s

theorem onBus_mem {acc : Access} {p o : Nat} {f : State → State} (h : ∀ s, (f s).mem = s.mem) (s : State) :
    (onBus acc p o f s).mem = s.mem := by
  unfold onBus
  repeat' split
  · rfl
  · rfl
  · exact mem_of_core (pactDeny_core _ _ _ _ _)
  · exact (mem_of_core (tally_core _ _ _ _ _ _)).trans (h s)

theorem onBusRead_mem {acc : Access} {p o : Nat} {rd : State → Nat} {f : State → State} (h : ∀ s, (f s).mem = s.mem) (s : State) :
    (onBusRead acc p o rd f s).mem = s.mem := by
  unfold onBusRead
  repeat' split
  · rfl
  · rfl
  · exact mem_of_core (pactDeny_core _ _ _ _ _)
  · exact (mem_of_core (tally_core _ _ _ _ _ _)).trans (h s)

theorem busStore_mem {acc : Access} {p o v : Nat} {chk : Nat → Nat → Option Reason} {f : State → State}
    (h : ∀ s, (f s).mem = s.mem) (s : State) : (busStore acc p o v chk f s).mem = s.mem := by
  unfold busStore
  repeat' (first | with_reducible rfl | (simp only [h, mem_of_core (refuse_core _ _ _ _ _ _), mem_of_core (storeReg_core _ _ _ _ _)]; done) | split | (simp only [h, mem_of_core (refuse_core _ _ _ _ _ _), mem_of_core (storeReg_core _ _ _ _ _), ↓mem_ite]))

theorem copyCoeffs_pv (e : Nat) (s : State) : (copyCoeffs e s).pv = s.pv := by
  unfold copyCoeffs
  repeat' (first | with_reducible rfl | (simp only [↓pv_ite, ite_self, id_eq, ↓pv_of_mk, pv_eta]; done) | split | (with_reducible refine Eq.trans (foldl_pv (fun _ _ => ?_) _ _) ?_) | (simp only [↓pv_ite, ite_self, id_eq, ↓pv_of_mk, pv_eta]))

theorem transferPage_pv (p : Nat) (s : State) : (transferPage p s).pv = s.pv := by
  unfold transferPage
  repeat' (first | with_reducible rfl | (simp only [↓pv_of_core (copyEpochRegs_core _ _ _ _), ↓copyCoeffs_pv, ↓pv_of_core (setBit_core _ _ _ _ _), ↓pv_of_core (incWrap_core _ _ _ _ _ _), ↓pv_of_core (saveStale_core _), ↓pv_ite, ite_self, id_eq, ↓pv_of_mk, pv_eta]; done) | split | (simp only [↓pv_of_core (copyEpochRegs_core _ _ _ _), ↓copyCoeffs_pv, ↓pv_of_core (setBit_core _ _ _ _ _), ↓pv_of_core (incWrap_core _ _ _ _ _ _), ↓pv_of_core (saveStale_core _), ↓pv_ite, ite_self, id_eq, ↓pv_of_mk, pv_eta]))

theorem transferWhere_pv (m : Nat → Bool) (s : State) : (transferWhere m s).pv = s.pv := by
  unfold transferWhere
  repeat' (first | with_reducible rfl | (simp only [↓transferPage_pv, ↓pv_ite, ite_self, id_eq, ↓pv_of_mk, pv_eta]; done) | split | (with_reducible refine Eq.trans (foldl_pv (fun _ _ => ?_) _ _) ?_) | (simp only [↓transferPage_pv, ↓pv_ite, ite_self, id_eq, ↓pv_of_mk, pv_eta]))

theorem saveEnd_pv (ok : Bool) (s : State) : (saveEnd ok s).pv = s.pv := by
  unfold saveEnd
  repeat' (first | with_reducible rfl | (simp only [↓pv_of_core (setRg_core _ _ _ _), ↓pv_of_core (setFld_core _ _ _ _ _ _), ↓pv_of_core (flag_core _ _ _), ↓pv_ite, ite_self, id_eq, ↓pv_of_mk, pv_eta]; done) | split | (simp only [↓pv_of_core (setRg_core _ _ _ _), ↓pv_of_core (setFld_core _ _ _ _ _ _), ↓pv_of_core (flag_core _ _ _), ↓pv_ite, ite_self, id_eq, ↓pv_of_mk, pv_eta]))

theorem saveEnd_mem (ok : Bool) (s : State) : (saveEnd ok s).mem = s.mem := by
  unfold saveEnd
  repeat' (first | with_reducible rfl | (simp only [↓mem_of_core (setRg_core _ _ _ _), ↓mem_of_core (setFld_core _ _ _ _ _ _), ↓mem_of_core (flag_core _ _ _), ↓mem_ite, ite_self, id_eq, ↓mem_of_mk]; done) | split | (simp only [↓mem_of_core (setRg_core _ _ _ _), ↓mem_of_core (setFld_core _ _ _ _ _ _), ↓mem_of_core (flag_core _ _ _), ↓mem_ite, ite_self, id_eq, ↓mem_of_mk]))

theorem powerOff_pv (standby : Bool) (brown : Bool) (s : State) : (powerOff standby brown s).pv = s.pv := by
  unfold powerOff
  repeat' (first | with_reducible rfl | (simp only [↓pv_of_core (setRg_core _ _ _ _), ↓pv_ite, ite_self, id_eq, ↓pv_of_mk, pv_eta]; done) | split | (with_reducible refine Eq.trans (foldl_pv (fun _ _ => ?_) _ _) ?_) | (simp only [↓pv_of_core (setRg_core _ _ _ _), ↓pv_ite, ite_self, id_eq, ↓pv_of_mk, pv_eta]))

theorem setBootRec_pv (v : Nat) (s : State) : (setBootRec v s).pv = s.pv := by
  unfold setBootRec
  repeat' (first | with_reducible rfl | (simp only [↓pv_of_core (setRg_core _ _ _ _), ↓pv_ite, ite_self, id_eq, ↓pv_of_mk, pv_eta]; done) | split | (simp only [↓pv_of_core (setRg_core _ _ _ _), ↓pv_ite, ite_self, id_eq, ↓pv_of_mk, pv_eta]))

theorem restart_pv (cause : Nat) (cmd : Bool) (s : State) : (restart cause cmd s).pv = s.pv := by
  unfold restart
  repeat' (first | with_reducible rfl | (simp only [↓pv_of_core (restartFrom_core _ _), ↓pv_of_core (setRg_core _ _ _ _), ↓pv_of_core (bootEntry_core _ _ _), ↓pv_ite, ite_self, id_eq, ↓pv_of_mk, pv_eta]; done) | split | (with_reducible refine Eq.trans (forRange_pv (fun _ _ => ?_) _ _) ?_) | (simp only [↓pv_of_core (restartFrom_core _ _), ↓pv_of_core (setRg_core _ _ _ _), ↓pv_of_core (bootEntry_core _ _ _), ↓pv_ite, ite_self, id_eq, ↓pv_of_mk, pv_eta]))

theorem brownOut_pv (vin : Nat) (s : State) : (brownOut vin s).pv = s.pv := by
  unfold brownOut
  repeat' (first | with_reducible rfl | (simp only [↓pv_of_core (vinMeasure_core _ _), ↓pv_of_core (flag_core _ _ _), ↓pv_of_core (setRg_core _ _ _ _), ↓pv_of_core (kdBrownOut_core _), ↓pv_of_core (suppliesOff_core _), ↓pv_of_core (refreshTiles_core _), ↓pv_of_core (saveStart_core _ _), ↓powerOff_pv, ↓pv_ite, ite_self, id_eq, ↓pv_of_mk, pv_eta]; done) | split | (simp only [↓pv_of_core (vinMeasure_core _ _), ↓pv_of_core (flag_core _ _ _), ↓pv_of_core (setRg_core _ _ _ _), ↓pv_of_core (kdBrownOut_core _), ↓pv_of_core (suppliesOff_core _), ↓pv_of_core (refreshTiles_core _), ↓pv_of_core (saveStart_core _ _), ↓powerOff_pv, ↓pv_ite, ite_self, id_eq, ↓pv_of_mk, pv_eta]))

theorem shutdownComplete_pv (ok : Bool) (s : State) : (shutdownComplete ok s).pv = s.pv := by
  unfold shutdownComplete
  repeat' (first | with_reducible rfl | (simp only [↓saveEnd_pv, ↓powerOff_pv, ↓pv_ite, ite_self, id_eq, ↓pv_of_mk, pv_eta]; done) | split | (simp only [↓saveEnd_pv, ↓powerOff_pv, ↓pv_ite, ite_self, id_eq, ↓pv_of_mk, pv_eta]))

theorem saveComplete_pv (ok : Bool) (s : State) : (saveComplete ok s).pv = s.pv := by
  unfold saveComplete
  repeat' (first | with_reducible rfl | (simp only [↓saveEnd_pv, ↓pv_of_core (saveStart_core _ _), ↓pv_ite, ite_self, id_eq, ↓pv_of_mk, pv_eta]; done) | split | (simp only [↓saveEnd_pv, ↓pv_of_core (saveStart_core _ _), ↓pv_ite, ite_self, id_eq, ↓pv_of_mk, pv_eta]))

theorem saveComplete_mem (ok : Bool) (s : State) : (saveComplete ok s).mem = s.mem := by
  unfold saveComplete
  repeat' (first | with_reducible rfl | (simp only [↓saveEnd_mem, ↓mem_of_core (saveStart_core _ _), ↓mem_ite, ite_self, id_eq, ↓mem_of_mk]; done) | split | (simp only [↓saveEnd_mem, ↓mem_of_core (saveStart_core _ _), ↓mem_ite, ite_self, id_eq, ↓mem_of_mk]))

theorem bootTry_pv (resA resB verA verB : Nat) (s : State) : (bootTry resA resB verA verB s).pv = s.pv := by
  unfold bootTry
  repeat' (first | with_reducible rfl | (simp only [↓pv_of_core (setRg_core _ _ _ _), ↓setBootRec_pv, ↓pv_of_core (scarabTested_core _), ↓pv_of_core (enterState_core _ _ _ _), ↓pv_ite, ite_self, id_eq, ↓pv_of_mk, pv_eta]; done) | split | (simp only [↓pv_of_core (setRg_core _ _ _ _), ↓setBootRec_pv, ↓pv_of_core (scarabTested_core _), ↓pv_of_core (enterState_core _ _ _ _), ↓pv_ite, ite_self, id_eq, ↓pv_of_mk, pv_eta]))

theorem serviceStore_pv (image : List (BitVec 8)) (s : State) : (serviceStore image s).pv = s.pv := by
  unfold serviceStore
  repeat' (first | with_reducible rfl | (simp only [↓pv_ite, ite_self, id_eq, ↓pv_of_mk, pv_eta]; done) | split | (with_reducible refine Eq.trans (foldl_pv (fun _ _ => ?_) _ _) ?_) | (simp only [↓pv_ite, ite_self, id_eq, ↓pv_of_mk, pv_eta]))

theorem serviceLoad_pv (image : List (BitVec 8)) (res ver : Nat) (s : State) : (serviceLoad image res ver s).pv = s.pv := by
  unfold serviceLoad
  repeat' (first | with_reducible rfl | (simp only [↓serviceStore_pv, ↓pv_of_core (setFld_core _ _ _ _ _ _), ↓pv_of_core (setRg_core _ _ _ _), ↓pv_of_core (scarabTested_core _), ↓pv_of_core (enterState_core _ _ _ _), ↓pv_ite, ite_self, id_eq, ↓pv_of_mk, pv_eta]; done) | split | (simp only [↓serviceStore_pv, ↓pv_of_core (setFld_core _ _ _ _ _ _), ↓pv_of_core (setRg_core _ _ _ _), ↓pv_of_core (scarabTested_core _), ↓pv_of_core (enterState_core _ _ _ _), ↓pv_ite, ite_self, id_eq, ↓pv_of_mk, pv_eta]))

theorem epochTransfer_pv (moved : Nat → Bool) (s : State) : (epochTransfer moved s).pv = s.pv := by
  unfold epochTransfer
  repeat' (first | with_reducible rfl | (simp only [↓transferWhere_pv, ↓pv_of_core (trackTransferred_core _ _ _), ↓pv_of_core (slotTransferred_core _ _ _), ↓pv_ite, ite_self, id_eq, ↓pv_of_mk, pv_eta]; done) | split | (with_reducible refine Eq.trans (forRange_pv (fun _ _ => ?_) _ _) ?_) | (simp only [↓transferWhere_pv, ↓pv_of_core (trackTransferred_core _ _ _), ↓pv_of_core (slotTransferred_core _ _ _), ↓pv_ite, ite_self, id_eq, ↓pv_of_mk, pv_eta]))

theorem calStoreEnd_pv (s : State) : (calStoreEnd s).pv = s.pv := by
  unfold calStoreEnd
  repeat' (first | with_reducible rfl | (simp only [↓pv_of_core (calCompare_core _), ↓pv_of_core (calShow_core _), ↓pv_of_core (calState_core _ _), ↓pv_of_core (setFld_core _ _ _ _ _ _), ↓pv_ite, ite_self, id_eq, ↓pv_of_mk, pv_eta]; done) | split | (simp only [↓pv_of_core (calCompare_core _), ↓pv_of_core (calShow_core _), ↓pv_of_core (calState_core _ _), ↓pv_of_core (setFld_core _ _ _ _ _ _), ↓pv_ite, ite_self, id_eq, ↓pv_of_mk, pv_eta]))

theorem writeWords_pv (a : Nat) (ws : List Nat) (s : State) : (writeWords a ws s).pv = s.pv := by
  unfold writeWords
  repeat' (first | with_reducible rfl | (simp only [↓pv_of_core (freshWords_core _ _ _), ↓pv_ite, ite_self, id_eq, ↓pv_of_mk, pv_eta]; done) | split | (with_reducible refine Eq.trans (foldl_pv (fun _ _ => ?_) _ _) ?_) | (simp only [↓pv_of_core (freshWords_core _ _ _), ↓pv_ite, ite_self, id_eq, ↓pv_of_mk, pv_eta]))

theorem capRecord_pv (e c mask : Nat) (els : List Int) (s : State) : (capRecord e c mask els s).pv = s.pv := by
  unfold capRecord
  repeat' (first | with_reducible rfl | (simp only [↓pv_of_core (capDrop_core _ _), ↓pv_of_core (setCapH_core _ _ _), ↓pv_of_core (bwSeen_core _ _ _ _), ↓writeWords_pv, ↓pv_of_core (setBit_core _ _ _ _ _), ↓pv_of_core (incWrap_core _ _ _ _ _ _), ↓pv_of_core (setFld_core _ _ _ _ _ _), ↓pv_of_core (streamRecord_core _ _), ↓pv_ite, ite_self, id_eq, ↓pv_of_mk, pv_eta]; done) | split | (simp only [↓pv_of_core (capDrop_core _ _), ↓pv_of_core (setCapH_core _ _ _), ↓pv_of_core (bwSeen_core _ _ _ _), ↓writeWords_pv, ↓pv_of_core (setBit_core _ _ _ _ _), ↓pv_of_core (incWrap_core _ _ _ _ _ _), ↓pv_of_core (setFld_core _ _ _ _ _ _), ↓pv_of_core (streamRecord_core _ _), ↓pv_ite, ite_self, id_eq, ↓pv_of_mk, pv_eta]))

theorem putSlot_pv (e k : Nat) (x : Int) (s : State) : (putSlot e k x s).pv = s.pv := by
  unfold putSlot
  repeat' (first | with_reducible rfl | (simp only [↓pv_of_core (freshWords_core _ _ _), ↓pv_ite, ite_self, id_eq, ↓pv_of_mk, pv_eta]; done) | split | (simp only [↓pv_of_core (freshWords_core _ _ _), ↓pv_ite, ite_self, id_eq, ↓pv_of_mk, pv_eta]))

theorem putWord_pv (e w : Nat) (x : Int) (s : State) : (putWord e w x s).pv = s.pv := by
  unfold putWord
  repeat' (first | with_reducible rfl | (simp only [↓pv_of_core (setUpset_core _ _ _), ↓pv_ite, ite_self, id_eq, ↓pv_of_mk, pv_eta]; done) | split | (simp only [↓pv_of_core (setUpset_core _ _ _), ↓pv_ite, ite_self, id_eq, ↓pv_of_mk, pv_eta]))

theorem mtEffect_pv (e ret : Nat) (x : MtEff) (s : State) : (mtEffect e ret x s).pv = s.pv := by
  unfold mtEffect
  repeat' (first | with_reducible rfl | (simp only [↓pv_of_core (setMtH_core _ _ _), ↓putWord_pv, ↓putSlot_pv, ↓pv_of_core (freshWords_core _ _ _), ↓pv_of_core (trackOut_core _ _ _ _), ↓pv_of_core (setRg_core _ _ _ _), ↓pv_of_core (mtArith_core _ _ _ _ _), ↓capRecord_pv, ↓pv_ite, ite_self, id_eq, ↓pv_of_mk, pv_eta]; done) | split | (simp only [↓pv_of_core (setMtH_core _ _ _), ↓putWord_pv, ↓putSlot_pv, ↓pv_of_core (freshWords_core _ _ _), ↓pv_of_core (trackOut_core _ _ _ _), ↓pv_of_core (setRg_core _ _ _ _), ↓pv_of_core (mtArith_core _ _ _ _ _), ↓capRecord_pv, ↓pv_ite, ite_self, id_eq, ↓pv_of_mk, pv_eta]))

theorem mtFlush_pv (e c : Nat) (s : State) : (mtFlush e c s).pv = s.pv := by
  unfold mtFlush
  repeat' (first | with_reducible rfl | (simp only [↓pv_of_core (setMtH_core _ _ _), ↓mtEffect_pv, ↓pv_ite, ite_self, id_eq, ↓pv_of_mk, pv_eta]; done) | split | (with_reducible refine Eq.trans (foldl_pv (fun _ _ => ?_) _ _) ?_) | (simp only [↓pv_of_core (setMtH_core _ _ _), ↓mtEffect_pv, ↓pv_ite, ite_self, id_eq, ↓pv_of_mk, pv_eta]))

theorem mtDrain_pv (e : Nat) (s : State) : (mtDrain e s).pv = s.pv := by
  unfold mtDrain
  repeat' (first | with_reducible rfl | (simp only [↓mtFlush_pv, ↓pv_ite, ite_self, id_eq, ↓pv_of_mk, pv_eta]; done) | split | (simp only [↓mtFlush_pv, ↓pv_ite, ite_self, id_eq, ↓pv_of_mk, pv_eta]))

theorem mtFinish_pv (e : Nat) (x : MtEnd) (s : State) : (mtFinish e x s).pv = s.pv := by
  unfold mtFinish
  repeat' (first | with_reducible rfl | (simp only [↓mtDrain_pv, ↓pv_of_core (setMtH_core _ _ _), ↓pv_of_core (countConsec_core _ _ _), ↓pv_of_core (mtLeave_core _ _ _ _), ↓pv_of_core (flag_core _ _ _), ↓pv_of_core (setRg_core _ _ _ _), ↓pv_of_core (mtFail_core _ _ _ _), ↓pv_ite, ite_self, id_eq, ↓pv_of_mk, pv_eta]; done) | split | (simp only [↓mtDrain_pv, ↓pv_of_core (setMtH_core _ _ _), ↓pv_of_core (countConsec_core _ _ _), ↓pv_of_core (mtLeave_core _ _ _ _), ↓pv_of_core (flag_core _ _ _), ↓pv_of_core (setRg_core _ _ _ _), ↓pv_of_core (mtFail_core _ _ _ _), ↓pv_ite, ite_self, id_eq, ↓pv_of_mk, pv_eta]))

theorem mtStop_pv (e cause addr c : Nat) (s : State) : (mtStop e cause addr c s).pv = s.pv := by
  unfold mtStop
  repeat' (first | with_reducible rfl | (simp only [↓mtFlush_pv, ↓pv_of_core (mtFail_core _ _ _ _), ↓pv_of_core (countConsec_core _ _ _), ↓pv_of_core (mtLeave_core _ _ _ _), ↓pv_of_core (setMtH_core _ _ _), ↓pv_ite, ite_self, id_eq, ↓pv_of_mk, pv_eta]; done) | split | (simp only [↓mtFlush_pv, ↓pv_of_core (mtFail_core _ _ _ _), ↓pv_of_core (countConsec_core _ _ _), ↓pv_of_core (mtLeave_core _ _ _ _), ↓pv_of_core (setMtH_core _ _ _), ↓pv_ite, ite_self, id_eq, ↓pv_of_mk, pv_eta]))

theorem mtEndDue_pv (e : Nat) (s : State) : (mtEndDue e s).pv = s.pv := by
  unfold mtEndDue
  repeat' (first | with_reducible rfl | (simp only [↓mtStop_pv, ↓mtFinish_pv, ↓pv_ite, ite_self, id_eq, ↓pv_of_mk, pv_eta]; done) | split | (simp only [↓mtStop_pv, ↓mtFinish_pv, ↓pv_ite, ite_self, id_eq, ↓pv_of_mk, pv_eta]))

theorem mtSync_pv (e : Nat) (s : State) : (mtSync e s).pv = s.pv := by
  unfold mtSync
  repeat' (first | with_reducible rfl | (simp only [↓mtEndDue_pv, ↓mtFlush_pv, ↓pv_ite, ite_self, id_eq, ↓pv_of_mk, pv_eta]; done) | split | (simp only [↓mtEndDue_pv, ↓mtFlush_pv, ↓pv_ite, ite_self, id_eq, ↓pv_of_mk, pv_eta]))

theorem mtEnding_pv (e : Nat) (x : MtEnd) (s : State) : (mtEnding e x s).pv = s.pv := by
  unfold mtEnding
  repeat' (first | with_reducible rfl | (simp only [↓mtEndDue_pv, ↓pv_of_core (setMtH_core _ _ _), ↓pv_ite, ite_self, id_eq, ↓pv_of_mk, pv_eta]; done) | split | (simp only [↓mtEndDue_pv, ↓pv_of_core (setMtH_core _ _ _), ↓pv_ite, ite_self, id_eq, ↓pv_of_mk, pv_eta]))

theorem mtError_pv (e cause addr c : Nat) (s : State) : (mtError e cause addr c s).pv = s.pv := by
  unfold mtError
  repeat' (first | with_reducible rfl | (simp only [↓mtEnding_pv, ↓pv_ite, ite_self, id_eq, ↓pv_of_mk, pv_eta]; done) | split | (simp only [↓mtEnding_pv, ↓pv_ite, ite_self, id_eq, ↓pv_of_mk, pv_eta]))

theorem mtAbort_pv (e : Nat) (s : State) : (mtAbort e s).pv = s.pv := by
  unfold mtAbort
  repeat' (first | with_reducible rfl | (simp only [↓pv_of_core (mtCut_core _ _ _), ↓mtEnding_pv, ↓pv_ite, ite_self, id_eq, ↓pv_of_mk, pv_eta]; done) | split | (simp only [↓pv_of_core (mtCut_core _ _ _), ↓mtEnding_pv, ↓pv_ite, ite_self, id_eq, ↓pv_of_mk, pv_eta]))

theorem putWords_pv (e w : Nat) (ws : List Nat) (s : State) : (putWords e w ws s).pv = s.pv := by
  unfold putWords
  repeat' (first | with_reducible rfl | (simp only [↓pv_ite, ite_self, id_eq, ↓pv_of_mk, pv_eta]; done) | split | (with_reducible refine Eq.trans (foldl_pv (fun _ _ => ?_) _ _) ?_) | (simp only [↓pv_ite, ite_self, id_eq, ↓pv_of_mk, pv_eta]))

theorem unitWords_pv (e : Nat) (s : State) : (unitWords e s).pv = s.pv := by
  unfold unitWords
  repeat' (first | with_reducible rfl | (simp only [↓putWords_pv, ↓pv_ite, ite_self, id_eq, ↓pv_of_mk, pv_eta]; done) | split | (with_reducible refine Eq.trans (forRange_pv (fun _ _ => ?_) _ _) ?_) | (simp only [↓putWords_pv, ↓pv_ite, ite_self, id_eq, ↓pv_of_mk, pv_eta]))

theorem mtBegin_pv (e src : Nat) (s : State) : (mtBegin e src s).pv = s.pv := by
  unfold mtBegin
  repeat' (first | with_reducible rfl | (simp only [↓mtDrain_pv, ↓pv_of_core (mtLatch_core _ _), ↓pv_of_core (setBlockState_core _ _ _), ↓unitWords_pv, ↓pv_of_core (setRg_core _ _ _ _), ↓pv_of_core (setMtH_core _ _ _), ↓pv_ite, ite_self, id_eq, ↓pv_of_mk, pv_eta]; done) | split | (simp only [↓mtDrain_pv, ↓pv_of_core (mtLatch_core _ _), ↓pv_of_core (setBlockState_core _ _ _), ↓unitWords_pv, ↓pv_of_core (setRg_core _ _ _ _), ↓pv_of_core (setMtH_core _ _ _), ↓pv_ite, ite_self, id_eq, ↓pv_of_mk, pv_eta]))

theorem mtStart_pv (e : Nat) (s : State) : (mtStart e s).pv = s.pv := by
  unfold mtStart
  repeat' (first | with_reducible rfl | (simp only [↓pv_of_core (setMtH_core _ _ _), ↓pv_of_core (overrun_core _ _ _ _), ↓pv_of_core (mtPrefer_core _ _ _), ↓pv_of_core (mtDiscard_core _ _), ↓mtBegin_pv, ↓pv_ite, ite_self, id_eq, ↓pv_of_mk, pv_eta]; done) | split | (with_reducible refine Eq.trans (foldl_pv (fun _ _ => ?_) _ _) ?_) | (simp only [↓pv_of_core (setMtH_core _ _ _), ↓pv_of_core (overrun_core _ _ _ _), ↓pv_of_core (mtPrefer_core _ _ _), ↓pv_of_core (mtDiscard_core _ _), ↓mtBegin_pv, ↓pv_ite, ite_self, id_eq, ↓pv_of_mk, pv_eta]))

theorem mtHeldStart_pv (e : Nat) (s : State) : (mtHeldStart e s).pv = s.pv := by
  unfold mtHeldStart
  repeat' (first | with_reducible rfl | (simp only [↓mtBegin_pv, ↓pv_of_core (mtDiscard_core _ _), ↓pv_of_core (setMtH_core _ _ _), ↓pv_ite, ite_self, id_eq, ↓pv_of_mk, pv_eta]; done) | split | (simp only [↓mtBegin_pv, ↓pv_of_core (mtDiscard_core _ _), ↓pv_of_core (setMtH_core _ _ _), ↓pv_ite, ite_self, id_eq, ↓pv_of_mk, pv_eta]))

theorem mtTickEnd_pv (e : Nat) (s : State) : (mtTickEnd e s).pv = s.pv := by
  unfold mtTickEnd
  repeat' (first | with_reducible rfl | (simp only [↓mtStart_pv, ↓mtHeldStart_pv, ↓pv_of_core (setMtH_core _ _ _), ↓pv_ite, ite_self, id_eq, ↓pv_of_mk, pv_eta]; done) | split | (simp only [↓mtStart_pv, ↓mtHeldStart_pv, ↓pv_of_core (setMtH_core _ _ _), ↓pv_ite, ite_self, id_eq, ↓pv_of_mk, pv_eta]))

theorem mtBoundary_pv (e : Nat) (s : State) : (mtBoundary e s).pv = s.pv := by
  unfold mtBoundary
  repeat' (first | with_reducible rfl | (simp only [↓pv_of_core (mailboxCopy_core _ _), ↓pv_of_core (overrun_core _ _ _ _), ↓mtAbort_pv, ↓pv_ite, ite_self, id_eq, ↓pv_of_mk, pv_eta]; done) | split | (simp only [↓pv_of_core (mailboxCopy_core _ _), ↓pv_of_core (overrun_core _ _ _ _), ↓mtAbort_pv, ↓pv_ite, ite_self, id_eq, ↓pv_of_mk, pv_eta]))

theorem transferAll_pv (moved : Nat → Bool) (s : State) : (transferAll moved s).pv = s.pv := by
  unfold transferAll
  repeat' (first | with_reducible rfl | (simp only [↓epochTransfer_pv, ↓pv_of_core (sdgTransferred_core _ _ _), ↓pv_of_core (setsTransferred_core _ _), ↓pv_of_core (mtsTransferred_core _ _), ↓pv_of_core (dfTransferred_core _ _), ↓pv_of_core (hbTransferred_core _ _), ↓pv_of_core (calTransferred_core _), ↓pv_of_core (setMtH_core _ _ _), ↓pv_ite, ite_self, id_eq, ↓pv_of_mk, pv_eta]; done) | split | (with_reducible refine Eq.trans (forRange_pv (fun _ _ => ?_) _ _) ?_) | (simp only [↓epochTransfer_pv, ↓pv_of_core (sdgTransferred_core _ _ _), ↓pv_of_core (setsTransferred_core _ _), ↓pv_of_core (mtsTransferred_core _ _), ↓pv_of_core (dfTransferred_core _ _), ↓pv_of_core (hbTransferred_core _ _), ↓pv_of_core (calTransferred_core _), ↓pv_of_core (setMtH_core _ _ _), ↓pv_ite, ite_self, id_eq, ↓pv_of_mk, pv_eta]))

theorem transferPages_pv (moved : Nat → Bool) (s : State) : (transferPages moved s).pv = s.pv := by
  unfold transferPages
  repeat' (first | with_reducible rfl | (simp only [↓transferAll_pv, ↓pv_of_core (injUndo_core _ _), ↓pv_of_core (mtLatch_core _ _), ↓pv_of_core (spreadAgain_core _ _), ↓pv_ite, ite_self, id_eq, ↓pv_of_mk, pv_eta]; done) | split | (with_reducible refine Eq.trans (forRange_pv (fun _ _ => ?_) _ _) ?_) | (with_reducible refine Eq.trans (foldl_pv (fun _ _ => ?_) _ _) ?_) | (simp only [↓transferAll_pv, ↓pv_of_core (injUndo_core _ _), ↓pv_of_core (mtLatch_core _ _), ↓pv_of_core (spreadAgain_core _ _), ↓pv_ite, ite_self, id_eq, ↓pv_of_mk, pv_eta]))

theorem mtEff_pv (e o v : Nat) (was : Bool) (s : State) : (mtEff e o v was s).pv = s.pv := by
  unfold mtEff
  repeat' (first | with_reducible rfl | (simp only [↓pv_of_core (mtClear_core _ _), ↓pv_of_core (mtOff_core _ _), ↓pv_of_core (mtIdle_core _ _), ↓mtStart_pv, ↓pv_of_core (mtRequest_core _ _ _ _), ↓pv_ite, ite_self, id_eq, ↓pv_of_mk, pv_eta]; done) | split | (simp only [↓pv_of_core (mtClear_core _ _), ↓pv_of_core (mtOff_core _ _), ↓pv_of_core (mtIdle_core _ _), ↓mtStart_pv, ↓pv_of_core (mtRequest_core _ _ _ _), ↓pv_ite, ite_self, id_eq, ↓pv_of_mk, pv_eta]))

theorem mtWrite_pv (acc : Access) (e o v : Nat) (s : State) : (mtWrite acc e o v s).pv = s.pv := by
  unfold mtWrite
  repeat' (first | with_reducible rfl | (simp only [↓pv_of_core (mtArithClear_core _ _ _), ↓mtEff_pv, ↓pv_ite, ite_self, id_eq, ↓pv_of_mk, pv_eta]; done) | split | (with_reducible refine Eq.trans (busStore_pv (fun _ => ?_) _) ?_) | (simp only [↓pv_of_core (mtArithClear_core _ _ _), ↓mtEff_pv, ↓pv_ite, ite_self, id_eq, ↓pv_of_mk, pv_eta]))

theorem windowWrite_pv (acc : Access) (e off v n : Nat) (s : State) : (windowWrite acc e off v n s).pv = s.pv := by
  unfold windowWrite
  repeat' (first | with_reducible rfl | (simp only [↓pv_of_core (refuseWindow_core _ _ _ _ _ _), ↓pv_of_core (detBreach_core _ _ _), ↓pv_of_core (setBit_core _ _ _ _ _), ↓pv_ite, ite_self, id_eq, ↓pv_of_mk, pv_eta]; done) | split | (simp only [↓pv_of_core (refuseWindow_core _ _ _ _ _ _), ↓pv_of_core (detBreach_core _ _ _), ↓pv_of_core (setBit_core _ _ _ _ _), ↓pv_ite, ite_self, id_eq, ↓pv_of_mk, pv_eta]))

theorem mtSettle_pv (e : Nat) (s : State) : (mtSettle e s).pv = s.pv := by
  unfold mtSettle
  repeat' (first | with_reducible rfl | (simp only [↓mtFlush_pv, ↓pv_ite, ite_self, id_eq, ↓pv_of_mk, pv_eta]; done) | split | (simp only [↓mtFlush_pv, ↓pv_ite, ite_self, id_eq, ↓pv_of_mk, pv_eta]))

theorem mtNext_pv (e c n : Nat) (s : State) : (mtNext e c n s).pv = s.pv := by
  induction n generalizing s with
  | zero => rfl
  | succ n ih =>
    unfold mtNext
    repeat' (first | with_reducible rfl | (simp only [ih, pv_of_core (setMtPc_core _ _ _), pv_of_core (setMtH_core _ _ _), mtError_pv]; done) | split | dsimp only)

theorem mtIssue_pv (e : Nat) (op : MtOp) (s : State) : (mtIssue e op s).pv = s.pv := by
  unfold mtIssue
  repeat' (first | with_reducible rfl | (simp only [↓mtSettle_pv, ↓pv_of_core (setMtH_core _ _ _), ↓mtNext_pv, ↓pv_ite, ite_self, id_eq, ↓pv_of_mk, pv_eta]; done) | split | (simp only [↓mtSettle_pv, ↓pv_of_core (setMtH_core _ _ _), ↓mtNext_pv, ↓pv_ite, ite_self, id_eq, ↓pv_of_mk, pv_eta]))

theorem mtOperands_pv (e : Nat) (s : State) : (mtOperands e s).pv = s.pv := by
  unfold mtOperands
  repeat' (first | with_reducible rfl | (simp only [↓mtDrain_pv, ↓pv_ite, ite_self, id_eq, ↓pv_of_mk, pv_eta]; done) | split | (simp only [↓mtDrain_pv, ↓pv_ite, ite_self, id_eq, ↓pv_of_mk, pv_eta]))

theorem mtNops_pv (e n : Nat) (s : State) : (mtNops e n s).pv = s.pv := by
  induction n generalizing s with
  | zero => rfl
  | succ n ih =>
    unfold mtNops
    repeat' (first | with_reducible rfl | (simp only [ih, mtIssue_pv, pv_of_core (fetchEcc_core _ _ _)]; done) | split)

theorem mtStep_pv {f : Nat → State → State} (h : ∀ w s, (f w s).pv = s.pv) (e : MtFetch) (op : Nat) (s : State) : (mtStep e op f s).pv = s.pv := by
  unfold mtStep
  repeat' (first | with_reducible rfl | (simp only [h, mtNops_pv, mtError_pv, pv_of_core (fetchEcc_core _ _ _)]; done) | split | dsimp only)

theorem mtExecEcc_pv (e : Nat) (ecc : Ecc) (mk : State → MtOp) (s : State) : (mtExecEcc e ecc mk s).pv = s.pv := by
  unfold mtExecEcc
  repeat' (first | with_reducible rfl | (simp only [↓mtOperands_pv, ↓pv_of_core (mtReadEcc_core _ _ _), ↓mtError_pv, ↓mtIssue_pv, ↓pv_ite, ite_self, id_eq, ↓pv_of_mk, pv_eta]; done) | split | (simp only [↓mtOperands_pv, ↓pv_of_core (mtReadEcc_core _ _ _), ↓mtError_pv, ↓mtIssue_pv, ↓pv_ite, ite_self, id_eq, ↓pv_of_mk, pv_eta]))

theorem mtExec_pv (e : Nat) (mk : State → MtOp) (s : State) : (mtExec e mk s).pv = s.pv := by
  unfold mtExec
  repeat' (first | with_reducible rfl | (simp only [↓mtExecEcc_pv, ↓pv_ite, ite_self, id_eq, ↓pv_of_mk, pv_eta]; done) | split | (simp only [↓mtExecEcc_pv, ↓pv_ite, ite_self, id_eq, ↓pv_of_mk, pv_eta]))

theorem mtBr_pv (e w : Nat) (s : State) : (mtBr e w s).pv = s.pv := by
  unfold mtBr
  repeat' (first | with_reducible rfl | (simp only [↓mtError_pv, ↓pv_of_core (mtBranch_core _ _ _ _), ↓pv_of_core (mtRetire_core _ _ _ _), ↓pv_ite, ite_self, id_eq, ↓pv_of_mk, pv_eta]; done) | split | (simp only [↓mtError_pv, ↓pv_of_core (mtBranch_core _ _ _ _), ↓pv_of_core (mtRetire_core _ _ _ _), ↓pv_ite, ite_self, id_eq, ↓pv_of_mk, pv_eta]))

theorem mtBrf_pv (e w : Nat) (s : State) : (mtBrf e w s).pv = s.pv := by
  unfold mtBrf
  repeat' (first | with_reducible rfl | (simp only [↓mtError_pv, ↓mtOperands_pv, ↓pv_of_core (mtBranch_core _ _ _ _), ↓pv_of_core (mtRetire_core _ _ _ _), ↓mtNext_pv, ↓pv_ite, ite_self, id_eq, ↓pv_of_mk, pv_eta]; done) | split | (simp only [↓mtError_pv, ↓mtOperands_pv, ↓pv_of_core (mtBranch_core _ _ _ _), ↓pv_of_core (mtRetire_core _ _ _ _), ↓mtNext_pv, ↓pv_ite, ite_self, id_eq, ↓pv_of_mk, pv_eta]))

theorem mtLoop_pv (e w : Nat) (s : State) : (mtLoop e w s).pv = s.pv := by
  unfold mtLoop
  repeat' (first | with_reducible rfl | (simp only [↓mtError_pv, ↓pv_of_core (mtRetire_core _ _ _ _), ↓pv_of_core (setMtH_core _ _ _), ↓mtNext_pv, ↓pv_ite, ite_self, id_eq, ↓pv_of_mk, pv_eta]; done) | split | (simp only [↓mtError_pv, ↓pv_of_core (mtRetire_core _ _ _ _), ↓pv_of_core (setMtH_core _ _ _), ↓mtNext_pv, ↓pv_ite, ite_self, id_eq, ↓pv_of_mk, pv_eta]))

theorem waitEnd_pv (e c : Nat) (s : State) : (waitEnd e c s).pv = s.pv := by
  unfold waitEnd
  repeat' (first | with_reducible rfl | (simp only [↓pv_of_core (mtRetire_core _ _ _ _), ↓pv_of_core (setMtH_core _ _ _), ↓mtNext_pv, ↓pv_ite, ite_self, id_eq, ↓pv_of_mk, pv_eta]; done) | split | (simp only [↓pv_of_core (mtRetire_core _ _ _ _), ↓pv_of_core (setMtH_core _ _ _), ↓mtNext_pv, ↓pv_ite, ite_self, id_eq, ↓pv_of_mk, pv_eta]))

theorem mtWaite_pv (e w : Nat) (s : State) : (mtWaite e w s).pv = s.pv := by
  unfold mtWaite
  repeat' (first | with_reducible rfl | (simp only [↓mtError_pv, ↓waitEnd_pv, ↓pv_of_core (setMtH_core _ _ _), ↓pv_ite, ite_self, id_eq, ↓pv_of_mk, pv_eta]; done) | split | (simp only [↓mtError_pv, ↓waitEnd_pv, ↓pv_of_core (setMtH_core _ _ _), ↓pv_ite, ite_self, id_eq, ↓pv_of_mk, pv_eta]))

theorem mtWaiteTimeout_pv (e w : Nat) (s : State) : (mtWaiteTimeout e w s).pv = s.pv := by
  unfold mtWaiteTimeout
  repeat' (first | with_reducible rfl | (simp only [↓waitEnd_pv, ↓pv_of_core (setBit_core _ _ _ _ _), ↓pv_of_core (overrun_core _ _ _ _), ↓pv_ite, ite_self, id_eq, ↓pv_of_mk, pv_eta]; done) | split | (simp only [↓waitEnd_pv, ↓pv_of_core (setBit_core _ _ _ _ _), ↓pv_of_core (overrun_core _ _ _ _), ↓pv_ite, ite_self, id_eq, ↓pv_of_mk, pv_eta]))

theorem mtHalt_pv (e w : Nat) (s : State) : (mtHalt e w s).pv = s.pv := by
  unfold mtHalt
  repeat' (first | with_reducible rfl | (simp only [↓mtError_pv, ↓mtEnding_pv, ↓pv_ite, ite_self, id_eq, ↓pv_of_mk, pv_eta]; done) | split | (simp only [↓mtError_pv, ↓mtEnding_pv, ↓pv_ite, ite_self, id_eq, ↓pv_of_mk, pv_eta]))

theorem boundary_pv (doms : List Nat) (s : State) : (boundary doms s).pv = s.pv := by
  unfold boundary
  repeat' (first | with_reducible rfl | (simp only [↓pv_of_core (keepArmed_core _ _ _), ↓pv_of_core (detBoundaries_core _ _), ↓transferPages_pv, ↓mtBoundary_pv, ↓pv_ite, ite_self, id_eq, ↓pv_of_mk, pv_eta]; done) | split | (with_reducible refine Eq.trans (forRange_pv (fun _ _ => ?_) _ _) ?_) | (simp only [↓pv_of_core (keepArmed_core _ _ _), ↓pv_of_core (detBoundaries_core _ _), ↓transferPages_pv, ↓mtBoundary_pv, ↓pv_ite, ite_self, id_eq, ↓pv_of_mk, pv_eta]))

theorem slotActions_pv (s : State) : (slotActions s).pv = s.pv := by
  unfold slotActions
  repeat' (first | with_reducible rfl | (simp only [↓pv_of_core (setSlotH_core _ _ _), ↓boundary_pv, ↓pv_of_core (triggerSet_core _ _), ↓pv_of_core (resync_core _ _), ↓pv_of_core (mtRequest_core _ _ _ _), ↓pv_of_core (pulse_core _ _ _), ↓pv_ite, ite_self, id_eq, ↓pv_of_mk, pv_eta]; done) | split | (with_reducible refine Eq.trans (foldl_pv (fun _ _ => ?_) _ _) ?_) | (simp only [↓pv_of_core (setSlotH_core _ _ _), ↓boundary_pv, ↓pv_of_core (triggerSet_core _ _), ↓pv_of_core (resync_core _ _), ↓pv_of_core (mtRequest_core _ _ _ _), ↓pv_of_core (pulse_core _ _ _), ↓pv_ite, ite_self, id_eq, ↓pv_of_mk, pv_eta]))

theorem commStored_pv (s : State) : (commStored s).pv = s.pv := by
  unfold commStored
  repeat' (first | with_reducible rfl | (simp only [↓pv_of_core (candStat_core _ _ _ _), ↓pv_of_core (setRg_core _ _ _ _), ↓pv_of_core (setSc_core _ _), ↓pv_of_core (scOutputs_core _), ↓pv_of_core (scGen_core _), ↓pv_of_core (setFld_core _ _ _ _ _ _), ↓pv_of_core (scFail_core _ _), ↓pv_ite, ite_self, id_eq, ↓pv_of_mk, pv_eta]; done) | split | (simp only [↓pv_of_core (candStat_core _ _ _ _), ↓pv_of_core (setRg_core _ _ _ _), ↓pv_of_core (setSc_core _ _), ↓pv_of_core (scOutputs_core _), ↓pv_of_core (scGen_core _), ↓pv_of_core (setFld_core _ _ _ _ _ _), ↓pv_of_core (scFail_core _ _), ↓pv_ite, ite_self, id_eq, ↓pv_of_mk, pv_eta]))

theorem ethTxDone_pv (s : State) : (ethTxDone s).pv = s.pv := by
  unfold ethTxDone
  repeat' (first | with_reducible rfl | (simp only [↓pv_of_core (setEth_core _ _), ↓pv_of_core (ethKick_core _), ↓pv_of_core (flag_core _ _ _), ↓pv_of_core (incWrap_core _ _ _ _ _ _), ↓pv_ite, ite_self, id_eq, ↓pv_of_mk, pv_eta]; done) | split | (simp only [↓pv_of_core (setEth_core _ _), ↓pv_of_core (ethKick_core _), ↓pv_of_core (flag_core _ _ _), ↓pv_of_core (incWrap_core _ _ _ _ _ _), ↓pv_ite, ite_self, id_eq, ↓pv_of_mk, pv_eta]))

theorem ringStore_pv (frame : List Nat) (ts : Option (Nat × Nat)) (s : State) : (ringStore frame ts s).pv = s.pv := by
  unfold ringStore
  repeat' (first | with_reducible rfl | (simp only [↓pv_of_core (ethCount_core _ _), ↓pv_of_core (flag_core _ _ _), ↓pv_of_core (incWrap_core _ _ _ _ _ _), ↓pv_of_core (bwSeen_core _ _ _ _), ↓pv_ite, ite_self, id_eq, ↓pv_of_mk, pv_eta]; done) | split | (simp only [↓pv_of_core (ethCount_core _ _), ↓pv_of_core (flag_core _ _ _), ↓pv_of_core (incWrap_core _ _ _ _ _ _), ↓pv_of_core (bwSeen_core _ _ _ _), ↓pv_ite, ite_self, id_eq, ↓pv_of_mk, pv_eta]))

theorem fwStart_pv (s : State) : (fwStart s).pv = s.pv := by
  unfold fwStart
  repeat' (first | with_reducible rfl | (simp only [↓pv_of_core (setFld_core _ _ _ _ _ _), ↓pv_of_core (setEth_core _ _), ↓pv_ite, ite_self, id_eq, ↓pv_of_mk, pv_eta]; done) | split | (simp only [↓pv_of_core (setFld_core _ _ _ _ _ _), ↓pv_of_core (setEth_core _ _), ↓pv_ite, ite_self, id_eq, ↓pv_of_mk, pv_eta]))

theorem fwStart_mem (s : State) : (fwStart s).mem = s.mem := by
  unfold fwStart
  repeat' (first | with_reducible rfl | (simp only [↓mem_of_core (setFld_core _ _ _ _ _ _), ↓mem_of_core (setEth_core _ _), ↓mem_ite, ite_self, id_eq, ↓mem_of_mk]; done) | split | (simp only [↓mem_of_core (setFld_core _ _ _ _ _ _), ↓mem_of_core (setEth_core _ _), ↓mem_ite, ite_self, id_eq, ↓mem_of_mk]))

theorem fwDone_pv (ok : Bool) (s : State) : (fwDone ok s).pv = s.pv := by
  unfold fwDone
  repeat' (first | with_reducible rfl | (simp only [↓pv_of_core (setEth_core _ _), ↓pv_of_core (flag_core _ _ _), ↓pv_of_core (setFld_core _ _ _ _ _ _), ↓pv_ite, ite_self, id_eq, ↓pv_of_mk, pv_eta]; done) | split | (simp only [↓pv_of_core (setEth_core _ _), ↓pv_of_core (flag_core _ _ _), ↓pv_of_core (setFld_core _ _ _ _ _ _), ↓pv_ite, ite_self, id_eq, ↓pv_of_mk, pv_eta]))

theorem ethEff_pv (o v : Nat) (was : Bool) (s : State) : (ethEff o v was s).pv = s.pv := by
  unfold ethEff
  repeat' (first | with_reducible rfl | (simp only [↓pv_of_core (setEth_core _ _), ↓pv_of_core (ethKick_core _), ↓fwStart_pv, ↓pv_ite, ite_self, id_eq, ↓pv_of_mk, pv_eta]; done) | split | (simp only [↓pv_of_core (setEth_core _ _), ↓pv_of_core (ethKick_core _), ↓fwStart_pv, ↓pv_ite, ite_self, id_eq, ↓pv_of_mk, pv_eta]))

theorem ethEff_mem (o v : Nat) (was : Bool) (s : State) : (ethEff o v was s).mem = s.mem := by
  unfold ethEff
  repeat' (first | with_reducible rfl | (simp only [↓mem_of_core (setEth_core _ _), ↓mem_of_core (ethKick_core _), ↓fwStart_mem, ↓mem_ite, ite_self, id_eq, ↓mem_of_mk]; done) | split | (simp only [↓mem_of_core (setEth_core _ _), ↓mem_of_core (ethKick_core _), ↓fwStart_mem, ↓mem_ite, ite_self, id_eq, ↓mem_of_mk]))

theorem ethWrite_pv (acc : Access) (o v : Nat) (s : State) : (ethWrite acc o v s).pv = s.pv := by
  unfold ethWrite
  repeat' (first | with_reducible rfl | (simp only [↓pv_of_core (refuse_core _ _ _ _ _ _), ↓ethEff_pv, ↓pv_ite, ite_self, id_eq, ↓pv_of_mk, pv_eta]; done) | split | (with_reducible refine Eq.trans (busStore_pv (fun _ => ?_) _) ?_) | (simp only [↓pv_of_core (refuse_core _ _ _ _ _ _), ↓ethEff_pv, ↓pv_ite, ite_self, id_eq, ↓pv_of_mk, pv_eta]))

theorem ethWrite_mem (acc : Access) (o v : Nat) (s : State) : (ethWrite acc o v s).mem = s.mem := by
  unfold ethWrite
  repeat' (first | with_reducible rfl | (simp only [↓mem_of_core (refuse_core _ _ _ _ _ _), ↓ethEff_mem, ↓mem_ite, ite_self, id_eq, ↓mem_of_mk]; done) | split | (with_reducible refine Eq.trans (busStore_mem (fun _ => ?_) _) ?_) | (simp only [↓mem_of_core (refuse_core _ _ _ _ _ _), ↓ethEff_mem, ↓mem_ite, ite_self, id_eq, ↓mem_of_mk]))

theorem setLedNv_pv (h : LedNv) (s : State) : (setLedNv h s).pv = s.pv := by
  unfold setLedNv
  repeat' (first | with_reducible rfl | (simp only [↓pv_ite, ite_self, id_eq, ↓pv_of_mk, pv_eta]; done) | split | (simp only [↓pv_ite, ite_self, id_eq, ↓pv_of_mk, pv_eta]))

theorem setBaseline_pv (i v : Nat) (s : State) : (setBaseline i v s).pv = s.pv := by
  unfold setBaseline
  repeat' (first | with_reducible rfl | (simp only [↓pv_ite, ite_self, id_eq, ↓pv_of_mk, pv_eta]; done) | split | (simp only [↓pv_ite, ite_self, id_eq, ↓pv_of_mk, pv_eta]))

theorem takeBaseline_pv (i v : Nat) (s : State) : (takeBaseline i v s).pv = s.pv := by
  unfold takeBaseline
  repeat' (first | with_reducible rfl | (simp only [↓setBaseline_pv, ↓pv_ite, ite_self, id_eq, ↓pv_of_mk, pv_eta]; done) | split | (simp only [↓setBaseline_pv, ↓pv_ite, ite_self, id_eq, ↓pv_of_mk, pv_eta]))

theorem ledRecord_pv (kind i v : Nat) (s : State) : (ledRecord kind i v s).pv = s.pv := by
  unfold ledRecord
  repeat' (first | with_reducible rfl | (simp only [↓setLedNv_pv, ↓pv_of_core (flag_core _ _ _), ↓pv_of_core (setRg_core _ _ _ _), ↓pv_ite, ite_self, id_eq, ↓pv_of_mk, pv_eta]; done) | split | (simp only [↓setLedNv_pv, ↓pv_of_core (flag_core _ _ _), ↓pv_of_core (setRg_core _ _ _ _), ↓pv_ite, ite_self, id_eq, ↓pv_of_mk, pv_eta]))

theorem ronWindow_pv (c : Nat) (up : Bool) (s : State) : (ronWindow c up s).pv = s.pv := by
  unfold ronWindow
  repeat' (first | with_reducible rfl | (simp only [↓pv_of_core (setLedChan_core _ _ _), ↓takeBaseline_pv, ↓ledRecord_pv, ↓setLedNv_pv, ↓pv_ite, ite_self, id_eq, ↓pv_of_mk, pv_eta]; done) | split | (simp only [↓pv_of_core (setLedChan_core _ _ _), ↓takeBaseline_pv, ↓ledRecord_pv, ↓setLedNv_pv, ↓pv_ite, ite_self, id_eq, ↓pv_of_mk, pv_eta]))

theorem vthPut_pv (c v : Nat) (s : State) : (vthPut c v s).pv = s.pv := by
  unfold vthPut
  repeat' (first | with_reducible rfl | (simp only [↓takeBaseline_pv, ↓pv_of_core (setLed_core _ _), ↓ledRecord_pv, ↓setLedNv_pv, ↓pv_ite, ite_self, id_eq, ↓pv_of_mk, pv_eta]; done) | split | (simp only [↓takeBaseline_pv, ↓pv_of_core (setLed_core _ _), ↓ledRecord_pv, ↓setLedNv_pv, ↓pv_ite, ite_self, id_eq, ↓pv_of_mk, pv_eta]))

theorem vthMeasure_pv (c v : Nat) (s : State) : (vthMeasure c v s).pv = s.pv := by
  unfold vthMeasure
  repeat' (first | with_reducible rfl | (simp only [↓pv_of_core (setLedChan_core _ _ _), ↓vthPut_pv, ↓pv_of_core (freeStep_core _), ↓pv_ite, ite_self, id_eq, ↓pv_of_mk, pv_eta]; done) | split | (simp only [↓pv_of_core (setLedChan_core _ _ _), ↓vthPut_pv, ↓pv_of_core (freeStep_core _), ↓pv_ite, ite_self, id_eq, ↓pv_of_mk, pv_eta]))

theorem zthRecord_pv (t : Nat) (s : State) : (zthRecord t s).pv = s.pv := by
  unfold zthRecord
  repeat' (first | with_reducible rfl | (simp only [↓pv_of_core (setLed_core _ _), ↓takeBaseline_pv, ↓ledRecord_pv, ↓setLedNv_pv, ↓pv_ite, ite_self, id_eq, ↓pv_of_mk, pv_eta]; done) | split | (simp only [↓pv_of_core (setLed_core _ _), ↓takeBaseline_pv, ↓ledRecord_pv, ↓setLedNv_pv, ↓pv_ite, ite_self, id_eq, ↓pv_of_mk, pv_eta]))

theorem capMeasure_pv (d20 d60 : Nat) (s : State) : (capMeasure d20 d60 s).pv = s.pv := by
  unfold capMeasure
  repeat' (first | with_reducible rfl | (simp only [↓pv_of_core (setLed_core _ _), ↓takeBaseline_pv, ↓ledRecord_pv, ↓setLedNv_pv, ↓pv_ite, ite_self, id_eq, ↓pv_of_mk, pv_eta]; done) | split | (simp only [↓pv_of_core (setLed_core _ _), ↓takeBaseline_pv, ↓ledRecord_pv, ↓setLedNv_pv, ↓pv_ite, ite_self, id_eq, ↓pv_of_mk, pv_eta]))

theorem scrWindow_pv (c : Nat) (s : State) : (scrWindow c s).pv = s.pv := by
  unfold scrWindow
  repeat' (first | with_reducible rfl | (simp only [↓pv_of_core (setLedChan_core _ _ _), ↓ledRecord_pv, ↓setLedNv_pv, ↓pv_ite, ite_self, id_eq, ↓pv_of_mk, pv_eta]; done) | split | (simp only [↓pv_of_core (setLedChan_core _ _ _), ↓ledRecord_pv, ↓setLedNv_pv, ↓pv_ite, ite_self, id_eq, ↓pv_of_mk, pv_eta]))

theorem xtalReading_pv (s : State) : (xtalReading s).pv = s.pv := by
  unfold xtalReading
  repeat' (first | with_reducible rfl | (simp only [↓pv_of_core (setLed_core _ _), ↓ledRecord_pv, ↓setLedNv_pv, ↓pv_ite, ite_self, id_eq, ↓pv_of_mk, pv_eta]; done) | split | (simp only [↓pv_of_core (setLed_core _ _), ↓ledRecord_pv, ↓setLedNv_pv, ↓pv_ite, ite_self, id_eq, ↓pv_of_mk, pv_eta]))

theorem ledReset_pv (s : State) : (ledReset s).pv = s.pv := by
  unfold ledReset
  repeat' (first | with_reducible rfl | (simp only [↓setLedNv_pv, ↓pv_ite, ite_self, id_eq, ↓pv_of_mk, pv_eta]; done) | split | (simp only [↓setLedNv_pv, ↓pv_ite, ite_self, id_eq, ↓pv_of_mk, pv_eta]))

theorem planDelay_pv (dly m : Nat) (s : State) : (planDelay dly m s).pv = s.pv := by
  unfold planDelay
  repeat' (first | with_reducible rfl | (simp only [↓pv_of_core (planPage_core _ _ _), ↓setBaseline_pv, ↓pv_ite, ite_self, id_eq, ↓pv_of_mk, pv_eta]; done) | split | (simp only [↓pv_of_core (planPage_core _ _ _), ↓setBaseline_pv, ↓pv_ite, ite_self, id_eq, ↓pv_of_mk, pv_eta]))

theorem planApply_pv (p : Plan) (s : State) : (planApply p s).pv = s.pv := by
  unfold planApply
  repeat' (first | with_reducible rfl | (simp only [↓pv_of_core (planShow_core _ _), ↓pv_of_core (planPage_core _ _ _), ↓planDelay_pv, ↓setLedNv_pv, ↓pv_ite, ite_self, id_eq, ↓pv_of_mk, pv_eta]; done) | split | (with_reducible refine Eq.trans (forRange_pv (fun _ _ => ?_) _ _) ?_) | (simp only [↓pv_of_core (planShow_core _ _), ↓pv_of_core (planPage_core _ _ _), ↓planDelay_pv, ↓setLedNv_pv, ↓pv_ite, ite_self, id_eq, ↓pv_of_mk, pv_eta]))

theorem planAdopt_pv (ok : Bool) (s : State) : (planAdopt ok s).pv = s.pv := by
  unfold planAdopt
  repeat' (first | with_reducible rfl | (simp only [↓pv_of_core (setFld_core _ _ _ _ _ _), ↓pv_of_core (planFlags_core _ _), ↓planApply_pv, ↓pv_ite, ite_self, id_eq, ↓pv_of_mk, pv_eta]; done) | split | (simp only [↓pv_of_core (setFld_core _ _ _ _ _ _), ↓pv_of_core (planFlags_core _ _), ↓planApply_pv, ↓pv_ite, ite_self, id_eq, ↓pv_of_mk, pv_eta]))

theorem ledgerEff_pv (o v : Nat) (was : Bool) (s : State) : (ledgerEff o v was s).pv = s.pv := by
  unfold ledgerEff
  repeat' (first | with_reducible rfl | (simp only [↓ledReset_pv, ↓pv_of_core (flag_core _ _ _), ↓pv_of_core (setBit_core _ _ _ _ _), ↓pv_of_core (planShow_core _ _), ↓pv_of_core (planFlags_core _ _), ↓pv_of_core (setLed_core _ _), ↓pv_ite, ite_self, id_eq, ↓pv_of_mk, pv_eta]; done) | split | (simp only [↓ledReset_pv, ↓pv_of_core (flag_core _ _ _), ↓pv_of_core (setBit_core _ _ _ _ _), ↓pv_of_core (planShow_core _ _), ↓pv_of_core (planFlags_core _ _), ↓pv_of_core (setLed_core _ _), ↓pv_ite, ite_self, id_eq, ↓pv_of_mk, pv_eta]))

theorem ledgerWrite_pv (acc : Access) (o v : Nat) (s : State) : (ledgerWrite acc o v s).pv = s.pv := by
  unfold ledgerWrite
  repeat' (first | with_reducible rfl | (simp only [↓ledgerEff_pv, ↓pv_ite, ite_self, id_eq, ↓pv_of_mk, pv_eta]; done) | split | (with_reducible refine Eq.trans (busStore_pv (fun _ => ?_) _) ?_) | (simp only [↓ledgerEff_pv, ↓pv_ite, ite_self, id_eq, ↓pv_of_mk, pv_eta]))

theorem setStagH_pv (x : Nat) (h : StagHid) (s : State) : (setStagH x h s).pv = s.pv := by
  unfold setStagH
  repeat' (first | with_reducible rfl | (simp only [↓pv_ite, ite_self, id_eq, ↓pv_of_mk, pv_eta]; done) | split | (simp only [↓pv_ite, ite_self, id_eq, ↓pv_of_mk, pv_eta]))

theorem mpuLoad_pv (x : Nat) (s : State) : (mpuLoad x s).pv = s.pv := by
  unfold mpuLoad
  repeat' (first | with_reducible rfl | (simp only [↓setStagH_pv, ↓pv_ite, ite_self, id_eq, ↓pv_of_mk, pv_eta]; done) | split | (simp only [↓setStagH_pv, ↓pv_ite, ite_self, id_eq, ↓pv_of_mk, pv_eta]))

theorem mpuLoad_mem (x : Nat) (s : State) : (mpuLoad x s).mem = s.mem := by
  unfold mpuLoad
  repeat' (first | with_reducible rfl | (simp only [↓setStagH_mem, ↓mem_ite, ite_self, id_eq, ↓mem_of_mk]; done) | split | (simp only [↓setStagH_mem, ↓mem_ite, ite_self, id_eq, ↓mem_of_mk]))

theorem coreReset_pv (x : Nat) (s : State) : (coreReset x s).pv = s.pv := by
  unfold coreReset
  repeat' (first | with_reducible rfl | (simp only [↓mpuLoad_pv, ↓setStagH_pv, ↓pv_ite, ite_self, id_eq, ↓pv_of_mk, pv_eta]; done) | split | (simp only [↓mpuLoad_pv, ↓setStagH_pv, ↓pv_ite, ite_self, id_eq, ↓pv_of_mk, pv_eta]))

theorem coreReset_mem (x : Nat) (s : State) : (coreReset x s).mem = s.mem := by
  unfold coreReset
  repeat' (first | with_reducible rfl | (simp only [↓mpuLoad_mem, ↓setStagH_mem, ↓mem_ite, ite_self, id_eq, ↓mem_of_mk]; done) | split | (simp only [↓mpuLoad_mem, ↓setStagH_mem, ↓mem_ite, ite_self, id_eq, ↓mem_of_mk]))

theorem tcmClear_pv (x : Nat) (s : State) : (tcmClear x s).pv = s.pv := by
  unfold tcmClear
  repeat' (first | with_reducible rfl | (simp only [↓pv_ite, ite_self, id_eq, ↓pv_of_mk, pv_eta]; done) | split | (simp only [↓pv_ite, ite_self, id_eq, ↓pv_of_mk, pv_eta]))

theorem detect_pv (x cause seg : Nat) (sweep : Bool) (s : State) : (detect x cause seg sweep s).pv = s.pv := by
  unfold detect
  repeat' (first | with_reducible rfl | (simp only [↓pv_of_core (detectAgain_core _ _ _ _ _), ↓pv_of_core (setBit_core _ _ _ _ _), ↓pv_of_core (setFld_core _ _ _ _ _ _), ↓pv_of_core (flag_core _ _ _), ↓pv_of_core (detCount_core _ _ _), ↓tcmClear_pv, ↓coreReset_pv, ↓pv_of_core (setPair_core _ _ _ _), ↓pv_of_core (tagDiscard_core _ _), ↓pv_of_core (goLatched_core _ _), ↓pv_of_core (pairRefresh_core _), ↓pv_of_core (goSafe_core _ _), ↓pv_ite, ite_self, id_eq, ↓pv_of_mk, pv_eta]; done) | split | (simp only [↓pv_of_core (detectAgain_core _ _ _ _ _), ↓pv_of_core (setBit_core _ _ _ _ _), ↓pv_of_core (setFld_core _ _ _ _ _ _), ↓pv_of_core (flag_core _ _ _), ↓pv_of_core (detCount_core _ _ _), ↓tcmClear_pv, ↓coreReset_pv, ↓pv_of_core (setPair_core _ _ _ _), ↓pv_of_core (tagDiscard_core _ _), ↓pv_of_core (goLatched_core _ _), ↓pv_of_core (pairRefresh_core _), ↓pv_of_core (goSafe_core _ _), ↓pv_ite, ite_self, id_eq, ↓pv_of_mk, pv_eta]))

theorem pairResumeRun_pv (x : Nat) (s : State) : (pairResumeRun x s).pv = s.pv := by
  unfold pairResumeRun
  repeat' (first | with_reducible rfl | (simp only [↓pv_of_core (pairRefresh_core _), ↓pv_of_core (setBit_core _ _ _ _ _), ↓pv_of_core (setFld_core _ _ _ _ _ _), ↓setStagH_pv, ↓pv_ite, ite_self, id_eq, ↓pv_of_mk, pv_eta]; done) | split | (simp only [↓pv_of_core (pairRefresh_core _), ↓pv_of_core (setBit_core _ _ _ _ _), ↓pv_of_core (setFld_core _ _ _ _ _ _), ↓setStagH_pv, ↓pv_ite, ite_self, id_eq, ↓pv_of_mk, pv_eta]))

theorem pairResumeRun_mem (x : Nat) (s : State) : (pairResumeRun x s).mem = s.mem := by
  unfold pairResumeRun
  repeat' (first | with_reducible rfl | (simp only [↓mem_of_core (pairRefresh_core _), ↓mem_of_core (setBit_core _ _ _ _ _), ↓mem_of_core (setFld_core _ _ _ _ _ _), ↓setStagH_mem, ↓mem_ite, ite_self, id_eq, ↓mem_of_mk]; done) | split | (simp only [↓mem_of_core (pairRefresh_core _), ↓mem_of_core (setBit_core _ _ _ _ _), ↓mem_of_core (setFld_core _ _ _ _ _ _), ↓setStagH_mem, ↓mem_ite, ite_self, id_eq, ↓mem_of_mk]))

theorem haltCommand_pv (cmd t : Nat) (s : State) : (haltCommand cmd t s).pv = s.pv := by
  unfold haltCommand
  repeat' (first | with_reducible rfl | (simp only [↓pv_of_core (pairHalt_core _ _), ↓pairResumeRun_pv, ↓setStagH_pv, ↓pv_of_core (engineHalt_core _ _), ↓pv_of_core (engineResume_core _ _), ↓pv_ite, ite_self, id_eq, ↓pv_of_mk, pv_eta]; done) | split | (simp only [↓pv_of_core (pairHalt_core _ _), ↓pairResumeRun_pv, ↓setStagH_pv, ↓pv_of_core (engineHalt_core _ _), ↓pv_of_core (engineResume_core _ _), ↓pv_ite, ite_self, id_eq, ↓pv_of_mk, pv_eta]))

theorem haltCommand_mem (cmd t : Nat) (s : State) : (haltCommand cmd t s).mem = s.mem := by
  unfold haltCommand
  repeat' (first | with_reducible rfl | (simp only [↓mem_of_core (pairHalt_core _ _), ↓pairResumeRun_mem, ↓setStagH_mem, ↓mem_of_core (engineHalt_core _ _), ↓mem_of_core (engineResume_core _ _), ↓mem_ite, ite_self, id_eq, ↓mem_of_mk]; done) | split | (simp only [↓mem_of_core (pairHalt_core _ _), ↓pairResumeRun_mem, ↓setStagH_mem, ↓mem_of_core (engineHalt_core _ _), ↓mem_of_core (engineResume_core _ _), ↓mem_ite, ite_self, id_eq, ↓mem_of_mk]))

theorem dbgPut_pv (v : Nat) (s : State) : (dbgPut v s).pv = s.pv := by
  unfold dbgPut
  repeat' (first | with_reducible rfl | (simp only [↓setStagH_pv, ↓pv_ite, ite_self, id_eq, ↓pv_of_mk, pv_eta]; done) | split | (simp only [↓setStagH_pv, ↓pv_ite, ite_self, id_eq, ↓pv_of_mk, pv_eta]))

theorem dbgPut_mem (v : Nat) (s : State) : (dbgPut v s).mem = s.mem := by
  unfold dbgPut
  repeat' (first | with_reducible rfl | (simp only [↓setStagH_mem, ↓mem_ite, ite_self, id_eq, ↓mem_of_mk]; done) | split | (simp only [↓setStagH_mem, ↓mem_ite, ite_self, id_eq, ↓mem_of_mk]))

theorem debugWrite_pv (acc : Access) (o v : Nat) (s : State) : (debugWrite acc o v s).pv = s.pv := by
  unfold debugWrite
  repeat' (first | with_reducible rfl | (simp only [↓pv_of_core (authenticate_core _), ↓haltCommand_pv, ↓pv_of_core (setRg_core _ _ _ _), ↓dbgPut_pv, ↓pv_ite, ite_self, id_eq, ↓pv_of_mk, pv_eta]; done) | split | (with_reducible refine Eq.trans (busStore_pv (fun _ => ?_) _) ?_) | (simp only [↓pv_of_core (authenticate_core _), ↓haltCommand_pv, ↓pv_of_core (setRg_core _ _ _ _), ↓dbgPut_pv, ↓pv_ite, ite_self, id_eq, ↓pv_of_mk, pv_eta]))

theorem debugWrite_mem (acc : Access) (o v : Nat) (s : State) : (debugWrite acc o v s).mem = s.mem := by
  unfold debugWrite
  repeat' (first | with_reducible rfl | (simp only [↓mem_of_core (authenticate_core _), ↓haltCommand_mem, ↓mem_of_core (setRg_core _ _ _ _), ↓dbgPut_mem, ↓mem_ite, ite_self, id_eq, ↓mem_of_mk]; done) | split | (with_reducible refine Eq.trans (busStore_mem (fun _ => ?_) _) ?_) | (simp only [↓mem_of_core (authenticate_core _), ↓haltCommand_mem, ↓mem_of_core (setRg_core _ _ _ _), ↓dbgPut_mem, ↓mem_ite, ite_self, id_eq, ↓mem_of_mk]))

theorem azResult_pv (e : Nat × Int × Nat) (s : State) : (azResult e s).pv = s.pv := by
  unfold azResult
  repeat' (first | with_reducible rfl | (simp only [↓pv_of_core (setFld_core _ _ _ _ _ _), ↓pv_of_core (afterConfigChange_core _ _ _), ↓pv_of_core (flag_core _ _ _), ↓pv_of_core (setBit_core _ _ _ _ _), ↓setLedNv_pv, ↓pv_ite, ite_self, id_eq, ↓pv_of_mk, pv_eta]; done) | split | (simp only [↓pv_of_core (setFld_core _ _ _ _ _ _), ↓pv_of_core (afterConfigChange_core _ _ _), ↓pv_of_core (flag_core _ _ _), ↓pv_of_core (setBit_core _ _ _ _ _), ↓setLedNv_pv, ↓pv_ite, ite_self, id_eq, ↓pv_of_mk, pv_eta]))

theorem azResult_mem (e : Nat × Int × Nat) (s : State) : (azResult e s).mem = s.mem := by
  unfold azResult
  repeat' (first | with_reducible rfl | (simp only [↓mem_of_core (setFld_core _ _ _ _ _ _), ↓mem_of_core (afterConfigChange_core _ _ _), ↓mem_of_core (flag_core _ _ _), ↓mem_of_core (setBit_core _ _ _ _ _), ↓setLedNv_mem, ↓mem_ite, ite_self, id_eq, ↓mem_of_mk]; done) | split | (simp only [↓mem_of_core (setFld_core _ _ _ _ _ _), ↓mem_of_core (afterConfigChange_core _ _ _), ↓mem_of_core (flag_core _ _ _), ↓mem_of_core (setBit_core _ _ _ _ _), ↓setLedNv_mem, ↓mem_ite, ite_self, id_eq, ↓mem_of_mk]))

theorem azApply_pv (s : State) : (azApply s).pv = s.pv := by
  unfold azApply
  repeat' (first | with_reducible rfl | (simp only [↓setLedNv_pv, ↓azResult_pv, ↓pv_ite, ite_self, id_eq, ↓pv_of_mk, pv_eta]; done) | split | (with_reducible refine Eq.trans (foldl_pv (fun _ _ => ?_) _ _) ?_) | (simp only [↓setLedNv_pv, ↓azResult_pv, ↓pv_ite, ite_self, id_eq, ↓pv_of_mk, pv_eta]))

theorem azApply_mem (s : State) : (azApply s).mem = s.mem := by
  unfold azApply
  repeat' (first | with_reducible rfl | (simp only [↓setLedNv_mem, ↓azResult_mem, ↓mem_ite, ite_self, id_eq, ↓mem_of_mk]; done) | split | (with_reducible refine Eq.trans (foldl_mem (fun _ _ => ?_) _ _) ?_) | (simp only [↓setLedNv_mem, ↓azResult_mem, ↓mem_ite, ite_self, id_eq, ↓mem_of_mk]))

theorem readyEnter_pv (ok : Bool) (s : State) : (readyEnter ok s).pv = s.pv := by
  unfold readyEnter
  repeat' (first | with_reducible rfl | (simp only [↓azApply_pv, ↓planAdopt_pv, ↓calStoreEnd_pv, ↓pv_of_core (calStoreStart_core _ _), ↓pv_of_core (enterState_core _ _ _ _), ↓pv_of_core (calCompare_core _), ↓pv_ite, ite_self, id_eq, ↓pv_of_mk, pv_eta]; done) | split | (simp only [↓azApply_pv, ↓planAdopt_pv, ↓calStoreEnd_pv, ↓pv_of_core (calStoreStart_core _ _), ↓pv_of_core (enterState_core _ _ _ _), ↓pv_of_core (calCompare_core _), ↓pv_ite, ite_self, id_eq, ↓pv_of_mk, pv_eta]))

theorem stateCommand_pv (v : Nat) (s : State) : (stateCommand v s).pv = s.pv := by
  unfold stateCommand
  repeat' (first | with_reducible rfl | (simp only [↓pv_of_core (azStart_core _), ↓pv_of_core (profileApply_core _), ↓pv_of_core (enterState_core _ _ _ _), ↓pv_of_core (stopFrom_core _), ↓pv_of_core (enterHeld_core _ _), ↓pv_of_core (endDecisions_core _), ↓pv_of_core (stopComplete_core _), ↓restart_pv, ↓pv_ite, ite_self, id_eq, ↓pv_of_mk, pv_eta]; done) | split | (simp only [↓pv_of_core (azStart_core _), ↓pv_of_core (profileApply_core _), ↓pv_of_core (enterState_core _ _ _ _), ↓pv_of_core (stopFrom_core _), ↓pv_of_core (enterHeld_core _ _), ↓pv_of_core (endDecisions_core _), ↓pv_of_core (stopComplete_core _), ↓restart_pv, ↓pv_ite, ite_self, id_eq, ↓pv_of_mk, pv_eta]))

theorem stateCmd_pv (acc : Access) (v : Nat) (s : State) : (stateCmd acc v s).pv = s.pv := by
  unfold stateCmd
  repeat' (first | with_reducible rfl | (simp only [↓stateCommand_pv, ↓pv_ite, ite_self, id_eq, ↓pv_of_mk, pv_eta]; done) | split | (simp only [↓stateCommand_pv, ↓pv_ite, ite_self, id_eq, ↓pv_of_mk, pv_eta]))

theorem sysWrite_pv (acc : Access) (o v : Nat) (s : State) : (sysWrite acc o v s).pv = s.pv := by
  unfold sysWrite
  repeat' (first | with_reducible rfl | (simp only [↓pv_of_core (detClear_core _ _), ↓pv_of_core (degSetWrite_core _ _ _), ↓transferPages_pv, ↓stateCmd_pv, ↓pv_ite, ite_self, id_eq, ↓pv_of_mk, pv_eta]; done) | split | (with_reducible refine Eq.trans (busStore_pv (fun _ => ?_) _) ?_) | (simp only [↓pv_of_core (detClear_core _ _), ↓pv_of_core (degSetWrite_core _ _ _), ↓transferPages_pv, ↓stateCmd_pv, ↓pv_ite, ite_self, id_eq, ↓pv_of_mk, pv_eta]))

theorem confirm_pv (s : State) : (confirm s).pv = s.pv := by
  unfold confirm
  repeat' (first | with_reducible rfl | (simp only [↓pv_of_core (setBit_core _ _ _ _ _), ↓setBootRec_pv, ↓pv_ite, ite_self, id_eq, ↓pv_of_mk, pv_eta]; done) | split | (simp only [↓pv_of_core (setBit_core _ _ _ _ _), ↓setBootRec_pv, ↓pv_ite, ite_self, id_eq, ↓pv_of_mk, pv_eta]))

theorem advance_pv (s : State) : (advance s).pv = s.pv := by
  unfold advance
  repeat' (first | with_reducible rfl | (simp only [↓pv_of_core (setRg_core _ _ _ _), ↓pv_ite, ite_self, id_eq, ↓pv_of_mk, pv_eta]; done) | split | (simp only [↓pv_of_core (setRg_core _ _ _ _), ↓pv_ite, ite_self, id_eq, ↓pv_of_mk, pv_eta]))

theorem advance_mem (s : State) : (advance s).mem = s.mem := by
  unfold advance
  repeat' (first | with_reducible rfl | (simp only [↓mem_of_core (setRg_core _ _ _ _), ↓mem_ite, ite_self, id_eq, ↓mem_of_mk]; done) | split | (simp only [↓mem_of_core (setRg_core _ _ _ _), ↓mem_ite, ite_self, id_eq, ↓mem_of_mk]))

theorem bootWrite_pv (acc : Access) (o v : Nat) (s : State) : (bootWrite acc o v s).pv = s.pv := by
  unfold bootWrite
  repeat' (first | with_reducible rfl | (simp only [↓pv_of_core (setRg_core _ _ _ _), ↓setBootRec_pv, ↓confirm_pv, ↓advance_pv, ↓pv_ite, ite_self, id_eq, ↓pv_of_mk, pv_eta]; done) | split | (with_reducible refine Eq.trans (busStore_pv (fun _ => ?_) _) ?_) | (simp only [↓pv_of_core (setRg_core _ _ _ _), ↓setBootRec_pv, ↓confirm_pv, ↓advance_pv, ↓pv_ite, ite_self, id_eq, ↓pv_of_mk, pv_eta]))

theorem enableRestart_pv {w : Nat → State → State} (h : ∀ v s, (w v s).pv = s.pv) (p i : Nat) (s : State) :
    (enableRestart p i w s).pv = s.pv := by
  unfold enableRestart
  simp only [↓pv_ite, pv_of_core (setBit_core _ _ _ _ _), h, ite_self]

theorem enablePages_pv {e : Nat × Nat × (Nat → State → State)} (h : e ∈ enablePages) (v : Nat) (s : State) :
    (e.2.2 v s).pv = s.pv := by
  simp only [enablePages, List.mem_append, List.mem_cons, List.mem_map, List.not_mem_nil, or_false] at h
  rcases h with (((((((h | h) | ⟨_, _, h⟩) | ⟨_, _, h⟩) | ⟨_, _, h⟩) | ⟨_, _, h⟩) | h | h) | ⟨_, _, h⟩) | h | h <;> subst h <;>
    simp only [ledgerWrite_pv, mtWrite_pv, pv_of_core (bwWrite_core _ _ _ _), pv_of_core (atWrite_core _ _ _ _ _),
      pv_of_core (sdgWrite_core _ _ _ _ _), pv_of_core (sarWrite_core _ _ _ _ _), pv_of_core (rsvWrite_core _ _ _ _ _),
      pv_of_core (encWrite_core _ _ _ _), pv_of_core (hvsWrite_core _ _ _ _), pv_of_core (mtsWrite_core _ _ _ _),
      pv_of_core (pilotWrite_core _ _ _ _)]

theorem foldl_pv_mem {α : Type} {g : State → α → State} {l : List α} (h : ∀ a ∈ l, ∀ s, (g s a).pv = s.pv) (s : State) :
    (l.foldl g s).pv = s.pv := by
  induction l generalizing s with
  | nil => rfl
  | cons a l ih =>
    exact (ih (fun b hb => h b (List.mem_cons_of_mem _ hb)) _).trans (h a (List.mem_cons_self ..) s)

theorem enablesRestart_pv (s : State) : (enablesRestart s).pv = s.pv := by
  unfold enablesRestart
  refine Eq.trans (forRange_pv (fun x s => ?_) _ _) ?_
  · simp only [↓pv_ite, pv_of_core (tagSeed_core _ _), ite_self]
  refine foldl_pv_mem (fun e he s => ?_) s
  refine forRange_pv (fun i s => ?_) _ s
  simp only [↓pv_ite, enableRestart_pv (enablePages_pv he), ite_self]

theorem restoreComplete_pv (bad : List Nat) (s : State) : (restoreComplete bad s).pv = s.pv := by
  unfold restoreComplete
  repeat' (first | with_reducible rfl | (simp only [↓enablesRestart_pv, ↓pv_of_core (enterHeld_core _ _), ↓pv_of_core (faultsHold_core _), ↓mpuLoad_pv, ↓pv_of_core (mtsTransferred_core _ _), ↓pv_of_core (calRestore_core _), ↓pv_of_core (restoreImage_core _ _), ↓pv_ite, ite_self, id_eq, ↓pv_of_mk, pv_eta]; done) | split | (with_reducible refine Eq.trans (forRange_pv (fun _ _ => ?_) _ _) ?_) | (simp only [↓enablesRestart_pv, ↓pv_of_core (enterHeld_core _ _), ↓pv_of_core (faultsHold_core _), ↓mpuLoad_pv, ↓pv_of_core (mtsTransferred_core _ _), ↓pv_of_core (calRestore_core _), ↓pv_of_core (restoreImage_core _ _), ↓pv_ite, ite_self, id_eq, ↓pv_of_mk, pv_eta]))

theorem pageWrite_pv (acc : Access) (p o v : Nat) (s : State) : (pageWrite acc p o v s).pv = s.pv := by
  unfold pageWrite
  repeat' (first | with_reducible rfl | (simp only [↓pv_of_core (headerWrite_core _ _ _ _ _ _ _), ↓sysWrite_pv, ↓pv_of_core (supplyWrite_core _ _ _ _), ↓bootWrite_pv, ↓pv_of_core (cocoonWrite_core _ _ _ _), ↓pv_of_core (pactWrite_core _ _ _ _), ↓pv_of_core (hiveWrite_core _ _ _ _), ↓debugWrite_pv, ↓pv_of_core (antWrite_core _ _ _ _ _), ↓pv_of_core (bwWrite_core _ _ _ _), ↓ledgerWrite_pv, ↓pv_of_core (spareWrite_core _ _ _ _), ↓pv_of_core (stagWrite_core _ _ _ _ _), ↓pv_of_core (checkerWrite_core _ _ _ _), ↓pv_of_core (memctlWrite_core _ _ _ _), ↓pv_of_core (atWrite_core _ _ _ _ _), ↓pv_of_core (slotsWrite_core _ _ _ _ _), ↓pv_of_core (sdgWrite_core _ _ _ _ _), ↓pv_of_core (sarWrite_core _ _ _ _ _), ↓pv_of_core (rsvWrite_core _ _ _ _ _), ↓pv_of_core (encWrite_core _ _ _ _), ↓pv_of_core (hvsWrite_core _ _ _ _), ↓pv_of_core (setsWrite_core _ _ _ _), ↓pv_of_core (calWrite_core _ _ _ _), ↓mtWrite_pv, ↓pv_of_core (mtsWrite_core _ _ _ _), ↓pv_of_core (carWrite_core _ _ _ _ _), ↓pv_of_core (legWrite_core _ _ _ _ _), ↓pv_of_core (icWrite_core _ _ _ _ _), ↓pv_of_core (brakeWrite_core _ _ _ _), ↓pv_of_core (dfWrite_core _ _ _ _ _), ↓pv_of_core (hbWrite_core _ _ _ _), ↓pv_of_core (pilotWrite_core _ _ _ _), ↓pv_of_core (aduWrite_core _ _ _ _ _), ↓pv_of_core (kdWrite_core _ _ _ _ _), ↓ethWrite_pv, ↓pv_of_core (ptpWrite_core _ _ _ _), ↓pv_of_core (safelinkWrite_core _ _ _ _), ↓pv_ite, ite_self, id_eq, ↓pv_of_mk, pv_eta]; done) | split | (with_reducible refine Eq.trans (busStore_pv (fun _ => ?_) _) ?_) | (simp only [↓pv_of_core (headerWrite_core _ _ _ _ _ _ _), ↓sysWrite_pv, ↓pv_of_core (supplyWrite_core _ _ _ _), ↓bootWrite_pv, ↓pv_of_core (cocoonWrite_core _ _ _ _), ↓pv_of_core (pactWrite_core _ _ _ _), ↓pv_of_core (hiveWrite_core _ _ _ _), ↓debugWrite_pv, ↓pv_of_core (antWrite_core _ _ _ _ _), ↓pv_of_core (bwWrite_core _ _ _ _), ↓ledgerWrite_pv, ↓pv_of_core (spareWrite_core _ _ _ _), ↓pv_of_core (stagWrite_core _ _ _ _ _), ↓pv_of_core (checkerWrite_core _ _ _ _), ↓pv_of_core (memctlWrite_core _ _ _ _), ↓pv_of_core (atWrite_core _ _ _ _ _), ↓pv_of_core (slotsWrite_core _ _ _ _ _), ↓pv_of_core (sdgWrite_core _ _ _ _ _), ↓pv_of_core (sarWrite_core _ _ _ _ _), ↓pv_of_core (rsvWrite_core _ _ _ _ _), ↓pv_of_core (encWrite_core _ _ _ _), ↓pv_of_core (hvsWrite_core _ _ _ _), ↓pv_of_core (setsWrite_core _ _ _ _), ↓pv_of_core (calWrite_core _ _ _ _), ↓mtWrite_pv, ↓pv_of_core (mtsWrite_core _ _ _ _), ↓pv_of_core (carWrite_core _ _ _ _ _), ↓pv_of_core (legWrite_core _ _ _ _ _), ↓pv_of_core (icWrite_core _ _ _ _ _), ↓pv_of_core (brakeWrite_core _ _ _ _), ↓pv_of_core (dfWrite_core _ _ _ _ _), ↓pv_of_core (hbWrite_core _ _ _ _), ↓pv_of_core (pilotWrite_core _ _ _ _), ↓pv_of_core (aduWrite_core _ _ _ _ _), ↓pv_of_core (kdWrite_core _ _ _ _ _), ↓ethWrite_pv, ↓pv_of_core (ptpWrite_core _ _ _ _), ↓pv_of_core (safelinkWrite_core _ _ _ _), ↓pv_ite, ite_self, id_eq, ↓pv_of_mk, pv_eta]))

theorem busWrite_pv (acc : Access) (a n v : Nat) (s0 : State) : (busWrite acc a n v s0).pv = s0.pv := by
  unfold busWrite
  repeat' (first | with_reducible rfl | (simp only [↓pv_of_core (busErr_core _), ↓pv_of_core (busEcc_core _ _ _ _), ↓pageWrite_pv, ↓pv_of_core (tallyAt_core _ _ _ _ _), ↓windowWrite_pv, ↓pv_ite, ite_self, id_eq, ↓pv_of_mk, pv_eta]; done) | split | (with_reducible refine Eq.trans (onBus_pv (fun _ => ?_) _) ?_) | (simp only [↓pv_of_core (busErr_core _), ↓pv_of_core (busEcc_core _ _ _ _), ↓pageWrite_pv, ↓pv_of_core (tallyAt_core _ _ _ _ _), ↓windowWrite_pv, ↓pv_ite, ite_self, id_eq, ↓pv_of_mk, pv_eta]))

theorem headerRow_pv (acc : Access) (p o v : Nat) (s : State) : (headerRow acc p o v s).pv = s.pv := by
  unfold headerRow
  repeat' (first | with_reducible rfl | (simp only [↓pageWrite_pv, ↓pv_ite, ite_self, id_eq, ↓pv_of_mk, pv_eta]; done) | split | (with_reducible refine Eq.trans (onBus_pv (fun _ => ?_) _) ?_) | (simp only [↓pageWrite_pv, ↓pv_ite, ite_self, id_eq, ↓pv_of_mk, pv_eta]))

theorem setGReg_pv (x : Nat) (r : Fin 32) (v : Word) (s : State) : (setGReg x r v s).pv = s.pv := by
  unfold setGReg
  repeat' (first | with_reducible rfl | (simp only [↓setStagH_pv, ↓pv_ite, ite_self, id_eq, ↓pv_of_mk, pv_eta]; done) | split | (simp only [↓setStagH_pv, ↓pv_ite, ite_self, id_eq, ↓pv_of_mk, pv_eta]))

theorem setGReg_mem (x : Nat) (r : Fin 32) (v : Word) (s : State) : (setGReg x r v s).mem = s.mem := by
  unfold setGReg
  repeat' (first | with_reducible rfl | (simp only [↓setStagH_mem, ↓mem_ite, ite_self, id_eq, ↓mem_of_mk]; done) | split | (simp only [↓setStagH_mem, ↓mem_ite, ite_self, id_eq, ↓mem_of_mk]))

theorem setFReg_pv (x : Nat) (r : Fin 32) (v : Word) (s : State) : (setFReg x r v s).pv = s.pv := by
  unfold setFReg
  repeat' (first | with_reducible rfl | (simp only [↓setStagH_pv, ↓pv_ite, ite_self, id_eq, ↓pv_of_mk, pv_eta]; done) | split | (simp only [↓setStagH_pv, ↓pv_ite, ite_self, id_eq, ↓pv_of_mk, pv_eta]))

theorem setFReg_mem (x : Nat) (r : Fin 32) (v : Word) (s : State) : (setFReg x r v s).mem = s.mem := by
  unfold setFReg
  repeat' (first | with_reducible rfl | (simp only [↓setStagH_mem, ↓mem_ite, ite_self, id_eq, ↓mem_of_mk]; done) | split | (simp only [↓setStagH_mem, ↓mem_ite, ite_self, id_eq, ↓mem_of_mk]))

theorem setStagPc_pv (x pc : Nat) (s : State) : (setStagPc x pc s).pv = s.pv := by
  unfold setStagPc
  repeat' (first | with_reducible rfl | (simp only [↓setStagH_pv, ↓pv_ite, ite_self, id_eq, ↓pv_of_mk, pv_eta]; done) | split | (simp only [↓setStagH_pv, ↓pv_ite, ite_self, id_eq, ↓pv_of_mk, pv_eta]))

theorem setStagPc_mem (x pc : Nat) (s : State) : (setStagPc x pc s).mem = s.mem := by
  unfold setStagPc
  repeat' (first | with_reducible rfl | (simp only [↓setStagH_mem, ↓mem_ite, ite_self, id_eq, ↓mem_of_mk]; done) | split | (simp only [↓setStagH_mem, ↓mem_ite, ite_self, id_eq, ↓mem_of_mk]))

theorem stepMade_pv (x : Nat) (s : State) : (stepMade x s).pv = s.pv := by
  unfold stepMade
  repeat' (first | with_reducible rfl | (simp only [↓pv_of_core (flag_core _ _ _), ↓setStagH_pv, ↓pv_ite, ite_self, id_eq, ↓pv_of_mk, pv_eta]; done) | split | (simp only [↓pv_of_core (flag_core _ _ _), ↓setStagH_pv, ↓pv_ite, ite_self, id_eq, ↓pv_of_mk, pv_eta]))

theorem stepMade_mem (x : Nat) (s : State) : (stepMade x s).mem = s.mem := by
  unfold stepMade
  repeat' (first | with_reducible rfl | (simp only [↓mem_of_core (flag_core _ _ _), ↓setStagH_mem, ↓mem_ite, ite_self, id_eq, ↓mem_of_mk]; done) | split | (simp only [↓mem_of_core (flag_core _ _ _), ↓setStagH_mem, ↓mem_ite, ite_self, id_eq, ↓mem_of_mk]))

theorem excEntry_pv (x : Nat) (e : Exc) (epc : Nat) (s : State) : (excEntry x e epc s).pv = s.pv := by
  unfold excEntry
  repeat' (first | with_reducible rfl | (simp only [↓pv_of_core (freeStep_core _), ↓setStagPc_pv, ↓setStagH_pv, ↓pv_ite, ite_self, id_eq, ↓pv_of_mk, pv_eta]; done) | split | (simp only [↓pv_of_core (freeStep_core _), ↓setStagPc_pv, ↓setStagH_pv, ↓pv_ite, ite_self, id_eq, ↓pv_of_mk, pv_eta]))

theorem excEntry_mem (x : Nat) (e : Exc) (epc : Nat) (s : State) : (excEntry x e epc s).mem = s.mem := by
  unfold excEntry
  repeat' (first | with_reducible rfl | (simp only [↓mem_of_core (freeStep_core _), ↓setStagPc_mem, ↓setStagH_mem, ↓mem_ite, ite_self, id_eq, ↓mem_of_mk]; done) | split | (simp only [↓mem_of_core (freeStep_core _), ↓setStagPc_mem, ↓setStagH_mem, ↓mem_ite, ite_self, id_eq, ↓mem_of_mk]))

theorem excRaise_pv (x : Nat) (e : Exc) (epc : Nat) (s : State) : (excRaise x e epc s).pv = s.pv := by
  unfold excRaise
  repeat' (first | with_reducible rfl | (simp only [↓detect_pv, ↓pv_of_core (antCount_core _ _ _ _), ↓excEntry_pv, ↓pv_ite, ite_self, id_eq, ↓pv_of_mk, pv_eta]; done) | split | (simp only [↓detect_pv, ↓pv_of_core (antCount_core _ _ _ _), ↓excEntry_pv, ↓pv_ite, ite_self, id_eq, ↓pv_of_mk, pv_eta]))

theorem dcacheFill_pv (x a n : Nat) (s : State) : (dcacheFill x a n s).pv = s.pv := by
  unfold dcacheFill
  repeat' (first | with_reducible rfl | (simp only [↓setStagH_pv, ↓pv_ite, ite_self, id_eq, ↓pv_of_mk, pv_eta]; done) | split | (with_reducible refine Eq.trans (foldl_pv (fun _ _ => ?_) _ _) ?_) | (simp only [↓setStagH_pv, ↓pv_ite, ite_self, id_eq, ↓pv_of_mk, pv_eta]))

theorem dcacheFill_mem (x a n : Nat) (s : State) : (dcacheFill x a n s).mem = s.mem := by
  unfold dcacheFill
  repeat' (first | with_reducible rfl | (simp only [↓setStagH_mem, ↓mem_ite, ite_self, id_eq, ↓mem_of_mk]; done) | split | (with_reducible refine Eq.trans (foldl_mem (fun _ _ => ?_) _ _) ?_) | (simp only [↓setStagH_mem, ↓mem_ite, ite_self, id_eq, ↓mem_of_mk]))

theorem dcacheStore_pv (x a n v : Nat) (s : State) : (dcacheStore x a n v s).pv = s.pv := by
  unfold dcacheStore
  repeat' (first | with_reducible rfl | (simp only [↓setStagH_pv, ↓pv_ite, ite_self, id_eq, ↓pv_of_mk, pv_eta]; done) | split | (with_reducible refine Eq.trans (foldl_pv (fun _ _ => ?_) _ _) ?_) | (simp only [↓setStagH_pv, ↓pv_ite, ite_self, id_eq, ↓pv_of_mk, pv_eta]))

theorem dcacheStore_mem (x a n v : Nat) (s : State) : (dcacheStore x a n v s).mem = s.mem := by
  unfold dcacheStore
  repeat' (first | with_reducible rfl | (simp only [↓setStagH_mem, ↓mem_ite, ite_self, id_eq, ↓mem_of_mk]; done) | split | (with_reducible refine Eq.trans (foldl_mem (fun _ _ => ?_) _ _) ?_) | (simp only [↓setStagH_mem, ↓mem_ite, ite_self, id_eq, ↓mem_of_mk]))

theorem stagRead_pv (x a n : Nat) (hit : Bool) (s : State) : (stagRead x a n hit s).pv = s.pv := by
  unfold stagRead
  repeat' (first | with_reducible rfl | (simp only [↓dcacheFill_pv, ↓pv_of_core (busRead_core _ _ _ _), ↓pv_of_core (antCount_core _ _ _ _), ↓pv_ite, ite_self, id_eq, ↓pv_of_mk, pv_eta]; done) | split | (simp only [↓dcacheFill_pv, ↓pv_of_core (busRead_core _ _ _ _), ↓pv_of_core (antCount_core _ _ _ _), ↓pv_ite, ite_self, id_eq, ↓pv_of_mk, pv_eta]))

theorem stagRead_mem (x a n : Nat) (hit : Bool) (s : State) : (stagRead x a n hit s).mem = s.mem := by
  unfold stagRead
  repeat' (first | with_reducible rfl | (simp only [↓dcacheFill_mem, ↓mem_of_core (busRead_core _ _ _ _), ↓mem_of_core (antCount_core _ _ _ _), ↓mem_ite, ite_self, id_eq, ↓mem_of_mk]; done) | split | (simp only [↓dcacheFill_mem, ↓mem_of_core (busRead_core _ _ _ _), ↓mem_of_core (antCount_core _ _ _ _), ↓mem_ite, ite_self, id_eq, ↓mem_of_mk]))

theorem loadPut_pv (k : LoadOp) (x : Nat) (t : Fin 32) (v : Word) (s : State) : (loadPut k x t v s).pv = s.pv := by
  unfold loadPut
  repeat' (first | with_reducible rfl | (simp only [↓setFReg_pv, ↓setGReg_pv, ↓pv_ite, ite_self, id_eq, ↓pv_of_mk, pv_eta]; done) | split | (simp only [↓setFReg_pv, ↓setGReg_pv, ↓pv_ite, ite_self, id_eq, ↓pv_of_mk, pv_eta]))

theorem loadPut_mem (k : LoadOp) (x : Nat) (t : Fin 32) (v : Word) (s : State) : (loadPut k x t v s).mem = s.mem := by
  unfold loadPut
  repeat' (first | with_reducible rfl | (simp only [↓setFReg_mem, ↓setGReg_mem, ↓mem_ite, ite_self, id_eq, ↓mem_of_mk]; done) | split | (simp only [↓setFReg_mem, ↓setGReg_mem, ↓mem_ite, ite_self, id_eq, ↓mem_of_mk]))

theorem storeErr_pv (x next a : Nat) (pact : Bool) (s : State) : (storeErr x next a pact s).pv = s.pv := by
  unfold storeErr
  repeat' (first | with_reducible rfl | (simp only [↓setStagH_pv, ↓pv_ite, ite_self, id_eq, ↓pv_of_mk, pv_eta]; done) | split | (simp only [↓setStagH_pv, ↓pv_ite, ite_self, id_eq, ↓pv_of_mk, pv_eta]))

theorem storeErr_mem (x next a : Nat) (pact : Bool) (s : State) : (storeErr x next a pact s).mem = s.mem := by
  unfold storeErr
  repeat' (first | with_reducible rfl | (simp only [↓setStagH_mem, ↓mem_ite, ite_self, id_eq, ↓mem_of_mk]; done) | split | (simp only [↓setStagH_mem, ↓mem_ite, ite_self, id_eq, ↓mem_of_mk]))

theorem storeOut_pv (x next a n v : Nat) (ecc : Ecc) (acc : Access) (s : State) : (storeOut x next a n v ecc acc s).pv = s.pv := by
  unfold storeOut
  repeat' (first | with_reducible rfl | (simp only [↓pv_of_core (antCount_core _ _ _ _), ↓storeErr_pv, ↓pv_of_core (pactDeny_core _ _ _ _ _), ↓pv_of_core (stagEcc_core _ _ _ _ _), ↓busWrite_pv, ↓dcacheStore_pv, ↓pv_ite, ite_self, id_eq, ↓pv_of_mk, pv_eta]; done) | split | (simp only [↓pv_of_core (antCount_core _ _ _ _), ↓storeErr_pv, ↓pv_of_core (pactDeny_core _ _ _ _ _), ↓pv_of_core (stagEcc_core _ _ _ _ _), ↓busWrite_pv, ↓dcacheStore_pv, ↓pv_ite, ite_self, id_eq, ↓pv_of_mk, pv_eta]))

theorem storeBusError_pv (x : Nat) (s : State) : (storeBusError x s).pv = s.pv := by
  unfold storeBusError
  repeat' (first | with_reducible rfl | (simp only [↓excRaise_pv, ↓setStagH_pv, ↓pv_ite, ite_self, id_eq, ↓pv_of_mk, pv_eta]; done) | split | (simp only [↓excRaise_pv, ↓setStagH_pv, ↓pv_ite, ite_self, id_eq, ↓pv_of_mk, pv_eta]))

theorem sysLatch_pv (x r : Nat) (s : State) : (sysLatch x r s).pv = s.pv := by
  unfold sysLatch
  repeat' (first | with_reducible rfl | (simp only [↓setStagH_pv, ↓pv_ite, ite_self, id_eq, ↓pv_of_mk, pv_eta]; done) | split | (simp only [↓setStagH_pv, ↓pv_ite, ite_self, id_eq, ↓pv_of_mk, pv_eta]))

theorem sysLatch_mem (x r : Nat) (s : State) : (sysLatch x r s).mem = s.mem := by
  unfold sysLatch
  repeat' (first | with_reducible rfl | (simp only [↓setStagH_mem, ↓mem_ite, ite_self, id_eq, ↓mem_of_mk]; done) | split | (simp only [↓setStagH_mem, ↓mem_ite, ite_self, id_eq, ↓mem_of_mk]))

theorem putSysReg_pv (x r v : Nat) (s : State) : (putSysReg x r v s).pv = s.pv := by
  unfold putSysReg
  repeat' (first | with_reducible rfl | (simp only [↓setStagH_pv, ↓pv_ite, ite_self, id_eq, ↓pv_of_mk, pv_eta]; done) | split | (simp only [↓setStagH_pv, ↓pv_ite, ite_self, id_eq, ↓pv_of_mk, pv_eta]))

theorem putSysReg_mem (x r v : Nat) (s : State) : (putSysReg x r v s).mem = s.mem := by
  unfold putSysReg
  repeat' (first | with_reducible rfl | (simp only [↓setStagH_mem, ↓mem_ite, ite_self, id_eq, ↓mem_of_mk]; done) | split | (simp only [↓setStagH_mem, ↓mem_ite, ite_self, id_eq, ↓mem_of_mk]))

theorem interruptFor_pv (x : Nat) (e : Edge) (s : State) : (interruptFor x e s).pv = s.pv := by
  unfold interruptFor
  repeat' (first | with_reducible rfl | (simp only [↓pv_of_core (setPend_core _ _ _ _), ↓pv_of_core (setRg_core _ _ _ _), ↓excEntry_pv, ↓pv_of_core (antCount_core _ _ _ _), ↓setStagH_pv, ↓pv_ite, ite_self, id_eq, ↓pv_of_mk, pv_eta]; done) | split | (simp only [↓pv_of_core (setPend_core _ _ _ _), ↓pv_of_core (setRg_core _ _ _ _), ↓excEntry_pv, ↓pv_of_core (antCount_core _ _ _ _), ↓setStagH_pv, ↓pv_ite, ite_self, id_eq, ↓pv_of_mk, pv_eta]))

theorem interruptFor_mem (x : Nat) (e : Edge) (s : State) : (interruptFor x e s).mem = s.mem := by
  unfold interruptFor
  repeat' (first | with_reducible rfl | (simp only [↓mem_of_core (setPend_core _ _ _ _), ↓mem_of_core (setRg_core _ _ _ _), ↓excEntry_mem, ↓mem_of_core (antCount_core _ _ _ _), ↓setStagH_mem, ↓mem_ite, ite_self, id_eq, ↓mem_of_mk]; done) | split | (simp only [↓mem_of_core (setPend_core _ _ _ _), ↓mem_of_core (setRg_core _ _ _ _), ↓excEntry_mem, ↓mem_of_core (antCount_core _ _ _ _), ↓setStagH_mem, ↓mem_ite, ite_self, id_eq, ↓mem_of_mk]))

theorem dmaWord_pv (c : Nat) (ecc : WordEcc) (s : State) : (dmaWord c ecc s).pv = s.pv := by
  unfold dmaWord
  repeat' (first | with_reducible rfl | (simp only [↓pv_of_core (busRead_core _ _ _ _), ↓pv_of_core (dmaEcc_core _ _ _ _), ↓pv_of_core (dmaFail_core _ _ _), ↓busWrite_pv, ↓pv_of_core (dmaNext_core _ _), ↓pv_ite, ite_self, id_eq, ↓pv_of_mk, pv_eta]; done) | split | (simp only [↓pv_of_core (busRead_core _ _ _ _), ↓pv_of_core (dmaEcc_core _ _ _ _), ↓pv_of_core (dmaFail_core _ _ _), ↓busWrite_pv, ↓pv_of_core (dmaNext_core _ _), ↓pv_ite, ite_self, id_eq, ↓pv_of_mk, pv_eta]))

theorem remoteAccess_pv (wr : Bool) (a v : Nat) (s : State) : (remoteAccess wr a v s).pv = s.pv := by
  unfold remoteAccess
  repeat' (first | with_reducible rfl | (simp only [↓pv_of_core (busErr_core _), ↓busWrite_pv, ↓pv_of_core (busRead_core _ _ _ _), ↓pv_ite, ite_self, id_eq, ↓pv_of_mk, pv_eta]; done) | split | (simp only [↓pv_of_core (busErr_core _), ↓busWrite_pv, ↓pv_of_core (busRead_core _ _ _ _), ↓pv_ite, ite_self, id_eq, ↓pv_of_mk, pv_eta]))

theorem remoteRun_pv (bs : List Nat) (wr : Bool) (i k : Nat) (r : List Nat × Nat) (s : State) :
    (remoteRun bs wr i k r s).2.pv = s.pv := by
  induction k generalizing i r s with
  | zero => rfl
  | succ k ih =>
    unfold remoteRun
    refine (ih _ _ _).trans ?_
    split <;> exact remoteAccess_pv _ _ _ _

theorem remoteRequest_pv (bs : List Nat) (s : State) : (remoteRequest bs s).pv = s.pv := by
  unfold remoteRequest
  repeat' (first | with_reducible rfl | (simp only [↓pv_of_core (ethOffer_core _ _ _), ↓pv_of_core (setEth_core _ _), ↓remoteRun_pv, ↓pv_ite, ite_self, id_eq, ↓pv_of_mk, pv_eta]; done) | split | (simp only [↓pv_of_core (ethOffer_core _ _ _), ↓pv_of_core (setEth_core _ _), ↓remoteRun_pv, ↓pv_ite, ite_self, id_eq, ↓pv_of_mk, pv_eta]))

theorem frameIn_pv (bs : List Nat) (fcs : Bool) (ago : Nat) (s : State) : (frameIn bs fcs ago s).pv = s.pv := by
  unfold frameIn
  repeat' (first | with_reducible rfl | (simp only [↓pv_of_core (ethCount_core _ _), ↓ringStore_pv, ↓remoteRequest_pv, ↓pv_of_core (slDatagram_core _ _), ↓pv_ite, ite_self, id_eq, ↓pv_of_mk, pv_eta]; done) | split | (simp only [↓pv_of_core (ethCount_core _ _), ↓ringStore_pv, ↓remoteRequest_pv, ↓pv_of_core (slDatagram_core _ _), ↓pv_ite, ite_self, id_eq, ↓pv_of_mk, pv_eta]))

theorem tickEnd_pv (s : State) : (tickEnd s).pv = s.pv := by
  unfold tickEnd
  repeat' (first | with_reducible rfl | (simp only [↓pv_of_core (setsTick_core _), ↓pv_of_core (trackTick_core _ _), ↓pv_of_core (slotsTick_core _), ↓pv_of_core (correct_core _ _), ↓pv_of_core (aduTick_core _ _), ↓pv_of_core (brakeTick_core _), ↓pv_of_core (ironTick_core _), ↓pv_of_core (fireflyTick_core _), ↓pv_of_core (sweepTick_core _ _), ↓mtTickEnd_pv, ↓pv_of_core (bwTick_core _), ↓pv_of_core (antTick_core _ _), ↓pv_of_core (ptpTick_core _), ↓pv_of_core (kdSettle_core _ _), ↓pv_of_core (dfTick_core _ _), ↓pv_ite, ite_self, id_eq, ↓pv_of_mk, pv_eta]; done) | split | (with_reducible refine Eq.trans (forRange_pv (fun _ _ => ?_) _ _) ?_) | (simp only [↓pv_of_core (setsTick_core _), ↓pv_of_core (trackTick_core _ _), ↓pv_of_core (slotsTick_core _), ↓pv_of_core (correct_core _ _), ↓pv_of_core (aduTick_core _ _), ↓pv_of_core (brakeTick_core _), ↓pv_of_core (ironTick_core _), ↓pv_of_core (fireflyTick_core _), ↓pv_of_core (sweepTick_core _ _), ↓mtTickEnd_pv, ↓pv_of_core (bwTick_core _), ↓pv_of_core (antTick_core _ _), ↓pv_of_core (ptpTick_core _), ↓pv_of_core (kdSettle_core _ _), ↓pv_of_core (dfTick_core _ _), ↓pv_ite, ite_self, id_eq, ↓pv_of_mk, pv_eta]))

theorem tickBegin_pv (s : State) : (tickBegin s).pv = s.pv := by
  unfold tickBegin
  repeat' (first | with_reducible rfl | (simp only [↓pv_of_core (aduTick_core _ _), ↓pv_of_core (hbTick_core _), ↓pv_of_core (safeLegs_core _), ↓pv_of_core (legBegin_core _ _), ↓pv_of_core (chainSync_core _), ↓pv_of_core (lockDeliver_core _ _), ↓pv_of_core (carStarts_core _), ↓pv_of_core (safeClear_core _ _), ↓mtSync_pv, ↓pv_of_core (sarDue_core _ _), ↓pv_ite, ite_self, id_eq, ↓pv_of_mk, pv_eta]; done) | split | (with_reducible refine Eq.trans (forRange_pv (fun _ _ => ?_) _ _) ?_) | (simp only [↓pv_of_core (aduTick_core _ _), ↓pv_of_core (hbTick_core _), ↓pv_of_core (safeLegs_core _), ↓pv_of_core (legBegin_core _ _), ↓pv_of_core (chainSync_core _), ↓pv_of_core (lockDeliver_core _ _), ↓pv_of_core (carStarts_core _), ↓pv_of_core (safeClear_core _ _), ↓mtSync_pv, ↓pv_of_core (sarDue_core _ _), ↓pv_ite, ite_self, id_eq, ↓pv_of_mk, pv_eta]))

theorem pclk_pv (s : State) : (pclk s).pv = s.pv := by
  unfold pclk
  repeat' (first | with_reducible rfl | (simp only [↓tickEnd_pv, ↓tickBegin_pv, ↓pv_ite, ite_self, id_eq, ↓pv_of_mk, pv_eta]; done) | split | (simp only [↓tickEnd_pv, ↓tickBegin_pv, ↓pv_ite, ite_self, id_eq, ↓pv_of_mk, pv_eta]))

end Sys2Proof.Machine
end

