-- ==== Sys2Proof/Laws/Device.lean ====
section
/-! SUPPORT. What the drive blocks' operations leave alone: every register of the system pages (`State.low`); and the transitions of
the device state (R88). -/
namespace Sys2Proof.Machine
set_option linter.all false
/-- The registers of the system pages (below 0x20), as a function of the key. -/
def State.low (s : State) : Nat → Nat := fun a => if a < 0x20000 then (sget (regDefault s.variant) s.regs a).toNat else 0

theorem rg_of_low {s t : State} (h : t.low = s.low) {p o : Nat} (hp : p < 0x20) (ho : o < 4096) : rg t p o = rg s p o := by
  have := congrFun h (p * 4096 + o)
  have hk : p * 4096 + o < 0x20000 := by omega
  simpa only [State.low, hk, if_true, rg] using this

theorem low_of_mk {x0 a x2 x3 x4 b x6 x7 x8 x9 x10 x11 x12 x13 x14 x15 x16 x17 x18 x19 x20 x21 x22 x23 x24 x25 x26 x27 x28 x29 x30 x31 x32 x33 x34 x35 x36 x37 x38 x39 x40 x41 x42 x43 x44 x45 x46 x47 x48 x49 x50 x51 x52 x53 x54} : (State.mk x0 a x2 x3 x4 b x6 x7 x8 x9 x10 x11 x12 x13 x14 x15 x16 x17 x18 x19 x20 x21 x22 x23 x24 x25 x26 x27 x28 x29 x30 x31 x32 x33 x34 x35 x36 x37 x38 x39 x40 x41 x42 x43 x44 x45 x46 x47 x48 x49 x50 x51 x52 x53 x54).low = fun k => if k < 0x20000 then (sget (regDefault a) b k).toNat else 0 := (rfl)

theorem low_eta (s : State) : (fun k => if k < 0x20000 then (sget (regDefault s.variant) s.regs k).toNat else 0) = s.low := (rfl)

theorem low_ite (c : Prop) [Decidable c] (a b : State) : (if c then a else b).low = if c then a.low else b.low := apply_ite _ _ _ _

theorem foldl_low {α : Type} {g : State → α → State} (h : ∀ s a, (g s a).low = s.low) (l : List α) (s : State) :
    (l.foldl g s).low = s.low := by
  induction l generalizing s with
  | nil => rfl
  | cons a l ih => exact (ih _).trans (h s a)

theorem forRange_low {g : Nat → State → State} (h : ∀ i s, (g i s).low = s.low) (n : Nat) (s : State) :
    (forRange n g s).low = s.low := foldl_low (fun s i => h i s) _ s

theorem setRg_low {p : Nat} (h : 0x20 ≤ p) (o v : Nat) (s : State) : (setRg p o v s).low = s.low := by
  funext a
  simp only [State.low, setRg]
  by_cases ha : a < 0x20000
  · have hne : a ≠ p * 4096 + o := by omega
    simp only [ha, if_true, sget_sset_other _ _ _ hne]
  · simp only [ha, if_false]

theorem setFld_low {p : Nat} (h : 0x20 ≤ p) (o lo w x : Nat) (s : State) : (setFld p o lo w x s).low = s.low := setRg_low h _ _ _
theorem setBit_low {p : Nat} (h : 0x20 ≤ p) (o i : Nat) (b : Bool) (s : State) : (setBit p o i b s).low = s.low := setFld_low h _ _ _ _ _
theorem incSat_low {p : Nat} (h : 0x20 ≤ p) (o lo w n : Nat) (s : State) : (incSat p o lo w n s).low = s.low := setFld_low h _ _ _ _ _
theorem incWrap_low {p : Nat} (h : 0x20 ≤ p) (o lo w n : Nat) (s : State) : (incWrap p o lo w n s).low = s.low := setFld_low h _ _ _ _ _
theorem flag_low {p : Nat} (h : 0x20 ≤ p) (i : Nat) (s : State) : (flag p i s).low = s.low := setRg_low h _ _ _
theorem setBlockState_low {p : Nat} (h : 0x20 ≤ p) (c : Nat) (s : State) : (setBlockState p c s).low = s.low := setFld_low h _ _ _ _ _
theorem flagIf_low {p : Nat} (h : 0x20 ≤ p) (c : Bool) (i : Nat) (s : State) : (flagIf c p i s).low = s.low := by
  cases c
  · rfl
  · exact flag_low h i s

theorem pAT_ge (n : Nat) : 0x20 ≤ pAT n := by unfold pAT; omega
theorem pSLOTS_ge (n : Nat) : 0x20 ≤ pSLOTS n := by unfold pSLOTS; omega
theorem pSDG_ge (n : Nat) : 0x20 ≤ pSDG n := by unfold pSDG; omega
theorem pSAR_ge (n : Nat) : 0x20 ≤ pSAR n := by unfold pSAR; omega
theorem pRSV_ge (n : Nat) : 0x20 ≤ pRSV n := by unfold pRSV; omega
theorem pENC_ge : 0x20 ≤ pENC := by decide
theorem pHVS_ge : 0x20 ≤ pHVS := by decide
theorem pSETS_ge : 0x20 ≤ pSETS := by decide
theorem pCAL_ge : 0x20 ≤ pCAL := by decide
theorem pMT_ge (n : Nat) : 0x20 ≤ pMT n := by unfold pMT; omega
theorem pMTS_ge : 0x20 ≤ pMTS := by decide
theorem pCAR_ge (n : Nat) : 0x20 ≤ pCAR n := by unfold pCAR; omega
theorem pLEG_ge (n : Nat) : 0x20 ≤ pLEG n := by unfold pLEG; omega
theorem pIC_ge (n : Nat) : 0x20 ≤ pIC n := by unfold pIC; omega
theorem pBRAKE_ge : 0x20 ≤ pBRAKE := by decide
theorem pDF_ge (n : Nat) : 0x20 ≤ pDF n := by unfold pDF; omega
theorem pHB_ge : 0x20 ≤ pHB := by decide
theorem pPILOT_ge : 0x20 ≤ pPILOT := by decide
theorem pADU_ge (n : Nat) : 0x20 ≤ pADU n := by unfold pADU; omega
theorem pKD_ge (n : Nat) : 0x20 ≤ pKD n := by unfold pKD; omega
theorem pETH_ge : 0x20 ≤ pETH := by decide
theorem pPTP_ge : 0x20 ≤ pPTP := by decide
theorem pSC_ge (n : Nat) : 0x20 ≤ pSC n := by unfold pSC; omega
theorem pSL_ge : 0x20 ≤ pSL := by decide

theorem setTrk_low (n : Nat) (t : Track) (s : State) : (setTrk n t s).low = s.low := (rfl)
theorem setSlotH_low (i : Nat) (x : SlotHid) (s : State) : (setSlotH i x s).low = s.low := (rfl)
theorem setSetH_low (k : Nat) (x : SetHid) (s : State) : (setSetH k x s).low = s.low := (rfl)
theorem setSarH_low (n : Nat) (x : SarHid) (s : State) : (setSarH n x s).low = s.low := (rfl)
theorem setRsvH_low (r : Nat) (x : RsvHid) (s : State) : (setRsvH r x s).low = s.low := (rfl)
theorem setMtH_low (e : Nat) (h : MtHid) (s : State) : (setMtH e h s).low = s.low := (rfl)
theorem setCapH_low (c : Nat) (x : CapHid) (s : State) : (setCapH c x s).low = s.low := (rfl)
theorem setInjH_low (c : Nat) (x : InjHid) (s : State) : (setInjH c x s).low = s.low := (rfl)
theorem setLegH_low (m : Nat) (l : LegHid) (s : State) : (setLegH m l s).low = s.low := (rfl)
theorem setCarH_low (n : Nat) (c : CarHid) (s : State) : (setCarH n c s).low = s.low := (rfl)
theorem setPairH_low (k : Nat) (p : PairHid) (s : State) : (setPairH k p s).low = s.low := (rfl)
theorem setGroupH_low (g : Nat) (x : GroupHid) (s : State) : (setGroupH g x s).low = s.low := (rfl)
theorem setDfH_low (i : Nat) (h : DfHid) (s : State) : (setDfH i h s).low = s.low := (rfl)
theorem setAduH_low (u : Nat) (h : AduHid) (s : State) : (setAduH u h s).low = s.low := (rfl)
theorem setKdH_low (k : Nat) (h : KdHid) (s : State) : (setKdH k h s).low = s.low := (rfl)
theorem setEth_low (h : EthHid) (s : State) : (setEth h s).low = s.low := (rfl)
theorem setSc_low (h : ScHid) (s : State) : (setSc h s).low = s.low := (rfl)
theorem setLed_low (h : LedHid) (s : State) : (setLed h s).low = s.low := (rfl)
theorem setLedNv_low (h : LedNv) (s : State) : (setLedNv h s).low = s.low := (rfl)
theorem setStagH_low (x : Nat) (h : StagHid) (s : State) : (setStagH x h s).low = s.low := (rfl)
theorem setAntH_low (x : Nat) (h : AntHid) (s : State) : (setAntH x h s).low = s.low := (rfl)
theorem setDmaH_low (c : Nat) (h : DmaCh) (s : State) : (setDmaH c h s).low = s.low := (rfl)
theorem freeStep_low (s : State) : (freeStep s).low = s.low := (rfl)
theorem bwSeen_low (ps : List Nat) (n : Nat) (wr : Bool) (s : State) : (bwSeen ps n wr s).low = s.low := by
  unfold bwSeen
  repeat' (first | with_reducible rfl | (simp only [↓low_ite, ite_self, id_eq, ↓low_of_mk, low_eta]; done) | split | (with_reducible refine Eq.trans (foldl_low (fun _ _ => ?_) _ _) ?_) | (simp only [↓low_ite, ite_self, id_eq, ↓low_of_mk, low_eta]))

theorem stagSeen_low (acc : Access) (dev den : Bool) (s : State) : (stagSeen acc dev den s).low = s.low := by
  unfold stagSeen
  repeat' (first | with_reducible rfl | (simp only [↓low_ite, ite_self, id_eq, ↓low_of_mk, low_eta]; done) | split | (simp only [↓low_ite, ite_self, id_eq, ↓low_of_mk, low_eta]))

theorem tally_low (acc : Access) (ps : List Nat) (n : Nat) (wr dev : Bool) (s : State) : (tally acc ps n wr dev s).low = s.low := by
  unfold tally
  repeat' (first | with_reducible rfl | (simp only [↓stagSeen_low, ↓bwSeen_low, ↓low_ite, ite_self, id_eq, ↓low_of_mk, low_eta]; done) | split | (simp only [↓stagSeen_low, ↓bwSeen_low, ↓low_ite, ite_self, id_eq, ↓low_of_mk, low_eta]))

theorem busErr_low (s : State) : (busErr s).low = s.low := by
  unfold busErr
  repeat' (first | with_reducible rfl | (simp only [↓low_ite, ite_self, id_eq, ↓low_of_mk, low_eta]; done) | split | (simp only [↓low_ite, ite_self, id_eq, ↓low_of_mk, low_eta]))

theorem copyCoeffs_low (e : Nat) (s : State) : (copyCoeffs e s).low = s.low := by
  unfold copyCoeffs
  repeat' (first | with_reducible rfl | (simp only [↓low_ite, ite_self, id_eq, ↓low_of_mk, low_eta]; done) | split | (with_reducible refine Eq.trans (foldl_low (fun _ _ => ?_) _ _) ?_) | (simp only [↓low_ite, ite_self, id_eq, ↓low_of_mk, low_eta]))

theorem forgetLines_low (p : Nat) (s : State) : (forgetLines p s).low = s.low := by
  unfold forgetLines
  repeat' (first | with_reducible rfl | (simp only [↓low_ite, ite_self, id_eq, ↓low_of_mk, low_eta]; done) | split | (simp only [↓low_ite, ite_self, id_eq, ↓low_of_mk, low_eta]))

theorem dropFallen_low (p : Nat) (s : State) : (dropFallen p s).low = s.low := by
  unfold dropFallen
  repeat' (first | with_reducible rfl | (simp only [↓low_ite, ite_self, id_eq, ↓low_of_mk, low_eta]; done) | split | (simp only [↓low_ite, ite_self, id_eq, ↓low_of_mk, low_eta]))

theorem pulseAt_low (t n p : Nat) (s : State) : (pulseAt t n p s).low = s.low := by
  unfold pulseAt
  repeat' (first | with_reducible rfl | (simp only [↓low_ite, ite_self, id_eq, ↓low_of_mk, low_eta]; done) | split | (simp only [↓low_ite, ite_self, id_eq, ↓low_of_mk, low_eta]))

theorem pulse_low (n p : Nat) (s : State) : (pulse n p s).low = s.low := by
  unfold pulse
  repeat' (first | with_reducible rfl | (simp only [↓pulseAt_low, ↓low_ite, ite_self, id_eq, ↓low_of_mk, low_eta]; done) | split | (simp only [↓pulseAt_low, ↓low_ite, ite_self, id_eq, ↓low_of_mk, low_eta]))

theorem setUpset_low (a : Nat) (e : Ecc) (s : State) : (setUpset a e s).low = s.low := by
  unfold setUpset
  repeat' (first | with_reducible rfl | (simp only [↓low_ite, ite_self, id_eq, ↓low_of_mk, low_eta]; done) | split | (simp only [↓low_ite, ite_self, id_eq, ↓low_of_mk, low_eta]))

theorem ethCount_low (i : Nat) (s : State) : (ethCount i s).low = s.low := by
  unfold ethCount
  repeat' (first | with_reducible rfl | (simp only [↓incSat_low (pETH_ge), ↓low_ite, ite_self, id_eq, ↓low_of_mk, low_eta]; done) | split | (simp only [↓incSat_low (pETH_ge), ↓low_ite, ite_self, id_eq, ↓low_of_mk, low_eta]))

theorem ethKick_low (s : State) : (ethKick s).low = s.low := by
  unfold ethKick
  repeat' (first | with_reducible rfl | (simp only [↓setEth_low, ↓bwSeen_low, ↓low_ite, ite_self, id_eq, ↓low_of_mk, low_eta]; done) | split | (simp only [↓setEth_low, ↓bwSeen_low, ↓low_ite, ite_self, id_eq, ↓low_of_mk, low_eta]))

theorem ethOffer_low (q : Nat) (f : List Nat) (s : State) : (ethOffer q f s).low = s.low := by
  unfold ethOffer
  repeat' (first | with_reducible rfl | (simp only [↓ethCount_low, ↓ethKick_low, ↓setEth_low, ↓low_ite, ite_self, id_eq, ↓low_of_mk, low_eta]; done) | split | (simp only [↓ethCount_low, ↓ethKick_low, ↓setEth_low, ↓low_ite, ite_self, id_eq, ↓low_of_mk, low_eta]))

theorem ethStream_low (d : UdpTo) (f : List Nat) (s : State) : (ethStream d f s).low = s.low := by
  unfold ethStream
  repeat' (first | with_reducible rfl | (simp only [↓ethCount_low, ↓ethKick_low, ↓setEth_low, ↓low_ite, ite_self, id_eq, ↓low_of_mk, low_eta]; done) | split | (simp only [↓ethCount_low, ↓ethKick_low, ↓setEth_low, ↓low_ite, ite_self, id_eq, ↓low_of_mk, low_eta]))

theorem streamSend_low (s : State) : (streamSend s).low = s.low := by
  unfold streamSend
  repeat' (first | with_reducible rfl | (simp only [↓ethStream_low, ↓setEth_low, ↓low_ite, ite_self, id_eq, ↓low_of_mk, low_eta]; done) | split | (simp only [↓ethStream_low, ↓setEth_low, ↓low_ite, ite_self, id_eq, ↓low_of_mk, low_eta]))

theorem streamRecord_low (r : List Nat) (s : State) : (streamRecord r s).low = s.low := by
  unfold streamRecord
  repeat' (first | with_reducible rfl | (simp only [↓ethCount_low, ↓streamSend_low, ↓setEth_low, ↓low_ite, ite_self, id_eq, ↓low_of_mk, low_eta]; done) | split | (with_reducible refine Eq.trans (foldl_low (fun _ _ => ?_) _ _) ?_) | (simp only [↓ethCount_low, ↓streamSend_low, ↓setEth_low, ↓low_ite, ite_self, id_eq, ↓low_of_mk, low_eta]))

theorem codeStep_low (c : Nat) (was now : ChanHid) (s : State) : (codeStep c was now s).low = s.low := by
  unfold codeStep
  repeat' (first | with_reducible rfl | (simp only [↓setFld_low (pIC_ge _), ↓low_ite, ite_self, id_eq, ↓low_of_mk, low_eta]; done) | split | (simp only [↓setFld_low (pIC_ge _), ↓low_ite, ite_self, id_eq, ↓low_of_mk, low_eta]))

theorem drivePair_low (k : Nat) (s : State) : (drivePair k s).low = s.low := by
  unfold drivePair
  repeat' (first | with_reducible rfl | (simp only [↓setPairH_low, ↓incWrap_low (pIC_ge _), ↓codeStep_low, ↓incSat_low (pIC_ge _), ↓low_ite, ite_self, id_eq, ↓low_of_mk, low_eta]; done) | split | (simp only [↓setPairH_low, ↓incWrap_low (pIC_ge _), ↓codeStep_low, ↓incSat_low (pIC_ge _), ↓low_ite, ite_self, id_eq, ↓low_of_mk, low_eta]))

theorem driveGroup_low (g : Nat) (s : State) : (driveGroup g s).low = s.low := by
  unfold driveGroup
  repeat' (first | with_reducible rfl | (simp only [↓drivePair_low, ↓low_ite, ite_self, id_eq, ↓low_of_mk, low_eta]; done) | split | (with_reducible refine Eq.trans (foldl_low (fun _ _ => ?_) _ _) ?_) | (simp only [↓drivePair_low, ↓low_ite, ite_self, id_eq, ↓low_of_mk, low_eta]))

theorem driveTile_low (t : Nat) (s : State) : (driveTile t s).low = s.low := by
  unfold driveTile
  repeat' (first | with_reducible rfl | (simp only [↓drivePair_low, ↓low_ite, ite_self, id_eq, ↓low_of_mk, low_eta]; done) | split | (with_reducible refine Eq.trans (forRange_low (fun _ _ => ?_) _ _) ?_) | (simp only [↓drivePair_low, ↓low_ite, ite_self, id_eq, ↓low_of_mk, low_eta]))

theorem refreshTile_low (t : Nat) (s : State) : (refreshTile t s).low = s.low := by
  unfold refreshTile
  repeat' (first | with_reducible rfl | (simp only [↓setFld_low (pIC_ge _), ↓driveGroup_low, ↓setGroupH_low, ↓setRg_low (pIC_ge _), ↓setBlockState_low (pIC_ge _), ↓driveTile_low, ↓low_ite, ite_self, id_eq, ↓low_of_mk, low_eta]; done) | split | (with_reducible refine Eq.trans (forRange_low (fun _ _ => ?_) _ _) ?_) | (simp only [↓setFld_low (pIC_ge _), ↓driveGroup_low, ↓setGroupH_low, ↓setRg_low (pIC_ge _), ↓setBlockState_low (pIC_ge _), ↓driveTile_low, ↓low_ite, ite_self, id_eq, ↓low_of_mk, low_eta]))

theorem refreshTiles_low (s : State) : (refreshTiles s).low = s.low := by
  unfold refreshTiles
  repeat' (first | with_reducible rfl | (simp only [↓refreshTile_low, ↓low_ite, ite_self, id_eq, ↓low_of_mk, low_eta]; done) | split | (with_reducible refine Eq.trans (forRange_low (fun _ _ => ?_) _ _) ?_) | (simp only [↓refreshTile_low, ↓low_ite, ite_self, id_eq, ↓low_of_mk, low_eta]))

theorem pairRelease_low (k : Nat) (s : State) : (pairRelease k s).low = s.low := by
  unfold pairRelease
  repeat' (first | with_reducible rfl | (simp only [↓setPairH_low, ↓low_ite, ite_self, id_eq, ↓low_of_mk, low_eta]; done) | split | (simp only [↓setPairH_low, ↓low_ite, ite_self, id_eq, ↓low_of_mk, low_eta]))

theorem setOutputs_low (m : Nat) (hi lo : Bool) (s : State) : (setOutputs m hi lo s).low = s.low := by
  unfold setOutputs
  repeat' (first | with_reducible rfl | (simp only [↓setFld_low (pLEG_ge _), ↓setLegH_low, ↓setPairH_low, ↓drivePair_low, ↓pairRelease_low, ↓low_ite, ite_self, id_eq, ↓low_of_mk, low_eta]; done) | split | (simp only [↓setFld_low (pLEG_ge _), ↓setLegH_low, ↓setPairH_low, ↓drivePair_low, ↓pairRelease_low, ↓low_ite, ite_self, id_eq, ↓low_of_mk, low_eta]))

theorem refreshOut_low (m : Nat) (s : State) : (refreshOut m s).low = s.low := by
  unfold refreshOut
  repeat' (first | with_reducible rfl | (simp only [↓setOutputs_low, ↓setBit_low (pLEG_ge _), ↓low_ite, ite_self, id_eq, ↓low_of_mk, low_eta]; done) | split | (simp only [↓setOutputs_low, ↓setBit_low (pLEG_ge _), ↓low_ite, ite_self, id_eq, ↓low_of_mk, low_eta]))

theorem clearPulses_low (m : Nat) (s : State) : (clearPulses m s).low = s.low := by
  unfold clearPulses
  repeat' (first | with_reducible rfl | (simp only [↓setRg_low (pLEG_ge _), ↓setBit_low (pLEG_ge _), ↓setLegH_low, ↓low_ite, ite_self, id_eq, ↓low_of_mk, low_eta]; done) | split | (simp only [↓setRg_low (pLEG_ge _), ↓setBit_low (pLEG_ge _), ↓setLegH_low, ↓low_ite, ite_self, id_eq, ↓low_of_mk, low_eta]))

theorem enterSafe_low (m cause : Nat) (s : State) : (enterSafe m cause s).low = s.low := by
  unfold enterSafe
  repeat' (first | with_reducible rfl | (simp only [↓clearPulses_low, ↓setFld_low (pLEG_ge _), ↓flag_low (pLEG_ge _), ↓setLegH_low, ↓low_ite, ite_self, id_eq, ↓low_of_mk, low_eta]; done) | split | (simp only [↓clearPulses_low, ↓setFld_low (pLEG_ge _), ↓flag_low (pLEG_ge _), ↓setLegH_low, ↓low_ite, ite_self, id_eq, ↓low_of_mk, low_eta]))

theorem safeClear_low (m : Nat) (s : State) : (safeClear m s).low = s.low := by
  unfold safeClear
  repeat' (first | with_reducible rfl | (simp only [↓setFld_low (pLEG_ge _), ↓setLegH_low, ↓low_ite, ite_self, id_eq, ↓low_of_mk, low_eta]; done) | split | (simp only [↓setFld_low (pLEG_ge _), ↓setLegH_low, ↓low_ite, ite_self, id_eq, ↓low_of_mk, low_eta]))

theorem safeCheck_low (m : Nat) (s : State) : (safeCheck m s).low = s.low := by
  unfold safeCheck
  repeat' (first | with_reducible rfl | (simp only [↓setFld_low (pLEG_ge _), ↓setLegH_low, ↓enterSafe_low, ↓safeClear_low, ↓low_ite, ite_self, id_eq, ↓low_of_mk, low_eta]; done) | split | (simp only [↓setFld_low (pLEG_ge _), ↓setLegH_low, ↓enterSafe_low, ↓safeClear_low, ↓low_ite, ite_self, id_eq, ↓low_of_mk, low_eta]))

theorem setOvr_low (m code : Nat) (s : State) : (setOvr m code s).low = s.low := by
  unfold setOvr
  repeat' (first | with_reducible rfl | (simp only [↓refreshOut_low, ↓setLegH_low, ↓low_ite, ite_self, id_eq, ↓low_of_mk, low_eta]; done) | split | (simp only [↓refreshOut_low, ↓setLegH_low, ↓low_ite, ite_self, id_eq, ↓low_of_mk, low_eta]))

theorem setDfPhSt_low (i p st : Nat) (s : State) : (setDfPhSt i p st s).low = s.low := by
  unfold setDfPhSt
  repeat' (first | with_reducible rfl | (simp only [↓setFld_low (pDF_ge _), ↓low_ite, ite_self, id_eq, ↓low_of_mk, low_eta]; done) | split | (simp only [↓setFld_low (pDF_ge _), ↓low_ite, ite_self, id_eq, ↓low_of_mk, low_eta]))

theorem setDfPhase_low (i p : Nat) (x : DfPhase) (s : State) : (setDfPhase i p x s).low = s.low := by
  unfold setDfPhase
  repeat' (first | with_reducible rfl | (simp only [↓setDfH_low, ↓low_ite, ite_self, id_eq, ↓low_of_mk, low_eta]; done) | split | (simp only [↓setDfH_low, ↓low_ite, ite_self, id_eq, ↓low_of_mk, low_eta]))

theorem dfOverrides_low (i : Nat) (s : State) : (dfOverrides i s).low = s.low := by
  unfold dfOverrides
  repeat' (first | with_reducible rfl | (simp only [↓setOvr_low, ↓low_ite, ite_self, id_eq, ↓low_of_mk, low_eta]; done) | split | (with_reducible refine Eq.trans (forRange_low (fun _ _ => ?_) _ _) ?_) | (simp only [↓setOvr_low, ↓low_ite, ite_self, id_eq, ↓low_of_mk, low_eta]))

theorem dfShowPhases_low (i : Nat) (s : State) : (dfShowPhases i s).low = s.low := by
  unfold dfShowPhases
  repeat' (first | with_reducible rfl | (simp only [↓setBit_low (pDF_ge _), ↓setFld_low (pDF_ge _), ↓low_ite, ite_self, id_eq, ↓low_of_mk, low_eta]; done) | split | (simp only [↓setBit_low (pDF_ge _), ↓setFld_low (pDF_ge _), ↓low_ite, ite_self, id_eq, ↓low_of_mk, low_eta]))

theorem dfShowRef_low (i : Nat) (s : State) : (dfShowRef i s).low = s.low := by
  unfold dfShowRef
  repeat' (first | with_reducible rfl | (simp only [↓setBit_low (pDF_ge _), ↓setRg_low (pDF_ge _), ↓low_ite, ite_self, id_eq, ↓low_of_mk, low_eta]; done) | split | (simp only [↓setBit_low (pDF_ge _), ↓setRg_low (pDF_ge _), ↓low_ite, ite_self, id_eq, ↓low_of_mk, low_eta]))

theorem dfShowHot_low (i : Nat) (s : State) : (dfShowHot i s).low = s.low := by
  unfold dfShowHot
  repeat' (first | with_reducible rfl | (simp only [↓flag_low (pDF_ge _), ↓setBit_low (pDF_ge _), ↓low_ite, ite_self, id_eq, ↓low_of_mk, low_eta]; done) | split | (simp only [↓flag_low (pDF_ge _), ↓setBit_low (pDF_ge _), ↓low_ite, ite_self, id_eq, ↓low_of_mk, low_eta]))

theorem dfGo_low (i st : Nat) (cause : Option Nat) (s : State) : (dfGo i st cause s).low = s.low := by
  unfold dfGo
  repeat' (first | with_reducible rfl | (simp only [↓flag_low (pDF_ge _), ↓setBlockState_low (pDF_ge _), ↓setFld_low (pDF_ge _), ↓setDfPhSt_low, ↓dfShowHot_low, ↓dfShowRef_low, ↓dfOverrides_low, ↓dfShowPhases_low, ↓low_ite, ite_self, id_eq, ↓low_of_mk, low_eta]; done) | split | (with_reducible refine Eq.trans (forRange_low (fun _ _ => ?_) _ _) ?_) | (simp only [↓flag_low (pDF_ge _), ↓setBlockState_low (pDF_ge _), ↓setFld_low (pDF_ge _), ↓setDfPhSt_low, ↓dfShowHot_low, ↓dfShowRef_low, ↓dfOverrides_low, ↓dfShowPhases_low, ↓low_ite, ite_self, id_eq, ↓low_of_mk, low_eta]))

theorem hbOverrides_low (s : State) : (hbOverrides s).low = s.low := by
  unfold hbOverrides
  repeat' (first | with_reducible rfl | (simp only [↓setOvr_low, ↓low_ite, ite_self, id_eq, ↓low_of_mk, low_eta]; done) | split | (with_reducible refine Eq.trans (forRange_low (fun _ _ => ?_) _ _) ?_) | (simp only [↓setOvr_low, ↓low_ite, ite_self, id_eq, ↓low_of_mk, low_eta]))

theorem pilotSwitch_low (s : State) : (pilotSwitch s).low = s.low := by
  unfold pilotSwitch
  repeat' (first | with_reducible rfl | (simp only [↓setBit_low (pHB_ge), ↓setBit_low (pPILOT_ge), ↓hbOverrides_low, ↓low_ite, ite_self, id_eq, ↓low_of_mk, low_eta]; done) | split | (simp only [↓setBit_low (pHB_ge), ↓setBit_low (pPILOT_ge), ↓hbOverrides_low, ↓low_ite, ite_self, id_eq, ↓low_of_mk, low_eta]))

theorem chgEnd_low (c : Nat) (s : State) : (chgEnd c s).low = s.low := by
  unfold chgEnd
  repeat' (first | with_reducible rfl | (simp only [↓setFld_low (pHB_ge), ↓setBit_low (pHB_ge), ↓pilotSwitch_low, ↓flag_low (pHB_ge), ↓low_ite, ite_self, id_eq, ↓low_of_mk, low_eta]; done) | split | (simp only [↓setFld_low (pHB_ge), ↓setBit_low (pHB_ge), ↓pilotSwitch_low, ↓flag_low (pHB_ge), ↓low_ite, ite_self, id_eq, ↓low_of_mk, low_eta]))

theorem hbGo_low (st : Nat) (s : State) : (hbGo st s).low = s.low := by
  unfold hbGo
  repeat' (first | with_reducible rfl | (simp only [↓chgEnd_low, ↓setFld_low (pHB_ge), ↓flag_low (pHB_ge), ↓setBlockState_low (pHB_ge), ↓pilotSwitch_low, ↓hbOverrides_low, ↓low_ite, ite_self, id_eq, ↓low_of_mk, low_eta]; done) | split | (simp only [↓chgEnd_low, ↓setFld_low (pHB_ge), ↓flag_low (pHB_ge), ↓setBlockState_low (pHB_ge), ↓pilotSwitch_low, ↓hbOverrides_low, ↓low_ite, ite_self, id_eq, ↓low_of_mk, low_eta]))

theorem hbDfLeft_low (s : State) : (hbDfLeft s).low = s.low := by
  unfold hbDfLeft
  repeat' (first | with_reducible rfl | (simp only [↓hbGo_low, ↓chgEnd_low, ↓low_ite, ite_self, id_eq, ↓low_of_mk, low_eta]; done) | split | (simp only [↓hbGo_low, ↓chgEnd_low, ↓low_ite, ite_self, id_eq, ↓low_of_mk, low_eta]))

theorem dfEnter_low (i st : Nat) (cause : Option Nat) (s : State) : (dfEnter i st cause s).low = s.low := by
  unfold dfEnter
  repeat' (first | with_reducible rfl | (simp only [↓dfGo_low, ↓hbDfLeft_low, ↓low_ite, ite_self, id_eq, ↓low_of_mk, low_eta]; done) | split | (simp only [↓dfGo_low, ↓hbDfLeft_low, ↓low_ite, ite_self, id_eq, ↓low_of_mk, low_eta]))

theorem dfReact_low (o : State) (i : Nat) (s : State) : (dfReact o i s).low = s.low := by
  unfold dfReact
  repeat' (first | with_reducible rfl | (simp only [↓dfEnter_low, ↓low_ite, ite_self, id_eq, ↓low_of_mk, low_eta]; done) | split | (simp only [↓dfEnter_low, ↓low_ite, ite_self, id_eq, ↓low_of_mk, low_eta]))

theorem dfReached_low (i : Nat) (s : State) : (dfReached i s).low = s.low := by
  unfold dfReached
  repeat' (first | with_reducible rfl | (simp only [↓setDfH_low, ↓dfShowRef_low, ↓flag_low (pDF_ge _), ↓dfEnter_low, ↓low_ite, ite_self, id_eq, ↓low_of_mk, low_eta]; done) | split | (simp only [↓setDfH_low, ↓dfShowRef_low, ↓flag_low (pDF_ge _), ↓dfEnter_low, ↓low_ite, ite_self, id_eq, ↓low_of_mk, low_eta]))

theorem dfSetTarget_low (i : Nat) (t : Int) (s : State) : (dfSetTarget i t s).low = s.low := by
  unfold dfSetTarget
  repeat' (first | with_reducible rfl | (simp only [↓dfReached_low, ↓dfShowRef_low, ↓setDfH_low, ↓low_ite, ite_self, id_eq, ↓low_of_mk, low_eta]; done) | split | (simp only [↓dfReached_low, ↓dfShowRef_low, ↓setDfH_low, ↓low_ite, ite_self, id_eq, ↓low_of_mk, low_eta]))

theorem dfTransferred_low (i : Nat) (s : State) : (dfTransferred i s).low = s.low := by
  unfold dfTransferred
  repeat' (first | with_reducible rfl | (simp only [↓dfSetTarget_low, ↓low_ite, ite_self, id_eq, ↓low_of_mk, low_eta]; done) | split | (simp only [↓dfSetTarget_low, ↓low_ite, ite_self, id_eq, ↓low_of_mk, low_eta]))

theorem hbTransferred_low (o s : State) : (hbTransferred o s).low = s.low := by
  unfold hbTransferred
  repeat' (first | with_reducible rfl | (simp only [↓pilotSwitch_low, ↓setFld_low (pHB_ge), ↓low_ite, ite_self, id_eq, ↓low_of_mk, low_eta]; done) | split | (simp only [↓pilotSwitch_low, ↓setFld_low (pHB_ge), ↓low_ite, ite_self, id_eq, ↓low_of_mk, low_eta]))

theorem aduOvr_low (u code : Nat) (s : State) : (aduOvr u code s).low = s.low := by
  unfold aduOvr
  repeat' (first | with_reducible rfl | (simp only [↓setOvr_low, ↓low_ite, ite_self, id_eq, ↓low_of_mk, low_eta]; done) | split | (with_reducible refine Eq.trans (forRange_low (fun _ _ => ?_) _ _) ?_) | (simp only [↓setOvr_low, ↓low_ite, ite_self, id_eq, ↓low_of_mk, low_eta]))

theorem aduOverrides_low (u : Nat) (s : State) : (aduOverrides u s).low = s.low := by
  unfold aduOverrides
  repeat' (first | with_reducible rfl | (simp only [↓aduOvr_low, ↓low_ite, ite_self, id_eq, ↓low_of_mk, low_eta]; done) | split | (simp only [↓aduOvr_low, ↓low_ite, ite_self, id_eq, ↓low_of_mk, low_eta]))

theorem aduEnter_low (u st : Nat) (cause : Option Nat) (s : State) : (aduEnter u st cause s).low = s.low := by
  unfold aduEnter
  repeat' (first | with_reducible rfl | (simp only [↓flag_low (pADU_ge _), ↓setBlockState_low (pADU_ge _), ↓setFld_low (pADU_ge _), ↓setBit_low (pADU_ge _), ↓aduOverrides_low, ↓low_ite, ite_self, id_eq, ↓low_of_mk, low_eta]; done) | split | (simp only [↓flag_low (pADU_ge _), ↓setBlockState_low (pADU_ge _), ↓setFld_low (pADU_ge _), ↓setBit_low (pADU_ge _), ↓aduOverrides_low, ↓low_ite, ite_self, id_eq, ↓low_of_mk, low_eta]))

theorem unitsLeaveRun_low (s : State) : (unitsLeaveRun s).low = s.low := by
  unfold unitsLeaveRun
  repeat' (first | with_reducible rfl | (simp only [↓hbGo_low, ↓aduEnter_low, ↓low_ite, ite_self, id_eq, ↓low_of_mk, low_eta]; done) | split | (with_reducible refine Eq.trans (forRange_low (fun _ _ => ?_) _ _) ?_) | (simp only [↓hbGo_low, ↓aduEnter_low, ↓low_ite, ite_self, id_eq, ↓low_of_mk, low_eta]))

theorem refreshLegs_low (s : State) : (refreshLegs s).low = s.low := by
  unfold refreshLegs
  repeat' (first | with_reducible rfl | (simp only [↓refreshOut_low, ↓low_ite, ite_self, id_eq, ↓low_of_mk, low_eta]; done) | split | (with_reducible refine Eq.trans (forRange_low (fun _ _ => ?_) _ _) ?_) | (simp only [↓refreshOut_low, ↓low_ite, ite_self, id_eq, ↓low_of_mk, low_eta]))

theorem safeLegs_low (s : State) : (safeLegs s).low = s.low := by
  unfold safeLegs
  repeat' (first | with_reducible rfl | (simp only [↓refreshLegs_low, ↓dfReact_low, ↓safeCheck_low, ↓low_ite, ite_self, id_eq, ↓low_of_mk, low_eta]; done) | split | (with_reducible refine Eq.trans (forRange_low (fun _ _ => ?_) _ _) ?_) | (simp only [↓refreshLegs_low, ↓dfReact_low, ↓safeCheck_low, ↓low_ite, ite_self, id_eq, ↓low_of_mk, low_eta]))

theorem noteLate_low (p : Nat) (s : State) : (noteLate p s).low = s.low := by
  unfold noteLate
  repeat' (first | with_reducible rfl | (simp only [↓low_ite, ite_self, id_eq, ↓low_of_mk, low_eta]; done) | split | (simp only [↓low_ite, ite_self, id_eq, ↓low_of_mk, low_eta]))

theorem dropLate_low (p : Nat) (s : State) : (dropLate p s).low = s.low := by
  unfold dropLate
  repeat' (first | with_reducible rfl | (simp only [↓low_ite, ite_self, id_eq, ↓low_of_mk, low_eta]; done) | split | (simp only [↓low_ite, ite_self, id_eq, ↓low_of_mk, low_eta]))

theorem fwReact_low (s : State) : (fwReact s).low = s.low := by
  unfold fwReact
  repeat' (first | with_reducible rfl | (simp only [↓flag_low (pETH_ge), ↓low_ite, ite_self, id_eq, ↓low_of_mk, low_eta]; done) | split | (simp only [↓flag_low (pETH_ge), ↓low_ite, ite_self, id_eq, ↓low_of_mk, low_eta]))

theorem devEnter_low (old t : DevState) (cmd : Bool) (s : State) : (devEnter old t cmd s).low = s.low := by
  unfold devEnter
  repeat' (first | with_reducible rfl | (simp only [↓low_ite, ite_self, id_eq, ↓low_of_mk, low_eta]; done) | split | (simp only [↓low_ite, ite_self, id_eq, ↓low_of_mk, low_eta]))

theorem kdStart_low (k : Nat) (s : State) : (kdStart k s).low = s.low := by
  unfold kdStart
  repeat' (first | with_reducible rfl | (simp only [↓setBlockState_low (pKD_ge _), ↓low_ite, ite_self, id_eq, ↓low_of_mk, low_eta]; done) | split | (simp only [↓setBlockState_low (pKD_ge _), ↓low_ite, ite_self, id_eq, ↓low_of_mk, low_eta]))

theorem setTxStat_low (k b st : Nat) (s : State) : (setTxStat k b st s).low = s.low := by
  unfold setTxStat
  repeat' (first | with_reducible rfl | (simp only [↓setFld_low (pKD_ge _), ↓low_ite, ite_self, id_eq, ↓low_of_mk, low_eta]; done) | split | (simp only [↓setFld_low (pKD_ge _), ↓low_ite, ite_self, id_eq, ↓low_of_mk, low_eta]))

theorem kdOff_low (k : Nat) (s : State) : (kdOff k s).low = s.low := by
  unfold kdOff
  repeat' (first | with_reducible rfl | (simp only [↓setTxStat_low, ↓setBlockState_low (pKD_ge _), ↓setKdH_low, ↓low_ite, ite_self, id_eq, ↓low_of_mk, low_eta]; done) | split | (simp only [↓setTxStat_low, ↓setBlockState_low (pKD_ge _), ↓setKdH_low, ↓low_ite, ite_self, id_eq, ↓low_of_mk, low_eta]))

theorem kdBrownOut_low (s : State) : (kdBrownOut s).low = s.low := by
  unfold kdBrownOut
  repeat' (first | with_reducible rfl | (simp only [↓kdOff_low, ↓setBit_low (pKD_ge _), ↓low_ite, ite_self, id_eq, ↓low_of_mk, low_eta]; done) | split | (with_reducible refine Eq.trans (forRange_low (fun _ _ => ?_) _ _) ?_) | (simp only [↓kdOff_low, ↓setBit_low (pKD_ge _), ↓low_ite, ite_self, id_eq, ↓low_of_mk, low_eta]))

theorem serviceStore_low (image : List (BitVec 8)) (s : State) : (serviceStore image s).low = s.low := by
  unfold serviceStore
  repeat' (first | with_reducible rfl | (simp only [↓low_ite, ite_self, id_eq, ↓low_of_mk, low_eta]; done) | split | (with_reducible refine Eq.trans (foldl_low (fun _ _ => ?_) _ _) ?_) | (simp only [↓low_ite, ite_self, id_eq, ↓low_of_mk, low_eta]))

/-! ## Transitions (R88) -/

theorem low_pv {s t : State} (hv : t.variant = s.variant) (hr : t.regs = s.regs) : t.low = s.low := by
  unfold State.low; rw [hv, hr]

/-- A register of a system page after one is written. -/
theorem rg_setRg (s : State) (p o v q k : Nat) :
    rg (setRg p o v s) q k = if q * 4096 + k = p * 4096 + o then v % 2 ^ 32 else rg s q k := by
  by_cases h : q * 4096 + k = p * 4096 + o
  · simp only [h, if_true, rg, setRg, sget_sset_same, BitVec.toNat_ofNat]
  · simp only [h, if_false]; exact rg_setRg_ne s v h

/-- A value that both arms of a choice of states show. -/
theorem rg_ite {c : Prop} [Decidable c] {a b : State} {p o x : Nat} (ha : rg a p o = x) (hb : rg b p o = x) :
    rg (if c then a else b) p o = x := by
  by_cases h : c
  · rw [if_pos h]; exact ha
  · rw [if_neg h]; exact hb

/-- A flag of a page leaves every register but that page's `EVT_FLAGS` as it was. -/
theorem rg_flagIf_ne {q o p i : Nat} (c : Bool) (s : State) (h : q * 4096 + o ≠ p * 4096 + 0x10) :
    rg (flagIf c p i s) q o = rg s q o := by
  unfold flagIf
  exact rg_ite (rg_flag_ne _ _ h) rfl

/-- R512: what a transition does to a substitution touches its status word alone. -/
theorem rg_spareReact {p o : Nat} (s : State) (h : p * 4096 + o ≠ pSPARE * 4096 + 0x4C) : rg (spareReact s) p o = rg s p o := by
  unfold spareReact
  exact rg_ite (rg_setFld_ne _ _ _ _ h) rfl

/-- R88: the registers of the system pages after a transition: those it writes are `DEV_STATE`, the event flags of `SYS`,
`DEG_COND` and the status of a substitution. -/
theorem rg_enterState (t : DevState) (cause : Nat) (cmd : Bool) (s : State) {p o : Nat} (hp : p < 0x20) (ho : o < 4096)
    (h1 : ¬ (p = 0 ∧ o = 0x44)) (h2 : ¬ (p = 0 ∧ o = 0x10)) (h3 : ¬ (p = 0 ∧ o = 0x5C)) (h4 : ¬ (p = 0x0C ∧ o = 0x4C)) :
    rg (enterState t cause cmd s) p o = rg s p o := by
  unfold enterState
  extract_lets old n s1 s2 s3
  have e1 : rg s1 p o = rg s p o := rg_setRg_ne { s with now := n } _ (by unfold pSYS; omega)
  have ed : rg (devEnter old t cmd s1) p o = rg s p o := e1
  have e2 : rg s2 p o = rg s p o := (rg_flagIf_ne _ _ (by unfold pSYS; omega)).trans ed
  have e3 : rg s3 p o = rg s p o := rg_ite ((rg_of_low (unitsLeaveRun_low s2) hp ho).trans e2) e2
  generalize s3 = u at e3 ⊢
  rw [rg_of_low (forRange_low (fun k s => kdStart_low k s) 4 _) hp ho, rg_of_low (fwReact_low _) hp ho,
    rg_spareReact _ (by unfold pSPARE; omega)]
  unfold degShow
  rw [rg_setRg_ne _ _ (by unfold pSYS; omega), rg_of_low (refreshLegs_low _) hp ho, rg_of_low (refreshTiles_low _) hp ho, e3]

/-- R88: `DEV_STATE` after a transition. -/
theorem devState_word (t : DevState) (cause : Nat) (cmd : Bool) (s : State) :
    rg (enterState t cause cmd s) pSYS 0x44 =
      (t.code + (devState s).code * 16 + cause % 256 * 256 + b2n cmd * 2 ^ 16 + b2n (degLatch s) * 2 ^ 17) % 2 ^ 32 := by
  unfold enterState
  extract_lets old n s1 s2 s3
  have hp : pSYS < 0x20 := by decide
  have ho : 0x44 < 4096 := by decide
  have e1 : rg s1 pSYS 0x44 = (t.code + (devState s).code * 16 + cause % 256 * 256 + b2n cmd * 2 ^ 16 + b2n (degLatch s) * 2 ^ 17) % 2 ^ 32 :=
    rg_setRg_same { s with now := n } _ _ _
  have ed : rg (devEnter old t cmd s1) pSYS 0x44 = rg s1 pSYS 0x44 := rfl
  have e2 : rg s2 pSYS 0x44 = rg s1 pSYS 0x44 := (rg_flagIf_ne _ _ (by unfold pSYS; omega)).trans ed
  have e3 : rg s3 pSYS 0x44 = rg s1 pSYS 0x44 := rg_ite ((rg_of_low (unitsLeaveRun_low s2) hp ho).trans e2) e2
  rw [← e1, ← e3]
  generalize s3 = u
  rw [rg_of_low (forRange_low (fun k s => kdStart_low k s) 4 _) hp ho, rg_of_low (fwReact_low _) hp ho,
    rg_spareReact _ (by unfold pSPARE pSYS; omega)]
  unfold degShow
  rw [rg_setRg_ne _ _ (by unfold pSYS; omega), rg_of_low (refreshLegs_low _) hp ho, rg_of_low (refreshTiles_low _) hp ho]

/-- R88: the state after a transition is the state entered. -/
theorem devState_enterState (t : DevState) (cause : Nat) (cmd : Bool) (s : State) : devState (enterState t cause cmd s) = t := by
  have h : fld (enterState t cause cmd s) pSYS 0x44 0 4 = t.code := by
    unfold fld
    rw [devState_word]
    have hc : t.code < 12 := by cases t <;> decide
    unfold bits
    omega
  unfold devState
  rw [h]
  cases t <;> rfl

end Sys2Proof.Machine
end

