-- ==== Sys2Proof/Laws/Memory.lean ====
section
/-! SUPPORT. Memory: what a byte reads as after a write, and that every memory operation keeps the canonical form. -/
namespace Sys2Proof.Machine

/-- A byte reads as written. -/
theorem mget_mset_same (m : List Host.Cell) (a b : Nat) : mget (mset m a b) a = b % 256 := by
  simp [mget, mset, sget_sset_same, BitVec.toNat_ofNat]

/-- Every other byte is as it was. -/
theorem mget_mset_other (m : List Host.Cell) {a c : Nat} (b : Nat) (h : c ≠ a) : mget (mset m a b) c = mget m c := by
  simp [mget, mset, sget_sset_other _ _ _ h]

/-- A byte outside the `n` bytes written is as it was. -/
theorem mget_mwrite_other (n : Nat) {a c : Nat} (v : Nat) (h : c < a ∨ a + n ≤ c) (m : List Host.Cell) :
    mget (mwrite m a v n) c = mget m c := by
  induction n generalizing a v m with
  | zero => rfl
  | succ n ih =>
    unfold mwrite
    rw [ih (v / 256) (by omega), mget_mset_other m _ (by omega)]

/-- The `i`-th of `n` bytes written is that byte of the value (R68). -/
theorem mget_mwrite_same (n : Nat) {i : Nat} (a v : Nat) (h : i < n) (m : List Host.Cell) :
    mget (mwrite m a v n) (a + i) = v / 256 ^ i % 256 := by
  induction n generalizing a v i m with
  | zero => omega
  | succ n ih =>
    unfold mwrite
    cases i with
    | zero => rw [mget_mwrite_other n _ (by omega), Nat.add_zero, mget_mset_same]; simp
    | succ i =>
      have e : a + (i + 1) = a + 1 + i := by omega
      rw [e, ih (a + 1) (v / 256) (by omega), Nat.div_div_eq_div_mul]
      congr 2
      rw [Nat.pow_succ, Nat.mul_comm]

theorem Memory.wf_mset {m : List Host.Cell} (h : Memory.wf m = true) (a b : Nat) : Memory.wf (mset m a b) = true :=
  swf_sset memDefault a _ h

theorem Memory.wf_sset {m : List Host.Cell} (h : Memory.wf m = true) (a : Nat) (b : Byte) :
    Memory.wf (sset memDefault m a b) = true := swf_sset memDefault a b h

theorem Memory.wf_mwrite (n : Nat) {m : List Host.Cell} (h : Memory.wf m = true) (a v : Nat) : Memory.wf (mwrite m a v n) = true := by
  induction n generalizing a v m with
  | zero => exact h
  | succ n ih => exact ih (Memory.wf_mset h _ _) _ _

theorem Memory.wf_filter (f : Host.Cell → Bool) {m : List Host.Cell} (h : Memory.wf m = true) : Memory.wf (m.filter f) = true :=
  swf_filter memDefault f h

/-- A fold whose every step keeps the canonical form of the memory it carries keeps it. -/
theorem Memory.wf_foldl {α : Type} {g : List Host.Cell → α → List Host.Cell} (hg : ∀ m a, Memory.wf m = true → Memory.wf (g m a) = true)
    (l : List α) {m : List Host.Cell} (h : Memory.wf m = true) : Memory.wf (l.foldl g m) = true := by
  induction l generalizing m with
  | nil => exact h
  | cons a l ih => exact ih (hg m a h)

/-- The same of a fold that carries an address beside the memory. -/
theorem Memory.wf_foldl_snd {α β : Type} {g : β × List Host.Cell → α → β × List Host.Cell}
    (hg : ∀ x a, Memory.wf x.2 = true → Memory.wf (g x a).2 = true) (l : List α) {x : β × List Host.Cell} (h : Memory.wf x.2 = true) :
    Memory.wf (l.foldl g x).2 = true := by
  induction l generalizing x with
  | nil => exact h
  | cons a l ih => exact ih (hg x a h)

theorem Memory.wf_mputs {m : List Host.Cell} (h : Memory.wf m = true) (a : Nat) (bs : List Nat) : Memory.wf (mputs m a bs) = true :=
  Memory.wf_foldl_snd (fun _ _ hx => Memory.wf_mset hx _ _) bs (x := (a, m)) h

end Sys2Proof.Machine
end

