-- ==== Sys2Proof/Laws/MemoryForm.lean ====
section
/-! SUPPORT. Every operation that may write memory keeps its canonical form (`MemOk`). -/
namespace Sys2Proof.Machine
set_option linter.all false
/-- The memory is in its canonical form. -/
def MemOk (s : State) : Prop := Memory.wf s.mem = true

theorem memOk_of_mem {t s : State} (h : t.mem = s.mem) (hs : MemOk s) : MemOk t := by unfold MemOk; rw [h]; exact hs

theorem memOk_of_core {t s : State} (h : t.core = s.core) (hs : MemOk s) : MemOk t := memOk_of_mem (core_mem h) hs

theorem memOk_eta {s : State} (h : MemOk s) : Memory.wf s.mem = true := h

theorem memOk_mk_iff {x0 x1 x2 x3 x4 x5 a x7 x8 x9 x10 x11 x12 x13 x14 x15 x16 x17 x18 x19 x20 x21 x22 x23 x24 x25 x26 x27 x28 x29 x30 x31 x32 x33 x34 x35 x36 x37 x38 x39 x40 x41 x42 x43 x44 x45 x46 x47 x48 x49 x50 x51 x52 x53 x54} : MemOk (State.mk x0 x1 x2 x3 x4 x5 a x7 x8 x9 x10 x11 x12 x13 x14 x15 x16 x17 x18 x19 x20 x21 x22 x23 x24 x25 x26 x27 x28 x29 x30 x31 x32 x33 x34 x35 x36 x37 x38 x39 x40 x41 x42 x43 x44 x45 x46 x47 x48 x49 x50 x51 x52 x53 x54) ↔ Memory.wf a = true := Iff.intro (fun h => h) (fun h => h)

theorem memOk_fold (s : State) : (Memory.wf s.mem = true) = MemOk s := (rfl)

theorem memOk_ite (c : Prop) [Decidable c] {a b : State} (ha : MemOk a) (hb : MemOk b) : MemOk (if c then a else b) := by
  split
  · exact ha
  · exact hb

theorem memOk_foldl {α : Type} {g : State → α → State} (hg : ∀ s a, MemOk s → MemOk (g s a)) (l : List α) {s : State} (h : MemOk s) :
    MemOk (l.foldl g s) := by
  induction l generalizing s with
  | nil => exact h
  | cons a l ih => exact ih (hg s a h)

theorem memOk_forRange {g : Nat → State → State} (hg : ∀ i s, MemOk s → MemOk (g i s)) (n : Nat) {s : State} (h : MemOk s) :
    MemOk (forRange n g s) := memOk_foldl (fun s i h => hg i s h) _ h

theorem memOk_onBus {acc : Access} {p o : Nat} {f : State → State} (hf : ∀ s, MemOk s → MemOk (f s)) {s : State} (h : MemOk s) :
    MemOk (onBus acc p o f s) := by
  unfold onBus
  repeat' split
  · exact h
  · exact h
  · exact memOk_of_core (pactDeny_core _ _ _ _ _) h
  · exact memOk_of_core (tally_core _ _ _ _ _ _) (hf s h)

theorem memOk_onBusRead {acc : Access} {p o : Nat} {rd : State → Nat} {f : State → State} (hf : ∀ s, MemOk s → MemOk (f s)) {s : State}
    (h : MemOk s) : MemOk (onBusRead acc p o rd f s) := by
  unfold onBusRead
  repeat' split
  · exact h
  · exact h
  · exact memOk_of_core (pactDeny_core _ _ _ _ _) h
  · exact memOk_of_core (tally_core _ _ _ _ _ _) (hf s h)

theorem memOk_id {s : State} (h : MemOk s) : MemOk (id s) := h

theorem memOk_busStore {acc : Access} {p o v : Nat} {chk : Nat → Nat → Option Reason} {f : State → State}
    (hf : ∀ s, MemOk s → MemOk (f s)) {s : State} (h : MemOk s) : MemOk (busStore acc p o v chk f s) := by
  unfold busStore
  repeat' (first | with_reducible exact h | with_reducible exact memOk_of_core (refuse_core _ _ _ _ _ _) h | with_reducible exact hf _ (memOk_of_core (storeReg_core _ _ _ _ _) h) | split | dsimp only)

theorem copyCoeffs_memOk (e : Nat) (s : State) (h : MemOk s) : MemOk (copyCoeffs e s) := by
  unfold copyCoeffs
  repeat' (first | with_reducible assumption | (with_reducible refine memOk_foldl (fun _ _ _ => ?_) _ ?_) | (simp only [memOk_mk_iff, memOk_fold]) | with_reducible refine Memory.wf_mwrite _ ?_ _ _ | with_reducible refine Memory.wf_mset ?_ _ _ | with_reducible refine Memory.wf_filter _ ?_ | with_reducible refine Memory.wf_mputs ?_ _ _ | with_reducible refine Memory.wf_sset ?_ _ _ | with_reducible refine Memory.wf_foldl (fun _ _ _ => ?_) _ ?_ | with_reducible refine Memory.wf_foldl_snd (fun _ _ _ => ?_) _ ?_ | split | (simp only []))

theorem transferPage_memOk (p : Nat) (s : State) (h : MemOk s) : MemOk (transferPage p s) := by
  unfold transferPage
  repeat' (first | with_reducible assumption | with_reducible refine memOk_of_core (copyEpochRegs_core _ _ _ _) ?_ | with_reducible refine copyCoeffs_memOk _ _ ?_ | with_reducible refine memOk_of_core (setBit_core _ _ _ _ _) ?_ | with_reducible refine memOk_of_core (incWrap_core _ _ _ _ _ _) ?_ | with_reducible refine memOk_of_core (saveStale_core _) ?_ | (simp only [memOk_mk_iff, memOk_fold]) | with_reducible refine Memory.wf_mwrite _ ?_ _ _ | with_reducible refine Memory.wf_mset ?_ _ _ | with_reducible refine Memory.wf_filter _ ?_ | with_reducible refine Memory.wf_mputs ?_ _ _ | with_reducible refine Memory.wf_sset ?_ _ _ | with_reducible refine Memory.wf_foldl (fun _ _ _ => ?_) _ ?_ | with_reducible refine Memory.wf_foldl_snd (fun _ _ _ => ?_) _ ?_ | split | (simp only []))

theorem transferWhere_memOk (m : Nat → Bool) (s : State) (h : MemOk s) : MemOk (transferWhere m s) := by
  unfold transferWhere
  repeat' (first | with_reducible assumption | with_reducible refine transferPage_memOk _ _ ?_ | (with_reducible refine memOk_foldl (fun _ _ _ => ?_) _ ?_) | (simp only [memOk_mk_iff, memOk_fold]) | with_reducible refine Memory.wf_mwrite _ ?_ _ _ | with_reducible refine Memory.wf_mset ?_ _ _ | with_reducible refine Memory.wf_filter _ ?_ | with_reducible refine Memory.wf_mputs ?_ _ _ | with_reducible refine Memory.wf_sset ?_ _ _ | with_reducible refine Memory.wf_foldl (fun _ _ _ => ?_) _ ?_ | with_reducible refine Memory.wf_foldl_snd (fun _ _ _ => ?_) _ ?_ | split | (simp only []))

theorem powerOff_memOk (standby : Bool) (brown : Bool) (s : State) (h : MemOk s) : MemOk (powerOff standby brown s) := by
  unfold powerOff
  repeat' (first | with_reducible assumption | with_reducible refine memOk_of_core (setRg_core _ _ _ _) ?_ | (with_reducible refine memOk_foldl (fun _ _ _ => ?_) _ ?_) | (simp only [memOk_mk_iff, memOk_fold]) | with_reducible refine Memory.wf_mwrite _ ?_ _ _ | with_reducible refine Memory.wf_mset ?_ _ _ | with_reducible refine Memory.wf_filter _ ?_ | with_reducible refine Memory.wf_mputs ?_ _ _ | with_reducible refine Memory.wf_sset ?_ _ _ | with_reducible refine Memory.wf_foldl (fun _ _ _ => ?_) _ ?_ | with_reducible refine Memory.wf_foldl_snd (fun _ _ _ => ?_) _ ?_ | split | (simp only []))

theorem setBootRec_memOk (v : Nat) (s : State) (h : MemOk s) : MemOk (setBootRec v s) := by
  unfold setBootRec
  repeat' (first | with_reducible assumption | with_reducible refine memOk_of_core (setRg_core _ _ _ _) ?_ | (simp only [memOk_mk_iff, memOk_fold]) | with_reducible refine Memory.wf_mwrite _ ?_ _ _ | with_reducible refine Memory.wf_mset ?_ _ _ | with_reducible refine Memory.wf_filter _ ?_ | with_reducible refine Memory.wf_mputs ?_ _ _ | with_reducible refine Memory.wf_sset ?_ _ _ | with_reducible refine Memory.wf_foldl (fun _ _ _ => ?_) _ ?_ | with_reducible refine Memory.wf_foldl_snd (fun _ _ _ => ?_) _ ?_ | split | (simp only []))

theorem restart_memOk (cause : Nat) (cmd : Bool) (s : State) (h : MemOk s) : MemOk (restart cause cmd s) := by
  unfold restart
  repeat' (first | with_reducible assumption | with_reducible refine memOk_of_core (restartFrom_core _ _) ?_ | with_reducible refine memOk_of_core (setRg_core _ _ _ _) ?_ | with_reducible refine memOk_of_core (bootEntry_core _ _ _) ?_ | (with_reducible refine memOk_forRange (fun _ _ _ => ?_) _ ?_) | (simp only [memOk_mk_iff, memOk_fold]) | with_reducible refine Memory.wf_mwrite _ ?_ _ _ | with_reducible refine Memory.wf_mset ?_ _ _ | with_reducible refine Memory.wf_filter _ ?_ | with_reducible refine Memory.wf_mputs ?_ _ _ | with_reducible refine Memory.wf_sset ?_ _ _ | with_reducible refine Memory.wf_foldl (fun _ _ _ => ?_) _ ?_ | with_reducible refine Memory.wf_foldl_snd (fun _ _ _ => ?_) _ ?_ | split | (simp only []))

theorem brownOut_memOk (vin : Nat) (s : State) (h : MemOk s) : MemOk (brownOut vin s) := by
  have h2 : ∀ s, MemOk s → MemOk (kdBrownOut (suppliesOff (refreshTiles (flag pSUPPLY 3 (setRg pSUPPLY 0x44 3 (vinMeasure vin s)))))) :=
    fun s hs => memOk_of_core ((kdBrownOut_core _).trans ((suppliesOff_core _).trans ((refreshTiles_core _).trans
      ((flag_core _ _ _).trans ((setRg_core _ _ _ _).trans (vinMeasure_core _ _)))))) hs
  have h3 := h2 s h
  unfold brownOut
  dsimp only
  generalize kdBrownOut (suppliesOff (refreshTiles (flag pSUPPLY 3 (setRg pSUPPLY 0x44 3 (vinMeasure vin s))))) = t at h3 ⊢
  have h4 : ∀ d, MemOk { t with dev := d } := fun _ => h3
  repeat' split
  · exact h
  · exact memOk_of_core (vinMeasure_core _ _) h
  · exact h4 _
  · exact memOk_of_core (saveStart_core _ _) (h4 _)
  · exact powerOff_memOk _ _ _ (h4 _)

theorem shutdownComplete_memOk (ok : Bool) (s : State) (h : MemOk s) : MemOk (shutdownComplete ok s) := by
  unfold shutdownComplete
  repeat' (first | with_reducible assumption | with_reducible refine memOk_of_mem (saveEnd_mem _ _) ?_ | with_reducible refine powerOff_memOk _ _ _ ?_ | (simp only [memOk_mk_iff, memOk_fold]) | with_reducible refine Memory.wf_mwrite _ ?_ _ _ | with_reducible refine Memory.wf_mset ?_ _ _ | with_reducible refine Memory.wf_filter _ ?_ | with_reducible refine Memory.wf_mputs ?_ _ _ | with_reducible refine Memory.wf_sset ?_ _ _ | with_reducible refine Memory.wf_foldl (fun _ _ _ => ?_) _ ?_ | with_reducible refine Memory.wf_foldl_snd (fun _ _ _ => ?_) _ ?_ | split | (simp only []))

theorem bootTry_memOk (resA resB verA verB : Nat) (s : State) (h : MemOk s) : MemOk (bootTry resA resB verA verB s) := by
  unfold bootTry
  repeat' (first | with_reducible assumption | with_reducible refine memOk_of_core (setRg_core _ _ _ _) ?_ | with_reducible refine setBootRec_memOk _ _ ?_ | with_reducible refine memOk_of_core (scarabTested_core _) ?_ | with_reducible refine memOk_of_core (enterState_core _ _ _ _) ?_ | (simp only [memOk_mk_iff, memOk_fold]) | with_reducible refine Memory.wf_mwrite _ ?_ _ _ | with_reducible refine Memory.wf_mset ?_ _ _ | with_reducible refine Memory.wf_filter _ ?_ | with_reducible refine Memory.wf_mputs ?_ _ _ | with_reducible refine Memory.wf_sset ?_ _ _ | with_reducible refine Memory.wf_foldl (fun _ _ _ => ?_) _ ?_ | with_reducible refine Memory.wf_foldl_snd (fun _ _ _ => ?_) _ ?_ | split | (simp only []))

theorem serviceStore_memOk (image : List (BitVec 8)) (s : State) (h : MemOk s) : MemOk (serviceStore image s) := by
  unfold serviceStore
  repeat' (first | with_reducible assumption | (with_reducible refine memOk_foldl (fun _ _ _ => ?_) _ ?_) | (simp only [memOk_mk_iff, memOk_fold]) | with_reducible refine Memory.wf_mwrite _ ?_ _ _ | with_reducible refine Memory.wf_mset ?_ _ _ | with_reducible refine Memory.wf_filter _ ?_ | with_reducible refine Memory.wf_mputs ?_ _ _ | with_reducible refine Memory.wf_sset ?_ _ _ | with_reducible refine Memory.wf_foldl (fun _ _ _ => ?_) _ ?_ | with_reducible refine Memory.wf_foldl_snd (fun _ _ _ => ?_) _ ?_ | split | (simp only []))

theorem serviceLoad_memOk (image : List (BitVec 8)) (res ver : Nat) (s : State) (h : MemOk s) : MemOk (serviceLoad image res ver s) := by
  unfold serviceLoad
  repeat' (first | with_reducible assumption | with_reducible refine serviceStore_memOk _ _ ?_ | with_reducible refine memOk_of_core (setFld_core _ _ _ _ _ _) ?_ | with_reducible refine memOk_of_core (setRg_core _ _ _ _) ?_ | with_reducible refine memOk_of_core (scarabTested_core _) ?_ | with_reducible refine memOk_of_core (enterState_core _ _ _ _) ?_ | (simp only [memOk_mk_iff, memOk_fold]) | with_reducible refine Memory.wf_mwrite _ ?_ _ _ | with_reducible refine Memory.wf_mset ?_ _ _ | with_reducible refine Memory.wf_filter _ ?_ | with_reducible refine Memory.wf_mputs ?_ _ _ | with_reducible refine Memory.wf_sset ?_ _ _ | with_reducible refine Memory.wf_foldl (fun _ _ _ => ?_) _ ?_ | with_reducible refine Memory.wf_foldl_snd (fun _ _ _ => ?_) _ ?_ | split | (simp only []))

theorem epochTransfer_memOk (moved : Nat → Bool) (s : State) (h : MemOk s) : MemOk (epochTransfer moved s) := by
  unfold epochTransfer
  repeat' (first | with_reducible assumption | with_reducible refine transferWhere_memOk _ _ ?_ | with_reducible refine memOk_of_core (trackTransferred_core _ _ _) ?_ | with_reducible refine memOk_of_core (slotTransferred_core _ _ _) ?_ | (with_reducible refine memOk_forRange (fun _ _ _ => ?_) _ ?_) | (simp only [memOk_mk_iff, memOk_fold]) | with_reducible refine Memory.wf_mwrite _ ?_ _ _ | with_reducible refine Memory.wf_mset ?_ _ _ | with_reducible refine Memory.wf_filter _ ?_ | with_reducible refine Memory.wf_mputs ?_ _ _ | with_reducible refine Memory.wf_sset ?_ _ _ | with_reducible refine Memory.wf_foldl (fun _ _ _ => ?_) _ ?_ | with_reducible refine Memory.wf_foldl_snd (fun _ _ _ => ?_) _ ?_ | split | (simp only []))

theorem calStoreEnd_memOk (s : State) (h : MemOk s) : MemOk (calStoreEnd s) := by
  unfold calStoreEnd
  repeat' (first | with_reducible assumption | with_reducible refine memOk_of_core (calCompare_core _) ?_ | with_reducible refine memOk_of_core (calShow_core _) ?_ | with_reducible refine memOk_of_core (calState_core _ _) ?_ | with_reducible refine memOk_of_core (setFld_core _ _ _ _ _ _) ?_ | (simp only [memOk_mk_iff, memOk_fold]) | with_reducible refine Memory.wf_mwrite _ ?_ _ _ | with_reducible refine Memory.wf_mset ?_ _ _ | with_reducible refine Memory.wf_filter _ ?_ | with_reducible refine Memory.wf_mputs ?_ _ _ | with_reducible refine Memory.wf_sset ?_ _ _ | with_reducible refine Memory.wf_foldl (fun _ _ _ => ?_) _ ?_ | with_reducible refine Memory.wf_foldl_snd (fun _ _ _ => ?_) _ ?_ | split | (simp only []))

theorem writeWords_memOk (a : Nat) (ws : List Nat) (s : State) (h : MemOk s) : MemOk (writeWords a ws s) := by
  unfold writeWords
  repeat' (first | with_reducible assumption | with_reducible refine memOk_of_core (freshWords_core _ _ _) ?_ | (with_reducible refine memOk_foldl (fun _ _ _ => ?_) _ ?_) | (simp only [memOk_mk_iff, memOk_fold]) | with_reducible refine Memory.wf_mwrite _ ?_ _ _ | with_reducible refine Memory.wf_mset ?_ _ _ | with_reducible refine Memory.wf_filter _ ?_ | with_reducible refine Memory.wf_mputs ?_ _ _ | with_reducible refine Memory.wf_sset ?_ _ _ | with_reducible refine Memory.wf_foldl (fun _ _ _ => ?_) _ ?_ | with_reducible refine Memory.wf_foldl_snd (fun _ _ _ => ?_) _ ?_ | split | (simp only []))

theorem capRecord_memOk (e c mask : Nat) (els : List Int) (s : State) (h : MemOk s) : MemOk (capRecord e c mask els s) := by
  unfold capRecord
  repeat' (first | with_reducible assumption | with_reducible refine memOk_of_core (capDrop_core _ _) ?_ | with_reducible refine memOk_of_core (setCapH_core _ _ _) ?_ | with_reducible refine memOk_of_core (bwSeen_core _ _ _ _) ?_ | with_reducible refine writeWords_memOk _ _ _ ?_ | with_reducible refine memOk_of_core (setBit_core _ _ _ _ _) ?_ | with_reducible refine memOk_of_core (incWrap_core _ _ _ _ _ _) ?_ | with_reducible refine memOk_of_core (setFld_core _ _ _ _ _ _) ?_ | with_reducible refine memOk_of_core (streamRecord_core _ _) ?_ | (simp only [memOk_mk_iff, memOk_fold]) | with_reducible refine Memory.wf_mwrite _ ?_ _ _ | with_reducible refine Memory.wf_mset ?_ _ _ | with_reducible refine Memory.wf_filter _ ?_ | with_reducible refine Memory.wf_mputs ?_ _ _ | with_reducible refine Memory.wf_sset ?_ _ _ | with_reducible refine Memory.wf_foldl (fun _ _ _ => ?_) _ ?_ | with_reducible refine Memory.wf_foldl_snd (fun _ _ _ => ?_) _ ?_ | split | (simp only []))

theorem putSlot_memOk (e k : Nat) (x : Int) (s : State) (h : MemOk s) : MemOk (putSlot e k x s) := by
  unfold putSlot
  repeat' (first | with_reducible assumption | with_reducible refine memOk_of_core (freshWords_core _ _ _) ?_ | (simp only [memOk_mk_iff, memOk_fold]) | with_reducible refine Memory.wf_mwrite _ ?_ _ _ | with_reducible refine Memory.wf_mset ?_ _ _ | with_reducible refine Memory.wf_filter _ ?_ | with_reducible refine Memory.wf_mputs ?_ _ _ | with_reducible refine Memory.wf_sset ?_ _ _ | with_reducible refine Memory.wf_foldl (fun _ _ _ => ?_) _ ?_ | with_reducible refine Memory.wf_foldl_snd (fun _ _ _ => ?_) _ ?_ | split | (simp only []))

theorem putWord_memOk (e w : Nat) (x : Int) (s : State) (h : MemOk s) : MemOk (putWord e w x s) := by
  unfold putWord
  repeat' (first | with_reducible assumption | with_reducible refine memOk_of_core (setUpset_core _ _ _) ?_ | (simp only [memOk_mk_iff, memOk_fold]) | with_reducible refine Memory.wf_mwrite _ ?_ _ _ | with_reducible refine Memory.wf_mset ?_ _ _ | with_reducible refine Memory.wf_filter _ ?_ | with_reducible refine Memory.wf_mputs ?_ _ _ | with_reducible refine Memory.wf_sset ?_ _ _ | with_reducible refine Memory.wf_foldl (fun _ _ _ => ?_) _ ?_ | with_reducible refine Memory.wf_foldl_snd (fun _ _ _ => ?_) _ ?_ | split | (simp only []))

theorem mtEffect_memOk (e ret : Nat) (x : MtEff) (s : State) (h : MemOk s) : MemOk (mtEffect e ret x s) := by
  unfold mtEffect
  repeat' (first | with_reducible assumption | with_reducible refine memOk_of_core (setMtH_core _ _ _) ?_ | with_reducible refine putWord_memOk _ _ _ _ ?_ | with_reducible refine putSlot_memOk _ _ _ _ ?_ | with_reducible refine memOk_of_core (freshWords_core _ _ _) ?_ | with_reducible refine memOk_of_core (trackOut_core _ _ _ _) ?_ | with_reducible refine memOk_of_core (setRg_core _ _ _ _) ?_ | with_reducible refine memOk_of_core (mtArith_core _ _ _ _ _) ?_ | with_reducible refine capRecord_memOk _ _ _ _ _ ?_ | (simp only [memOk_mk_iff, memOk_fold]) | with_reducible refine Memory.wf_mwrite _ ?_ _ _ | with_reducible refine Memory.wf_mset ?_ _ _ | with_reducible refine Memory.wf_filter _ ?_ | with_reducible refine Memory.wf_mputs ?_ _ _ | with_reducible refine Memory.wf_sset ?_ _ _ | with_reducible refine Memory.wf_foldl (fun _ _ _ => ?_) _ ?_ | with_reducible refine Memory.wf_foldl_snd (fun _ _ _ => ?_) _ ?_ | split | (simp only []))

theorem mtFlush_memOk (e c : Nat) (s : State) (h : MemOk s) : MemOk (mtFlush e c s) := by
  unfold mtFlush
  repeat' (first | with_reducible assumption | with_reducible refine memOk_of_core (setMtH_core _ _ _) ?_ | with_reducible refine mtEffect_memOk _ _ _ _ ?_ | (with_reducible refine memOk_foldl (fun _ _ _ => ?_) _ ?_) | (simp only [memOk_mk_iff, memOk_fold]) | with_reducible refine Memory.wf_mwrite _ ?_ _ _ | with_reducible refine Memory.wf_mset ?_ _ _ | with_reducible refine Memory.wf_filter _ ?_ | with_reducible refine Memory.wf_mputs ?_ _ _ | with_reducible refine Memory.wf_sset ?_ _ _ | with_reducible refine Memory.wf_foldl (fun _ _ _ => ?_) _ ?_ | with_reducible refine Memory.wf_foldl_snd (fun _ _ _ => ?_) _ ?_ | split | (simp only []))

theorem mtDrain_memOk (e : Nat) (s : State) (h : MemOk s) : MemOk (mtDrain e s) := by
  unfold mtDrain
  repeat' (first | with_reducible assumption | with_reducible refine mtFlush_memOk _ _ _ ?_ | (simp only [memOk_mk_iff, memOk_fold]) | with_reducible refine Memory.wf_mwrite _ ?_ _ _ | with_reducible refine Memory.wf_mset ?_ _ _ | with_reducible refine Memory.wf_filter _ ?_ | with_reducible refine Memory.wf_mputs ?_ _ _ | with_reducible refine Memory.wf_sset ?_ _ _ | with_reducible refine Memory.wf_foldl (fun _ _ _ => ?_) _ ?_ | with_reducible refine Memory.wf_foldl_snd (fun _ _ _ => ?_) _ ?_ | split | (simp only []))

theorem mtFinish_memOk (e : Nat) (x : MtEnd) (s : State) (h : MemOk s) : MemOk (mtFinish e x s) := by
  unfold mtFinish
  repeat' (first | with_reducible assumption | with_reducible refine mtDrain_memOk _ _ ?_ | with_reducible refine memOk_of_core (setMtH_core _ _ _) ?_ | with_reducible refine memOk_of_core (countConsec_core _ _ _) ?_ | with_reducible refine memOk_of_core (mtLeave_core _ _ _ _) ?_ | with_reducible refine memOk_of_core (flag_core _ _ _) ?_ | with_reducible refine memOk_of_core (setRg_core _ _ _ _) ?_ | with_reducible refine memOk_of_core (mtFail_core _ _ _ _) ?_ | (simp only [memOk_mk_iff, memOk_fold]) | with_reducible refine Memory.wf_mwrite _ ?_ _ _ | with_reducible refine Memory.wf_mset ?_ _ _ | with_reducible refine Memory.wf_filter _ ?_ | with_reducible refine Memory.wf_mputs ?_ _ _ | with_reducible refine Memory.wf_sset ?_ _ _ | with_reducible refine Memory.wf_foldl (fun _ _ _ => ?_) _ ?_ | with_reducible refine Memory.wf_foldl_snd (fun _ _ _ => ?_) _ ?_ | split | (simp only []))

theorem mtStop_memOk (e cause addr c : Nat) (s : State) (h : MemOk s) : MemOk (mtStop e cause addr c s) := by
  unfold mtStop
  repeat' (first | with_reducible assumption | with_reducible refine mtFlush_memOk _ _ _ ?_ | with_reducible refine memOk_of_core (mtFail_core _ _ _ _) ?_ | with_reducible refine memOk_of_core (countConsec_core _ _ _) ?_ | with_reducible refine memOk_of_core (mtLeave_core _ _ _ _) ?_ | with_reducible refine memOk_of_core (setMtH_core _ _ _) ?_ | (simp only [memOk_mk_iff, memOk_fold]) | with_reducible refine Memory.wf_mwrite _ ?_ _ _ | with_reducible refine Memory.wf_mset ?_ _ _ | with_reducible refine Memory.wf_filter _ ?_ | with_reducible refine Memory.wf_mputs ?_ _ _ | with_reducible refine Memory.wf_sset ?_ _ _ | with_reducible refine Memory.wf_foldl (fun _ _ _ => ?_) _ ?_ | with_reducible refine Memory.wf_foldl_snd (fun _ _ _ => ?_) _ ?_ | split | (simp only []))

theorem mtEndDue_memOk (e : Nat) (s : State) (h : MemOk s) : MemOk (mtEndDue e s) := by
  unfold mtEndDue
  repeat' (first | with_reducible assumption | with_reducible refine mtStop_memOk _ _ _ _ _ ?_ | with_reducible refine mtFinish_memOk _ _ _ ?_ | (simp only [memOk_mk_iff, memOk_fold]) | with_reducible refine Memory.wf_mwrite _ ?_ _ _ | with_reducible refine Memory.wf_mset ?_ _ _ | with_reducible refine Memory.wf_filter _ ?_ | with_reducible refine Memory.wf_mputs ?_ _ _ | with_reducible refine Memory.wf_sset ?_ _ _ | with_reducible refine Memory.wf_foldl (fun _ _ _ => ?_) _ ?_ | with_reducible refine Memory.wf_foldl_snd (fun _ _ _ => ?_) _ ?_ | split | (simp only []))

theorem mtSync_memOk (e : Nat) (s : State) (h : MemOk s) : MemOk (mtSync e s) := by
  unfold mtSync
  repeat' (first | with_reducible assumption | with_reducible refine mtEndDue_memOk _ _ ?_ | with_reducible refine mtFlush_memOk _ _ _ ?_ | (simp only [memOk_mk_iff, memOk_fold]) | with_reducible refine Memory.wf_mwrite _ ?_ _ _ | with_reducible refine Memory.wf_mset ?_ _ _ | with_reducible refine Memory.wf_filter _ ?_ | with_reducible refine Memory.wf_mputs ?_ _ _ | with_reducible refine Memory.wf_sset ?_ _ _ | with_reducible refine Memory.wf_foldl (fun _ _ _ => ?_) _ ?_ | with_reducible refine Memory.wf_foldl_snd (fun _ _ _ => ?_) _ ?_ | split | (simp only []))

theorem mtEnding_memOk (e : Nat) (x : MtEnd) (s : State) (h : MemOk s) : MemOk (mtEnding e x s) := by
  unfold mtEnding
  repeat' (first | with_reducible assumption | with_reducible refine mtEndDue_memOk _ _ ?_ | with_reducible refine memOk_of_core (setMtH_core _ _ _) ?_ | (simp only [memOk_mk_iff, memOk_fold]) | with_reducible refine Memory.wf_mwrite _ ?_ _ _ | with_reducible refine Memory.wf_mset ?_ _ _ | with_reducible refine Memory.wf_filter _ ?_ | with_reducible refine Memory.wf_mputs ?_ _ _ | with_reducible refine Memory.wf_sset ?_ _ _ | with_reducible refine Memory.wf_foldl (fun _ _ _ => ?_) _ ?_ | with_reducible refine Memory.wf_foldl_snd (fun _ _ _ => ?_) _ ?_ | split | (simp only []))

theorem mtError_memOk (e cause addr c : Nat) (s : State) (h : MemOk s) : MemOk (mtError e cause addr c s) := by
  unfold mtError
  repeat' (first | with_reducible assumption | with_reducible refine mtEnding_memOk _ _ _ ?_ | (simp only [memOk_mk_iff, memOk_fold]) | with_reducible refine Memory.wf_mwrite _ ?_ _ _ | with_reducible refine Memory.wf_mset ?_ _ _ | with_reducible refine Memory.wf_filter _ ?_ | with_reducible refine Memory.wf_mputs ?_ _ _ | with_reducible refine Memory.wf_sset ?_ _ _ | with_reducible refine Memory.wf_foldl (fun _ _ _ => ?_) _ ?_ | with_reducible refine Memory.wf_foldl_snd (fun _ _ _ => ?_) _ ?_ | split | (simp only []))

theorem mtAbort_memOk (e : Nat) (s : State) (h : MemOk s) : MemOk (mtAbort e s) := by
  unfold mtAbort
  repeat' (first | with_reducible assumption | with_reducible refine memOk_of_core (mtCut_core _ _ _) ?_ | with_reducible refine mtEnding_memOk _ _ _ ?_ | (simp only [memOk_mk_iff, memOk_fold]) | with_reducible refine Memory.wf_mwrite _ ?_ _ _ | with_reducible refine Memory.wf_mset ?_ _ _ | with_reducible refine Memory.wf_filter _ ?_ | with_reducible refine Memory.wf_mputs ?_ _ _ | with_reducible refine Memory.wf_sset ?_ _ _ | with_reducible refine Memory.wf_foldl (fun _ _ _ => ?_) _ ?_ | with_reducible refine Memory.wf_foldl_snd (fun _ _ _ => ?_) _ ?_ | split | (simp only []))

theorem putWords_memOk (e w : Nat) (ws : List Nat) (s : State) (h : MemOk s) : MemOk (putWords e w ws s) := by
  unfold putWords
  repeat' (first | with_reducible assumption | (with_reducible refine memOk_foldl (fun _ _ _ => ?_) _ ?_) | (simp only [memOk_mk_iff, memOk_fold]) | with_reducible refine Memory.wf_mwrite _ ?_ _ _ | with_reducible refine Memory.wf_mset ?_ _ _ | with_reducible refine Memory.wf_filter _ ?_ | with_reducible refine Memory.wf_mputs ?_ _ _ | with_reducible refine Memory.wf_sset ?_ _ _ | with_reducible refine Memory.wf_foldl (fun _ _ _ => ?_) _ ?_ | with_reducible refine Memory.wf_foldl_snd (fun _ _ _ => ?_) _ ?_ | split | (simp only []))

theorem unitWords_memOk (e : Nat) (s : State) (h : MemOk s) : MemOk (unitWords e s) := by
  unfold unitWords
  repeat' (first | with_reducible assumption | with_reducible refine putWords_memOk _ _ _ _ ?_ | (with_reducible refine memOk_forRange (fun _ _ _ => ?_) _ ?_) | (simp only [memOk_mk_iff, memOk_fold]) | with_reducible refine Memory.wf_mwrite _ ?_ _ _ | with_reducible refine Memory.wf_mset ?_ _ _ | with_reducible refine Memory.wf_filter _ ?_ | with_reducible refine Memory.wf_mputs ?_ _ _ | with_reducible refine Memory.wf_sset ?_ _ _ | with_reducible refine Memory.wf_foldl (fun _ _ _ => ?_) _ ?_ | with_reducible refine Memory.wf_foldl_snd (fun _ _ _ => ?_) _ ?_ | split | (simp only []))

theorem mtBegin_memOk (e src : Nat) (s : State) (h : MemOk s) : MemOk (mtBegin e src s) := by
  unfold mtBegin
  repeat' (first | with_reducible assumption | with_reducible refine mtDrain_memOk _ _ ?_ | with_reducible refine memOk_of_core (mtLatch_core _ _) ?_ | with_reducible refine memOk_of_core (setBlockState_core _ _ _) ?_ | with_reducible refine unitWords_memOk _ _ ?_ | with_reducible refine memOk_of_core (setRg_core _ _ _ _) ?_ | with_reducible refine memOk_of_core (setMtH_core _ _ _) ?_ | (simp only [memOk_mk_iff, memOk_fold]) | with_reducible refine Memory.wf_mwrite _ ?_ _ _ | with_reducible refine Memory.wf_mset ?_ _ _ | with_reducible refine Memory.wf_filter _ ?_ | with_reducible refine Memory.wf_mputs ?_ _ _ | with_reducible refine Memory.wf_sset ?_ _ _ | with_reducible refine Memory.wf_foldl (fun _ _ _ => ?_) _ ?_ | with_reducible refine Memory.wf_foldl_snd (fun _ _ _ => ?_) _ ?_ | split | (simp only []))

theorem mtStart_memOk (e : Nat) (s : State) (h : MemOk s) : MemOk (mtStart e s) := by
  unfold mtStart
  repeat' (first | with_reducible assumption | with_reducible refine memOk_of_core (setMtH_core _ _ _) ?_ | with_reducible refine memOk_of_core (overrun_core _ _ _ _) ?_ | with_reducible refine memOk_of_core (mtPrefer_core _ _ _) ?_ | with_reducible refine memOk_of_core (mtDiscard_core _ _) ?_ | with_reducible refine mtBegin_memOk _ _ _ ?_ | (with_reducible refine memOk_foldl (fun _ _ _ => ?_) _ ?_) | (simp only [memOk_mk_iff, memOk_fold]) | with_reducible refine Memory.wf_mwrite _ ?_ _ _ | with_reducible refine Memory.wf_mset ?_ _ _ | with_reducible refine Memory.wf_filter _ ?_ | with_reducible refine Memory.wf_mputs ?_ _ _ | with_reducible refine Memory.wf_sset ?_ _ _ | with_reducible refine Memory.wf_foldl (fun _ _ _ => ?_) _ ?_ | with_reducible refine Memory.wf_foldl_snd (fun _ _ _ => ?_) _ ?_ | split | (simp only []))

theorem mtHeldStart_memOk (e : Nat) (s : State) (h : MemOk s) : MemOk (mtHeldStart e s) := by
  unfold mtHeldStart
  repeat' (first | with_reducible assumption | with_reducible refine mtBegin_memOk _ _ _ ?_ | with_reducible refine memOk_of_core (mtDiscard_core _ _) ?_ | with_reducible refine memOk_of_core (setMtH_core _ _ _) ?_ | (simp only [memOk_mk_iff, memOk_fold]) | with_reducible refine Memory.wf_mwrite _ ?_ _ _ | with_reducible refine Memory.wf_mset ?_ _ _ | with_reducible refine Memory.wf_filter _ ?_ | with_reducible refine Memory.wf_mputs ?_ _ _ | with_reducible refine Memory.wf_sset ?_ _ _ | with_reducible refine Memory.wf_foldl (fun _ _ _ => ?_) _ ?_ | with_reducible refine Memory.wf_foldl_snd (fun _ _ _ => ?_) _ ?_ | split | (simp only []))

theorem mtTickEnd_memOk (e : Nat) (s : State) (h : MemOk s) : MemOk (mtTickEnd e s) := by
  unfold mtTickEnd
  repeat' (first | with_reducible assumption | with_reducible refine mtStart_memOk _ _ ?_ | with_reducible refine mtHeldStart_memOk _ _ ?_ | with_reducible refine memOk_of_core (setMtH_core _ _ _) ?_ | (simp only [memOk_mk_iff, memOk_fold]) | with_reducible refine Memory.wf_mwrite _ ?_ _ _ | with_reducible refine Memory.wf_mset ?_ _ _ | with_reducible refine Memory.wf_filter _ ?_ | with_reducible refine Memory.wf_mputs ?_ _ _ | with_reducible refine Memory.wf_sset ?_ _ _ | with_reducible refine Memory.wf_foldl (fun _ _ _ => ?_) _ ?_ | with_reducible refine Memory.wf_foldl_snd (fun _ _ _ => ?_) _ ?_ | split | (simp only []))

theorem mtBoundary_memOk (e : Nat) (s : State) (h : MemOk s) : MemOk (mtBoundary e s) := by
  unfold mtBoundary
  repeat' (first | with_reducible assumption | with_reducible refine memOk_of_core (mailboxCopy_core _ _) ?_ | with_reducible refine memOk_of_core (overrun_core _ _ _ _) ?_ | with_reducible refine mtAbort_memOk _ _ ?_ | (simp only [memOk_mk_iff, memOk_fold]) | with_reducible refine Memory.wf_mwrite _ ?_ _ _ | with_reducible refine Memory.wf_mset ?_ _ _ | with_reducible refine Memory.wf_filter _ ?_ | with_reducible refine Memory.wf_mputs ?_ _ _ | with_reducible refine Memory.wf_sset ?_ _ _ | with_reducible refine Memory.wf_foldl (fun _ _ _ => ?_) _ ?_ | with_reducible refine Memory.wf_foldl_snd (fun _ _ _ => ?_) _ ?_ | split | (simp only []))

theorem transferAll_memOk (moved : Nat → Bool) (s : State) (h : MemOk s) : MemOk (transferAll moved s) := by
  unfold transferAll
  repeat' (first | with_reducible assumption | with_reducible refine epochTransfer_memOk _ _ ?_ | with_reducible refine memOk_of_core (sdgTransferred_core _ _ _) ?_ | with_reducible refine memOk_of_core (setsTransferred_core _ _) ?_ | with_reducible refine memOk_of_core (mtsTransferred_core _ _) ?_ | with_reducible refine memOk_of_core (dfTransferred_core _ _) ?_ | with_reducible refine memOk_of_core (hbTransferred_core _ _) ?_ | with_reducible refine memOk_of_core (calTransferred_core _) ?_ | with_reducible refine memOk_of_core (setMtH_core _ _ _) ?_ | (with_reducible refine memOk_forRange (fun _ _ _ => ?_) _ ?_) | with_reducible refine memOk_id ?_ | (simp only [memOk_mk_iff, memOk_fold]) | with_reducible refine Memory.wf_mwrite _ ?_ _ _ | with_reducible refine Memory.wf_mset ?_ _ _ | with_reducible refine Memory.wf_filter _ ?_ | with_reducible refine Memory.wf_mputs ?_ _ _ | with_reducible refine Memory.wf_sset ?_ _ _ | with_reducible refine Memory.wf_foldl (fun _ _ _ => ?_) _ ?_ | with_reducible refine Memory.wf_foldl_snd (fun _ _ _ => ?_) _ ?_ | split | (simp only []))

theorem transferPages_memOk (moved : Nat → Bool) (s : State) (h : MemOk s) : MemOk (transferPages moved s) := by
  unfold transferPages
  repeat' (first | with_reducible assumption | with_reducible refine transferAll_memOk _ _ ?_ | with_reducible refine memOk_of_core (injUndo_core _ _) ?_ | with_reducible refine memOk_of_core (mtLatch_core _ _) ?_ | with_reducible refine memOk_of_core (spreadAgain_core _ _) ?_ | (with_reducible refine memOk_forRange (fun _ _ _ => ?_) _ ?_) | (with_reducible refine memOk_foldl (fun _ _ _ => ?_) _ ?_) | (simp only [memOk_mk_iff, memOk_fold]) | with_reducible refine Memory.wf_mwrite _ ?_ _ _ | with_reducible refine Memory.wf_mset ?_ _ _ | with_reducible refine Memory.wf_filter _ ?_ | with_reducible refine Memory.wf_mputs ?_ _ _ | with_reducible refine Memory.wf_sset ?_ _ _ | with_reducible refine Memory.wf_foldl (fun _ _ _ => ?_) _ ?_ | with_reducible refine Memory.wf_foldl_snd (fun _ _ _ => ?_) _ ?_ | split | (simp only []))

theorem mtEff_memOk (e o v : Nat) (was : Bool) (s : State) (h : MemOk s) : MemOk (mtEff e o v was s) := by
  unfold mtEff
  repeat' (first | with_reducible assumption | with_reducible refine memOk_of_core (mtClear_core _ _) ?_ | with_reducible refine memOk_of_core (mtOff_core _ _) ?_ | with_reducible refine memOk_of_core (mtIdle_core _ _) ?_ | with_reducible refine mtStart_memOk _ _ ?_ | with_reducible refine memOk_of_core (mtRequest_core _ _ _ _) ?_ | (simp only [memOk_mk_iff, memOk_fold]) | with_reducible refine Memory.wf_mwrite _ ?_ _ _ | with_reducible refine Memory.wf_mset ?_ _ _ | with_reducible refine Memory.wf_filter _ ?_ | with_reducible refine Memory.wf_mputs ?_ _ _ | with_reducible refine Memory.wf_sset ?_ _ _ | with_reducible refine Memory.wf_foldl (fun _ _ _ => ?_) _ ?_ | with_reducible refine Memory.wf_foldl_snd (fun _ _ _ => ?_) _ ?_ | split | (simp only []))

theorem mtWrite_memOk (acc : Access) (e o v : Nat) (s : State) (h : MemOk s) : MemOk (mtWrite acc e o v s) := by
  unfold mtWrite
  repeat' (first | with_reducible assumption | with_reducible refine memOk_of_core (mtArithClear_core _ _ _) ?_ | with_reducible refine mtEff_memOk _ _ _ _ _ ?_ | (with_reducible refine memOk_busStore (fun _ _ => ?_) ?_) | (simp only [memOk_mk_iff, memOk_fold]) | with_reducible refine Memory.wf_mwrite _ ?_ _ _ | with_reducible refine Memory.wf_mset ?_ _ _ | with_reducible refine Memory.wf_filter _ ?_ | with_reducible refine Memory.wf_mputs ?_ _ _ | with_reducible refine Memory.wf_sset ?_ _ _ | with_reducible refine Memory.wf_foldl (fun _ _ _ => ?_) _ ?_ | with_reducible refine Memory.wf_foldl_snd (fun _ _ _ => ?_) _ ?_ | split | (simp only []))

theorem windowWrite_memOk (acc : Access) (e off v n : Nat) (s : State) (h : MemOk s) : MemOk (windowWrite acc e off v n s) := by
  unfold windowWrite
  repeat' (first | with_reducible assumption | with_reducible refine memOk_of_core (refuseWindow_core _ _ _ _ _ _) ?_ | with_reducible refine memOk_of_core (detBreach_core _ _ _) ?_ | with_reducible refine memOk_of_core (setBit_core _ _ _ _ _) ?_ | (simp only [memOk_mk_iff, memOk_fold]) | with_reducible refine Memory.wf_mwrite _ ?_ _ _ | with_reducible refine Memory.wf_mset ?_ _ _ | with_reducible refine Memory.wf_filter _ ?_ | with_reducible refine Memory.wf_mputs ?_ _ _ | with_reducible refine Memory.wf_sset ?_ _ _ | with_reducible refine Memory.wf_foldl (fun _ _ _ => ?_) _ ?_ | with_reducible refine Memory.wf_foldl_snd (fun _ _ _ => ?_) _ ?_ | split | (simp only []))

theorem mtSettle_memOk (e : Nat) (s : State) (h : MemOk s) : MemOk (mtSettle e s) := by
  unfold mtSettle
  repeat' (first | with_reducible assumption | with_reducible refine mtFlush_memOk _ _ _ ?_ | (simp only [memOk_mk_iff, memOk_fold]) | with_reducible refine Memory.wf_mwrite _ ?_ _ _ | with_reducible refine Memory.wf_mset ?_ _ _ | with_reducible refine Memory.wf_filter _ ?_ | with_reducible refine Memory.wf_mputs ?_ _ _ | with_reducible refine Memory.wf_sset ?_ _ _ | with_reducible refine Memory.wf_foldl (fun _ _ _ => ?_) _ ?_ | with_reducible refine Memory.wf_foldl_snd (fun _ _ _ => ?_) _ ?_ | split | (simp only []))

theorem mtNext_memOk (e c n : Nat) (s : State) (h : MemOk s) : MemOk (mtNext e c n s) := by
  induction n generalizing s with
  | zero => exact h
  | succ n ih =>
    unfold mtNext
    repeat' (first | assumption | with_reducible refine ih _ ?_ | with_reducible refine memOk_of_core (setMtPc_core _ _ _) ?_ | with_reducible refine memOk_of_core (setMtH_core _ _ _) ?_ | with_reducible refine mtError_memOk _ _ _ _ _ ?_ | split | (simp only []))

theorem mtIssue_memOk (e : Nat) (op : MtOp) (s : State) (h : MemOk s) : MemOk (mtIssue e op s) := by
  unfold mtIssue
  repeat' (first | with_reducible assumption | with_reducible refine mtSettle_memOk _ _ ?_ | with_reducible refine memOk_of_core (setMtH_core _ _ _) ?_ | with_reducible refine mtNext_memOk _ _ _ _ ?_ | (simp only [memOk_mk_iff, memOk_fold]) | with_reducible refine Memory.wf_mwrite _ ?_ _ _ | with_reducible refine Memory.wf_mset ?_ _ _ | with_reducible refine Memory.wf_filter _ ?_ | with_reducible refine Memory.wf_mputs ?_ _ _ | with_reducible refine Memory.wf_sset ?_ _ _ | with_reducible refine Memory.wf_foldl (fun _ _ _ => ?_) _ ?_ | with_reducible refine Memory.wf_foldl_snd (fun _ _ _ => ?_) _ ?_ | split | (simp only []))

theorem mtOperands_memOk (e : Nat) (s : State) (h : MemOk s) : MemOk (mtOperands e s) := by
  unfold mtOperands
  repeat' (first | with_reducible assumption | with_reducible refine mtDrain_memOk _ _ ?_ | (simp only [memOk_mk_iff, memOk_fold]) | with_reducible refine Memory.wf_mwrite _ ?_ _ _ | with_reducible refine Memory.wf_mset ?_ _ _ | with_reducible refine Memory.wf_filter _ ?_ | with_reducible refine Memory.wf_mputs ?_ _ _ | with_reducible refine Memory.wf_sset ?_ _ _ | with_reducible refine Memory.wf_foldl (fun _ _ _ => ?_) _ ?_ | with_reducible refine Memory.wf_foldl_snd (fun _ _ _ => ?_) _ ?_ | split | (simp only []))

theorem mtNops_memOk (e n : Nat) (s : State) (h : MemOk s) : MemOk (mtNops e n s) := by
  induction n generalizing s with
  | zero => exact h
  | succ n ih =>
    unfold mtNops
    split
    · exact ih _ (mtIssue_memOk _ _ _ (memOk_of_core (fetchEcc_core _ _ _) h))
    · exact h

theorem mtStep_memOk {f : Nat → State → State} (hf : ∀ w s, MemOk s → MemOk (f w s)) (e : MtFetch) (op : Nat) (s : State) (h : MemOk s) :
    MemOk (mtStep e op f s) := by
  unfold mtStep
  have h1 := mtNops_memOk e.engine (2 ^ 32) s h
  dsimp only
  split
  · exact h
  · generalize mtNops e.engine (2 ^ 32) s = s1 at h1 ⊢
    repeat' (first | with_reducible assumption | with_reducible refine mtError_memOk _ _ _ _ _ ?_ | with_reducible refine memOk_of_core (fetchEcc_core _ _ _) ?_ | with_reducible refine hf _ _ ?_ | split)

theorem mtExecEcc_memOk (e : Nat) (ecc : Ecc) (mk : State → MtOp) (s : State) (h : MemOk s) : MemOk (mtExecEcc e ecc mk s) := by
  unfold mtExecEcc
  repeat' (first | with_reducible assumption | with_reducible refine mtOperands_memOk _ _ ?_ | with_reducible refine memOk_of_core (mtReadEcc_core _ _ _) ?_ | with_reducible refine mtError_memOk _ _ _ _ _ ?_ | with_reducible refine mtIssue_memOk _ _ _ ?_ | (simp only [memOk_mk_iff, memOk_fold]) | with_reducible refine Memory.wf_mwrite _ ?_ _ _ | with_reducible refine Memory.wf_mset ?_ _ _ | with_reducible refine Memory.wf_filter _ ?_ | with_reducible refine Memory.wf_mputs ?_ _ _ | with_reducible refine Memory.wf_sset ?_ _ _ | with_reducible refine Memory.wf_foldl (fun _ _ _ => ?_) _ ?_ | with_reducible refine Memory.wf_foldl_snd (fun _ _ _ => ?_) _ ?_ | split | (simp only []))

theorem mtExec_memOk (e : Nat) (mk : State → MtOp) (s : State) (h : MemOk s) : MemOk (mtExec e mk s) := by
  unfold mtExec
  repeat' (first | with_reducible assumption | with_reducible refine mtExecEcc_memOk _ _ _ _ ?_ | (simp only [memOk_mk_iff, memOk_fold]) | with_reducible refine Memory.wf_mwrite _ ?_ _ _ | with_reducible refine Memory.wf_mset ?_ _ _ | with_reducible refine Memory.wf_filter _ ?_ | with_reducible refine Memory.wf_mputs ?_ _ _ | with_reducible refine Memory.wf_sset ?_ _ _ | with_reducible refine Memory.wf_foldl (fun _ _ _ => ?_) _ ?_ | with_reducible refine Memory.wf_foldl_snd (fun _ _ _ => ?_) _ ?_ | split | (simp only []))

theorem mtBr_memOk (e w : Nat) (s : State) (h : MemOk s) : MemOk (mtBr e w s) := by
  unfold mtBr
  repeat' (first | with_reducible assumption | with_reducible refine mtError_memOk _ _ _ _ _ ?_ | with_reducible refine memOk_of_core (mtBranch_core _ _ _ _) ?_ | with_reducible refine memOk_of_core (mtRetire_core _ _ _ _) ?_ | (simp only [memOk_mk_iff, memOk_fold]) | with_reducible refine Memory.wf_mwrite _ ?_ _ _ | with_reducible refine Memory.wf_mset ?_ _ _ | with_reducible refine Memory.wf_filter _ ?_ | with_reducible refine Memory.wf_mputs ?_ _ _ | with_reducible refine Memory.wf_sset ?_ _ _ | with_reducible refine Memory.wf_foldl (fun _ _ _ => ?_) _ ?_ | with_reducible refine Memory.wf_foldl_snd (fun _ _ _ => ?_) _ ?_ | split | (simp only []))

theorem mtBrf_memOk (e w : Nat) (s : State) (h : MemOk s) : MemOk (mtBrf e w s) := by
  unfold mtBrf
  repeat' (first | with_reducible assumption | with_reducible refine mtError_memOk _ _ _ _ _ ?_ | with_reducible refine mtOperands_memOk _ _ ?_ | with_reducible refine memOk_of_core (mtBranch_core _ _ _ _) ?_ | with_reducible refine memOk_of_core (mtRetire_core _ _ _ _) ?_ | with_reducible refine mtNext_memOk _ _ _ _ ?_ | (simp only [memOk_mk_iff, memOk_fold]) | with_reducible refine Memory.wf_mwrite _ ?_ _ _ | with_reducible refine Memory.wf_mset ?_ _ _ | with_reducible refine Memory.wf_filter _ ?_ | with_reducible refine Memory.wf_mputs ?_ _ _ | with_reducible refine Memory.wf_sset ?_ _ _ | with_reducible refine Memory.wf_foldl (fun _ _ _ => ?_) _ ?_ | with_reducible refine Memory.wf_foldl_snd (fun _ _ _ => ?_) _ ?_ | split | (simp only []))

theorem mtLoop_memOk (e w : Nat) (s : State) (h : MemOk s) : MemOk (mtLoop e w s) := by
  unfold mtLoop
  repeat' (first | with_reducible assumption | with_reducible refine mtError_memOk _ _ _ _ _ ?_ | with_reducible refine memOk_of_core (mtRetire_core _ _ _ _) ?_ | with_reducible refine memOk_of_core (setMtH_core _ _ _) ?_ | with_reducible refine mtNext_memOk _ _ _ _ ?_ | (simp only [memOk_mk_iff, memOk_fold]) | with_reducible refine Memory.wf_mwrite _ ?_ _ _ | with_reducible refine Memory.wf_mset ?_ _ _ | with_reducible refine Memory.wf_filter _ ?_ | with_reducible refine Memory.wf_mputs ?_ _ _ | with_reducible refine Memory.wf_sset ?_ _ _ | with_reducible refine Memory.wf_foldl (fun _ _ _ => ?_) _ ?_ | with_reducible refine Memory.wf_foldl_snd (fun _ _ _ => ?_) _ ?_ | split | (simp only []))

theorem waitEnd_memOk (e c : Nat) (s : State) (h : MemOk s) : MemOk (waitEnd e c s) := by
  unfold waitEnd
  repeat' (first | with_reducible assumption | with_reducible refine memOk_of_core (mtRetire_core _ _ _ _) ?_ | with_reducible refine memOk_of_core (setMtH_core _ _ _) ?_ | with_reducible refine mtNext_memOk _ _ _ _ ?_ | (simp only [memOk_mk_iff, memOk_fold]) | with_reducible refine Memory.wf_mwrite _ ?_ _ _ | with_reducible refine Memory.wf_mset ?_ _ _ | with_reducible refine Memory.wf_filter _ ?_ | with_reducible refine Memory.wf_mputs ?_ _ _ | with_reducible refine Memory.wf_sset ?_ _ _ | with_reducible refine Memory.wf_foldl (fun _ _ _ => ?_) _ ?_ | with_reducible refine Memory.wf_foldl_snd (fun _ _ _ => ?_) _ ?_ | split | (simp only []))

theorem mtWaite_memOk (e w : Nat) (s : State) (h : MemOk s) : MemOk (mtWaite e w s) := by
  unfold mtWaite
  repeat' (first | with_reducible assumption | with_reducible refine mtError_memOk _ _ _ _ _ ?_ | with_reducible refine waitEnd_memOk _ _ _ ?_ | with_reducible refine memOk_of_core (setMtH_core _ _ _) ?_ | (simp only [memOk_mk_iff, memOk_fold]) | with_reducible refine Memory.wf_mwrite _ ?_ _ _ | with_reducible refine Memory.wf_mset ?_ _ _ | with_reducible refine Memory.wf_filter _ ?_ | with_reducible refine Memory.wf_mputs ?_ _ _ | with_reducible refine Memory.wf_sset ?_ _ _ | with_reducible refine Memory.wf_foldl (fun _ _ _ => ?_) _ ?_ | with_reducible refine Memory.wf_foldl_snd (fun _ _ _ => ?_) _ ?_ | split | (simp only []))

theorem mtWaiteTimeout_memOk (e w : Nat) (s : State) (h : MemOk s) : MemOk (mtWaiteTimeout e w s) := by
  unfold mtWaiteTimeout
  repeat' (first | with_reducible assumption | with_reducible refine waitEnd_memOk _ _ _ ?_ | with_reducible refine memOk_of_core (setBit_core _ _ _ _ _) ?_ | with_reducible refine memOk_of_core (overrun_core _ _ _ _) ?_ | (simp only [memOk_mk_iff, memOk_fold]) | with_reducible refine Memory.wf_mwrite _ ?_ _ _ | with_reducible refine Memory.wf_mset ?_ _ _ | with_reducible refine Memory.wf_filter _ ?_ | with_reducible refine Memory.wf_mputs ?_ _ _ | with_reducible refine Memory.wf_sset ?_ _ _ | with_reducible refine Memory.wf_foldl (fun _ _ _ => ?_) _ ?_ | with_reducible refine Memory.wf_foldl_snd (fun _ _ _ => ?_) _ ?_ | split | (simp only []))

theorem mtHalt_memOk (e w : Nat) (s : State) (h : MemOk s) : MemOk (mtHalt e w s) := by
  unfold mtHalt
  repeat' (first | with_reducible assumption | with_reducible refine mtError_memOk _ _ _ _ _ ?_ | with_reducible refine mtEnding_memOk _ _ _ ?_ | (simp only [memOk_mk_iff, memOk_fold]) | with_reducible refine Memory.wf_mwrite _ ?_ _ _ | with_reducible refine Memory.wf_mset ?_ _ _ | with_reducible refine Memory.wf_filter _ ?_ | with_reducible refine Memory.wf_mputs ?_ _ _ | with_reducible refine Memory.wf_sset ?_ _ _ | with_reducible refine Memory.wf_foldl (fun _ _ _ => ?_) _ ?_ | with_reducible refine Memory.wf_foldl_snd (fun _ _ _ => ?_) _ ?_ | split | (simp only []))

theorem boundary_memOk (doms : List Nat) (s : State) (h : MemOk s) : MemOk (boundary doms s) := by
  unfold boundary
  repeat' (first | with_reducible assumption | with_reducible refine memOk_of_core (keepArmed_core _ _ _) ?_ | with_reducible refine memOk_of_core (detBoundaries_core _ _) ?_ | with_reducible refine transferPages_memOk _ _ ?_ | with_reducible refine mtBoundary_memOk _ _ ?_ | (with_reducible refine memOk_forRange (fun _ _ _ => ?_) _ ?_) | (simp only [memOk_mk_iff, memOk_fold]) | with_reducible refine Memory.wf_mwrite _ ?_ _ _ | with_reducible refine Memory.wf_mset ?_ _ _ | with_reducible refine Memory.wf_filter _ ?_ | with_reducible refine Memory.wf_mputs ?_ _ _ | with_reducible refine Memory.wf_sset ?_ _ _ | with_reducible refine Memory.wf_foldl (fun _ _ _ => ?_) _ ?_ | with_reducible refine Memory.wf_foldl_snd (fun _ _ _ => ?_) _ ?_ | split | (simp only []))

theorem slotActions_memOk (s : State) (h : MemOk s) : MemOk (slotActions s) := by
  unfold slotActions
  repeat' (first | with_reducible assumption | with_reducible refine memOk_of_core (setSlotH_core _ _ _) ?_ | with_reducible refine boundary_memOk _ _ ?_ | with_reducible refine memOk_of_core (triggerSet_core _ _) ?_ | with_reducible refine memOk_of_core (resync_core _ _) ?_ | with_reducible refine memOk_of_core (mtRequest_core _ _ _ _) ?_ | with_reducible refine memOk_of_core (pulse_core _ _ _) ?_ | (with_reducible refine memOk_foldl (fun _ _ _ => ?_) _ ?_) | (simp only [memOk_mk_iff, memOk_fold]) | with_reducible refine Memory.wf_mwrite _ ?_ _ _ | with_reducible refine Memory.wf_mset ?_ _ _ | with_reducible refine Memory.wf_filter _ ?_ | with_reducible refine Memory.wf_mputs ?_ _ _ | with_reducible refine Memory.wf_sset ?_ _ _ | with_reducible refine Memory.wf_foldl (fun _ _ _ => ?_) _ ?_ | with_reducible refine Memory.wf_foldl_snd (fun _ _ _ => ?_) _ ?_ | split | (simp only []))

theorem commStored_memOk (s : State) (h : MemOk s) : MemOk (commStored s) := by
  unfold commStored
  repeat' (first | with_reducible assumption | with_reducible refine memOk_of_core (candStat_core _ _ _ _) ?_ | with_reducible refine memOk_of_core (setRg_core _ _ _ _) ?_ | with_reducible refine memOk_of_core (setSc_core _ _) ?_ | with_reducible refine memOk_of_core (scOutputs_core _) ?_ | with_reducible refine memOk_of_core (scGen_core _) ?_ | with_reducible refine memOk_of_core (setFld_core _ _ _ _ _ _) ?_ | with_reducible refine memOk_of_core (scFail_core _ _) ?_ | (simp only [memOk_mk_iff, memOk_fold]) | with_reducible refine Memory.wf_mwrite _ ?_ _ _ | with_reducible refine Memory.wf_mset ?_ _ _ | with_reducible refine Memory.wf_filter _ ?_ | with_reducible refine Memory.wf_mputs ?_ _ _ | with_reducible refine Memory.wf_sset ?_ _ _ | with_reducible refine Memory.wf_foldl (fun _ _ _ => ?_) _ ?_ | with_reducible refine Memory.wf_foldl_snd (fun _ _ _ => ?_) _ ?_ | split | (simp only []))

theorem ethTxDone_memOk (s : State) (h : MemOk s) : MemOk (ethTxDone s) := by
  unfold ethTxDone
  repeat' (first | with_reducible assumption | with_reducible refine memOk_of_core (setEth_core _ _) ?_ | with_reducible refine memOk_of_core (ethKick_core _) ?_ | with_reducible refine memOk_of_core (flag_core _ _ _) ?_ | with_reducible refine memOk_of_core (incWrap_core _ _ _ _ _ _) ?_ | (simp only [memOk_mk_iff, memOk_fold]) | with_reducible refine Memory.wf_mwrite _ ?_ _ _ | with_reducible refine Memory.wf_mset ?_ _ _ | with_reducible refine Memory.wf_filter _ ?_ | with_reducible refine Memory.wf_mputs ?_ _ _ | with_reducible refine Memory.wf_sset ?_ _ _ | with_reducible refine Memory.wf_foldl (fun _ _ _ => ?_) _ ?_ | with_reducible refine Memory.wf_foldl_snd (fun _ _ _ => ?_) _ ?_ | split | (simp only []))

theorem ringStore_memOk (frame : List Nat) (ts : Option (Nat × Nat)) (s : State) (h : MemOk s) : MemOk (ringStore frame ts s) := by
  unfold ringStore
  repeat' (first | with_reducible assumption | with_reducible refine memOk_of_core (ethCount_core _ _) ?_ | with_reducible refine memOk_of_core (flag_core _ _ _) ?_ | with_reducible refine memOk_of_core (incWrap_core _ _ _ _ _ _) ?_ | with_reducible refine memOk_of_core (bwSeen_core _ _ _ _) ?_ | (simp only [memOk_mk_iff, memOk_fold]) | with_reducible refine Memory.wf_mwrite _ ?_ _ _ | with_reducible refine Memory.wf_mset ?_ _ _ | with_reducible refine Memory.wf_filter _ ?_ | with_reducible refine Memory.wf_mputs ?_ _ _ | with_reducible refine Memory.wf_sset ?_ _ _ | with_reducible refine Memory.wf_foldl (fun _ _ _ => ?_) _ ?_ | with_reducible refine Memory.wf_foldl_snd (fun _ _ _ => ?_) _ ?_ | split | (simp only []))

theorem fwDone_memOk (ok : Bool) (s : State) (h : MemOk s) : MemOk (fwDone ok s) := by
  unfold fwDone
  repeat' (first | with_reducible assumption | with_reducible refine memOk_of_core (setEth_core _ _) ?_ | with_reducible refine memOk_of_core (flag_core _ _ _) ?_ | with_reducible refine memOk_of_core (setFld_core _ _ _ _ _ _) ?_ | (simp only [memOk_mk_iff, memOk_fold]) | with_reducible refine Memory.wf_mwrite _ ?_ _ _ | with_reducible refine Memory.wf_mset ?_ _ _ | with_reducible refine Memory.wf_filter _ ?_ | with_reducible refine Memory.wf_mputs ?_ _ _ | with_reducible refine Memory.wf_sset ?_ _ _ | with_reducible refine Memory.wf_foldl (fun _ _ _ => ?_) _ ?_ | with_reducible refine Memory.wf_foldl_snd (fun _ _ _ => ?_) _ ?_ | split | (simp only []))

theorem setBaseline_memOk (i v : Nat) (s : State) (h : MemOk s) : MemOk (setBaseline i v s) := by
  unfold setBaseline
  repeat' (first | with_reducible assumption | (simp only [memOk_mk_iff, memOk_fold]) | with_reducible refine Memory.wf_mwrite _ ?_ _ _ | with_reducible refine Memory.wf_mset ?_ _ _ | with_reducible refine Memory.wf_filter _ ?_ | with_reducible refine Memory.wf_mputs ?_ _ _ | with_reducible refine Memory.wf_sset ?_ _ _ | with_reducible refine Memory.wf_foldl (fun _ _ _ => ?_) _ ?_ | with_reducible refine Memory.wf_foldl_snd (fun _ _ _ => ?_) _ ?_ | split | (simp only []))

theorem takeBaseline_memOk (i v : Nat) (s : State) (h : MemOk s) : MemOk (takeBaseline i v s) := by
  unfold takeBaseline
  repeat' (first | with_reducible assumption | with_reducible refine setBaseline_memOk _ _ _ ?_ | (simp only [memOk_mk_iff, memOk_fold]) | with_reducible refine Memory.wf_mwrite _ ?_ _ _ | with_reducible refine Memory.wf_mset ?_ _ _ | with_reducible refine Memory.wf_filter _ ?_ | with_reducible refine Memory.wf_mputs ?_ _ _ | with_reducible refine Memory.wf_sset ?_ _ _ | with_reducible refine Memory.wf_foldl (fun _ _ _ => ?_) _ ?_ | with_reducible refine Memory.wf_foldl_snd (fun _ _ _ => ?_) _ ?_ | split | (simp only []))

theorem ledRecord_memOk (kind i v : Nat) (s : State) (h : MemOk s) : MemOk (ledRecord kind i v s) := by
  unfold ledRecord
  repeat' (first | with_reducible assumption | with_reducible refine memOk_of_mem (setLedNv_mem _ _) ?_ | with_reducible refine memOk_of_core (flag_core _ _ _) ?_ | with_reducible refine memOk_of_core (setRg_core _ _ _ _) ?_ | (simp only [memOk_mk_iff, memOk_fold]) | with_reducible refine Memory.wf_mwrite _ ?_ _ _ | with_reducible refine Memory.wf_mset ?_ _ _ | with_reducible refine Memory.wf_filter _ ?_ | with_reducible refine Memory.wf_mputs ?_ _ _ | with_reducible refine Memory.wf_sset ?_ _ _ | with_reducible refine Memory.wf_foldl (fun _ _ _ => ?_) _ ?_ | with_reducible refine Memory.wf_foldl_snd (fun _ _ _ => ?_) _ ?_ | split | (simp only []))

theorem ronWindow_memOk (c : Nat) (up : Bool) (s : State) (h : MemOk s) : MemOk (ronWindow c up s) := by
  unfold ronWindow
  repeat' (first | with_reducible assumption | with_reducible refine memOk_of_core (setLedChan_core _ _ _) ?_ | with_reducible refine takeBaseline_memOk _ _ _ ?_ | with_reducible refine ledRecord_memOk _ _ _ _ ?_ | with_reducible refine memOk_of_mem (setLedNv_mem _ _) ?_ | (simp only [memOk_mk_iff, memOk_fold]) | with_reducible refine Memory.wf_mwrite _ ?_ _ _ | with_reducible refine Memory.wf_mset ?_ _ _ | with_reducible refine Memory.wf_filter _ ?_ | with_reducible refine Memory.wf_mputs ?_ _ _ | with_reducible refine Memory.wf_sset ?_ _ _ | with_reducible refine Memory.wf_foldl (fun _ _ _ => ?_) _ ?_ | with_reducible refine Memory.wf_foldl_snd (fun _ _ _ => ?_) _ ?_ | split | (simp only []))

theorem vthPut_memOk (c v : Nat) (s : State) (h : MemOk s) : MemOk (vthPut c v s) := by
  unfold vthPut
  repeat' (first | with_reducible assumption | with_reducible refine takeBaseline_memOk _ _ _ ?_ | with_reducible refine memOk_of_core (setLed_core _ _) ?_ | with_reducible refine ledRecord_memOk _ _ _ _ ?_ | with_reducible refine memOk_of_mem (setLedNv_mem _ _) ?_ | (simp only [memOk_mk_iff, memOk_fold]) | with_reducible refine Memory.wf_mwrite _ ?_ _ _ | with_reducible refine Memory.wf_mset ?_ _ _ | with_reducible refine Memory.wf_filter _ ?_ | with_reducible refine Memory.wf_mputs ?_ _ _ | with_reducible refine Memory.wf_sset ?_ _ _ | with_reducible refine Memory.wf_foldl (fun _ _ _ => ?_) _ ?_ | with_reducible refine Memory.wf_foldl_snd (fun _ _ _ => ?_) _ ?_ | split | (simp only []))

theorem vthMeasure_memOk (c v : Nat) (s : State) (h : MemOk s) : MemOk (vthMeasure c v s) := by
  unfold vthMeasure
  repeat' (first | with_reducible assumption | with_reducible refine memOk_of_core (setLedChan_core _ _ _) ?_ | with_reducible refine vthPut_memOk _ _ _ ?_ | with_reducible refine memOk_of_core (freeStep_core _) ?_ | (simp only [memOk_mk_iff, memOk_fold]) | with_reducible refine Memory.wf_mwrite _ ?_ _ _ | with_reducible refine Memory.wf_mset ?_ _ _ | with_reducible refine Memory.wf_filter _ ?_ | with_reducible refine Memory.wf_mputs ?_ _ _ | with_reducible refine Memory.wf_sset ?_ _ _ | with_reducible refine Memory.wf_foldl (fun _ _ _ => ?_) _ ?_ | with_reducible refine Memory.wf_foldl_snd (fun _ _ _ => ?_) _ ?_ | split | (simp only []))

theorem zthRecord_memOk (t : Nat) (s : State) (h : MemOk s) : MemOk (zthRecord t s) := by
  unfold zthRecord
  repeat' (first | with_reducible assumption | with_reducible refine memOk_of_core (setLed_core _ _) ?_ | with_reducible refine takeBaseline_memOk _ _ _ ?_ | with_reducible refine ledRecord_memOk _ _ _ _ ?_ | with_reducible refine memOk_of_mem (setLedNv_mem _ _) ?_ | (simp only [memOk_mk_iff, memOk_fold]) | with_reducible refine Memory.wf_mwrite _ ?_ _ _ | with_reducible refine Memory.wf_mset ?_ _ _ | with_reducible refine Memory.wf_filter _ ?_ | with_reducible refine Memory.wf_mputs ?_ _ _ | with_reducible refine Memory.wf_sset ?_ _ _ | with_reducible refine Memory.wf_foldl (fun _ _ _ => ?_) _ ?_ | with_reducible refine Memory.wf_foldl_snd (fun _ _ _ => ?_) _ ?_ | split | (simp only []))

theorem capMeasure_memOk (d20 d60 : Nat) (s : State) (h : MemOk s) : MemOk (capMeasure d20 d60 s) := by
  unfold capMeasure
  repeat' (first | with_reducible assumption | with_reducible refine memOk_of_core (setLed_core _ _) ?_ | with_reducible refine takeBaseline_memOk _ _ _ ?_ | with_reducible refine ledRecord_memOk _ _ _ _ ?_ | with_reducible refine memOk_of_mem (setLedNv_mem _ _) ?_ | (simp only [memOk_mk_iff, memOk_fold]) | with_reducible refine Memory.wf_mwrite _ ?_ _ _ | with_reducible refine Memory.wf_mset ?_ _ _ | with_reducible refine Memory.wf_filter _ ?_ | with_reducible refine Memory.wf_mputs ?_ _ _ | with_reducible refine Memory.wf_sset ?_ _ _ | with_reducible refine Memory.wf_foldl (fun _ _ _ => ?_) _ ?_ | with_reducible refine Memory.wf_foldl_snd (fun _ _ _ => ?_) _ ?_ | split | (simp only []))

theorem scrWindow_memOk (c : Nat) (s : State) (h : MemOk s) : MemOk (scrWindow c s) := by
  unfold scrWindow
  repeat' (first | with_reducible assumption | with_reducible refine memOk_of_core (setLedChan_core _ _ _) ?_ | with_reducible refine ledRecord_memOk _ _ _ _ ?_ | with_reducible refine memOk_of_mem (setLedNv_mem _ _) ?_ | (simp only [memOk_mk_iff, memOk_fold]) | with_reducible refine Memory.wf_mwrite _ ?_ _ _ | with_reducible refine Memory.wf_mset ?_ _ _ | with_reducible refine Memory.wf_filter _ ?_ | with_reducible refine Memory.wf_mputs ?_ _ _ | with_reducible refine Memory.wf_sset ?_ _ _ | with_reducible refine Memory.wf_foldl (fun _ _ _ => ?_) _ ?_ | with_reducible refine Memory.wf_foldl_snd (fun _ _ _ => ?_) _ ?_ | split | (simp only []))

theorem xtalReading_memOk (s : State) (h : MemOk s) : MemOk (xtalReading s) := by
  unfold xtalReading
  repeat' (first | with_reducible assumption | with_reducible refine memOk_of_core (setLed_core _ _) ?_ | with_reducible refine ledRecord_memOk _ _ _ _ ?_ | with_reducible refine memOk_of_mem (setLedNv_mem _ _) ?_ | (simp only [memOk_mk_iff, memOk_fold]) | with_reducible refine Memory.wf_mwrite _ ?_ _ _ | with_reducible refine Memory.wf_mset ?_ _ _ | with_reducible refine Memory.wf_filter _ ?_ | with_reducible refine Memory.wf_mputs ?_ _ _ | with_reducible refine Memory.wf_sset ?_ _ _ | with_reducible refine Memory.wf_foldl (fun _ _ _ => ?_) _ ?_ | with_reducible refine Memory.wf_foldl_snd (fun _ _ _ => ?_) _ ?_ | split | (simp only []))

theorem ledReset_memOk (s : State) (h : MemOk s) : MemOk (ledReset s) := by
  unfold ledReset
  repeat' (first | with_reducible assumption | with_reducible refine memOk_of_mem (setLedNv_mem _ _) ?_ | (simp only [memOk_mk_iff, memOk_fold]) | with_reducible refine Memory.wf_mwrite _ ?_ _ _ | with_reducible refine Memory.wf_mset ?_ _ _ | with_reducible refine Memory.wf_filter _ ?_ | with_reducible refine Memory.wf_mputs ?_ _ _ | with_reducible refine Memory.wf_sset ?_ _ _ | with_reducible refine Memory.wf_foldl (fun _ _ _ => ?_) _ ?_ | with_reducible refine Memory.wf_foldl_snd (fun _ _ _ => ?_) _ ?_ | split | (simp only []))

theorem planDelay_memOk (dly m : Nat) (s : State) (h : MemOk s) : MemOk (planDelay dly m s) := by
  unfold planDelay
  repeat' (first | with_reducible assumption | with_reducible refine memOk_of_core (planPage_core _ _ _) ?_ | with_reducible refine setBaseline_memOk _ _ _ ?_ | (simp only [memOk_mk_iff, memOk_fold]) | with_reducible refine Memory.wf_mwrite _ ?_ _ _ | with_reducible refine Memory.wf_mset ?_ _ _ | with_reducible refine Memory.wf_filter _ ?_ | with_reducible refine Memory.wf_mputs ?_ _ _ | with_reducible refine Memory.wf_sset ?_ _ _ | with_reducible refine Memory.wf_foldl (fun _ _ _ => ?_) _ ?_ | with_reducible refine Memory.wf_foldl_snd (fun _ _ _ => ?_) _ ?_ | split | (simp only []))

theorem planApply_memOk (p : Plan) (s : State) (h : MemOk s) : MemOk (planApply p s) := by
  unfold planApply
  extract_lets s0 s1 s2 s3
  have h0 : MemOk s0 := memOk_of_core (planShow_core _ _) h
  have h1 : MemOk s1 := memOk_forRange (fun _ _ hs => memOk_of_core (planPage_core _ _ _) hs) _ h0
  have h2 : MemOk s2 := memOk_forRange (fun _ _ hs => memOk_of_core (planPage_core _ _ _) hs) _ h1
  have h3 : MemOk s3 := memOk_of_core (planPage_core _ _ _) (memOk_forRange (fun _ _ hs => planDelay_memOk _ _ _ hs) _ h2)
  split
  · exact h3
  · exact memOk_of_mem (setLedNv_mem _ _) h3

theorem planAdopt_memOk (ok : Bool) (s : State) (h : MemOk s) : MemOk (planAdopt ok s) := by
  unfold planAdopt
  split
  · exact memOk_of_core (setFld_core _ _ _ _ _ _) h
  · extract_lets p a ws same s0 e bs t m
    have h0 : MemOk s0 := memOk_of_core (planFlags_core _ _) h
    have hm : Memory.wf m = true := Memory.wf_mputs (Memory.wf_mputs (memOk_eta h0) _ _) _ _
    clear_value m
    have hs : MemOk { s0 with mem := m } := hm
    split
    · exact memOk_of_core (setFld_core _ _ _ _ _ _) (planApply_memOk _ _ h0)
    · split
      · exact memOk_of_core (setFld_core _ _ _ _ _ _) h0
      · exact memOk_of_core (setFld_core _ _ _ _ _ _) (planApply_memOk _ _ hs)

theorem ledgerEff_memOk (o v : Nat) (was : Bool) (s : State) (h : MemOk s) : MemOk (ledgerEff o v was s) := by
  unfold ledgerEff
  repeat' (first | with_reducible assumption | with_reducible refine ledReset_memOk _ ?_ | with_reducible refine memOk_of_core (flag_core _ _ _) ?_ | with_reducible refine memOk_of_core (setBit_core _ _ _ _ _) ?_ | with_reducible refine memOk_of_core (planShow_core _ _) ?_ | with_reducible refine memOk_of_core (planFlags_core _ _) ?_ | with_reducible refine memOk_of_core (setLed_core _ _) ?_ | (simp only [memOk_mk_iff, memOk_fold]) | with_reducible refine Memory.wf_mwrite _ ?_ _ _ | with_reducible refine Memory.wf_mset ?_ _ _ | with_reducible refine Memory.wf_filter _ ?_ | with_reducible refine Memory.wf_mputs ?_ _ _ | with_reducible refine Memory.wf_sset ?_ _ _ | with_reducible refine Memory.wf_foldl (fun _ _ _ => ?_) _ ?_ | with_reducible refine Memory.wf_foldl_snd (fun _ _ _ => ?_) _ ?_ | split | (simp only []))

theorem ledgerWrite_memOk (acc : Access) (o v : Nat) (s : State) (h : MemOk s) : MemOk (ledgerWrite acc o v s) := by
  unfold ledgerWrite
  repeat' (first | with_reducible assumption | with_reducible refine ledgerEff_memOk _ _ _ _ ?_ | (with_reducible refine memOk_busStore (fun _ _ => ?_) ?_) | (simp only [memOk_mk_iff, memOk_fold]) | with_reducible refine Memory.wf_mwrite _ ?_ _ _ | with_reducible refine Memory.wf_mset ?_ _ _ | with_reducible refine Memory.wf_filter _ ?_ | with_reducible refine Memory.wf_mputs ?_ _ _ | with_reducible refine Memory.wf_sset ?_ _ _ | with_reducible refine Memory.wf_foldl (fun _ _ _ => ?_) _ ?_ | with_reducible refine Memory.wf_foldl_snd (fun _ _ _ => ?_) _ ?_ | split | (simp only []))

theorem tcmClear_memOk (x : Nat) (s : State) (h : MemOk s) : MemOk (tcmClear x s) := by
  unfold tcmClear
  repeat' (first | with_reducible assumption | (simp only [memOk_mk_iff, memOk_fold]) | with_reducible refine Memory.wf_mwrite _ ?_ _ _ | with_reducible refine Memory.wf_mset ?_ _ _ | with_reducible refine Memory.wf_filter _ ?_ | with_reducible refine Memory.wf_mputs ?_ _ _ | with_reducible refine Memory.wf_sset ?_ _ _ | with_reducible refine Memory.wf_foldl (fun _ _ _ => ?_) _ ?_ | with_reducible refine Memory.wf_foldl_snd (fun _ _ _ => ?_) _ ?_ | split | (simp only []))

theorem detect_memOk (x cause seg : Nat) (sweep : Bool) (s : State) (h : MemOk s) : MemOk (detect x cause seg sweep s) := by
  unfold detect
  split
  · exact memOk_of_core (detectAgain_core _ _ _ _ _) h
  · split
    · exact h
    · extract_lets st s1 s2 s3 at_ c s4 s5 s6
      have h1 : MemOk s1 := memOk_of_core (setBit_core _ _ _ _ _) (memOk_of_core (setFld_core _ _ _ _ _ _) h)
      have h2 : MemOk s2 := memOk_ite _ (memOk_of_core (setFld_core _ _ _ _ _ _) h1) h1
      have h3 : MemOk s3 := memOk_of_core (flag_core _ _ _) (memOk_of_core (detCount_core _ _ _) h2)
      have h4 : MemOk s4 := memOk_of_core (setBit_core _ _ _ _ _) (memOk_eta h3)
      have h5 : MemOk s5 := tcmClear_memOk _ _ (memOk_of_mem (coreReset_mem _ _) (memOk_of_core ((setPair_core _ _ _ _).trans (tagDiscard_core _ _)) h4))
      have h6 : MemOk s6 := memOk_of_core (pairRefresh_core _) h5
      clear_value s5 s6
      split
      · exact memOk_of_core ((goLatched_core _ _).trans ((pairRefresh_core _).trans (setPair_core _ _ _ _))) h5
      · split
        · exact memOk_of_core (goSafe_core _ _) h6
        · exact h6

theorem readyEnter_memOk (ok : Bool) (s : State) (h : MemOk s) : MemOk (readyEnter ok s) := by
  unfold readyEnter
  repeat' (first | with_reducible assumption | with_reducible refine memOk_of_mem (azApply_mem _) ?_ | with_reducible refine planAdopt_memOk _ _ ?_ | with_reducible refine calStoreEnd_memOk _ ?_ | with_reducible refine memOk_of_core (calStoreStart_core _ _) ?_ | with_reducible refine memOk_of_core (enterState_core _ _ _ _) ?_ | with_reducible refine memOk_of_core (calCompare_core _) ?_ | (simp only [memOk_mk_iff, memOk_fold]) | with_reducible refine Memory.wf_mwrite _ ?_ _ _ | with_reducible refine Memory.wf_mset ?_ _ _ | with_reducible refine Memory.wf_filter _ ?_ | with_reducible refine Memory.wf_mputs ?_ _ _ | with_reducible refine Memory.wf_sset ?_ _ _ | with_reducible refine Memory.wf_foldl (fun _ _ _ => ?_) _ ?_ | with_reducible refine Memory.wf_foldl_snd (fun _ _ _ => ?_) _ ?_ | split | (simp only []))

theorem stateCommand_memOk (v : Nat) (s : State) (h : MemOk s) : MemOk (stateCommand v s) := by
  unfold stateCommand
  repeat' (first | with_reducible assumption | with_reducible refine memOk_of_core (azStart_core _) ?_ | with_reducible refine memOk_of_core (profileApply_core _) ?_ | with_reducible refine memOk_of_core (enterState_core _ _ _ _) ?_ | with_reducible refine memOk_of_core (stopFrom_core _) ?_ | with_reducible refine memOk_of_core (enterHeld_core _ _) ?_ | with_reducible refine memOk_of_core (endDecisions_core _) ?_ | with_reducible refine memOk_of_core (stopComplete_core _) ?_ | with_reducible refine restart_memOk _ _ _ ?_ | (simp only [memOk_mk_iff, memOk_fold]) | with_reducible refine Memory.wf_mwrite _ ?_ _ _ | with_reducible refine Memory.wf_mset ?_ _ _ | with_reducible refine Memory.wf_filter _ ?_ | with_reducible refine Memory.wf_mputs ?_ _ _ | with_reducible refine Memory.wf_sset ?_ _ _ | with_reducible refine Memory.wf_foldl (fun _ _ _ => ?_) _ ?_ | with_reducible refine Memory.wf_foldl_snd (fun _ _ _ => ?_) _ ?_ | split | (simp only []))

theorem stateCmd_memOk (acc : Access) (v : Nat) (s : State) (h : MemOk s) : MemOk (stateCmd acc v s) := by
  unfold stateCmd
  repeat' (first | with_reducible assumption | with_reducible refine stateCommand_memOk _ _ ?_ | (simp only [memOk_mk_iff, memOk_fold]) | with_reducible refine Memory.wf_mwrite _ ?_ _ _ | with_reducible refine Memory.wf_mset ?_ _ _ | with_reducible refine Memory.wf_filter _ ?_ | with_reducible refine Memory.wf_mputs ?_ _ _ | with_reducible refine Memory.wf_sset ?_ _ _ | with_reducible refine Memory.wf_foldl (fun _ _ _ => ?_) _ ?_ | with_reducible refine Memory.wf_foldl_snd (fun _ _ _ => ?_) _ ?_ | split | (simp only []))

theorem sysWrite_memOk (acc : Access) (o v : Nat) (s : State) (h : MemOk s) : MemOk (sysWrite acc o v s) := by
  unfold sysWrite
  repeat' (first | with_reducible assumption | with_reducible refine memOk_of_core (detClear_core _ _) ?_ | with_reducible refine memOk_of_core (degSetWrite_core _ _ _) ?_ | with_reducible refine transferPages_memOk _ _ ?_ | with_reducible refine stateCmd_memOk _ _ _ ?_ | (with_reducible refine memOk_busStore (fun _ _ => ?_) ?_) | (simp only [memOk_mk_iff, memOk_fold]) | with_reducible refine Memory.wf_mwrite _ ?_ _ _ | with_reducible refine Memory.wf_mset ?_ _ _ | with_reducible refine Memory.wf_filter _ ?_ | with_reducible refine Memory.wf_mputs ?_ _ _ | with_reducible refine Memory.wf_sset ?_ _ _ | with_reducible refine Memory.wf_foldl (fun _ _ _ => ?_) _ ?_ | with_reducible refine Memory.wf_foldl_snd (fun _ _ _ => ?_) _ ?_ | split | (simp only []))

theorem confirm_memOk (s : State) (h : MemOk s) : MemOk (confirm s) := by
  unfold confirm
  repeat' (first | with_reducible assumption | with_reducible refine memOk_of_core (setBit_core _ _ _ _ _) ?_ | with_reducible refine setBootRec_memOk _ _ ?_ | (simp only [memOk_mk_iff, memOk_fold]) | with_reducible refine Memory.wf_mwrite _ ?_ _ _ | with_reducible refine Memory.wf_mset ?_ _ _ | with_reducible refine Memory.wf_filter _ ?_ | with_reducible refine Memory.wf_mputs ?_ _ _ | with_reducible refine Memory.wf_sset ?_ _ _ | with_reducible refine Memory.wf_foldl (fun _ _ _ => ?_) _ ?_ | with_reducible refine Memory.wf_foldl_snd (fun _ _ _ => ?_) _ ?_ | split | (simp only []))

theorem bootWrite_memOk (acc : Access) (o v : Nat) (s : State) (h : MemOk s) : MemOk (bootWrite acc o v s) := by
  unfold bootWrite
  repeat' (first | with_reducible assumption | with_reducible refine memOk_of_core (setRg_core _ _ _ _) ?_ | with_reducible refine setBootRec_memOk _ _ ?_ | with_reducible refine confirm_memOk _ ?_ | with_reducible refine memOk_of_mem (advance_mem _) ?_ | (with_reducible refine memOk_busStore (fun _ _ => ?_) ?_) | (simp only [memOk_mk_iff, memOk_fold]) | with_reducible refine Memory.wf_mwrite _ ?_ _ _ | with_reducible refine Memory.wf_mset ?_ _ _ | with_reducible refine Memory.wf_filter _ ?_ | with_reducible refine Memory.wf_mputs ?_ _ _ | with_reducible refine Memory.wf_sset ?_ _ _ | with_reducible refine Memory.wf_foldl (fun _ _ _ => ?_) _ ?_ | with_reducible refine Memory.wf_foldl_snd (fun _ _ _ => ?_) _ ?_ | split | (simp only []))

theorem enableRestart_memOk {w : Nat → State → State} (hw : ∀ v s, MemOk s → MemOk (w v s)) (p i : Nat) (s : State) (h : MemOk s) :
    MemOk (enableRestart p i w s) := by
  unfold enableRestart
  split
  · exact h
  · exact memOk_of_core (setBit_core _ _ _ _ _) (hw _ _ (memOk_of_core (setBit_core _ _ _ _ _) h))

theorem enablePages_memOk {e : Nat × Nat × (Nat → State → State)} (h : e ∈ enablePages) (v : Nat) (s : State) (hs : MemOk s) :
    MemOk (e.2.2 v s) := by
  simp only [enablePages, List.mem_append, List.mem_cons, List.mem_map, List.not_mem_nil, or_false] at h
  rcases h with (((((((h | h) | ⟨_, _, h⟩) | ⟨_, _, h⟩) | ⟨_, _, h⟩) | ⟨_, _, h⟩) | h | h) | ⟨_, _, h⟩) | h | h <;> subst h
  · exact memOk_of_core (bwWrite_core _ _ _ _) hs
  · exact ledgerWrite_memOk _ _ _ _ hs
  · exact memOk_of_core (atWrite_core _ _ _ _ _) hs
  · exact memOk_of_core (sdgWrite_core _ _ _ _ _) hs
  · exact memOk_of_core (sarWrite_core _ _ _ _ _) hs
  · exact memOk_of_core (rsvWrite_core _ _ _ _ _) hs
  · exact memOk_of_core (encWrite_core _ _ _ _) hs
  · exact memOk_of_core (hvsWrite_core _ _ _ _) hs
  · exact mtWrite_memOk _ _ _ _ _ hs
  · exact memOk_of_core (mtsWrite_core _ _ _ _) hs
  · exact memOk_of_core (pilotWrite_core _ _ _ _) hs

theorem memOk_foldl_mem {α : Type} {g : State → α → State} {l : List α} (hg : ∀ a ∈ l, ∀ s, MemOk s → MemOk (g s a)) {s : State}
    (h : MemOk s) : MemOk (l.foldl g s) := by
  induction l generalizing s with
  | nil => exact h
  | cons a l ih => exact ih (fun b hb => hg b (List.mem_cons_of_mem _ hb)) (hg a (List.mem_cons_self ..) s h)

theorem enablesRestart_memOk (s : State) (h : MemOk s) : MemOk (enablesRestart s) := by
  unfold enablesRestart
  refine memOk_forRange (fun x s hs => ?_) _ ?_
  · split
    · exact memOk_of_core (tagSeed_core _ _) hs
    · exact hs
  refine memOk_foldl_mem (fun e he s hs => ?_) h
  refine memOk_forRange (fun i s hs => ?_) _ hs
  split
  · exact enableRestart_memOk (enablePages_memOk he) _ _ _ hs
  · exact hs

theorem restoreComplete_memOk (bad : List Nat) (s : State) (h : MemOk s) : MemOk (restoreComplete bad s) := by
  unfold restoreComplete
  repeat' (first | with_reducible assumption | with_reducible refine enablesRestart_memOk _ ?_ | with_reducible refine memOk_of_core (enterHeld_core _ _) ?_ | with_reducible refine memOk_of_core (faultsHold_core _) ?_ | with_reducible refine memOk_of_mem (mpuLoad_mem _ _) ?_ | with_reducible refine memOk_of_core (mtsTransferred_core _ _) ?_ | with_reducible refine memOk_of_core (calRestore_core _) ?_ | with_reducible refine memOk_of_core (restoreImage_core _ _) ?_ | (with_reducible refine memOk_forRange (fun _ _ _ => ?_) _ ?_) | (simp only [memOk_mk_iff, memOk_fold]) | with_reducible refine Memory.wf_mwrite _ ?_ _ _ | with_reducible refine Memory.wf_mset ?_ _ _ | with_reducible refine Memory.wf_filter _ ?_ | with_reducible refine Memory.wf_mputs ?_ _ _ | with_reducible refine Memory.wf_sset ?_ _ _ | with_reducible refine Memory.wf_foldl (fun _ _ _ => ?_) _ ?_ | with_reducible refine Memory.wf_foldl_snd (fun _ _ _ => ?_) _ ?_ | split | (simp only []))

theorem pageWrite_memOk (acc : Access) (p o v : Nat) (s : State) (h : MemOk s) : MemOk (pageWrite acc p o v s) := by
  unfold pageWrite
  repeat' (first | with_reducible assumption | with_reducible refine memOk_of_core (headerWrite_core _ _ _ _ _ _ _) ?_ | with_reducible refine sysWrite_memOk _ _ _ _ ?_ | with_reducible refine memOk_of_core (supplyWrite_core _ _ _ _) ?_ | with_reducible refine bootWrite_memOk _ _ _ _ ?_ | with_reducible refine memOk_of_core (cocoonWrite_core _ _ _ _) ?_ | with_reducible refine memOk_of_core (pactWrite_core _ _ _ _) ?_ | with_reducible refine memOk_of_core (hiveWrite_core _ _ _ _) ?_ | with_reducible refine memOk_of_mem (debugWrite_mem _ _ _ _) ?_ | with_reducible refine memOk_of_core (antWrite_core _ _ _ _ _) ?_ | with_reducible refine memOk_of_core (bwWrite_core _ _ _ _) ?_ | with_reducible refine ledgerWrite_memOk _ _ _ _ ?_ | with_reducible refine memOk_of_core (spareWrite_core _ _ _ _) ?_ | with_reducible refine memOk_of_core (stagWrite_core _ _ _ _ _) ?_ | with_reducible refine memOk_of_core (checkerWrite_core _ _ _ _) ?_ | with_reducible refine memOk_of_core (memctlWrite_core _ _ _ _) ?_ | with_reducible refine memOk_of_core (atWrite_core _ _ _ _ _) ?_ | with_reducible refine memOk_of_core (slotsWrite_core _ _ _ _ _) ?_ | with_reducible refine memOk_of_core (sdgWrite_core _ _ _ _ _) ?_ | with_reducible refine memOk_of_core (sarWrite_core _ _ _ _ _) ?_ | with_reducible refine memOk_of_core (rsvWrite_core _ _ _ _ _) ?_ | with_reducible refine memOk_of_core (encWrite_core _ _ _ _) ?_ | with_reducible refine memOk_of_core (hvsWrite_core _ _ _ _) ?_ | with_reducible refine memOk_of_core (setsWrite_core _ _ _ _) ?_ | with_reducible refine memOk_of_core (calWrite_core _ _ _ _) ?_ | with_reducible refine mtWrite_memOk _ _ _ _ _ ?_ | with_reducible refine memOk_of_core (mtsWrite_core _ _ _ _) ?_ | with_reducible refine memOk_of_core (carWrite_core _ _ _ _ _) ?_ | with_reducible refine memOk_of_core (legWrite_core _ _ _ _ _) ?_ | with_reducible refine memOk_of_core (icWrite_core _ _ _ _ _) ?_ | with_reducible refine memOk_of_core (brakeWrite_core _ _ _ _) ?_ | with_reducible refine memOk_of_core (dfWrite_core _ _ _ _ _) ?_ | with_reducible refine memOk_of_core (hbWrite_core _ _ _ _) ?_ | with_reducible refine memOk_of_core (pilotWrite_core _ _ _ _) ?_ | with_reducible refine memOk_of_core (aduWrite_core _ _ _ _ _) ?_ | with_reducible refine memOk_of_core (kdWrite_core _ _ _ _ _) ?_ | with_reducible refine memOk_of_mem (ethWrite_mem _ _ _ _) ?_ | with_reducible refine memOk_of_core (ptpWrite_core _ _ _ _) ?_ | with_reducible refine memOk_of_core (safelinkWrite_core _ _ _ _) ?_ | with_reducible refine memOk_id ?_ | (with_reducible refine memOk_busStore (fun _ _ => ?_) ?_) | (simp only [memOk_mk_iff, memOk_fold]) | with_reducible refine Memory.wf_mwrite _ ?_ _ _ | with_reducible refine Memory.wf_mset ?_ _ _ | with_reducible refine Memory.wf_filter _ ?_ | with_reducible refine Memory.wf_mputs ?_ _ _ | with_reducible refine Memory.wf_sset ?_ _ _ | with_reducible refine Memory.wf_foldl (fun _ _ _ => ?_) _ ?_ | with_reducible refine Memory.wf_foldl_snd (fun _ _ _ => ?_) _ ?_ | split | (simp only []))

theorem busWrite_memOk (acc : Access) (a n v : Nat) (s0 : State) (h : MemOk s0) : MemOk (busWrite acc a n v s0) := by
  unfold busWrite
  repeat' (first | with_reducible assumption | with_reducible refine memOk_of_core (busErr_core _) ?_ | with_reducible refine memOk_of_core (busEcc_core _ _ _ _) ?_ | with_reducible refine pageWrite_memOk _ _ _ _ _ ?_ | with_reducible refine memOk_of_core (tallyAt_core _ _ _ _ _) ?_ | with_reducible refine windowWrite_memOk _ _ _ _ _ _ ?_ | with_reducible refine memOk_id ?_ | (with_reducible refine memOk_onBus (fun _ _ => ?_) ?_) | (simp only [memOk_mk_iff, memOk_fold]) | with_reducible refine Memory.wf_mwrite _ ?_ _ _ | with_reducible refine Memory.wf_mset ?_ _ _ | with_reducible refine Memory.wf_filter _ ?_ | with_reducible refine Memory.wf_mputs ?_ _ _ | with_reducible refine Memory.wf_sset ?_ _ _ | with_reducible refine Memory.wf_foldl (fun _ _ _ => ?_) _ ?_ | with_reducible refine Memory.wf_foldl_snd (fun _ _ _ => ?_) _ ?_ | split | (simp only []))

theorem headerRow_memOk (acc : Access) (p o v : Nat) (s : State) (h : MemOk s) : MemOk (headerRow acc p o v s) := by
  unfold headerRow
  repeat' (first | with_reducible assumption | with_reducible refine pageWrite_memOk _ _ _ _ _ ?_ | (with_reducible refine memOk_onBus (fun _ _ => ?_) ?_) | (simp only [memOk_mk_iff, memOk_fold]) | with_reducible refine Memory.wf_mwrite _ ?_ _ _ | with_reducible refine Memory.wf_mset ?_ _ _ | with_reducible refine Memory.wf_filter _ ?_ | with_reducible refine Memory.wf_mputs ?_ _ _ | with_reducible refine Memory.wf_sset ?_ _ _ | with_reducible refine Memory.wf_foldl (fun _ _ _ => ?_) _ ?_ | with_reducible refine Memory.wf_foldl_snd (fun _ _ _ => ?_) _ ?_ | split | (simp only []))

theorem excRaise_memOk (x : Nat) (e : Exc) (epc : Nat) (s : State) (h : MemOk s) : MemOk (excRaise x e epc s) := by
  unfold excRaise
  repeat' (first | with_reducible assumption | with_reducible refine detect_memOk _ _ _ _ _ ?_ | with_reducible refine memOk_of_core (antCount_core _ _ _ _) ?_ | with_reducible refine memOk_of_mem (excEntry_mem _ _ _ _) ?_ | (simp only [memOk_mk_iff, memOk_fold]) | with_reducible refine Memory.wf_mwrite _ ?_ _ _ | with_reducible refine Memory.wf_mset ?_ _ _ | with_reducible refine Memory.wf_filter _ ?_ | with_reducible refine Memory.wf_mputs ?_ _ _ | with_reducible refine Memory.wf_sset ?_ _ _ | with_reducible refine Memory.wf_foldl (fun _ _ _ => ?_) _ ?_ | with_reducible refine Memory.wf_foldl_snd (fun _ _ _ => ?_) _ ?_ | split | (simp only []))

theorem issued_core (x : Nat) (s : State) : (setAntH x { antH s x with issued := (antH s x).issued + 1 } s).core = s.core :=
  setAntH_core _ _ _

/-- What an instruction's end keeps: the memory's form, before and in what is done late. -/
def EffMemOk : Eff → Prop
  | .exc _ _ s => MemOk s
  | .done s _ late => MemOk s ∧ ∀ u, MemOk u → MemOk (late u)
  | .wait s => MemOk s

theorem settle_memOk (x cls pc : Nat) (r : Eff) (h : EffMemOk r) : MemOk (settle x cls pc r) := by
  cases r with
  | exc e resume s => exact excRaise_memOk _ _ _ _ (memOk_of_core ((tagIssue_core _ _ _ _ _).trans (issued_core _ _)) h)
  | done s next late =>
    refine h.2 _ (memOk_of_mem (setStagPc_mem _ _ _) (memOk_of_core ?_ h.1))
    exact (antCount_core _ _ _ _).trans ((antCount_core _ _ _ _).trans ((tagIssue_core _ _ _ _ _).trans (issued_core _ _)))
  | wait s => exact h

theorem storeOut_memOk (x next a n v : Nat) (ecc : Ecc) (acc : Access) (s : State) (h : MemOk s) : MemOk (storeOut x next a n v ecc acc s) := by
  unfold storeOut
  repeat' (first | with_reducible assumption | with_reducible refine memOk_of_core (antCount_core _ _ _ _) ?_ | with_reducible refine memOk_of_mem (storeErr_mem _ _ _ _ _) ?_ | with_reducible refine memOk_of_core (pactDeny_core _ _ _ _ _) ?_ | with_reducible refine memOk_of_core (stagEcc_core _ _ _ _ _) ?_ | with_reducible refine busWrite_memOk _ _ _ _ _ ?_ | with_reducible refine memOk_of_mem (dcacheStore_mem _ _ _ _ _) ?_ | (simp only [memOk_mk_iff, memOk_fold]) | with_reducible refine Memory.wf_mwrite _ ?_ _ _ | with_reducible refine Memory.wf_mset ?_ _ _ | with_reducible refine Memory.wf_filter _ ?_ | with_reducible refine Memory.wf_mputs ?_ _ _ | with_reducible refine Memory.wf_sset ?_ _ _ | with_reducible refine Memory.wf_foldl (fun _ _ _ => ?_) _ ?_ | with_reducible refine Memory.wf_foldl_snd (fun _ _ _ => ?_) _ ?_ | split | (simp only []))

theorem storeBusError_memOk (x : Nat) (s : State) (h : MemOk s) : MemOk (storeBusError x s) := by
  unfold storeBusError
  repeat' (first | with_reducible assumption | with_reducible refine excRaise_memOk _ _ _ _ ?_ | with_reducible refine memOk_of_mem (setStagH_mem _ _ _) ?_ | (simp only [memOk_mk_iff, memOk_fold]) | with_reducible refine Memory.wf_mwrite _ ?_ _ _ | with_reducible refine Memory.wf_mset ?_ _ _ | with_reducible refine Memory.wf_filter _ ?_ | with_reducible refine Memory.wf_mputs ?_ _ _ | with_reducible refine Memory.wf_sset ?_ _ _ | with_reducible refine Memory.wf_foldl (fun _ _ _ => ?_) _ ?_ | with_reducible refine Memory.wf_foldl_snd (fun _ _ _ => ?_) _ ?_ | split | (simp only []))

theorem dmaWord_memOk (c : Nat) (ecc : WordEcc) (s : State) (h : MemOk s) : MemOk (dmaWord c ecc s) := by
  unfold dmaWord
  repeat' (first | with_reducible assumption | with_reducible refine memOk_of_core (busRead_core _ _ _ _) ?_ | with_reducible refine memOk_of_core (dmaEcc_core _ _ _ _) ?_ | with_reducible refine memOk_of_core (dmaFail_core _ _ _) ?_ | with_reducible refine busWrite_memOk _ _ _ _ _ ?_ | with_reducible refine memOk_of_core (dmaNext_core _ _) ?_ | (simp only [memOk_mk_iff, memOk_fold]) | with_reducible refine Memory.wf_mwrite _ ?_ _ _ | with_reducible refine Memory.wf_mset ?_ _ _ | with_reducible refine Memory.wf_filter _ ?_ | with_reducible refine Memory.wf_mputs ?_ _ _ | with_reducible refine Memory.wf_sset ?_ _ _ | with_reducible refine Memory.wf_foldl (fun _ _ _ => ?_) _ ?_ | with_reducible refine Memory.wf_foldl_snd (fun _ _ _ => ?_) _ ?_ | split | (simp only []))

theorem remoteAccess_memOk (wr : Bool) (a v : Nat) (s : State) (h : MemOk s) : MemOk (remoteAccess wr a v s) := by
  unfold remoteAccess
  repeat' (first | with_reducible assumption | with_reducible refine memOk_of_core (busErr_core _) ?_ | with_reducible refine busWrite_memOk _ _ _ _ _ ?_ | with_reducible refine memOk_of_core (busRead_core _ _ _ _) ?_ | (simp only [memOk_mk_iff, memOk_fold]) | with_reducible refine Memory.wf_mwrite _ ?_ _ _ | with_reducible refine Memory.wf_mset ?_ _ _ | with_reducible refine Memory.wf_filter _ ?_ | with_reducible refine Memory.wf_mputs ?_ _ _ | with_reducible refine Memory.wf_sset ?_ _ _ | with_reducible refine Memory.wf_foldl (fun _ _ _ => ?_) _ ?_ | with_reducible refine Memory.wf_foldl_snd (fun _ _ _ => ?_) _ ?_ | split | (simp only []))

theorem remoteRun_memOk (bs : List Nat) (wr : Bool) (i k : Nat) (r : List Nat × Nat) (s : State) (h : MemOk s) :
    MemOk (remoteRun bs wr i k r s).2 := by
  induction k generalizing i r s with
  | zero => exact h
  | succ k ih =>
    unfold remoteRun
    refine ih _ _ _ ?_
    split <;> exact remoteAccess_memOk _ _ _ _ h

theorem remoteRequest_memOk (bs : List Nat) (s : State) (h : MemOk s) : MemOk (remoteRequest bs s) := by
  unfold remoteRequest
  repeat' (first | with_reducible assumption | with_reducible refine memOk_of_core (ethOffer_core _ _ _) ?_ | with_reducible refine memOk_of_core (setEth_core _ _) ?_ | with_reducible refine remoteRun_memOk _ _ _ _ _ _ ?_ | (simp only [memOk_mk_iff, memOk_fold]) | with_reducible refine Memory.wf_mwrite _ ?_ _ _ | with_reducible refine Memory.wf_mset ?_ _ _ | with_reducible refine Memory.wf_filter _ ?_ | with_reducible refine Memory.wf_mputs ?_ _ _ | with_reducible refine Memory.wf_sset ?_ _ _ | with_reducible refine Memory.wf_foldl (fun _ _ _ => ?_) _ ?_ | with_reducible refine Memory.wf_foldl_snd (fun _ _ _ => ?_) _ ?_ | split | (simp only []))

theorem frameIn_memOk (bs : List Nat) (fcs : Bool) (ago : Nat) (s : State) (h : MemOk s) : MemOk (frameIn bs fcs ago s) := by
  unfold frameIn
  repeat' (first | with_reducible assumption | with_reducible refine memOk_of_core (ethCount_core _ _) ?_ | with_reducible refine ringStore_memOk _ _ _ ?_ | with_reducible refine remoteRequest_memOk _ _ ?_ | with_reducible refine memOk_of_core (slDatagram_core _ _) ?_ | (simp only [memOk_mk_iff, memOk_fold]) | with_reducible refine Memory.wf_mwrite _ ?_ _ _ | with_reducible refine Memory.wf_mset ?_ _ _ | with_reducible refine Memory.wf_filter _ ?_ | with_reducible refine Memory.wf_mputs ?_ _ _ | with_reducible refine Memory.wf_sset ?_ _ _ | with_reducible refine Memory.wf_foldl (fun _ _ _ => ?_) _ ?_ | with_reducible refine Memory.wf_foldl_snd (fun _ _ _ => ?_) _ ?_ | split | (simp only []))

theorem tickEnd_memOk (s : State) (h : MemOk s) : MemOk (tickEnd s) := by
  unfold tickEnd
  repeat' (first | with_reducible assumption | with_reducible refine memOk_of_core (setsTick_core _) ?_ | with_reducible refine memOk_of_core (trackTick_core _ _) ?_ | with_reducible refine memOk_of_core (slotsTick_core _) ?_ | with_reducible refine memOk_of_core (correct_core _ _) ?_ | with_reducible refine memOk_of_core (aduTick_core _ _) ?_ | with_reducible refine memOk_of_core (brakeTick_core _) ?_ | with_reducible refine memOk_of_core (ironTick_core _) ?_ | with_reducible refine memOk_of_core (fireflyTick_core _) ?_ | with_reducible refine memOk_of_core (sweepTick_core _ _) ?_ | with_reducible refine mtTickEnd_memOk _ _ ?_ | with_reducible refine memOk_of_core (bwTick_core _) ?_ | with_reducible refine memOk_of_core (antTick_core _ _) ?_ | with_reducible refine memOk_of_core (ptpTick_core _) ?_ | with_reducible refine memOk_of_core (kdSettle_core _ _) ?_ | with_reducible refine memOk_of_core (dfTick_core _ _) ?_ | (with_reducible refine memOk_forRange (fun _ _ _ => ?_) _ ?_) | (simp only [memOk_mk_iff, memOk_fold]) | with_reducible refine Memory.wf_mwrite _ ?_ _ _ | with_reducible refine Memory.wf_mset ?_ _ _ | with_reducible refine Memory.wf_filter _ ?_ | with_reducible refine Memory.wf_mputs ?_ _ _ | with_reducible refine Memory.wf_sset ?_ _ _ | with_reducible refine Memory.wf_foldl (fun _ _ _ => ?_) _ ?_ | with_reducible refine Memory.wf_foldl_snd (fun _ _ _ => ?_) _ ?_ | split | (simp only []))

theorem tickBegin_memOk (s : State) (h : MemOk s) : MemOk (tickBegin s) := by
  unfold tickBegin
  repeat' (first | with_reducible assumption | with_reducible refine memOk_of_core (aduTick_core _ _) ?_ | with_reducible refine memOk_of_core (hbTick_core _) ?_ | with_reducible refine memOk_of_core (safeLegs_core _) ?_ | with_reducible refine memOk_of_core (legBegin_core _ _) ?_ | with_reducible refine memOk_of_core (chainSync_core _) ?_ | with_reducible refine memOk_of_core (lockDeliver_core _ _) ?_ | with_reducible refine memOk_of_core (carStarts_core _) ?_ | with_reducible refine memOk_of_core (safeClear_core _ _) ?_ | with_reducible refine mtSync_memOk _ _ ?_ | with_reducible refine memOk_of_core (sarDue_core _ _) ?_ | (with_reducible refine memOk_forRange (fun _ _ _ => ?_) _ ?_) | (simp only [memOk_mk_iff, memOk_fold]) | with_reducible refine Memory.wf_mwrite _ ?_ _ _ | with_reducible refine Memory.wf_mset ?_ _ _ | with_reducible refine Memory.wf_filter _ ?_ | with_reducible refine Memory.wf_mputs ?_ _ _ | with_reducible refine Memory.wf_sset ?_ _ _ | with_reducible refine Memory.wf_foldl (fun _ _ _ => ?_) _ ?_ | with_reducible refine Memory.wf_foldl_snd (fun _ _ _ => ?_) _ ?_ | split | (simp only []))

theorem pclk_memOk (s : State) (h : MemOk s) : MemOk (pclk s) := by
  unfold pclk
  repeat' (first | with_reducible assumption | with_reducible refine tickEnd_memOk _ ?_ | with_reducible refine tickBegin_memOk _ ?_ | (simp only [memOk_mk_iff, memOk_fold]) | with_reducible refine Memory.wf_mwrite _ ?_ _ _ | with_reducible refine Memory.wf_mset ?_ _ _ | with_reducible refine Memory.wf_filter _ ?_ | with_reducible refine Memory.wf_mputs ?_ _ _ | with_reducible refine Memory.wf_sset ?_ _ _ | with_reducible refine Memory.wf_foldl (fun _ _ _ => ?_) _ ?_ | with_reducible refine Memory.wf_foldl_snd (fun _ _ _ => ?_) _ ?_ | split | (simp only []))

end Sys2Proof.Machine
end

