-- ==== Sys2Proof/WellFormed.lean ====
section
/-! DEFINITION. Which commands are well formed: what an operand must satisfy that its type does not say. -/
namespace Sys2Proof

/-- R86: an access of a master; the block's own accesses (code 0) are no commands. -/
def Access.wf (a : Access) : Bool := a.master != .internal

/-- R420: the data bytes that a code of `DLC` stands for. -/
def dlcBytes (fdf : Bool) (dlc : Fin 16) : Nat :=
  if dlc.val ≤ 8 then dlc else if ! fdf then 8 else [12, 16, 20, 24, 32, 48, 64].getD (dlc.val - 9) 64

/-- R420: a base identifier leaves bits 17:0 zero; a remote frame is classic and has no data; only an FD frame has `BRS` and `ESI`;
the data are as many bytes as the length code says. -/
def CanFrame.wf (f : CanFrame) : Bool :=
  (f.ide || f.id.toNat % 2 ^ 18 == 0) && (f.fdf || (! f.brs && ! f.esi)) && ! (f.rtr && f.fdf) &&
    f.data.length == (if f.rtr then 0 else dlcBytes f.fdf f.dlc)

def CanWake.wf : CanWake → Bool
  | .dominant _ => true
  | .frame f _ => f.wf

/-- A measured value or a count that its 16-bit field holds (R53, R63, R131). -/
def fits16 (n : Nat) : Bool := decide (n < 2 ^ 16)

/-- R95: an image fits its bank of 4 MiB. -/
def imageFits (image : List (BitVec 8)) : Bool := decide (image.length ≤ 0x400000)

/-- R189: a window of at most 3 × 256 − 2 bits. -/
def windowFits (w : List Bool) : Bool := decide (w.length ≤ 766)

/-- R203: a SENT frame has at most six data nibbles. -/
def nibblesFit (ns : List (Fin 16)) : Bool := decide (ns.length ≤ 6)

/-- R203: a slow message has an 8-bit identifier and at most 16 bits of data. -/
def slowFits : Option (Nat × Nat) → Bool
  | none => true
  | some m => decide (m.1 < 2 ^ 8) && decide (m.2 < 2 ^ 16)

/-- R440: what one UDP datagram can carry. -/
def payloadFits (p : List (BitVec 8)) : Bool := decide (p.length ≤ 1472)

/-- R523: a window's counts of the sixteen fabric ports. -/
def portsCounted (counts : List BwCount) : Bool := counts.length == 16

/-- R134, R135: a cycle of a comparator shows its eight segments and the four groups of each of its two delay registers. -/
def cycleShown (c : CmpCycle) : Bool := c.segs.length == 8 && c.groups.length == 8

/-- Is the command well formed? -/
def Instr.wf : Instr → Bool
  | .registerWrite acc _ _ => acc.wf
  | .evtFlagsClear acc _ _ => acc.wf
  | .evtSet acc _ _ => acc.wf
  | .rejectClear acc _ => acc.wf
  | .lockSet acc _ => acc.wf
  | .lockClear acc _ _ => acc.wf
  | .arm acc _ => acc.wf
  | .disarm acc _ => acc.wf
  | .checkUpdate _ => true
  | .profileWrite acc _ => acc.wf
  | .wakeStart vin _ _ => fits16 vin
  | .keyInactive => true
  | .vinFull vin => fits16 vin
  | .vinReduced vin => fits16 vin
  | .vinCritical vin => fits16 vin
  | .brownOut vin => fits16 vin
  | .brownOutSaveDone _ => true
  | .vinOver vin => fits16 vin
  | .shutdown acc _ => acc.wf
  | .shutdownComplete _ => true
  | .tileRailWrite acc _ => acc.wf
  | .tileEnWrite acc _ => acc.wf
  | .tilePowerGood _ => true
  | .tilePowerLimit _ => true
  | .sensorSupplyFault _ => true
  | .vsafeLow => true
  | .baseplateWarn temp => fits16 temp
  | .baseplateSs1 temp => fits16 temp
  | .clockLost => true
  | .imageVerified _ _ _ _ => true
  | .bootNoImage _ _ _ _ => true
  | .serviceImageLoad image _ _ => imageFits image
  | .selftestPass => true
  | .selftestFail _ faults => faults.all (fun x => cycleShown x.2)
  | .restoreComplete _ => true
  | .goReady acc => acc.wf
  | .autoZeroDone _ => true
  | .run acc => acc.wf
  | .stop acc => acc.wf
  | .stopDone acc => acc.wf
  | .stopTimeout => true
  | .ack acc => acc.wf
  | .reset acc => acc.wf
  | .scarabResetRequest => true
  | .dbgnrstLow => true
  | .degConditionRise _ => true
  | .degConditionClear => true
  | .degSetWrite acc _ => acc.wf
  | .confirm acc => acc.wf
  | .advance acc => acc.wf
  | .bankSelWrite acc _ => acc.wf
  | .save acc => acc.wf
  | .saveComplete _ => true
  | .prime acc => acc.wf
  | .detStatClear acc _ => acc.wf
  | .stagAlu _ _ _ _ _ => true
  | .stagMul _ _ _ _ _ => true
  | .stagDiv _ _ _ _ _ => true
  | .stagLoad _ _ _ _ _ _ _ => true
  | .stagStore _ _ _ _ _ _ => true
  | .stagBranch _ _ => true
  | .stagFpu _ _ _ _ _ => true
  | .stagFdiv _ _ _ _ _ => true
  | .mfs _ _ _ => true
  | .mts _ _ _ => true
  | .trap _ => true
  | .retx _ => true
  | .bar _ => true
  | .wfe _ => true
  | .cinv _ => true
  | .cflush _ => true
  | .nop _ => true
  | .storeBusError _ => true
  | .interruptEntry _ => true
  | .pactEntryWrite acc _ _ => acc.wf
  | .hiveEventEdge _ _ => true
  | .dmaStart acc _ => acc.wf
  | .dmaAbort acc _ => acc.wf
  | .dmaComplete _ n ecc => fits16 n && decide (ecc.length ≤ n)
  | .lockstepDetection _ segs groups _ => cycleShown ⟨segs, groups⟩
  | .fastRebootStart _ => true
  | .resumed acc _ => acc.wf
  | .recoveryCoastStart _ => true
  | .recoveryTimeout _ => true
  | .scrubWord _ _ _ => true
  | .trackEnable acc _ => acc.wf
  | .trackDisable acc _ => acc.wf
  | .reacq acc _ => acc.wf
  | .trackCorrection _ => true
  | .trackSourceTimeout _ => true
  | .trackCoastExpire _ => true
  | .hallStandstill _ => true
  | .slotFire _ => true
  | .slotReseatDone _ => true
  | .slotActions => true
  | .lockEvent _ => true
  | .setComplete _ ws => ws.all windowFits
  | .sdRawResult _ w => windowFits w
  | .sdStuck _ => true
  | .sdClockFault _ => true
  | .sarScanStart _ => true
  | .sarConversionDone _ _ => true
  | .hvsResult _ _ _ => true
  | .resolverSample _ _ _ _ => true
  | .resolverAngleDelivery _ => true
  | .resolverFault _ _ => true
  | .encoderEdge _ _ _ _ => true
  | .encoderDelivery _ => true
  | .hallEdge _ _ => true
  | .twEdge _ _ _ => true
  | .sentFrame _ _ _ ns slow => nibblesFit ns && slowFits slow
  | .zero acc => acc.wf
  | .zeroDone => true
  | .calStore acc => acc.wf
  | .calStoreDone => true
  | .recall acc => acc.wf
  | .scrKCompute => true
  | .engineEnable acc _ => acc.wf
  | .engineDisable acc _ => acc.wf
  | .mtStart acc _ _ => acc.wf
  | .mtClear acc _ => acc.wf
  | .engineStart _ => true
  | .engineHeldStart _ => true
  | .lds _ => true
  | .ldx _ _ => true
  | .sts _ => true
  | .mvm _ => true
  | .mvmz _ => true
  | .vadd _ => true
  | .vsub _ => true
  | .vmul _ => true
  | .acv _ => true
  | .scs _ => true
  | .rot _ => true
  | .lim _ => true
  | .clamp _ => true
  | .duty _ => true
  | .commit _ => true
  | .inj _ => true
  | .cap _ => true
  | .waite _ => true
  | .waiteTimeout _ => true
  | .br _ => true
  | .brf _ => true
  | .loop _ => true
  | .halt _ => true
  | .profWindowEnd => true
  | .commitArrival _ => true
  | .carrierEnable acc _ => acc.wf
  | .carrierZeroEvent _ => true
  | .carrierPeriodEvent _ => true
  | .chainResync _ => true
  | .gcommit acc _ => acc.wf
  | .legEnable acc _ => acc.wf
  | .debtclr acc _ => acc.wf
  | .force acc _ _ => acc.wf
  | .forceApply _ => true
  | .bootstrapRefresh _ => true
  | .genpSet acc _ => acc.wf
  | .gateEnableWithdrawn _ _ => true
  | .channelUvlo _ _ => true
  | .channelUvloRecover _ _ => true
  | .bootstrapLow _ _ => true
  | .hardTrip _ _ => true
  | .ovldTrip _ => true
  | .softTurnoffEnd _ => true
  | .hiccupRestart _ => true
  | .pairResume _ => true
  | .faultWindowClose _ => true
  | .channelMeasurement _ _ _ => true
  | .ntcConversion _ _ => true
  | .brakeEnable acc _ _ => acc.wf
  | .brakeOnCrossing _ => true
  | .brakeOffCrossing _ => true
  | .brakeEnergyUpdate => true
  | .dcLinkOvTrip => true
  | .dcLinkOvRelease => true
  | .dcLinkUv => true
  | .dfEnable acc _ => acc.wf
  | .dfDisable acc _ => acc.wf
  | .dfStart acc _ => acc.wf
  | .dfStop acc _ => acc.wf
  | .dfClear acc _ => acc.wf
  | .dfCycle _ => true
  | .dfSlotDraw _ => true
  | .dfTargetReached _ => true
  | .dfHiccupRestart _ => true
  | .hbEnable acc => acc.wf
  | .hbCycle => true
  | .chgStart acc => acc.wf
  | .chgStop acc => acc.wf
  | .chgAck acc => acc.wf
  | .pilotPeriod _ _ _ _ => true
  | .pilotStateChange => true
  | .ppChange ohms => fits16 ohms
  | .aduEnable acc _ => acc.wf
  | .aduStart acc _ => acc.wf
  | .aduStop acc _ => acc.wf
  | .aduCycle _ => true
  | .aduHiccupRestart _ => true
  | .peakTimeout => true
  | .engageTimeout => true
  | .releasePermissionWithdrawn => true
  | .kdEnable acc _ => acc.wf
  | .kdDisable acc _ => acc.wf
  | .canIntegrationDone _ => true
  | .txReq acc _ _ => acc.wf
  | .txCancel acc _ _ => acc.wf
  | .txFrameStart _ => true
  | .txAttemptEnd _ _ _ _ _ _ => true
  | .canFrameReceived _ f _ _ => f.wf
  | .canError _ _ _ _ _ _ => true
  | .canRecoveryDone _ => true
  | .canRecover acc _ => acc.wf
  | .rxfPop acc _ _ => acc.wf
  | .clrcnt acc _ => acc.wf
  | .canSleep acc _ => acc.wf
  | .canSleepEntry _ => true
  | .canWakeCommand acc _ => acc.wf
  | .canWakeDetected _ w vin _ => w.wf && fits16 vin
  | .phyLinkChange _ _ => true
  | .phyModeSwitch => true
  | .ethFrameReceived _ _ _ => true
  | .ethTxDone => true
  | .remoteRequest payload => payloadFits payload
  | .slDatagram payload => payloadFits payload
  | .streamDatagramSend => true
  | .ptpStep acc _ => acc.wf
  | .timeNsRead acc => acc.wf
  | .ptpTimestamp _ _ => true
  | .tsPop acc => acc.wf
  | .fwProg acc => acc.wf
  | .fwProgDone _ => true
  | .scarabSelftestDone _ => true
  | .scarabCheckDone => true
  | .scarabSupplyFault => true
  | .scarabSupplyRecover => true
  | .scarabCycle _ _ => true
  | .ss1Timeout _ => true
  | .safetyInputSample _ _ => true
  | .testPulse _ _ => true
  | .soutSwitchTest _ _ _ => true
  | .speedCrosscheck _ _ => true
  | .scarabContinuousCheck _ => true
  | .safetyPduReceived _ pdu => payloadFits pdu
  | .verdict acc _ => acc.wf
  | .verdictTimeout => true
  | .connectionExpiry _ => true
  | .outPduProduce _ => true
  | .load acc => acc.wf
  | .candidateChecked => true
  | .commissionStoreDone => true
  | .vthMeasurement _ _ => true
  | .ronWindow _ _ _ _ => true
  | .zthRecord _ => true
  | .capMeasurement _ _ => true
  | .scrDriftWindow _ _ _ => true
  | .xtalReading => true
  | .preview acc => acc.wf
  | .ledgerReset acc => acc.wf
  | .spareGo acc => acc.wf
  | .spareWaitDone => true
  | .tagclr acc _ => acc.wf
  | .pmcOverflow _ _ => true
  | .cycleLoRead acc _ _ => acc.wf
  | .bwWindowEnd counts => portsCounted counts
  | .bwThreshold _ => true
  | .auth acc => acc.wf
  | .debugHalt acc _ => acc.wf
  | .debugResume acc _ => acc.wf
  | .debugStep acc _ => acc.wf
  | .dbgRvalWrite acc _ => acc.wf
  | .posRead acc _ => acc.wf
  | .angleRead acc _ => acc.wf
  | .sentDataRead acc _ => acc.wf
  | .vinMeasRead acc => acc.wf
  | .clockRestored => true
  | .vsafeRecovered => true
  | .baseplateLevelClear temp => fits16 temp
  | .compareCrossing _ _ _ => true
  | .carrierDisable acc _ => acc.wf
  | .legDisable acc _ => acc.wf
  | .hbDisable acc => acc.wf
  | .aduDisable acc _ => acc.wf
  | .illegalInstruction _ => true

end Sys2Proof
end

