-- ==== Sys2Proof/Tests/Slice0.lean ====
section
/-! SUPPORT. Small tests: commands that are not well formed, one for each check of `Instr.wf`; the state after reset; a word of the
opcode table; and for each statement that has hypotheses a state and operands that meet them, one conjunct for each clause. -/
namespace Sys2Proof.Tests
open Sys2Proof Sys2Proof.Machine

/-! ## Commands that are not well formed, one for each check -/

theorem test_wf_internal_access : Instr.wf (.goReady ⟨.internal, .queen⟩) = false := by decide
theorem test_wf_access : Instr.wf (.goReady ⟨.stagA, .queen⟩) = true := by decide
theorem test_wf_base_identifier : Instr.wf (.canFrameReceived 0 ⟨false, 1#29, false, false, false, false, 0, []⟩ 0 0) = false := by decide
theorem test_wf_classic_brs : Instr.wf (.canFrameReceived 0 ⟨true, 1#29, false, true, false, false, 0, []⟩ 0 0) = false := by decide
theorem test_wf_remote_fd : Instr.wf (.canFrameReceived 0 ⟨true, 1#29, true, false, true, false, 0, []⟩ 0 0) = false := by decide
theorem test_wf_frame_length : Instr.wf (.canFrameReceived 0 ⟨true, 1#29, true, false, false, false, 9, [1#8]⟩ 0 0) = false := by decide
theorem test_wf_wake_frame : Instr.wf (.canWakeDetected 0 (.frame ⟨false, 1#29, false, false, false, false, 0, []⟩ 0) 0 false) = false := by
  decide
theorem test_wf_vin : Instr.wf (.vinFull 65536) = false := by decide
theorem test_wf_image : imageFits (List.replicate 4 0#8) = true ∧ ∀ l : List (BitVec 8), l.length = 0x400001 → imageFits l = false := by
  refine ⟨by decide, fun l h => ?_⟩
  unfold imageFits
  rw [h]
  decide
theorem test_wf_window : ∀ l : List Bool, l.length = 767 → Instr.wf (.sdRawResult 0 l) = false := by
  intro l h
  simp only [Instr.wf, windowFits, h]
  decide
theorem test_wf_nibbles : Instr.wf (.sentFrame 0 ⟨true, true, true, true, 0⟩ 0 [0, 0, 0, 0, 0, 0, 0] none) = false := by decide
theorem test_wf_slow : Instr.wf (.sentFrame 0 ⟨true, true, true, true, 0⟩ 0 [] (some (256, 0))) = false := by decide
theorem test_wf_payload : ∀ l : List (BitVec 8), l.length = 1473 → Instr.wf (.slDatagram l) = false := by
  intro l h
  simp only [Instr.wf, payloadFits, h]
  decide
theorem test_wf_ports : Instr.wf (.bwWindowEnd []) = false := by decide

theorem test_wf_cycle :
    Instr.wf (.lockstepDetection .a [{}] [] false) = false ∧ Instr.wf (.selftestFail 0 [(0, ⟨[], []⟩)]) = false := by decide
theorem test_wf_words : Instr.wf (.dmaComplete 0 1 [{}, {}]) = false := by decide

/-! ## The state after reset -/

theorem test_reset_off : devState State.reset = .off ∧ State.reset.pending = [] ∧ State.reset.mem = [] := by decide
theorem test_reset_stop_tmo :
    rg State.reset pSYS 0x68 = 5000 := by decide

/-! ## States that meet the hypotheses of the statements

`st` is the machine as it is after reset with the registers `ws` (page, offset, word) set. The device state stands in `SYS:0x44`. -/

def st (ws : List (Nat × Nat × Nat)) : State := ws.foldl (fun s x => setRg x.1 x.2.1 x.2.2 s) State.reset

/-- Mantis engine 0 in RUN in HELD, with one program word at address 0. -/
def mtAt (op fields : Nat) (ws : List (Nat × Nat × Nat)) : State :=
  { st ([(0, 0x44, 5), (pMT 0, 0x0C, mtRUN)] ++ ws) with mem := mwrite [] (mtBase 0) (op * 2 ^ 58 + fields) 8 }

/-- Memory that holds a commissioned set of the bytes `bs` in a slot at `a`, with a good header. -/
def setMem (a : Nat) (bs : List Nat) : List Host.Cell :=
  mwrite (mwrite (mwrite [] (a + 4) bs.length 4) (a + 12) (crc32c [0, 0, 0, 0, bs.length, 0, 0, 0, 0, 0, 0, 0]) 4) (a + 16)
    (bs.foldr (fun b n => b + 256 * n) 0) bs.length

/-- The head of a commissioned set with no safety input and no connection in use. -/
def goodSet : List Nat :=
  ((List.range 16).flatMap (fun i => [(0x10 + 4 * i, 0xFC), (0x11 + 4 * i, 7), (0x12 + 4 * i, 1)]) ++
    [(0, 1), (4, 0xD4), (6, 1), (0x50, 1), (0x52, 10), (0x5C, 10), (0x6C, 10), (0x7C, 10), (0x8C, 10), (0xA4, 1), (0xA5, 1),
      (0xA6, 10), (0xA9, 1), (0xAA, 10), (0xB7, 1), (0xBA, 1), (0xCA, 10), (0xCC, 10), (0xD0, 10)]).foldl
    (fun (l : List Nat) (e : Nat × Nat) => l.set e.1 e.2) (List.replicate 0xD4 0)

set_option maxRecDepth 100000

theorem test_meets_MemoryStaysCanonical_QueueIsFirstInFirstOut :
    let s := { st [(0, 0x44, 5)] with pending := [.vinFull 24000] }
    Memory.wf s.mem = true ∧ ∃ t, step s = .next t := ⟨by decide, _, rfl⟩

theorem test_meets_ProfileIsWrittenOnlyInHeld :
    (let s : State := st [(0, 0x44, 5)]; let acc : Access := ⟨.stagA, .queen⟩; let v : BitVec 32 := 0; Reaches s acc pSYS 0x40 true ∧
      devState s = .held ∧ bits v.toNat 0 2 < 2 ∧ locked s pSYS = false) ∧
    (let s : State := st [(0, 0x44, 2)]; let acc : Access := ⟨.stagA, .queen⟩; let v : BitVec 32 := 0; Reaches s acc pSYS 0x40 true ∧
      (devState s ≠ .held ∨ 2 ≤ bits v.toNat 0 2)) := by decide

theorem test_meets_EmptyQueueLetsATickPass :
    let s : State := st []; s.pending = [] ∧ powered s = false := by decide

theorem test_meets_HeaderWritesActOnTheirPage :
    (let s : State := st [(0, 0x44, 2)]; let acc : Access := ⟨.internal, .queen⟩; let p : Fin 256 := 0; let k : PageKind := .sys;
      let i : Nat := 0; pageOf p = some (k, i) ∧ k ≠ .scarab ∧ Reaches s acc p 0x10 true) ∧
    (let s : State := st [(0, 0x44, 2)]; let acc : Access := ⟨.internal, .queen⟩; let p : Fin 256 := 0; let k : PageKind := .sys;
      let i : Nat := 0; pageOf p = some (k, i) ∧ k ≠ .scarab ∧ Reaches s acc p 0x18 true) ∧
    (let s : State := st [(0, 0x44, 2)]; let acc : Access := ⟨.internal, .queen⟩; let p : Fin 256 := 0; let k : PageKind := .sys;
      let i : Nat := 0; pageOf p = some (k, i) ∧ k ≠ .scarab ∧ Reaches s acc p 0x20 true) ∧
    (let s : State := st [(0, 0x44, 2)]; let acc : Access := ⟨.internal, .queen⟩; let p : Fin 256 := 0; let k : PageKind := .sys;
      let i : Nat := 0; pageOf p = some (k, i) ∧ k ≠ .scarab ∧ Reaches s acc p 0x24 true) := by decide

theorem test_meets_EpochArmAndDisarm :
    (let s : State := st [(0, 0x44, 2)]; let acc : Access := ⟨.stagA, .queen⟩; let p : Fin 256 := 0; let k : PageKind := .sys;
      let i : Nat := 0; pageOf p = some (k, i) ∧ k ≠ .scarab ∧ Reaches s acc p 0x28 true ∧
      epochChk s k (if k = .slots then i else p) (epochWord s p 0x10000) 0 0 = none) ∧
    (let s : State := st [(0, 0x44, 5), (0, 0x0C, 0x800)]; let p : Fin 256 := 0; let k : PageKind := .sys; let i : Nat := 0;
      pageOf p = some (k, i) ∧ powered s = true ∧ rbit s p 0x0C 11 = true) ∧
    (let s : State := st [(0, 0x44, 2)]; let acc : Access := ⟨.stagA, .queen⟩; let p : Fin 256 := 0; let k : PageKind := .sys;
      let i : Nat := 0; pageOf p = some (k, i) ∧ Reaches s acc pPACT (0x400 + 4 * p) true) := by decide

theorem test_meets_MemoryWritesAreLittleEndian :
    let s : State := st [(0, 0x44, 5)]; let acc : Access := ⟨.stagA, .queen⟩; let a : BitVec 32 := 0x20000000; powered s = true ∧
      (acc.master = .debug → rbit s pDEBUG 0x40 0 = true) ∧ 0x20000000 ≤ a.toNat ∧ a.toNat < 0x20200000 ∧ a.toNat % 4 = 0 := by decide

theorem test_meets_SupplyBandsFollowVin :
    (let s : State := st [(0, 0x44, 2), (2, 0x44, 1)]; powered s = true ∧ (band s = 1 ∨ band s = 4)) ∧
    (let s : State := st [(0, 0x44, 2)]; powered s = true ∧ (band s = 0 ∨ band s = 2 ∨ band s = 4)) ∧
    (let s : State := st [(0, 0x44, 2)]; powered s = true ∧ (band s = 0 ∨ band s = 1)) ∧
    (let s : State := st [(0, 0x44, 2)]; powered s = true ∧ (band s = 0 ∨ band s = 1 ∨ band s = 4)) := by decide

theorem test_meets_PowerComesAndGoes :
    (let s : State := st []; let vin : Nat := 1150; let src : Nat := 1; powered s = false ∧ 1150 ≤ vin ∧ src &&& s.dev.armedWake ≠ 0) ∧
    (let s : State := { st [(0, 0x44, 2)] with dev := { heldOnce := true } }; powered s = true ∧ band s ≠ 3 ∧ saveBusy s = false ∧
      s.dev.heldOnce = true) ∧
    (let s : State := { st [(4, 0x40, 1)] with dev := { brownOut := true } }; s.dev.brownOut = true ∧ saveBusy s = true) ∧
    (let s : State := { st [(0, 0x44, 5), (4, 0x40, 1)] with dev := { shutPend := true } }; s.dev.shutPend = true ∧
      s.dev.shutQueued = false ∧ s.dev.brownOut = false ∧ saveBusy s = true ∧ (devState s).shutOk = true) ∧
    (let s : State := st [(4, 0x40, 1)]; saveBusy s = true ∧ s.dev.brownOut = false ∧ s.dev.shutPend = false ∧
      s.dev.shutQueued = false) := by decide

theorem test_meets_BootVerifiesTestsAndRestores :
    (let s : State := st [(0, 0x44, 2)]; devState s = .boot) ∧
    (let s : State := { st [(0, 0x44, 2), (pBOOT, 0x44, 0x1100)] with dev := { svc := true } }; let image : List (BitVec 8) := [];
      devState s = .boot ∧ s.dev.svc = true ∧ fld s pBOOT 0x44 8 4 ≠ 0 ∧ fld s pBOOT 0x44 12 4 ≠ 0 ∧ image.length ≤ 0x400000) ∧
    (let s : State := st [(0, 0x44, 3), (0xC0, 0x40, 1)]; devState s = .selftest ∧ rg s pSYS 0x54 = 0 ∧ fld s (pSC 0) 0x40 0 3 ≠ 0 ∧
      fld s (pSC 0) 0x40 0 3 ≠ 4) ∧
    (let s : State := st [(0, 0x44, 3)]; let tests : Fin 128 := 0; let inj : List (Fin 32 × CmpCycle) := [(0, ⟨[], []⟩)];
      devState s = .selftest ∧ failedTests tests inj s ≠ 0) ∧
    (let s : State := st [(0, 0x44, 4)]; devState s = .restore ∧ safeHolds s = none) := by decide

theorem test_meets_SupplyMonitorsReport :
    (let s : State := st [(0, 0x44, 2), (2, 0x48, 0x40)]; let c : Fin 10 := 6; powered s = true ∧ rbit s pSUPPLY 0x48 c = true ∧
      band s ≠ 3) ∧
    (let s : State := st [(0, 0x44, 2), (2, 0x48, 0x80)]; let c : Fin 8 := 7; powered s = true ∧ rbit s pSUPPLY 0x48 c = true) ∧
    (let s : State := st [(0, 0x44, 2)]; let temp : Nat := 0x5500; powered s = true ∧ 85 * 256 ≤ temp ∧ temp < 2 ^ 15) ∧
    (let s : State := st [(0, 0x44, 2)]; let temp : Nat := 0x6400; powered s = true ∧ 100 * 256 ≤ temp ∧ temp < 2 ^ 15) := by decide

theorem test_meets_ClocksStopsAndRestarts :
    (let s : State := st [(0, 0x44, 2)]; powered s = true ∧ s.dev.clockLost = false) ∧
    (let s : State := { st [(0, 0x44, 2)] with dev := { clockLost := true } }; powered s = true ∧ s.dev.clockLost = true) ∧
    (let s : State := { st [(0, 0x44, 9)] with tick := 0x3b9aca00 }; powered s = true ∧ devState s = .stopping ∧ Settled s ∧
      s.dev.stopTick + fld s pSYS 0x68 0 16 * msT ≤ s.tick) ∧
    (let s : State := st [(0, 0x44, 7), (0, 0x60, 1)]; powered s = true ∧ devState s = .run ∧ Settled s ∧ degCond s ≠ 0) ∧
    (let s : State := st [(0, 0x44, 8)]; powered s = true ∧ devState s = .degraded ∧ Settled s ∧ degCond s = 0 ∧ degLatch s = false) ∧
    (let s : State := st [(0, 0x44, 2)]; powered s = true ∧ s.dev.brownOut = false) ∧
    (let s : State := { st [(0, 0x44, 2)] with variant := .h12d }; powered s = true ∧ s.variant = .h12d ∧
      s.dev.brownOut = false) := by decide

theorem test_meets_StateCommandsMoveTheDevice :
    (let s : State := st [(0, 0x44, 5), (0xC0, 0x40, 3)]; let acc : Access := ⟨.stagA, .queen⟩; Reaches s acc pSYS 0x48 true ∧
      devState s = .held ∧ fld s (pSC 0) 0x40 0 3 = 3) ∧
    (let s : State := st [(0, 0x44, 6)]; let acc : Access := ⟨.internal, .worker⟩; Reaches s acc pSYS 0x48 true ∧ devState s = .ready ∧
      runUnsafe s = false) ∧
    (let s : State := st [(0, 0x44, 7)]; let acc : Access := ⟨.internal, .worker⟩; Reaches s acc pSYS 0x48 true ∧
      (devState s = .run ∨ devState s = .degraded)) ∧
    (let s : State := st [(0, 0x44, 9)]; let acc : Access := ⟨.stagA, .queen⟩; Reaches s acc pSYS 0x48 true ∧ devState s = .stopping) ∧
    (let s : State := st [(0, 0x44, 0xA)]; let acc : Access := ⟨.stagA, .queen⟩; Reaches s acc pSYS 0x48 true ∧ devState s = .safe ∧
      safeHolds s = none) ∧
    (let s : State := st [(0, 0x44, 5)]; let acc : Access := ⟨.internal, .worker⟩; Reaches s acc pSYS 0x48 true ∧
      (devState s).shutOk = true ∧ s.dev.brownOut = false ∧ Settled s) := by decide

theorem test_meets_StateCommandsMoveTheDevice_2 :
    let s : State := { st [(0, 0x44, 5)] with dev := { goReady := true } }; devState s = .held ∧ s.dev.goReady = true ∧
      azReady s = true := by decide

theorem test_meets_SupplyAndBootRegistersTakeCommands :
    (let s : State := st [(0, 0x44, 5)]; let acc : Access := ⟨.stagA, .queen⟩; (devState s).shutOk = true ∧ s.dev.shutPend = false ∧
      Reaches s acc pSUPPLY 0x60 true) ∧
    (let s : State := st [(0, 0x44, 2)]; let acc : Access := ⟨.stagA, .queen⟩; let v : BitVec 32 := 0;
      (∀ i, i < 12 → bits v.toNat (2 * i) 2 ≠ 3) ∧ (∀ i, i < 6 → rbit s pSUPPLY 0x48 i = false) ∧ locked s pSUPPLY = false ∧
      Reaches s acc pSUPPLY 0x4C true) ∧
    (let s : State := st [(0, 0x44, 2)]; let acc : Access := ⟨.stagA, .queen⟩; let v : BitVec 32 := 0;
      ((devState s ≠ .boot ∧ devState s ≠ .selftest ∧ devState s ≠ .restore ∧ band s ≤ 1) ∨ mEnable v.toNat &&& v.toNat &&& 0x3FF = 0) ∧
      Reaches s acc pSUPPLY 0x48 true) ∧
    (let s : State := st [(0, 0x44, 2)]; let acc : Access := ⟨.stagA, .queen⟩; Reaches s acc pSUPPLY 0x40 false) ∧
    (let s : State := st [(0, 0x44, 5), (3, 0x44, 8)]; let acc : Access := ⟨.stagA, .queen⟩;
      (devState s = .held ∨ devState s = .ready) ∧ trialAct s = true ∧ Reaches s acc pBOOT 0x54 true) ∧
    (let s : State := st [(0, 0x44, 5)]; let acc : Access := ⟨.stagA, .queen⟩; (devState s = .held ∨ devState s = .ready) ∧
      trialAct s = false ∧ s.dev.imgVer ≤ 64 ∧ s.nv.rollback ≤ 64 ∧ Reaches s acc pBOOT 0x54 true) := by decide

theorem test_meets_SupplyAndBootRegistersTakeCommands_2 :
    (let s : State := st [(0, 0x44, 2)]; let acc : Access := ⟨.stagA, .queen⟩; Reaches s acc pBOOT 0x40 true) ∧
    (let s : State := st [(0, 0x44, 5)]; let acc : Access := ⟨.stagA, .queen⟩; saveBusy s = false ∧
      (devState s = .held ∨ devState s = .ready ∨ devState s = .run ∨ devState s = .degraded ∨ devState s = .safe ∨ devState s =
      .latched) ∧ Reaches s acc pCOCOON 0x08 true) := by decide

theorem test_meets_SystemPageTakesItsOtherCommands :
    (let s : State := st [(0, 0x44, 5)]; let acc : Access := ⟨.stagA, .queen⟩; let v : BitVec 32 := 0; bits v.toNat 0 2 < 2 ∧
      devState s = .held ∧ locked s pSYS = false ∧ Reaches s acc pSYS 0x40 true) ∧
    (let s : State := st [(0, 0x44, 5)]; let acc : Access := ⟨.stagA, .queen⟩; devState s = .held ∧ Reaches s acc pSYS 0x08 true) ∧
    (let s : State := st [(0, 0x44, 2)]; let acc : Access := ⟨.stagA, .queen⟩; Reaches s acc pSYS 0x58 true) ∧
    (let s : State := st [(0, 0x44, 5)]; let acc : Access := ⟨.stagA, .queen⟩; let v : BitVec 32 := 0; acc.master = .stagA ∧
      devState s ≠ .boot ∧ devState s ≠ .selftest ∧ devState s ≠ .restore ∧ bit v.toNat 24 = false ∧
      bits v.toNat 2 2 &&& bits v.toNat 18 2 = 0 ∧ Reaches s acc pSYS 0x60 true) := by decide

theorem test_meets_StagComputesAndBranches :
    let s : State := st [(0, 0x44, 2)]; let f : Fetch := ⟨.a, .good⟩; Issues f s := by decide

theorem test_meets_StagLoadsAndStores :
    (let s : State := st [(0, 0x44, 2)]; let f : Fetch := ⟨.a, .good⟩; let x := pairIx f.pair; let k : LoadOp := .ldhu;
      let a : Fin 32 := 0; let off : BitVec 16 := 0; let e : Ecc := (.corrected 0); let addr := dataAddr s x a off; Issues f s ∧
      addr % loadSize k = 0 ∧ mpuAllows s x 8 addr = true ∧ stagBusErr s x addr (loadSize k) false = false ∧ eccBad e = false) ∧
    (let s : State := st [(0, 0x44, 2)]; let f : Fetch := ⟨.a, .good⟩; let x := pairIx f.pair; let k : StoreOp := .stb;
      let a : Fin 32 := 0; let off : BitVec 16 := 0; let addr := dataAddr s x a off; Issues f s ∧ addr % storeSize k = 0 ∧
      mpuAllows s x 11 addr = true) ∧
    (let s : State := { st [(0, 0x44, 2)] with stag := [{}, { errs := [(0, 0, false)] }] }; let f : Fetch := ⟨.b, .good⟩;
      let x := pairIx f.pair; let h := stagH s x; Issues f s ∧ h.errs ≠ [] ∧ pairStat s x ≠ 3 ∧ bit h.status 3 = false) := by decide

theorem test_meets_StagSystemInstructions :
    (let s : State := st [(0, 0x44, 2)]; let f : Fetch := ⟨.b, .good⟩; let x := pairIx f.pair; let r : BitVec 12 := 0; Issues f s ∧
      r.toNat < 10 ∧ (casteBit s x = 0 ∨ 6 ≤ r.toNat)) ∧
    (let s : State := st [(0, 0x44, 2)]; let f : Fetch := ⟨.a, .good⟩; let x := pairIx f.pair; let a : Fin 32 := 0;
      let r : BitVec 12 := 0; let v := (gReg s x a).toNat; Issues f s ∧ r.toNat < 10 ∧ (casteBit s x = 0 ∨ r.toNat = 6) ∧
      ¬ (r.toNat = 0 ∧ v % 4 = 3)) ∧
    (let s : State := st [(0, 0x44, 2)]; let f : Fetch := ⟨.b, .good⟩; let x := pairIx f.pair; let h := stagH s x; Issues f s ∧
      h.errs = []) ∧
    (let s : State := { st [(0, 0x44, 5)] with stag := [{ errs := [(0, 0, false)] }, {}] }; let f : Fetch := ⟨.a, .good⟩;
      let x := pairIx f.pair; let h := stagH s x; Issues f s ∧ h.errs ≠ []) ∧
    (let s : State := st [(0, 0x44, 5), (pHIVE, 0x40, 1)]; let f : Fetch := ⟨.a, .good⟩; let x := pairIx f.pair; let e : Fin 256 := 0;
      Issues f s ∧ pendBit s x e = true) := by decide

theorem test_meets_StagSystemInstructions_2 :
    (let s : State := st [(0, 0x44, 2)]; let f : Fetch := ⟨.a, .good⟩; let x := pairIx f.pair; Issues f s ∧
      (∀ e : Fin 256, pendBit s x e = false)) ∧
    (let s : State := st [(0, 0x44, 2)]; let f : Fetch := ⟨.a, .good⟩; let x := pairIx f.pair; Issues f s ∧ casteBit s x = 0) ∧
    (let s : State := st [(0, 0x44, 2)]; let f : Fetch := ⟨.a, .good⟩; let x := pairIx f.pair; let h := stagH s x;
      let r : BitVec 12 := 10; Issues f s ∧ bit h.status 3 = false ∧ (10 ≤ r.toNat ∨ (casteBit s x ≠ 0 ∧ r.toNat < 6))) ∧
    (let s : State := st [(0, 0x44, 2)]; let f : Fetch := ⟨.a, .good⟩; let x := pairIx f.pair; let h := stagH s x; let a : Fin 32 := 0;
      let r : BitVec 12 := 10; Issues f s ∧ bit h.status 3 = false ∧ (10 ≤ r.toNat ∨ (casteBit s x ≠ 0 ∧ r.toNat ≠ 6) ∨ (r.toNat = 0 ∧
      (gReg s x a).toNat % 4 = 3))) ∧
    (let s : State := { st [(0, 0x44, 5)] with stag := [{ status := 1 }, {}] }; let f : Fetch := ⟨.a, .good⟩; let x := pairIx f.pair;
      let h := stagH s x; Issues f s ∧ bit h.status 3 = false ∧ casteBit s x ≠ 0) := by decide

theorem test_meets_StagFloatingPoint :
    (let s : State := { st [(0, 0x44, 5)] with stag := [{ status := 256 }, {}] }; let f : Fetch := ⟨.a, .good⟩; let x := pairIx f.pair;
      let h := stagH s x; let rm := bits h.fcsr 10 2; let d : Fin 32 := 0; let a : Fin 32 := 0; let b : Fin 32 := 0;
      let op : FpuOp := .fadd; let r := fpuVal op rm (fReg s x d).toNat (fReg s x a).toNat (fReg s x b).toNat; Issues f s ∧
      bit h.status 8 = true ∧ r.flags &&& bits h.fcsr 5 5 = 0) ∧
    (let s : State := { st [(0, 0x44, 5)] with stag := [{ status := 256, fcsr := 0x3E0, f := [0, 0x7F800001] }, {}] };
      let f : Fetch := ⟨.a, .good⟩; let x := pairIx f.pair; let h := stagH s x; let rm := bits h.fcsr 10 2; let d : Fin 32 := 0;
      let a : Fin 32 := 1; let b : Fin 32 := 0; let op : FpuOp := .fadd;
      let r := fpuVal op rm (fReg s x d).toNat (fReg s x a).toNat (fReg s x b).toNat; Issues f s ∧ bit h.status 8 = true ∧
      r.flags &&& bits h.fcsr 5 5 ≠ 0 ∧ bit h.status 3 = false) ∧
    (let s : State := st [(0, 0x44, 2)]; let f : Fetch := ⟨.b, .good⟩; let x := pairIx f.pair; let h := stagH s x; Issues f s ∧
      bit h.status 8 = false ∧ bit h.status 3 = false) ∧
    (let s : State := { st [(0, 0x44, 5)] with stag := [{ status := 256, f := [0, 0x3F800000] }, {}] }; let f : Fetch := ⟨.a, .good⟩;
      let x := pairIx f.pair; let h := stagH s x; let rm := bits h.fcsr 10 2; let a : Fin 32 := 1; let b : Fin 32 := 1;
      let q : Bool := false; let r := (if q then fpSqrt rm (fReg s x a).toNat else fpDiv rm (fReg s x a).toNat (fReg s x b).toNat);
      Issues f s ∧ bit h.status 8 = true ∧ r.flags &&& bits h.fcsr 5 5 = 0) := by decide

theorem test_meets_StagFloatingPoint_2 :
    (let s : State := { st [(0, 0x44, 5)] with stag := [{ status := 256, fcsr := 0x3E0 }, {}] }; let f : Fetch := ⟨.a, .good⟩;
      let x := pairIx f.pair; let h := stagH s x; let rm := bits h.fcsr 10 2; let a : Fin 32 := 0; let b : Fin 32 := 0;
      let q : Bool := false; let r := (if q then fpSqrt rm (fReg s x a).toNat else fpDiv rm (fReg s x a).toNat (fReg s x b).toNat);
      Issues f s ∧ bit h.status 8 = true ∧ r.flags &&& bits h.fcsr 5 5 ≠ 0 ∧ bit h.status 3 = false) ∧
    (let s : State := st [(0, 0x44, 5)]; let f : Fetch := ⟨.a, .good⟩; let x := pairIx f.pair; let h := stagH s x; Issues f s ∧
      bit h.status 8 = false ∧ bit h.status 3 = false) := by decide

theorem test_meets_ExceptionEntryAndReturn :
    (let s : State := st [(0, 0x44, 2)]; let f : Fetch := ⟨.b, .good⟩; let x := pairIx f.pair; let h := stagH s x; Issues f s ∧
      bit h.status 3 = false) ∧
    (let s : State := { st [(0, 0x44, 5), (pHIVE, 0x40, 2)] with stag := [{ status := 4 }, {}], hive := { edges := [(0, 1, 0, 1)] } };
      let f : Fetch := ⟨.a, .good⟩; let x := pairIx f.pair; let e : Edge := (1, 0, 1); interruptDue s x = some e ∧ x < s.stag.length ∧
      e.1 < 256) ∧
    (let s : State := st [(0, 0x44, 2)]; let f : Fetch := ⟨.b, .good⟩; let x := pairIx f.pair; let h := stagH s x; Issues f s ∧
      casteBit s x = 0 ∧ h.estatus % 4 ≠ 3) := by decide

theorem test_meets_OnlyQueenReturnsAndOnlyTrapRises :
    (let s : State := { st [(0, 0x44, 5)] with stag := [{ status := 1 }, {}] }; let f : Fetch := ⟨.a, .good⟩; let x := pairIx f.pair;
      let r : BitVec 12 := 0; Issues f s ∧ casteBit s x ≠ 0 ∧ bit (stagH s x).status 3 = false ∧ r.toNat ≠ 6) ∧
    (let s : State := { st [(0, 0x44, 5)] with stag := [{ status := 1 }, {}] }; let f : Fetch := ⟨.a, .good⟩; let x := pairIx f.pair;
      let r : BitVec 12 := 0; Issues f s ∧ casteBit s x ≠ 0 ∧ bit (stagH s x).status 3 = false ∧ r.toNat < 6) ∧
    (let s : State := { st [(0, 0x44, 5)] with stag := [{ status := 1 }, {}] }; let f : Fetch := ⟨.a, .good⟩; let x := pairIx f.pair;
      let r : BitVec 12 := 6; Issues f s ∧ casteBit s x ≠ 0 ∧ bit (stagH s x).status 3 = false ∧ 6 ≤ r.toNat ∧ r.toNat < 10) ∧
    (let s : State := { st [(0, 0x44, 5)] with stag := [{ status := 1 }, {}] }; let f : Fetch := ⟨.a, .good⟩; let x := pairIx f.pair;
      let r : BitVec 12 := 6; Issues f s ∧ casteBit s x ≠ 0 ∧ bit (stagH s x).status 3 = false ∧ r.toNat = 6) := by decide

theorem test_meets_OnlyQueenReturnsAndOnlyTrapRises_2 :
    let s : State := { st [(0, 0x44, 5)] with stag := [{ status := 1 }, {}] }; let f : Fetch := ⟨.a, .good⟩; let x := pairIx f.pair;
      Issues f s ∧ casteBit s x ≠ 0 ∧ bit (stagH s x).status 3 = false ∧ (stagH s x).errs = [] := by decide

theorem test_meets_HiveRoutesEdges :
    (let s : State := { st [(0, 0x44, 5)] with hive := { pulses := [(0, 0, 0)] } }; let n : Fin 256 := 0; let p : Fin 256 := 0;
      let on := (if n = 8 then e008Asserted s else lineAsserted s n p); let q : Nat := (if n = 8 then 0 else p.val);
      let pulse := s.hive.pulses.any (fun e => e.1 == n.val && e.2.1 == p.val && decide (e.2.2 ≤ s.tick)); powered s = true ∧
      (pulse = true ∨ (on = true ∧ ¬ (n.val, q) ∈ s.hive.seen))) ∧
    (let s : State := st [(0, 0x44, 5)]; let n : Fin 256 := 0; let p : Fin 256 := 0;
      let on := (if n = 8 then e008Asserted s else lineAsserted s n p); let q : Nat := (if n = 8 then 0 else p.val);
      let pulse := s.hive.pulses.any (fun e => e.1 == n.val && e.2.1 == p.val && decide (e.2.2 ≤ s.tick)); powered s = true ∧
      pulse = false ∧ (on = false ∨ (n.val, q) ∈ s.hive.seen)) := by decide

theorem test_meets_DmaChannelsMoveWords :
    (let s : State := st [(0, 0x44, 2)]; let acc : Access := ⟨.stagA, .queen⟩; let c : Fin 8 := 0;
      Reaches s acc pHIVE (dmaOff c 0xC) true ∧ locked s pHIVE = false ∧ fld s pHIVE (dmaOff c 0xC) 2 2 ≤ 1 ∧
      fld s pHIVE (dmaOff c 0xC) 4 2 ≤ 1 ∧ dmaBusy s c = false) ∧
    (let s : State := st [(0, 0x44, 2), (6, 0x810, 1)]; let acc : Access := ⟨.stagA, .queen⟩; let c : Fin 8 := 0;
      Reaches s acc pHIVE (dmaOff c 0xC) true ∧ locked s pHIVE = false ∧ fld s pHIVE (dmaOff c 0xC) 2 2 ≤ 1 ∧
      fld s pHIVE (dmaOff c 0xC) 4 2 ≤ 1 ∧ dmaBusy s c = true) ∧
    (let s : State := { st [(0, 0x44, 5), (pHIVE, 0x810, 0x10001)] with dma := [{ src := 0x20000000, dst := 0x20000004 }] };
      let c : Fin 8 := 0; let st := dmaOff c 0x10; let src := (dmaH s c).src; let dst := (dmaH s c).dst; let ecc : List WordEcc := [];
      powered s = true ∧ dmaBusy s c = true ∧ 0 < fld s pHIVE st 16 16 ∧ (∀ d, d < 8 → d ≠ c.val → dmaBusy s d = false) ∧ s.upset = [] ∧
      0x20000000 ≤ src ∧ src < 0x20200000 ∧ src % 4 = 0 ∧ 0x20000000 ≤ dst ∧ dst < 0x20200000 ∧ dst % 4 = 0 ∧ ecc.headD {} = {}) ∧
    (let s : State := { st [(0, 0x44, 5), (pHIVE, 0x810, 0x10001)] with dma := [{ src := 0 }] }; let c : Fin 8 := 0;
      let st := dmaOff c 0x10; let n : Nat := 1; powered s = true ∧ dmaBusy s c = true ∧ 0 < fld s pHIVE st 16 16 ∧
      (∀ d, d < 8 → d ≠ c.val → dmaBusy s d = false) ∧ (dmaH s c).src < 0x08000000 ∧ 0 < n) := by decide

theorem test_meets_CheckerStopsAndRestoresPairs :
    (let s : State := st [(0, 0x44, 2)]; let segs : List CmpSeg := []; let groups : List DelayGroup := [];
      let ds := cycleDets ⟨segs, groups⟩; powered s = true ∧ s.chk.detAt.length = 2 ∧ ds = []) ∧
    (let s : State := { st [(0, 0x44, 2)] with tick := 1, chk := { detAt := [(some 1), none] } }; let y : PairId := .a;
      let x := pairIx y; let segs : List CmpSeg := [{ chk := 1 }]; let groups : List DelayGroup := [];
      let ds := cycleDets ⟨segs, groups⟩; let d := (1, 0); powered s = true ∧ s.chk.detAt.length = 2 ∧ ds.head? = some d ∧
      s.chk.detAt.getD x none = some s.tick) ∧
    (let s : State := st [(0, 0x44, 2)]; let y : PairId := .b; let x := pairIx y; let segs : List CmpSeg := [{ rail := 0 }];
      let groups : List DelayGroup := []; let ds := cycleDets ⟨segs, groups⟩; let d := (2, 0); powered s = true ∧
      s.chk.detAt.length = 2 ∧ ds.head? = some d ∧ pairStat s x ≠ 4 ∧ s.chk.detAt.getD x none ≠ some s.tick) ∧
    (let s : State := st [(0, 0x44, 2), (0x12, 0x44, 1)]; let y : PairId := .b; let x := pairIx y; powered s = true ∧
      s.chk.detAt.length = 2 ∧ pairRec s x = 1) ∧
    (let s : State := st [(0, 0x44, 2), (0x12, 0x40, 2)]; let y : PairId := .a; let x := pairIx y;
      let acc : Access := ⟨.internal, .queen⟩; powered s = true ∧ s.chk.detAt.length = 2 ∧ Reaches s acc pCHECKER 0x08 true ∧
      pairRec s x = 2) ∧
    (let s : State := { st [(0, 0x44, 5)] with chk := { recAt := [some 0, none] }, tick := 1000000 }; let y : PairId := .a;
      let x := pairIx y; let at_ := 0; powered s = true ∧ s.chk.detAt.length = 2 ∧ s.chk.recAt.getD x none = some at_ ∧
      at_ + 5 * 200000 ≤ s.tick) ∧
    (let s : State := { st [(0, 0x44, 5)] with chk := { recAt := [some 0, none] }, tick := 10000000 }; let y : PairId := .a;
      let x := pairIx y; let at_ := 0; powered s = true ∧ s.chk.detAt.length = 2 ∧ s.chk.recAt.getD x none = some at_ ∧
      at_ + 50 * 200000 ≤ s.tick ∧ pairStat s x ≠ 4 ∧ Settled s) := by decide

theorem test_meets_TracksFollowTheirStates :
    (let s : State := st [(0, 0x44, 2)]; let n : Fin 8 := 0; let acc : Access := ⟨.stagA, .queen⟩; n < s.tracks.length ∧
      Reaches s acc (pAT n) 0x08 true ∧ locked s (pAT n) = false ∧ pageEn s (pAT n) = false ∧ 1 ≤ trackType s n ∧
      (trackType s n = 1 → 1 ≤ rg s (pAT n) 0x44 ∧ rg s (pAT n) 0x44 ≤ 32)) ∧
    (let s : State := st [(0, 0x44, 2), (0x22, 8, 1)]; let n : Fin 8 := 2; let acc : Access := ⟨.stagA, .queen⟩; n < s.tracks.length ∧
      Reaches s acc (pAT n) 0x08 true ∧ locked s (pAT n) = false ∧ pageEn s (pAT n) = true) ∧
    (let s : State := st [(0, 0x44, 5), (pAT 0, 0x0C, trINVALID)]; let n : Fin 8 := 0; let acc : Access := ⟨.stagA, .queen⟩;
      n < s.tracks.length ∧ Reaches s acc (pAT n) 0x08 true ∧ locked s (pAT n) = false ∧ trackState s n = trINVALID) ∧
    (let s : State := st [(0, 0x44, 2)]; let n : Fin 8 := 0; let acc : Access := ⟨.stagA, .queen⟩; n < s.tracks.length ∧
      Reaches s acc (pAT n) 0x08 true ∧ locked s (pAT n) = false ∧ trackState s n ≠ trINVALID) ∧
    (let s : State := { st [(0, 0x44, 5), (pAT 0, 0x0C, trVALID), (pAT 0, 0x40, 1)] with tick := 100000000 }; let n : Fin 8 := 0;
      n < s.tracks.length ∧ powered s = true ∧ trackState s n = trVALID ∧ (trackType s n = 1 ∨ trackType s n = 4 ∨ trackType s n = 5) ∧
      (trk s n).corrAt + fld s (pAT n) 0x4C 0 16 * 200 ≤ s.tick) := by decide

theorem test_meets_TracksFollowTheirStates_2 :
    (let s : State := { st [(0, 0x44, 5), (pAT 0, 0x0C, trCOAST)] with tick := 100000000 }; let n : Fin 8 := 0; n < s.tracks.length ∧
      powered s = true ∧ trackState s n = trCOAST ∧ (trk s n).coastAt + fld s (pAT n) 0x50 0 16 * 200 ≤ s.tick) ∧
    (let s : State := { st [(0, 0x44, 5), (pAT 0, 0x0C, trCOAST), (pAT 0, 0x40, 3)] with tick := 100000000 }; let n : Fin 8 := 0;
      n < s.tracks.length ∧ powered s = true ∧ trackType s n = 3 ∧
      (trackState s n = trACQUIRE ∨ trackState s n = trVALID ∨ trackState s n = trCOAST) ∧
      (trk s n).corrAt + fld s (pAT n) 0x4C 0 16 * 200 ≤ s.tick) := by decide

theorem test_meets_TracksTakeCorrections :
    (let s : State := st [(0, 0x44, 2)]; let n : Fin 8 := 0; n < s.tracks.length ∧ powered s = true ∧ (trk s n).wait = []) ∧
    (let s : State := { st [(0, 0x44, 5)] with tick := 256, tracks := { wait := [{ cap := 0, m := 0 }] } :: List.replicate 7 {} };
      let n : Fin 8 := 0; let c := { cap := 0, m := 0 }; n < s.tracks.length ∧ (trk s n).wait.head? = some c ∧
      (trk s n).wait.length = 1 ∧ powered s = true ∧ c.due ≤ s.tick ∧ c.cap + 255 < s.tick) ∧
    (let s : State := { st [(0, 0x44, 5), (pAT 0, 0x0C, trVALID)] with
      tracks := { wait := [{ cap := 0, m := 0 }] } :: List.replicate 7 {} }; let n : Fin 8 := 0; let c := { cap := 0, m := 0 };
        let e := angDiff c.m (angleAt s n (s.tick - c.cap)); n < s.tracks.length ∧ (trk s n).wait.head? = some c ∧
        (trk s n).wait.length = 1 ∧ powered s = true ∧ c.due ≤ s.tick ∧ s.tick ≤ c.cap + 255 ∧ c.ab = none ∧ trackState s n = trVALID ∧
        e.natAbs ≤ rg s (pAT n) 0x58) ∧
    (let s : State := st [(0, 0x44, 2)]; let n : Fin 8 := 0; let acc : Access := ⟨.stagA, .queen⟩; n < s.tracks.length ∧
      Reaches s acc (pAT n) 0x200 false) := by decide

theorem test_meets_SlotsFireAndAct :
    (let s : State := st [(0, 0x44, 2)]; let i : Fin 64 := 0; i < s.slots.length ∧ powered s = true ∧
      (slotEn s i = false ∨ slotArmed s i = false ∨ slotSeat s i = true ∨ (slotH s i).lat.evAt = some s.tick)) ∧
    (let s : State := st [(0, 0x44, 5), (0x28, 0x900, 0x20001), (0x28, 0x908, 1), (0x28, 0x114, 0x100), (0x20, 0x0C, trVALID)];
      let i : Fin 64 := 0; let r := (slotH s i).lat.r + deltaA s (slotTrk s i);
      let g : Int := gap (slotPts s i) (slotStep s i) (slotH s i).lat.k; i < s.slots.length ∧ powered s = true ∧ slotEn s i = true ∧
      slotArmed s i = true ∧ slotSeat s i = false ∧ (slotH s i).lat.evAt ≠ some s.tick ∧ slotAct s i 0 2 1 = 0 ∧
      trackGood s (slotTrk s i) = true ∧ r < g + (slotHyst s i).1 ∧ -(slotHyst s i).2 ≤ r) ∧
    (let s : State := st [(0, 0x44, 5), (0x28, 0x900, 0x20001), (0x28, 0x908, 0), (0x28, 0x114, 0x100), (0x20, 0x0C, trVALID)];
      let i : Fin 64 := 0; let r := (slotH s i).lat.r + deltaA s (slotTrk s i);
      let g : Int := gap (slotPts s i) (slotStep s i) (slotH s i).lat.k; i < s.slots.length ∧ powered s = true ∧ slotEn s i = true ∧
      slotArmed s i = true ∧ slotSeat s i = false ∧ (slotH s i).lat.evAt ≠ some s.tick ∧ slotAct s i 0 2 1 = 0 ∧
      trackGood s (slotTrk s i) = true ∧ g + (slotHyst s i).1 ≤ r ∧ slotAct s i 0 8 2 ≠ 1 ∧ slotAct s i 0xC 16 16 = 0) ∧
    (let s : State := { st [(0, 0x44, 2)] with slots := ((List.replicate 32 {}).set 28 { lat := { scan := (some 0) } }) };
      let i : Fin 64 := 28; let e := 0; i < s.slots.length ∧ powered s = true ∧ (slotH s i).lat.scan = some e ∧ e ≤ s.tick) ∧
    (let s : State := { st [(0, 0x44, 2)] with slots := ((List.replicate 32 {}).set 5 { fired := true }) }; let i : Fin 64 := 5;
      i < s.slots.length ∧ powered s = true ∧ (slotH s i).fired = true ∧ (slotH s i).lat.evAt ≠ some s.tick) := by decide

theorem test_meets_TheLockDeliversPeriods :
    (let s : State := st [(0, 0x44, 5), (0x20, 0x85C, 1), (0x20, 0x0C, trVALID), (0x20, 0x914, 2), (0x20, 0x910, 1)];
      let n : Fin 8 := 0; let r := (trk s n).lat.r + deltaA s n; let g : Int := gap (lockPts s n) (lockStep s n) (trk s n).lat.k;
      n < s.tracks.length ∧ powered s = true ∧ lockMap s n ≠ 0 ∧ trackGood s n = true ∧ (trk s n).lat.scan = none ∧
      (trk s n).lat.evAt ≠ some s.tick ∧ 0 ≤ r ∧ r < g) ∧
    (let s : State := st [(0, 0x44, 5), (0x20, 0x85C, 1), (0x20, 0x0C, trVALID), (0x20, 0x914, 2), (0x20, 0x910, 0)];
      let n : Fin 8 := 0; let r := (trk s n).lat.r + deltaA s n; let g : Int := gap (lockPts s n) (lockStep s n) (trk s n).lat.k;
      let d := s.tick - (trk s n).lAt; n < s.tracks.length ∧ powered s = true ∧ lockMap s n ≠ 0 ∧ trackGood s n = true ∧
      (trk s n).lat.scan = none ∧ (trk s n).lat.evAt ≠ some s.tick ∧ g ≤ r ∧ d < 2 ^ 24) ∧
    (let s : State := { st [(0, 0x44, 5), (0x20, 0x85C, 1), (0x20, 0x0C, trVALID), (0x20, 0x914, 2), (0x20, 0x910, 0)] with
      tick := 16777216 }; let n : Fin 8 := 0; let r := (trk s n).lat.r + deltaA s n;
        let g : Int := gap (lockPts s n) (lockStep s n) (trk s n).lat.k; n < s.tracks.length ∧ powered s = true ∧ lockMap s n ≠ 0 ∧
        trackGood s n = true ∧ (trk s n).lat.scan = none ∧ (trk s n).lat.evAt ≠ some s.tick ∧ g ≤ r ∧
        2 ^ 24 ≤ s.tick - (trk s n).lAt) := by decide

theorem test_meets_ConvertersStoreTheirResults :
    (let s : State := { st [(0, 0x44, 5), (pSDG 0, 0x08, 1), (pSDG 0, 0x44, 1), (pSDG 0, 0x848, 0)] with
      tick := 224, sdOn := List.replicate 48 (some 0) }; let n : Fin 48 := 0; let w : List Bool := List.replicate 46 false;
        let g := n.val / 8; let n3 := (w.length + 2) / 3; let f := 0; powered s = true ∧ sdFree s g n3 = some f ∧ sdEn s n = true ∧
        sdSince s n f = true ∧ w.length = 3 * n3 - 2) ∧
    (let s : State := st [(0, 0x44, 2)]; let n : Fin 48 := 0; powered s = true ∧ sdEn s n = false) ∧
    (let s : State := st [(0, 0x44, 2), (0x34, 8, 1)]; let n : Fin 48 := 32; let g := n.val / 8; powered s = true ∧ sdEn s n = true ∧
      rg s (pSDG g) 0x4C ≠ 0) ∧
    (let s : State := st [(0, 0x44, 2), (0x34, 8, 1)]; let g : Fin 6 := 4; powered s = true ∧ pageEn s (pSDG g) = true) ∧
    (let s : State := st [(0, 0x44, 2), (0x37, 8, 3)]; let n : Fin 4 := 1; powered s = true ∧ n < s.sar.length ∧
      rbit s (pSAR n) 0x08 0 = true ∧ rbit s (pSAR n) 0x08 1 = true ∧ s.tick % (max 1 (rg s (pSAR n) 0x44)) = 0 ∧
      sarFree s n ≤ s.tick) ∧
    (let s : State := { st [(0, 0x44, 2), (0x37, 8, 3)] with sar := [{}, { conv := [⟨0, none, 0, false⟩] }] }; let n : Fin 4 := 1;
      powered s = true ∧ n < s.sar.length ∧ rbit s (pSAR n) 0x08 0 = true ∧ rbit s (pSAR n) 0x08 1 = true ∧
      s.tick % (max 1 (rg s (pSAR n) 0x44)) = 0 ∧ s.tick < sarFree s n) ∧
    (let s : State := { st [(0, 0x44, 2)] with sar := [{ conv := [⟨0, none, 0, false⟩] }] }; let n : Fin 4 := 0;
      let c := ⟨0, none, 0, false⟩; powered s = true ∧ n < s.sar.length ∧ (sarH s n).conv.head? = some c ∧ c.ch < 8 ∧
      (sarH s n).res = [] ∧ s.tick < c.start + 40) := by decide

theorem test_meets_ConvertersStoreTheirResults_2 :
    (let s : State := { st [(0, 0x44, 5)] with tick := 40, sar := [{ conv := [⟨0, none, 0, true⟩] }] }; let n : Fin 4 := 0;
      let c := ⟨0, none, 0, true⟩; powered s = true ∧ n < s.sar.length ∧ (sarH s n).conv.head? = some c ∧ c.ch < 8 ∧
      (sarH s n).res = [] ∧ c.start + 40 ≤ s.tick ∧ s.tick < c.start + 42) ∧
    (let s : State := { st [(0, 0x44, 2)] with tick := 42, sar := ((List.replicate 4 {}).set 3 { conv := [⟨0, none, 0, false⟩] }) };
      let n : Fin 4 := 3; let c := ⟨0, none, 0, false⟩; powered s = true ∧ n < s.sar.length ∧ (sarH s n).conv.head? = some c ∧
      c.ch < 8 ∧ (sarH s n).res = [] ∧ c.start + 42 ≤ s.tick) ∧
    (let s : State := { st [(0, 0x44, 2)] with tick := 60 }; let i : Fin 8 := 0; powered s = true ∧ rbit s pHVS 0x08 i = true ∧
      s.tick % 200 = 60 ∧ hvsSince s i (s.tick - 60) = true) := by decide

theorem test_meets_SampleSetsComplete :
    (let s : State := st [(0, 0x44, 2)]; let k : Fin 8 := 0; let asms := (setH s k).late ++ (setH s k).cur.toList; powered s = true ∧
      k < s.sets.length ∧ asms = []) ∧
    (let s : State := { st [(0, 0x44, 2)] with
      sets := ((List.replicate 8 {}).set 0 { late := [⟨0, 0, 0, 0, [⟨0, (some 1), none, 0, 0, 0⟩], 0, none⟩] }) }; let k : Fin 8 := 0;
        let asms := (setH s k).late ++ (setH s k).cur.toList; let x := ⟨0, 0, 0, 0, [⟨0, (some 1), none, 0, 0, 0⟩], 0, none⟩;
        powered s = true ∧ k < s.sets.length ∧ asms.head? = some x ∧ asmDue s x = false) ∧
    (let s : State := { st [(0, 0x44, 2)] with
      sets := ((List.replicate 8 {}).set 7 { late := [⟨0, 0, 0, 0, [⟨0, none, none, 0, 0, 0⟩], 0, none⟩] }) }; let k : Fin 8 := 7;
        let ws : List (List Bool) := [[false]]; let asms := (setH s k).late ++ (setH s k).cur.toList;
        let x := ⟨0, 0, 0, 0, [⟨0, none, none, 0, 0, 0⟩], 0, none⟩; let cause := asmCause s x; powered s = true ∧ k < s.sets.length ∧
        asms.head? = some x ∧ asmDue s x = true ∧ cause = 0 ∧ asmRaws x.trig x.chans ws s.sdGot = none) ∧
    (let s : State := { st [(0, 0x44, 5)] with
      sets := { cur := some { trig := 0, ang := 0, trkSt := 0, cfg := 0 } } :: List.replicate 7 {} }; let k : Fin 8 := 0;
        let ws : List (List Bool) := []; let asms := (setH s k).late ++ (setH s k).cur.toList;
        let x := { trig := 0, ang := 0, trkSt := 0, cfg := 0 }; let cause := asmCause s x; let raws := ([], []); powered s = true ∧
        k < s.sets.length ∧ asms.head? = some x ∧ asmDue s x = true ∧ cause = 0 ∧ asmRaws x.trig x.chans ws s.sdGot = some raws) ∧
    (let s : State := { st [(0, 0x44, 2)] with sets := ((List.replicate 8 {}).set 2 { late := [⟨0, 0, 0, 0, [], 1, none⟩] }) };
      let k : Fin 8 := 2; let asms := (setH s k).late ++ (setH s k).cur.toList; let x := ⟨0, 0, 0, 0, [], 1, none⟩;
      let cause := asmCause s x; powered s = true ∧ k < s.sets.length ∧ asms.head? = some x ∧ asmDue s x = true ∧
      cause ≠ 0) := by decide

theorem test_meets_ResolversMeasureAndReport :
    (let s : State := st [(0, 0x44, 2)]; let r : Fin 2 := 0; let acc : Access := ⟨.internal, .queen⟩;
      Reaches s acc (pRSV r) 0x50 false) ∧
    (let s : State := st [(0, 0x44, 2), (0x3A, 8, 1)]; let r : Fin 2 := 0; powered s = true ∧ r < s.rsv.length ∧
      pageEn s (pRSV r) = true ∧ s.tick % 200 = 0) ∧
    (let s : State := { st [(0, 0x44, 5), (pRSV 0, 0x08, 1)] with tick := 40, rsv := [{ wait := some (0, 0) }] }; let r : Fin 2 := 0;
      let w := (0, 0); powered s = true ∧ r < s.rsv.length ∧ pageEn s (pRSV r) = true ∧ (rsvH s r).wait = some w ∧ s.tick = w.2 + 40 ∧
      rg s (pRSV r) 0x4C = 0) ∧
    (let s : State := st [(0, 0x44, 2), (0x3B, 8, 1)]; let r : Fin 2 := 1; let b : Fin 4 := 2; powered s = true ∧ r < s.rsv.length ∧
      pageEn s (pRSV r) = true ∧ (2 ≤ b.val ∨ (b.val = 0 ∧ 4 ≤ (rsvH s r).low) ∨ (b.val = 1 ∧ 4 ≤ (rsvH s r).high))) ∧
    (let s : State := st [(0, 0x44, 2)]; let r : Fin 2 := 0; powered s = true ∧
      (pageEn s (pRSV r) = false ∨ s.tick % 200 ≠ 0)) := by decide

theorem test_meets_EncodersHallsWheelsAndSentReport :
    (let s : State := st [(0, 0x44, 2)]; let i : Fin 4 := 0; powered s = true ∧ rbit s pENC 0x08 i = false) ∧
    (let s : State := st [(0, 0x44, 2), (0x3C, 8, 1)]; let i : Fin 4 := 0; let a : Bool := true; let b : Bool := true;
      let o := s.enc.getD i (false, false); powered s = true ∧ rbit s pENC 0x08 i = true ∧ o.1 ≠ a ∧ o.2 ≠ b) ∧
    (let s : State := st [(0, 0x44, 2), (0x3C, 8, 2)]; let i : Fin 4 := 1; let a : Bool := true; let b : Bool := false;
      let z : Bool := false; let o := s.enc.getD i (false, false); powered s = true ∧ rbit s pENC 0x08 i = true ∧
      fld s pENC (0x40 + 4 * i) 0 2 = 0 ∧ o.1 ≠ a ∧ o.2 = b ∧ z = false) ∧
    (let s : State := st [(0, 0x44, 5), (pENC, 0x08, 1)]; let i : Fin 4 := 0; let a : Bool := false; let b : Bool := true;
      let o := s.enc.getD i (false, false); powered s = true ∧ rbit s pENC 0x08 i = true ∧ fld s pENC (0x40 + 4 * i) 0 2 = 0 ∧ o.1 = a ∧
      o.2 ≠ b) ∧
    (let s : State := st [(0, 0x44, 5), (pENC, 0x08, 1), (0x20, 0x40, 2), (0x20, 0x0C, trVALID)]; let n : Fin 8 := 0;
      let i := trackInst s n; powered s = true ∧ n < s.tracks.length ∧ trackType s n = 2 ∧ i < 4 ∧ rbit s pENC 0x08 i = true ∧
      trackState s n ≠ trDISABLED ∧
      (s.encAt.getD n none).all (fun a => decide (a < s.tick) && (s.tick - a) % max 1 (fld s (pAT n) 0x4C 16 8) == 0) = true) ∧
    (let s : State := st [(0, 0x44, 2), (0x3C, 8, 0x40)]; let i : Fin 4 := 2; powered s = true ∧ rbit s pENC 0x08 (4 + i) = true) ∧
    (let s : State := { st [(0, 0x44, 2), (0x3C, 8, 0x100)] with twLast := [(some 0)] }; let j : Fin 2 := 0; let a := 0;
      powered s = true ∧ rbit s pENC 0x08 (8 + j) = true ∧ s.twLast.getD j none = some a ∧ s.tick - a < 2 ^ 32) ∧
    (let s : State := st [(0, 0x44, 5), (pENC, 0x08, 0x400), (pENC, 0xA0, 300)]; let i : Fin 4 := 0;
      let p : SentPulses := ⟨true, false, true, true, 1680000⟩; let ns : List (Fin 16) := [];
      let ok := (p.nib && p.pause == rbit s pENC (0xA0 + 4 * i) 17 && (if rbit s pENC (0xA0 + 4 * i) 16 then p.crcR else p.crcL) &&
        sentCal (fld s pENC (0xA0 + 4 * i) 0 10) p.cal && ns.length == fld s pENC (0xA0 + 4 * i) 12 3); powered s = true ∧
      rbit s pENC 0x08 (10 + i) = true ∧ ok = true) := by decide

theorem test_meets_EncodersHallsWheelsAndSentReport_2 :
    (let s : State := st [(0, 0x44, 2), (0x3C, 8, 0x1000)]; let i : Fin 4 := 2; let p : SentPulses := ⟨false, false, false, false, 0⟩;
      let ns : List (Fin 16) := [];
      let ok := (p.nib && p.pause == rbit s pENC (0xA0 + 4 * i) 17 && (if rbit s pENC (0xA0 + 4 * i) 16 then p.crcR else p.crcL) &&
        sentCal (fld s pENC (0xA0 + 4 * i) 0 10) p.cal && ns.length == fld s pENC (0xA0 + 4 * i) 12 3); powered s = true ∧
      rbit s pENC 0x08 (10 + i) = true ∧ ok = false) ∧
    (let s : State := st [(0, 0x44, 2)]; let acc : Access := ⟨.internal, .queen⟩; let i : Fin 4 := 0; powered s = true ∧
      Reaches s acc pENC (0xB0 + 4 * i) false) := by decide

theorem test_meets_CalibrationOperationsRun :
    (let s : State := st [(0, 0x44, 5), (pSDG 0, 0x08, 1), (pSDG 0, 0x44, 1), (pCAL, 0x40, 0x400)];
      let acc : Access := ⟨.stagA, .queen⟩; let code := fld s pCAL 0x40 0 8; let n := fld s pCAL 0x40 8 4;
      Reaches s acc pCAL 0x08 true ∧ locked s pCAL = false ∧ armed s pCAL = false ∧ (devState s = .held ∨ devState s = .ready) ∧
      rbit s pCAL 0x48 0 = false ∧ (code < 0x30 ∨ (0x60 ≤ code ∧ code < 0x8C)) ∧ 4 ≤ n ∧ n ≤ 12 ∧ zeroAbsent s code = false) ∧
    (let s : State := st [(0, 0x44, 5)]; let acc : Access := ⟨.stagA, .queen⟩; Reaches s acc pCAL 0x08 true ∧ locked s pCAL = false ∧
      armed s pCAL = false ∧ (devState s = .held ∨ devState s = .ready) ∧ rbit s pCAL 0x48 0 = false) ∧
    (let s : State := { st [(0, 0x44, 5)] with mem := mwrite [] (calBase 0 + 4) (crc32c (bytesLE 0)) 4 };
      let acc : Access := ⟨.stagA, .queen⟩; let r := (0, 0); Reaches s acc pCAL 0x08 true ∧ locked s pCAL = false ∧
      armed s pCAL = false ∧ (devState s = .held ∨ devState s = .ready) ∧ rbit s pCAL 0x48 0 = false ∧ newestCal s = some r) ∧
    (let s : State := { st [(0, 0x44, 2)] with cal := { zero := (some (0, 0)), count := 1 } }; let z := (0, 0); powered s = true ∧
      s.cal.zero = some z ∧ z.1 < 0x8C ∧ 2 ^ z.2 ≤ s.cal.count) ∧
    (let s : State := { st [(0, 0x44, 5)] with cal := { store := some (calOffsets.map fun _ => 0) } };
      let vals := calOffsets.map fun _ => 0; powered s = true ∧ s.cal.store = some vals ∧ vals.length = calOffsets.length) ∧
    (let s : State := st [(0, 0x44, 2)]; powered s = true) := by decide

theorem test_meets_MantisLoadsAndStores :
    (let s : State := mtAt 0x04 0 []; let e : Fin 4 := 0; let ecc : Ecc := .uncorrectable 0; let w := progWord s e (mtPc s e);
      eccBad ecc = true ∧ MtReady e 0x04 w s) ∧
    (let s : State := mtAt 0x05 0 []; let e : Fin 4 := 0; let ecc : Ecc := .uncorrectable 0; let w := progWord s e (mtPc s e);
      eccBad ecc = true ∧ MtReady e 0x05 w s) ∧
    (let s : State := mtAt 0x06 0 []; let e : Fin 4 := 0; let ecc : Ecc := .uncorrectable 0; let w := progWord s e (mtPc s e);
      eccBad ecc = true ∧ MtReady e 0x06 w s) ∧
    (let s : State := mtAt 0x04 0 []; let e : Fin 4 := 0; let ecc : Ecc := .good; let w := progWord s e (mtPc s e); eccBad ecc = false ∧
      MtReady e 0x04 w s ∧ strayBits w [(57, 54), (47, 46), (45, 43)] = false ∧ (iw w 45 43) < 8) := by decide

theorem test_meets_MantisLoadsAndStores_2 :
    (let s : State := mtAt 0x05 0 []; let e : Fin 4 := 0; let ecc : Ecc := .good; let r : Ecc := .good; let o := mtOperands e s;
      let w := progWord s e (mtPc s e); let a := xAddr o e (bit w 42) (iw w 33 21); let n := iw w 37 34 + 1; eccBad ecc = false ∧
      MtReady e 0x05 w s ∧ strayBits w [(57, 54), (45, 45), (44, 44), (43, 43), (42, 42), (41, 38), (37, 34), (33, 21)] = false ∧
      eccBad r = false ∧ iw w 45 44 ≤ 1 ∧ iw w 41 38 + n ≤ 16 ∧ a + n ≤ (if iw w 45 44 = 0 then 1024 else 8192) ∧ bit w 43 = false) ∧
    (let s : State := mtAt 0x05 (2^43) []; let e : Fin 4 := 0; let ecc : Ecc := .good; let r : Ecc := .good; let o := mtOperands e s;
      let w := progWord s e (mtPc s e); let a := xAddr o e (bit w 42) (iw w 33 21); let n := iw w 37 34 + 1; eccBad ecc = false ∧
      MtReady e 0x05 w s ∧ strayBits w [(57, 54), (45, 45), (44, 44), (43, 43), (42, 42), (41, 38), (37, 34), (33, 21)] = false ∧
      eccBad r = false ∧ iw w 45 44 ≤ 1 ∧ iw w 41 38 + n ≤ 16 ∧ a + n ≤ (if iw w 45 44 = 0 then 1024 else 8192) ∧ bit w 43 = true) ∧
    (let s : State := mtAt 0x05 (2^45) []; let e : Fin 4 := 0; let ecc : Ecc := .good; let r : Ecc := .good; let o := mtOperands e s;
      let w := progWord s e (mtPc s e); let a := xAddr o e (bit w 42) (iw w 33 21); let n := iw w 37 34 + 1; eccBad ecc = false ∧
      MtReady e 0x05 w s ∧ strayBits w [(57, 54), (45, 45), (44, 44), (43, 43), (42, 42), (41, 38), (37, 34), (33, 21)] = false ∧
      eccBad r = false ∧ iw w 45 44 = 2 ∧ iw w 41 38 = 0 ∧ bit w 43 = false ∧ iw w 57 54 + n ≤ 16 ∧ a + n ≤ 256) := by decide

theorem test_meets_MantisLoadsAndStores_3 :
    (let s : State := mtAt 0x05 0 []; let e : Fin 4 := 0; let ecc : Ecc := .good; let r : Ecc := .uncorrectable 0;
      let o := mtOperands e s; let w := progWord s e (mtPc s e); let a := xAddr o e (bit w 42) (iw w 33 21); let n := iw w 37 34 + 1;
      eccBad ecc = false ∧ MtReady e 0x05 w s ∧
      strayBits w [(57, 54), (45, 45), (44, 44), (43, 43), (42, 42), (41, 38), (37, 34), (33, 21)] = false ∧ eccBad r = true ∧
      ((iw w 45 44 ≤ 1 ∧ iw w 41 38 + n ≤ 16 ∧ a + n ≤ (if iw w 45 44 = 0 then 1024 else 8192)) ∨ (iw w 45 44 = 2 ∧ iw w 41 38 = 0 ∧
      bit w 43 = false ∧ iw w 57 54 + n ≤ 16 ∧ a + n ≤ 256))) ∧
    (let s : State := mtAt 0x06 0 []; let e : Fin 4 := 0; let ecc : Ecc := .good; let r : Ecc := .good; let o := mtOperands e s;
      let w := progWord s e (mtPc s e); let a := xAddr o e (bit w 42) (iw w 33 21); let n := iw w 37 34 + 1; let ks := List.range n;
      let m := (ks.filter (fun i => ! (wholeWords a n).contains ((a + i) / 4))).map (fun i => mtBase e + 0x10000 + 2 * (a + i));
      eccBad ecc = false ∧ MtReady e 0x06 w s ∧ strayBits w [(53, 50), (45, 44), (42, 42), (41, 38), (37, 34), (33, 21)] = false ∧
      iw w 45 44 = 0 ∧ iw w 41 38 + n ≤ 16 ∧ a + n ≤ 1024 ∧ (eccBad r = false ∨ m = [])) ∧
    (let s : State := mtAt 0x06 0 []; let e : Fin 4 := 0; let ecc : Ecc := .good; let r : Ecc := .uncorrectable 0;
      let o := mtOperands e s; let w := progWord s e (mtPc s e); let a := xAddr o e (bit w 42) (iw w 33 21); let n := iw w 37 34 + 1;
      let ks := List.range n;
      let m := (ks.filter (fun i => ! (wholeWords a n).contains ((a + i) / 4))).map (fun i => mtBase e + 0x10000 + 2 * (a + i));
      eccBad ecc = false ∧ MtReady e 0x06 w s ∧ strayBits w [(53, 50), (45, 44), (42, 42), (41, 38), (37, 34), (33, 21)] = false ∧
      iw w 45 44 = 0 ∧ iw w 41 38 + n ≤ 16 ∧ a + n ≤ 1024 ∧ eccBad r = true ∧ m ≠ []) := by decide

theorem test_meets_MantisLoadsAndStores_4 :
    (let s : State := mtAt 0x06 (2^44) []; let e : Fin 4 := 0; let ecc : Ecc := .good; let o := mtOperands e s;
      let w := progWord s e (mtPc s e); let a := xAddr o e (bit w 42) (iw w 33 21); let n := iw w 37 34 + 1; eccBad ecc = false ∧
      MtReady e 0x06 w s ∧ strayBits w [(53, 50), (45, 44), (42, 42), (41, 38), (37, 34), (33, 21)] = false ∧ iw w 45 44 = 1 ∧
      iw w 41 38 + n ≤ 16 ∧ a + n ≤ 64) ∧
    (let s : State := mtAt 0x06 (2^45) []; let e : Fin 4 := 0; let ecc : Ecc := .good; let w := progWord s e (mtPc s e);
      let n := iw w 37 34 + 1; eccBad ecc = false ∧ MtReady e 0x06 w s ∧
      strayBits w [(53, 50), (45, 44), (42, 42), (41, 38), (37, 34), (33, 21)] = false ∧ iw w 45 44 = 2 ∧ bit w 42 = false ∧
      iw w 33 21 = 0 ∧ iw w 41 38 = 0 ∧ n = 1) ∧
    (let s : State := mtAt 0x06 (2^45 + 2^44) []; let e : Fin 4 := 0; let ecc : Ecc := .good; let o := mtOperands e s;
      let w := progWord s e (mtPc s e); let a := xAddr o e (bit w 42) (iw w 33 21); let n := iw w 37 34 + 1; eccBad ecc = false ∧
      MtReady e 0x06 w s ∧ strayBits w [(53, 50), (45, 44), (42, 42), (41, 38), (37, 34), (33, 21)] = false ∧ iw w 45 44 = 3 ∧
      iw w 41 38 = 0 ∧ iw w 53 50 + n ≤ 16 ∧ a + n ≤ 256) := by decide

theorem test_meets_MantisVectorArithmetic :
    (let s : State := mtAt 0x0C 1 []; let e : Fin 4 := 0; let ecc : Ecc := .uncorrectable 0; let w := progWord s e (mtPc s e);
      eccBad ecc = true ∧ MtReady e 0x0C w s) ∧
    (let s : State := mtAt 0x0D 1 []; let e : Fin 4 := 0; let ecc : Ecc := .uncorrectable 0; let w := progWord s e (mtPc s e);
      eccBad ecc = true ∧ MtReady e 0x0D w s) ∧
    (let s : State := mtAt 0x0E 1 []; let e : Fin 4 := 0; let ecc : Ecc := .uncorrectable 0; let w := progWord s e (mtPc s e);
      eccBad ecc = true ∧ MtReady e 0x0E w s) ∧
    (let s : State := mtAt 0x13 1 []; let e : Fin 4 := 0; let ecc : Ecc := .uncorrectable 0; let w := progWord s e (mtPc s e);
      eccBad ecc = true ∧ MtReady e 0x13 w s) ∧
    (let s : State := mtAt 0x14 1 []; let e : Fin 4 := 0; let ecc : Ecc := .uncorrectable 0; let w := progWord s e (mtPc s e);
      eccBad ecc = true ∧ MtReady e 0x14 w s) := by decide

theorem test_meets_MantisVectorArithmetic_2 :
    (let s : State := mtAt 0x0C 1 []; let e : Fin 4 := 0; let ecc : Ecc := .good; let w := progWord s e (mtPc s e); eccBad ecc = false ∧
      iw w 15 0 ≠ 0 ∧ strayBits w [(57, 54), (53, 50), (49, 46), (45, 45), (44, 41), (15, 0)] = false ∧ MtReady e 0x0C w s) ∧
    (let s : State := mtAt 0x0D 1 []; let e : Fin 4 := 0; let ecc : Ecc := .good; let w := progWord s e (mtPc s e); eccBad ecc = false ∧
      iw w 15 0 ≠ 0 ∧ strayBits w [(57, 54), (53, 50), (49, 46), (45, 45), (44, 41), (15, 0)] = false ∧ MtReady e 0x0D w s) ∧
    (let s : State := mtAt 0x0E 1 []; let e : Fin 4 := 0; let ecc : Ecc := .good; let w := progWord s e (mtPc s e); eccBad ecc = false ∧
      iw w 15 0 ≠ 0 ∧ strayBits w [(57, 54), (53, 50), (49, 46), (45, 45), (44, 41), (15, 0)] = false ∧ MtReady e 0x0E w s) ∧
    (let s : State := mtAt 0x13 1 []; let e : Fin 4 := 0; let ecc : Ecc := .good; let w := progWord s e (mtPc s e); eccBad ecc = false ∧
      iw w 15 0 ≠ 0 ∧ MtReady e 0x13 w s ∧ strayBits w [(57, 54), (53, 50), (49, 46), (45, 45), (15, 0)] = false ∧
      bit w 45 = false) := by decide

theorem test_meets_MantisVectorArithmetic_3 :
    (let s : State := mtAt 0x13 (2^45 + 1) []; let e : Fin 4 := 0; let ecc : Ecc := .good; let w := progWord s e (mtPc s e);
      let sel := selected 16 (iw w 15 0); let d := iw w 57 54; let a := iw w 53 50; eccBad ecc = false ∧ iw w 15 0 ≠ 0 ∧
      MtReady e 0x13 w s ∧ strayBits w [(57, 54), (53, 50), (49, 46), (45, 45), (15, 0)] = false ∧ bit w 45 = true ∧
      (∀ i ∈ sel, a + i ≤ 15 ∧ d + i ≤ 15)) ∧
    (let s : State := mtAt 0x14 1 []; let e : Fin 4 := 0; let ecc : Ecc := .good; let w := progWord s e (mtPc s e); eccBad ecc = false ∧
      iw w 15 0 ≠ 0 ∧ MtReady e 0x14 w s ∧ strayBits w [(57, 54), (53, 50), (49, 46), (45, 42), (15, 0)] = false) := by decide

theorem test_meets_MantisMatricesAndRotations :
    (let s : State := mtAt 0x08 0 []; let e : Fin 4 := 0; let ecc : Ecc := .uncorrectable 0; let w := progWord s e (mtPc s e);
      eccBad ecc = true ∧ MtReady e 0x08 w s) ∧
    (let s : State := mtAt 0x09 0 []; let e : Fin 4 := 0; let ecc : Ecc := .uncorrectable 0; let w := progWord s e (mtPc s e);
      eccBad ecc = true ∧ MtReady e 0x09 w s) ∧
    (let s : State := mtAt 0x10 0 []; let e : Fin 4 := 0; let ecc : Ecc := .uncorrectable 0; let w := progWord s e (mtPc s e);
      eccBad ecc = true ∧ MtReady e 0x10 w s) ∧
    (let s : State := mtAt 0x11 0 []; let e : Fin 4 := 0; let ecc : Ecc := .uncorrectable 0; let w := progWord s e (mtPc s e);
      eccBad ecc = true ∧ MtReady e 0x11 w s) ∧
    (let s : State := mtAt 0x12 1 []; let e : Fin 4 := 0; let ecc : Ecc := .uncorrectable 0; let w := progWord s e (mtPc s e);
      eccBad ecc = true ∧ MtReady e 0x12 w s) := by decide

theorem test_meets_MantisMatricesAndRotations_2 :
    (let s : State := mtAt 0x08 0 []; let e : Fin 4 := 0; let ecc : Ecc := .good; let r : Ecc := .good; let o := mtOperands e s;
      let w := progWord s e (mtPc s e); let d := iw w 57 54; let rows := iw w 41 38 + 1; let cols := iw w 37 34 + 1;
      let ad := xAddr o e (bit w 20) (iw w 33 21); eccBad ecc = false ∧
      strayBits w [(57, 54), (53, 50), (45, 42), (41, 38), (37, 34), (33, 21), (20, 20)] = false ∧ d + rows ≤ 16 ∧
      iw w 45 42 + cols ≤ 16 ∧ ad + rows * cols ≤ 8192 ∧ eccBad r = false ∧ MtReady e 0x08 w s) ∧
    (let s : State := mtAt 0x09 0 []; let e : Fin 4 := 0; let ecc : Ecc := .good; let r : Ecc := .good; let o := mtOperands e s;
      let w := progWord s e (mtPc s e); let d := iw w 57 54; let rows := iw w 41 38 + 1; let cols := iw w 37 34 + 1;
      let ad := xAddr o e (bit w 20) (iw w 33 21); eccBad ecc = false ∧
      strayBits w [(57, 54), (53, 50), (45, 42), (41, 38), (37, 34), (33, 21), (20, 20)] = false ∧ d + rows ≤ 16 ∧
      iw w 45 42 + cols ≤ 16 ∧ ad + rows * cols ≤ 8192 ∧ eccBad r = false ∧ MtReady e 0x09 w s) ∧
    (let s : State := mtAt 0x08 0 []; let e : Fin 4 := 0; let ecc : Ecc := .good; let r : Ecc := .uncorrectable 0;
      let o := mtOperands e s; let w := progWord s e (mtPc s e); let d := iw w 57 54; let rows := iw w 41 38 + 1;
      let cols := iw w 37 34 + 1; let ad := xAddr o e (bit w 20) (iw w 33 21); eccBad ecc = false ∧
      strayBits w [(57, 54), (53, 50), (45, 42), (41, 38), (37, 34), (33, 21), (20, 20)] = false ∧ d + rows ≤ 16 ∧
      iw w 45 42 + cols ≤ 16 ∧ ad + rows * cols ≤ 8192 ∧ eccBad r = true ∧ MtReady e 0x08 w s) := by decide

theorem test_meets_MantisMatricesAndRotations_3 :
    (let s : State := mtAt 0x09 0 []; let e : Fin 4 := 0; let ecc : Ecc := .good; let r : Ecc := .uncorrectable 0;
      let o := mtOperands e s; let w := progWord s e (mtPc s e); let d := iw w 57 54; let rows := iw w 41 38 + 1;
      let cols := iw w 37 34 + 1; let ad := xAddr o e (bit w 20) (iw w 33 21); eccBad ecc = false ∧
      strayBits w [(57, 54), (53, 50), (45, 42), (41, 38), (37, 34), (33, 21), (20, 20)] = false ∧ d + rows ≤ 16 ∧
      iw w 45 42 + cols ≤ 16 ∧ ad + rows * cols ≤ 8192 ∧ eccBad r = true ∧ MtReady e 0x09 w s) ∧
    (let s : State := mtAt 0x10 0 []; let e : Fin 4 := 0; let ecc : Ecc := .good; let w := progWord s e (mtPc s e); let a := iw w 53 50;
      let n := iw w 36 33 + 1; eccBad ecc = false ∧ MtReady e 0x10 w s ∧
      strayBits w [(57, 54), (53, 50), (45, 41), (40, 37), (36, 33)] = false ∧ a + n ≤ 16 ∧ iw w 40 37 + n ≤ 16) ∧
    (let s : State := mtAt 0x11 0 []; let e : Fin 4 := 0; let ecc : Ecc := .good; let w := progWord s e (mtPc s e); eccBad ecc = false ∧
      MtReady e 0x11 w s ∧ strayBits w [(57, 54), (53, 50), (47, 46), (45, 42), (41, 39)] = false ∧
      iw w 45 42 + iw w 41 39 + 1 ≤ 16) := by decide

theorem test_meets_MantisMatricesAndRotations_4 :
    let s : State := mtAt 0x12 1 []; let e : Fin 4 := 0; let ecc : Ecc := .good; let w := progWord s e (mtPc s e); eccBad ecc = false ∧
      MtReady e 0x12 w s ∧ strayBits w [(57, 54), (53, 50), (49, 46), (45, 45), (44, 41), (7, 0)] = false ∧ iw w 7 0 ≠ 0 ∧
      iw w 44 41 ≤ 14 := by decide

theorem test_meets_MantisDutiesAndChannels :
    (let s : State := mtAt 0x15 0 []; let e : Fin 4 := 0; let ecc : Ecc := .uncorrectable 0; let w := progWord s e (mtPc s e);
      eccBad ecc = true ∧ MtReady e 0x15 w s) ∧
    (let s : State := mtAt 0x18 0 []; let e : Fin 4 := 0; let ecc : Ecc := .uncorrectable 0; let w := progWord s e (mtPc s e);
      eccBad ecc = true ∧ MtReady e 0x18 w s) ∧
    (let s : State := mtAt 0x19 0 []; let e : Fin 4 := 0; let ecc : Ecc := .uncorrectable 0; let w := progWord s e (mtPc s e);
      eccBad ecc = true ∧ MtReady e 0x19 w s) ∧
    (let s : State := mtAt 0x1A 1 []; let e : Fin 4 := 0; let ecc : Ecc := .uncorrectable 0; let w := progWord s e (mtPc s e);
      eccBad ecc = true ∧ MtReady e 0x1A w s) ∧
    (let s : State := mtAt 0x15 0 []; let e : Fin 4 := 0; let ecc : Ecc := .good; let w := progWord s e (mtPc s e);
      let n := iw w 37 34 + 1; eccBad ecc = false ∧ MtReady e 0x15 w s ∧
      strayBits w [(57, 54), (53, 50), (49, 46), (45, 42), (41, 38), (37, 34), (33, 30)] = false ∧ iw w 57 54 + n ≤ 16 ∧
      iw w 41 38 + n ≤ 16) := by decide

theorem test_meets_MantisDutiesAndChannels_2 :
    (let s : State := mtAt 0x18 0 [(pMT 0,0x84C,1)]; let e : Fin 4 := 0; let ecc : Ecc := .good; let w := progWord s e (mtPc s e);
      let n := iw w 40 38 + 1; eccBad ecc = false ∧ MtReady e 0x18 w s ∧
      strayBits w [(53, 50), (45, 41), (40, 38), (37, 37), (36, 36)] = false ∧ iw w 45 41 + n ≤ 32 ∧ iw w 53 50 + n ≤ 16 ∧
      (∀ i, i < n → bit (act s (pMT e) 0x4C) (iw w 45 41 + i) = true)) ∧
    (let s : State := mtAt 0x19 0 []; let e : Fin 4 := 0; let ecc : Ecc := .good; let w := progWord s e (mtPc s e); eccBad ecc = false ∧
      MtReady e 0x19 w s ∧ strayBits w [(57, 54), (45, 44), (43, 40)] = false) ∧
    (let s : State := mtAt 0x1A 1 []; let e : Fin 4 := 0; let ecc : Ecc := .good; let w := progWord s e (mtPc s e); eccBad ecc = false ∧
      MtReady e 0x1A w s ∧ strayBits w [(53, 50), (45, 44), (15, 0)] = false ∧ iw w 15 0 ≠ 0) ∧
    (let s : State := { st [(0, 0x44, 5)] with mt := [{ out := [⟨0, false, []⟩] }] }; let e : Fin 4 := 0; let c := ⟨0, false, []⟩;
      powered s = true ∧ e < s.mt.length ∧ (mtH s e).out.head? = some c ∧ c.due ≤ s.tick) ∧
    (let s : State := { st [(0, 0x44, 5)] with mt := [{ out := [⟨5, false, []⟩] }] }; let e : Fin 4 := 0; let c := ⟨5, false, []⟩;
      powered s = true ∧ e < s.mt.length ∧ (mtH s e).out.head? = some c ∧ s.tick < c.due) := by decide

theorem test_meets_MantisControlFlow :
    (let s : State := mtAt 0x20 0 []; let e : Fin 4 := 0; let ecc : Ecc := .uncorrectable 0; let w := progWord s e (mtPc s e);
      eccBad ecc = true ∧ MtReady e 0x20 w s) ∧
    (let s : State := mtAt 0x21 0 []; let e : Fin 4 := 0; let ecc : Ecc := .uncorrectable 0; let w := progWord s e (mtPc s e);
      eccBad ecc = true ∧ MtReady e 0x21 w s) ∧
    (let s : State := mtAt 0x22 1 []; let e : Fin 4 := 0; let ecc : Ecc := .uncorrectable 0; let w := progWord s e (mtPc s e);
      eccBad ecc = true ∧ MtReady e 0x22 w s) ∧
    (let s : State := mtAt 0x1C 1 []; let e : Fin 4 := 0; let ecc : Ecc := .uncorrectable 0; let w := progWord s e (mtPc s e);
      eccBad ecc = true ∧ MtReady e 0x1C w s) ∧
    (let s : State := mtAt 0x01 0 []; let e : Fin 4 := 0; let ecc : Ecc := .uncorrectable 0; let w := progWord s e (mtPc s e);
      eccBad ecc = true ∧ MtReady e 0x01 w s) := by decide

theorem test_meets_MantisControlFlow_2 :
    (let s : State := mtAt 0x20 0 []; let e : Fin 4 := 0; let ecc : Ecc := .good; let w := progWord s e (mtPc s e); eccBad ecc = false ∧
      MtReady e 0x20 w s ∧ strayBits w [(11, 0)] = false) ∧
    (let s : State := mtAt 0x21 0 []; let e : Fin 4 := 0; let ecc : Ecc := .good; let h := mtH s e; let w := progWord s e (mtPc s e);
      eccBad ecc = false ∧ MtReady e 0x21 w s ∧ strayBits w [(53, 50), (45, 42), (41, 38), (37, 37), (11, 0)] = false ∧ iw w 45 42 ≤ 8 ∧
      loopAt h (mtPc s e) = none) ∧
    (let s : State := mtAt 0x22 1 []; let e : Fin 4 := 0; let ecc : Ecc := .good; let h := mtH s e; let w := progWord s e (mtPc s e);
      let d := iw w 57 54; eccBad ecc = false ∧ MtReady e 0x22 w s ∧ strayBits w [(57, 54), (27, 20), (11, 0)] = false ∧ d < 2 ∧
      h.loops.length = 2 ∧ (h.loops.getD d {}).active = false ∧ mtPc s e < iw w 11 0) := by decide

theorem test_meets_MantisControlFlow_3 :
    (let s : State := { mtAt 0x1C 1 [(pSETS,0x424,0x100)] with mt := [{ noted := some 0 :: List.replicate 7 none }] };
      let e : Fin 4 := 0; let ecc : Ecc := .good; let h := mtH s e; let w := progWord s e (mtPc s e); eccBad ecc = false ∧
      MtReady e 0x1C w s ∧ strayBits w [(45, 43), (15, 0)] = false ∧ iw w 15 0 ≠ 0 ∧ waitMet s e (iw w 45 43) = true ∧
      loopAt h (mtPc s e) = none) ∧
    (let s : State := mtAt 0x1C 1 []; let e : Fin 4 := 0; let ecc : Ecc := .good; let h := mtH s e; let w := progWord s e (mtPc s e);
      eccBad ecc = false ∧ MtReady e 0x1C w s ∧ strayBits w [(45, 43), (15, 0)] = false ∧ iw w 15 0 ≠ 0 ∧
      waitMet s e (iw w 45 43) = false ∧ h.waitAt = none) ∧
    (let s : State := { mtAt 0x1C 1 [] with mt := [{ waitAt := some 0 }] }; let e : Fin 4 := 0; let ecc : Ecc := .good;
      let h := mtH s e; let w := progWord s e (mtPc s e); eccBad ecc = false ∧ MtReady e 0x1C w s ∧
      strayBits w [(45, 43), (15, 0)] = false ∧ iw w 15 0 ≠ 0 ∧ waitMet s e (iw w 45 43) = false ∧ h.waitAt.isSome = true) := by decide

theorem test_meets_MantisControlFlow_4 :
    (let s : State := { mtAt 0x1C 1 [] with mt := [{ waitAt := some 0 }] }; let e : Fin 4 := 0; let ecc : Ecc := .good;
      let h := mtH s e; let w := progWord s e (mtPc s e); let c := 0; eccBad ecc = false ∧ MtReady e 0x1C w s ∧
      strayBits w [(45, 43), (15, 0)] = false ∧ iw w 15 0 ≠ 0 ∧ h.waitAt = some c ∧ waitMet s e (iw w 45 43) = false ∧
      c + iw w 15 0 < 4 * (s.tick - h.start) + 4 ∧ h.ovrAt = none ∧ loopAt h (mtPc s e) = none) ∧
    (let s : State := mtAt 0x01 0 []; let e : Fin 4 := 0; let ecc : Ecc := .good; let h := mtH s e; let w := progWord s e (mtPc s e);
      let ret := max h.cycle h.lastRet; eccBad ecc = false ∧ MtReady e 0x01 w s ∧ strayBits w [] = false ∧ h.ovr = false ∧ h.pend = [] ∧
      s.tick < tickAfter h.start ret) ∧
    (let s : State := { mtAt 0x01 0 [] with tick := 1 }; let e : Fin 4 := 0; let ecc : Ecc := .good; let h := mtH s e;
      let w := progWord s e (mtPc s e); let ret := max h.cycle h.lastRet; eccBad ecc = false ∧ MtReady e 0x01 w s ∧
      strayBits w [] = false ∧ h.ovr = false ∧ h.pend = [] ∧ tickAfter h.start ret ≤ s.tick) := by decide

theorem test_meets_MantisEnginesStartAndStop :
    (let s : State := st [(0, 0x44, 5), (pMT 0, 0x08, 0), (pMT 0, 0x0C, mtOFF)]; let e : Fin 4 := 0;
      let acc : Access := ⟨.stagA, .queen⟩; e < s.mt.length ∧ Reaches s acc (pMT e) 0x08 true ∧ locked s (pMT e) = false ∧
      pageEn s (pMT e) = false ∧ mtState s e ≠ mtERROR) ∧
    (let s : State := st [(0, 0x44, 5), (pMT 0, 0x08, 1), (pMT 0, 0x0C, mtIDLE)]; let e : Fin 4 := 0;
      let acc : Access := ⟨.stagA, .queen⟩; e < s.mt.length ∧ Reaches s acc (pMT e) 0x08 true ∧ locked s (pMT e) = false ∧
      pageEn s (pMT e) = true) ∧
    (let s : State := st [(0, 0x44, 5), (pMT 0, 0x0C, mtIDLE)]; let e : Fin 4 := 0; let h := mtH s e;
      let acc : Access := ⟨.stagA, .queen⟩; e < s.mt.length ∧ Reaches s acc (pMT e) 0x08 true ∧ locked s (pMT e) = false ∧
      mtState s e = mtIDLE ∧ h.reqs = [] ∧ h.heldEnd = none) ∧
    (let s : State := st [(0, 0x44, 5), (pMT 0, 0x0C, mtERROR)]; let e : Fin 4 := 0; let acc : Access := ⟨.stagA, .queen⟩;
      e < s.mt.length ∧ Reaches s acc (pMT e) 0x08 true ∧ locked s (pMT e) = false ∧ mtState s e = mtERROR) ∧
    (let s : State := st [(0, 0x44, 5), (pMT 0, 0x0C, mtIDLE)]; let e : Fin 4 := 0; let acc : Access := ⟨.stagA, .queen⟩;
      e < s.mt.length ∧ Reaches s acc (pMT e) 0x08 true ∧ locked s (pMT e) = false ∧ mtState s e ≠ mtERROR) := by decide

theorem test_meets_MantisEnginesStartAndStop_2 :
    (let s : State := { st [(0, 0x44, 5), (pMT 0, 0x0C, mtIDLE)] with mt := [{ reqs := [(0, 0)] }] }; let e : Fin 4 := 0;
      let h := mtH s e; let r := (0, 0); e < s.mt.length ∧ powered s = true ∧ h.reqs.head? = some r ∧ h.reqs.length = 1 ∧ r.2 ≤ s.tick ∧
      mtState s e = mtIDLE ∧ h.heldEnd = none) ∧
    (let s : State := { st [(0, 0x44, 5), (pMT 0, 0x0C, mtOFF)] with mt := [{ reqs := [(0, 0)] }] }; let e : Fin 4 := 0;
      let h := mtH s e; let r := (0, 0); e < s.mt.length ∧ powered s = true ∧ h.reqs.head? = some r ∧ h.reqs.length = 1 ∧ r.2 ≤ s.tick ∧
      mtState s e = mtOFF) ∧
    (let s : State := st [(0, 0x44, 5)]; let e : Fin 4 := 0; let h := mtH s e; e < s.mt.length ∧ powered s = true ∧ h.reqs = []) ∧
    (let s : State := { st [(0, 0x44, 5), (pMT 0, 0x0C, mtIDLE)] with mt := [{ held := some 0, heldEnd := some 0 }] };
      let e : Fin 4 := 0; let h := mtH s e; let src := 0; let a := 0; e < s.mt.length ∧ powered s = true ∧ h.held = some src ∧
      h.heldEnd = some a ∧ a ≤ s.tick ∧ mtState s e = mtIDLE) ∧
    (let s : State := { st [(0, 0x44, 5), (pMTS, 0x08, 1)] with tick := 100000000 }; let e : Fin 4 := 0; e < s.mt.length ∧
      powered s = true ∧ pageEn s pMTS = true ∧ s.profAt + rg s pMTS 0x1C0 ≤ s.tick) := by decide

theorem test_meets_CarriersRunOnTheirPeriod :
    (let s : State := st [(0, 0x44, 2)]; let n : Fin 16 := 0; let p := pCAR n; let acc : Access := ⟨.internal, .queen⟩;
      n < s.cars.length ∧ Reaches s acc p 0x08 true ∧ locked s p = false ∧ pageEn s p = false) ∧
    (let s : State := st [(0, 0x44, 2), (0x51, 8, 1)]; let n : Fin 16 := 1; let p := pCAR n; let acc : Access := ⟨.internal, .queen⟩;
      n < s.cars.length ∧ Reaches s acc p 0x08 true ∧ locked s p = false ∧ pageEn s p = true) ∧
    (let s : State := st [(0, 0x44, 2), (0x51, 8, 1), (0x51, 0x40, 0), (0x51, 0x50, 0)]; let n : Fin 16 := 1; let f := 0;
      n < s.cars.length ∧ powered s = true ∧ zeroDue s n = some f) ∧
    (let s : State := st [(0, 0x44, 2)]; let n : Fin 16 := 0; n < s.cars.length ∧ powered s = true ∧ zeroDue s n = none) ∧
    (let s : State := st [(0, 0x44, 2), (0x51, 8, 1), (0x51, 0x50, 0)]; let n : Fin 16 := 1; let f := 0; n < s.cars.length ∧
      powered s = true ∧ perDue s n = some f) ∧
    (let s : State := st [(0, 0x44, 2)]; let n : Fin 16 := 0; n < s.cars.length ∧ powered s = true ∧ perDue s n = none) ∧
    (let s : State := { st [(0, 0x44, 5), (pCAR 0, 0x08, 1), (pCAR 0, 0x40, 0x10)] with tick := 1, cars := [{ lastZero := some 0 }] };
      let n : Fin 16 := 0; let p := pCAR n; let c := fld s p 0x40 8 4;
      let due := ((carH s c).lastZero.map (· + 1) == some s.tick || ((carH s c).lastZero == some s.tick && (carH s c).prevZero.map
        (· + 1) == some s.tick)); n < s.cars.length ∧ powered s = true ∧ rbit s p 0x40 4 = true ∧ (carH s n).resyncAt ≠ some s.tick ∧
      pageEn s p = true ∧ due = true) := by decide

theorem test_meets_CarriersRunOnTheirPeriod_2 :
    let s : State := st [(0, 0x44, 2), (0x50, 8, 1), (0x50, 0x40, 0x10)]; let n : Fin 16 := 0; let p := pCAR n;
      let c := fld s p 0x40 8 4;
      let due := ((carH s c).lastZero.map (· + 1) == some s.tick || ((carH s c).lastZero == some s.tick && (carH s c).prevZero.map
        (· + 1) == some s.tick)); n < s.cars.length ∧ powered s = true ∧ rbit s p 0x40 4 = true ∧ (carH s n).resyncAt ≠ some s.tick ∧
      pageEn s p = true ∧ due = false := by decide

theorem test_meets_LegsTakeForcesAndEdges :
    (let s : State := st [(0, 0x44, 5), (pCAR 0, 0x08, 1), (pSUPPLY, 0x50, 1), (pLEG 0, 0x44, 0)]; let m : Fin 32 := 0; let p := pLEG m;
      let k := legPair s m; let acc : Access := ⟨.stagA, .queen⟩; m < s.legs.length ∧ Reaches s acc p 0x08 true ∧ locked s p = false ∧
      pageEn s p = false ∧ k ≠ 0x3F ∧ pageEn s (pCAR (legCar s m)) = true ∧ pairPower s k = true ∧ rbit s p 0x94 2 = false) ∧
    (let s : State := st [(0, 0x44, 2)]; let m : Fin 32 := 0; let p := pLEG m; let k := legPair s m;
      let acc : Access := ⟨.stagA, .queen⟩; m < s.legs.length ∧ Reaches s acc p 0x08 true ∧ locked s p = false ∧ pageEn s p = false ∧
      (k = 0x3F ∨ pageEn s (pCAR (legCar s m)) = false ∨ pairPower s k = false)) ∧
    (let s : State := st [(0, 0x44, 5), (pCAR 0, 0x08, 1), (pSUPPLY, 0x50, 1), (pLEG 0, 0x08, 1)]; let m : Fin 32 := 0; let p := pLEG m;
      let acc : Access := ⟨.stagA, .queen⟩; m < s.legs.length ∧ Reaches s acc p 0x08 true ∧ locked s p = false ∧ pageEn s p = true) ∧
    (let s : State := st [(0, 0x44, 2)]; let m : Fin 32 := 0; let p := pLEG m; let acc : Access := ⟨.stagA, .queen⟩;
      let v : BitVec 32 := 0; m < s.legs.length ∧ Reaches s acc p 0x60 true ∧ bits v.toNat 0 2 ≠ 3 ∧ bits v.toNat 2 2 ≠ 3 ∧
      ¬ (bits v.toNat 0 2 = 2 ∧ bits v.toNat 2 2 = 2) ∧ ovrOwned s m = false) ∧
    (let s : State := { st [(0, 0x44, 2)] with tick := 2, legs := ((List.replicate 32 {}).set 15 { fwait := [(0, 0)] }) };
      let m : Fin 32 := 15; let f := (0, 0); m < s.legs.length ∧ powered s = true ∧
      (legH s m).fwait.find? (forceNow s m) = some f) := by decide

theorem test_meets_LegsTakeForcesAndEdges_2 :
    (let s : State := st [(0, 0x44, 2)]; let m : Fin 32 := 0; m < s.legs.length ∧ powered s = true ∧ forceDue s m = false) ∧
    (let s : State := { st [(0, 0x44, 7), (pLEG 0, 0x08, 1), (pLEG 0, 0x44, 24), (pLEG 0, 0x94, 1)] with
      tick := 9920, legs := { began := true } :: List.replicate 31 {} }; let m : Fin 32 := 0; m < s.legs.length ∧ powered s = true ∧
        refreshDue s m = true) ∧
    (let s : State := st [(0, 0x44, 2)]; let m : Fin 32 := 0; m < s.legs.length ∧ powered s = true ∧ refreshDue s m = false) ∧
    (let s : State := st [(0, 0x44, 2)]; let m : Fin 32 := 0; let rise : Bool := false; let frac : Fin 64 := 0;
      let x := 64 * s.tick + frac.val; m < s.legs.length ∧ powered s = true ∧ zeroDue s (legCar s m) = none ∧
      perDue s (legCar s m) = none ∧ chainDue s (legCar s m) = false ∧ ¬ (x, rise) ∈ legEdges s m) ∧
    (let s : State :=
        { st [(0, 0x44, 7), (pLEG 0, 0x08, 1), (pCAR 0, 0x08, 1), (pCAR 0, 0x40, 1), (pCAR 0, 0x50, 1000), (pCAR 0, 0x54, 100),
      (pLEG 0, 0x88, 120)] with tick := 1, legs := { began := true, ref := true } :: List.replicate 31 {} }; let m : Fin 32 := 0;
      let rise : Bool := false; let frac : Fin 64 := 20; let x := 64 * s.tick + frac.val; m < s.legs.length ∧ powered s = true ∧
      zeroDue s (legCar s m) = none ∧ perDue s (legCar s m) = none ∧ chainDue s (legCar s m) = false ∧
      (legEdges s m).head? = some (x, rise)) := by decide

theorem test_meets_TripsTurnChannelsOffAndAreJudged :
    (let s : State := { st [(0, 0x44, 2)] with pairs := ((List.replicate 32 {}).set 0 { hi := { cmd := true } }) }; let c : Fin 48 := 0;
      s.pairs.length = 32 ∧ s.groups.length = 8 ∧ powered s = true ∧ (chanH s c).soft = none ∧
      ((chanH s c).on = true ∨ (chanH s c).cmd = true)) ∧
    (let s : State := { st [(0, 0x44, 2)] with pairs := ((List.replicate 32 {}).set 23 { hi := { soft := (some 0) } }) };
      let c : Fin 48 := 46; s.pairs.length = 32 ∧ s.groups.length = 8 ∧ powered s = true ∧ (chanH s c).soft.isSome = true) ∧
    (let s : State := st [(0, 0x44, 2)]; let c : Fin 48 := 0; s.pairs.length = 32 ∧ s.groups.length = 8 ∧ powered s = true ∧
      ovldArmed s c = false) ∧
    (let s : State := { st [(0, 0x44, 5), (pIC 0, 0x100, 0x1000000)] with
      tick := 1000, pairs := { hi := { on := true } } :: List.replicate 31 {} }; let c : Fin 48 := 0; s.pairs.length = 32 ∧
        s.groups.length = 8 ∧ powered s = true ∧ ovldArmed s c = true ∧ (chanH s c).soft = none) ∧
    (let s : State := { st [(0, 0x44, 5)] with tick := 1 }; let c : Fin 48 := 0; s.pairs.length = 32 ∧ s.groups.length = 8 ∧
      powered s = true ∧ (chanH s c).soft = none ∧ (chanH s c).on = false ∧ (chanH s c).cmd = false ∧ (chanH s c).sink ≠ s.tick) ∧
    (let s : State := { st [] with pairs := ((List.replicate 32 {}).set 14 { lo := { soft := (some 0) } }) }; let c : Fin 48 := 29;
      let e := 0; s.pairs.length = 32 ∧ s.groups.length = 8 ∧ (chanH s c).soft = some e ∧ e ≤ s.tick) ∧
    (let s : State := { st [] with pairs := ((List.replicate 32 {}).set 23 { hi := { soft := (some 1) } }) }; let c : Fin 48 := 46;
      let e := 1; s.pairs.length = 32 ∧ s.groups.length = 8 ∧ (chanH s c).soft = some e ∧ s.tick < e) := by decide

theorem test_meets_TripsTurnChannelsOffAndAreJudged_2 :
    (let s : State := { st [(0, 0x44, 2), (0x82, 0x44, 0)] with pairs := ((List.replicate 32 {}).set 11 { tripOff := true }) };
      let k : Fin 24 := 11; s.pairs.length = 32 ∧ s.groups.length = 8 ∧ powered s = true ∧ (pairH s k).tripOff = true ∧
      pairExhausted s k = false ∧ (pairH s k).tripAt + 2000 * fld s (pIC (k / 4)) 0x44 8 8 ≤ s.tick) ∧
    (let s : State := { st [(0, 0x44, 2)] with pairs := ((List.replicate 32 {}).set 5 { tripOff := true }) }; let k : Fin 24 := 5;
      s.pairs.length = 32 ∧ s.groups.length = 8 ∧ powered s = true ∧ (pairH s k).tripOff = true ∧ pairExhausted s k = false ∧
      s.tick < (pairH s k).tripAt + 2000 * fld s (pIC (k / 4)) 0x44 8 8) ∧
    (let s : State := { st [(0, 0x44, 2)] with pairs := ((List.replicate 32 {}).set 21 { resume := true }) }; let k : Fin 32 := 21;
      s.pairs.length = 32 ∧ s.groups.length = 8 ∧ powered s = true ∧ (pairH s k).resume = true) ∧
    (let s : State := { st [(0, 0x44, 2)] with groups := ((List.replicate 8 {}).set 7 { opened := (some 0) }) }; let g : Fin 8 := 7;
      let o := 0; s.pairs.length = 32 ∧ s.groups.length = 8 ∧ powered s = true ∧ (groupH s g).opened = some o ∧ s.tick < o + 200) ∧
    (let s : State := { st [(0, 0x44, 5)] with tick := 200, groups := { opened := some 0, trips := [0, 2] } :: List.replicate 7 {} };
      let g : Fin 8 := 0; let o := 0; let a := 0; let b := 2; s.pairs.length = 32 ∧ s.groups.length = 8 ∧ powered s = true ∧
      (groupH s g).opened = some o ∧ o + 200 ≤ s.tick ∧ (groupH s g).trips = [a, b] ∧ a < 48 ∧ b < 48 ∧ a / 2 ≠ b / 2) := by decide

theorem test_meets_TilesFollowTheirEnablesAndSupplies :
    (let s : State := st [(0, 0x44, 2)]; let acc : Access := ⟨.internal, .queen⟩; let x : Fin 8 := 0; let p := pIC x;
      s.pairs.length = 32 ∧ Reaches s acc p 0x08 true ∧ locked s p = false ∧ rbit s pSUPPLY 0x50 x = false) ∧
    (let s : State := st [(0, 0x44, 5), (pSUPPLY, 0x50, 1)]; let acc : Access := ⟨.stagB, .queen⟩; let x : Fin 8 := 0; let p := pIC x;
      s.pairs.length = 32 ∧ Reaches s acc p 0x08 true ∧ locked s p = false ∧ rbit s pSUPPLY 0x50 x = true ∧ acc.master ≠ .stagA) ∧
    (let s : State := st [(0, 0x44, 5), (pSUPPLY, 0x50, 1)]; let acc : Access := ⟨.stagA, .queen⟩; let x : Fin 8 := 0; let p := pIC x;
      s.pairs.length = 32 ∧ Reaches s acc p 0x08 true ∧ locked s p = false ∧ rbit s pSUPPLY 0x50 x = true ∧ acc.master = .stagA ∧
      genSOf s x = false) ∧
    (let s : State := { st [(0, 0x44, 5), (pSUPPLY, 0x50, 1)] with genS := 1 }; let acc : Access := ⟨.stagA, .queen⟩;
      let x : Fin 8 := 0; let p := pIC x; s.pairs.length = 32 ∧ Reaches s acc p 0x08 true ∧ locked s p = false ∧
      rbit s pSUPPLY 0x50 x = true ∧ acc.master = .stagA ∧ genSOf s x = true) ∧
    (let s : State := st [(0, 0x44, 2)]; let c : Fin 64 := 48; s.pairs.length = 32 ∧ powered s = true ∧ 48 ≤ c.val) := by decide

theorem test_meets_TilesFollowTheirEnablesAndSupplies_2 :
    (let s : State := st [(0, 0x44, 2)]; let c : Fin 64 := 0; let x : Rail := ⟨false, 0, 200⟩; let thr := uvloThr s c x.neg;
      s.pairs.length = 32 ∧ powered s = true ∧ x.v.val < thr.1 ∧ 200 ≤ x.held) ∧
    (let s : State := st [(0, 0x44, 2)]; let c : Fin 64 := 0; let x : Rail := ⟨false, 0, 0⟩; let thr := uvloThr s c x.neg;
      s.pairs.length = 32 ∧ powered s = true ∧ (thr.1 ≤ x.v.val ∨ x.held < 200)) ∧
    (let s : State := st [(0, 0x44, 2)]; let c : Fin 64 := 0; let x : Rail := ⟨false, 150, 200⟩; let thr := uvloThr s c x.neg;
      s.pairs.length = 32 ∧ powered s = true ∧ thr.2 ≤ x.v.val ∧ 200 ≤ x.held) ∧
    (let s : State := st [(0, 0x44, 2)]; let c : Fin 64 := 0; let x : Rail := ⟨false, 0, 0⟩; let thr := uvloThr s c x.neg;
      s.pairs.length = 32 ∧ powered s = true ∧ (x.v.val < thr.2 ∨ x.held < 200)) ∧
    (let s : State := st [(0, 0x44, 2)]; let c : Fin 48 := 0; s.pairs.length = 32 ∧ powered s = true ∧ measureDue s c = false) ∧
    (let s : State := { st [(0, 0x44, 5), (pIC 0, 0x48, 0x10000)] with pairs := { hi := { on := true } } :: List.replicate 31 {} };
      let c : Fin 48 := 0; let p := pIC (c / 8); let n := (if c.val % 2 = 0 then (pairH s (c / 2)).meas else (pairH s (c / 2)).measLo);
      s.pairs.length = 32 ∧ powered s = true ∧ measureDue s c = true ∧ n < fld s p 0x48 16 8) ∧
    (let s : State := { st [(0, 0x44, 2)] with tick := 200, pairs := ((List.replicate 32 {}).set 4 { lo := { on := true } }) };
      let c : Fin 48 := 9; let p := pIC (c / 8); let n := (if c.val % 2 = 0 then (pairH s (c / 2)).meas else (pairH s (c / 2)).measLo);
      s.pairs.length = 32 ∧ powered s = true ∧ measureDue s c = true ∧ fld s p 0x48 16 8 ≤ n) ∧
    (let s : State := st [(0, 0x44, 2)]; let n : Fin 14 := 0; let p := pIC (ntcTile n); let ohms : Nat := 1; let x := 32768;
      s.pairs.length = 32 ∧ powered s = true ∧ ntcLaw (fld s p 0x4C 0 16) (fld s p 0x4C 16 16) ohms = some x) := by decide

theorem test_meets_TheBrakeChopperGuardsTheLink :
    (let s : State := st [(0, 0x44, 2)]; let acc : Access := ⟨.internal, .queen⟩; Reaches s acc pBRAKE 0x08 true ∧
      locked s pBRAKE = false ∧ acc.master ≠ .stagA) ∧
    (let s : State := st [(0, 0x44, 2)]; let acc : Access := ⟨.stagA, .queen⟩; Reaches s acc pBRAKE 0x08 true ∧
      locked s pBRAKE = false ∧ acc.master = .stagA ∧ genSOf s 8 = false) ∧
    (let s : State := { st [(0, 0x44, 5)] with genS := 256 }; let acc : Access := ⟨.stagA, .queen⟩; Reaches s acc pBRAKE 0x08 true ∧
      locked s pBRAKE = false ∧ acc.master = .stagA ∧ genSOf s 8 = true) ∧
    (let s : State := st [(0, 0x44, 2), (0x88, 0x70, 4)]; powered s = true ∧ rbit s pBRAKE 0x70 2 = true) ∧
    (let s : State := st [(0, 0x44, 2)]; powered s = true ∧ rbit s pBRAKE 0x70 2 = false) ∧
    (let s : State := { st [(0, 0x44, 2)] with brake := { ovLatched := true } }; powered s = true ∧ s.brake.ovLatched = true) ∧
    (let s : State := st [(0, 0x44, 2)]; powered s = true ∧ s.brake.ovLatched = false) := by decide

theorem test_meets_DragonflyFollowsItsStates :
    (let s : State := st [(0, 0x44, 2)]; let i : Fin 2 := 1; let p := pDF i; let acc : Access := ⟨.internal, .drone⟩; s.df.length = 2 ∧
      s.legs.length = 32 ∧ Reaches s acc p 0x08 true ∧ locked s p = false ∧ pageEn s p = false ∧ dfEnBad s i = true) ∧
    (let s : State := st [(0, 0x44, 2)]; let i : Fin 2 := 0; let p := pDF i; let acc : Access := ⟨.internal, .queen⟩; s.df.length = 2 ∧
      s.legs.length = 32 ∧ Reaches s acc p 0x08 true ∧ locked s p = false ∧ pageEn s p = false ∧ dfState s i = dfOFF ∧
      dfEnBad s i = false) ∧
    (let s : State := st [(0, 0x44, 5), (pDF 0, 0x08, 1), (pDF 0, 0x0C, dfIDLE)]; let i : Fin 2 := 0; let p := pDF i;
      let acc : Access := ⟨.stagA, .queen⟩; s.df.length = 2 ∧ s.legs.length = 32 ∧ Reaches s acc p 0x08 true ∧ locked s p = false ∧
      pageEn s p = true ∧ dfState s i ≠ dfFAULT) ∧
    (let s : State := st [(0, 0x44, 5), (pDF 0, 0x08, 1), (pDF 0, 0x0C, dfFAULT)]; let i : Fin 2 := 0; let p := pDF i;
      let acc : Access := ⟨.stagA, .queen⟩; s.df.length = 2 ∧ s.legs.length = 32 ∧ Reaches s acc p 0x08 true ∧ locked s p = false ∧
      pageEn s p = true ∧ dfState s i = dfFAULT) := by decide

theorem test_meets_DragonflyFollowsItsStates_2 :
    (let s : State := st [(0, 0x44, 7), (pDF 0, 0x0C, dfIDLE), (pDF 0, 0x840, 0), (pDF 0, 0x48, 0), (pDF 0, 0x4C, 0), (pDF 0, 0x50, 0),
        (pDF 0, 0x54, 0), (pDF 0, 0x58, 0), (pDF 0, 0x5C, 0)]; let i : Fin 2 := 0; let p := pDF i; let acc : Access := ⟨.stagB, .queen⟩;
      s.df.length = 2 ∧ s.legs.length = 32 ∧ Reaches s acc p 0x08 true ∧ locked s p = false ∧ dfSource acc s i = true ∧
      (devState s).running = true ∧ dfState s i = dfIDLE ∧ dfLacks s i = false) ∧
    (let s : State := st [(0, 0x44, 5), (pDF 0, 0x0C, dfRUN)]; let i : Fin 2 := 0; let p := pDF i; let acc : Access := ⟨.stagB, .queen⟩;
      s.df.length = 2 ∧ s.legs.length = 32 ∧ Reaches s acc p 0x08 true ∧ locked s p = false ∧ dfSource acc s i = true ∧
      dfState s i = dfRUN) ∧
    (let s : State := st [(0, 0x44, 5), (pDF 0, 0x0C, dfIDLE)]; let i : Fin 2 := 0; let p := pDF i;
      let acc : Access := ⟨.stagB, .queen⟩; s.df.length = 2 ∧ s.legs.length = 32 ∧ Reaches s acc p 0x08 true ∧ locked s p = false ∧
      dfSource acc s i = true ∧ (devState s = .held ∨ devState s = .ready) ∧ dfState s i = dfIDLE) ∧
    (let s : State := { st [(0, 0x44, 5), (pDF 0, 0x0C, dfHICCUP)] with tick := 51000000 }; let i : Fin 2 := 0;
      let e := (dfH s i).hicAt + dfA s i 0x17C 8 8 * msT; s.df.length = 2 ∧ s.legs.length = 32 ∧ powered s = true ∧
      dfState s i = dfHICCUP ∧ e ≤ s.tick) := by decide

theorem test_meets_DragonflyFollowsItsStates_3 :
    (let s : State := st [(0, 0x44, 5), (pDF 0, 0x0C, dfHICCUP), (pDF 0, 0x97C, 0x100)]; let i : Fin 2 := 0;
      let e := (dfH s i).hicAt + dfA s i 0x17C 8 8 * msT; s.df.length = 2 ∧ s.legs.length = 32 ∧ powered s = true ∧
      dfState s i = dfHICCUP ∧ s.tick < e) ∧
    (let s : State := { st [(0, 0x44, 2)] with df := [{}, { tgt := 1 }] }; let i : Fin 2 := 1; s.df.length = 2 ∧ s.legs.length = 32 ∧
      powered s = true ∧ (dfH s i).r ≠ (dfH s i).tgt * 2 ^ 32) ∧
    (let s : State := { st [(0, 0x44, 5), (pDF 0, 0x0C, dfRUN)] with df := [{ slew := true }, {}] }; let i : Fin 2 := 0;
      s.df.length = 2 ∧ s.legs.length = 32 ∧ powered s = true ∧ (dfH s i).slew = true ∧ (dfH s i).need = false ∧
      (dfH s i).r = (dfH s i).tgt * 2 ^ 32 ∧ dfState s i = dfRUN) ∧
    (let s : State := { st [(0, 0x44, 5), (pDF 0, 0x0C, dfSTOPPING)] with df := [{ slew := true }, {}] }; let i : Fin 2 := 0;
      s.df.length = 2 ∧ s.legs.length = 32 ∧ powered s = true ∧ (dfH s i).slew = true ∧ (dfH s i).need = false ∧
      (dfH s i).r = (dfH s i).tgt * 2 ^ 32 ∧ dfState s i = dfSTOPPING) := by decide

theorem test_meets_DragonflyRunsItsCycle :
    (let s : State := st [(0, 0x44, 5), (pDF 0, 0x08, 0)]; let i : Fin 2 := 0; let p := pDF i; s.df.length = 2 ∧ s.legs.length = 32 ∧
      (powered s = false ∨ pageEn s p = false)) ∧
    (let s : State := st [(0, 0x44, 5), (pDF 0, 0x08, 1), (pDF 0, 0x44, 0), (pDF 0, 0x60, 0), (pDF 0, 0x840, 0)]; let i : Fin 2 := 0;
      let p := pDF i; let d := (setH s (dfSet s i)).doneAt; s.df.length = 2 ∧ s.legs.length = 32 ∧ powered s = true ∧
      pageEn s p = true ∧ (d = none ∨ d.map (· + 1) ≠ some s.tick ∨ (dfH s i).last = d)) ∧
    (let s : State := { st [(0, 0x44, 5), (pDF 0, 0x08, 1), (pDF 0, 0x44, 0), (pDF 0, 0x60, 0), (pDF 0, 0x840, 0)] with
      tick := 6, df := [{ last := some 0 }, {}], sets := { doneAt := some 5 } :: List.replicate 7 {} }; let i : Fin 2 := 0;
        let p := pDF i; let c := 5; let l := 0; s.df.length = 2 ∧ s.legs.length = 32 ∧ powered s = true ∧ pageEn s p = true ∧
        (setH s (dfSet s i)).doneAt = some c ∧ c + 1 = s.tick ∧ (dfH s i).last ≠ some c ∧ (dfH s i).last = some l ∧ c ≤ l + 9) ∧
    (let s : State :=
        { st [(0, 0x44, 5), (pDF 0, 0x08, 1), (pDF 0, 0x44, 0), (pDF 0, 0x60, 0), (pDF 0, 0x840, 0), (pSETS, 0x424, 1)] with
      tick := 6, sets := { doneAt := some 5 } :: List.replicate 7 {} }; let i : Fin 2 := 0; let p := pDF i; let c := 5;
        s.df.length = 2 ∧ s.legs.length = 32 ∧ powered s = true ∧ pageEn s p = true ∧ (setH s (dfSet s i)).doneAt = some c ∧
        c + 1 = s.tick ∧ (dfH s i).last ≠ some c ∧ (dfH s i).last.all (fun l => decide (l + 9 < c)) = true ∧
        rbit s pSETS (recOff (dfSet s i) 9) 0 = true) ∧
    (let s : State := { st [(0, 0x44, 5), (pDF 0, 0x08, 1), (pDF 0, 0x44, 0), (pDF 0, 0x60, 0), (pDF 0, 0x840, 0)] with
      tick := 6, sets := { doneAt := some 5 } :: List.replicate 7 {} }; let i : Fin 2 := 0; let p := pDF i; let c := 5;
        s.df.length = 2 ∧ s.legs.length = 32 ∧ powered s = true ∧ pageEn s p = true ∧ (setH s (dfSet s i)).doneAt = some c ∧
        c + 1 = s.tick ∧ (dfH s i).last ≠ some c ∧ (dfH s i).last.all (fun l => decide (l + 9 < c)) = true ∧
        rbit s pSETS (recOff (dfSet s i) 9) 0 = false) := by decide

theorem test_meets_DragonflyRunsItsCycle_2 :
    (let s : State := st [(0, 0x44, 5), (pDF 0, 0x08, 1), (pDF 0, 0x44, 0), (pDF 0, 0x60, 0), (pDF 0, 0x840, 0)]; let i : Fin 2 := 0;
      let p := pDF i; s.df.length = 2 ∧ s.legs.length = 32 ∧ powered s = true ∧ pageEn s p = true ∧
      ((carH s (dfMaster s i)).lastZero.map (· + 2) ≠ some s.tick ∨ dfWhere (dfOn s i) = [])) ∧
    (let s : State :=
        { st [(0, 0x44, 5), (pDF 0, 0x08, 1), (pDF 0, 0x44, 0), (pDF 0, 0x60, 0), (pDF 0, 0x840, 0), (pDF 0, 0x210, 1),
      (pDF 0, 0x840, 0x10000)] with tick := 2, cars := { lastZero := some 0 } :: List.replicate 15 {} }; let i : Fin 2 := 0;
      let p := pDF i; let ps := dfWhere (dfOn s i); s.df.length = 2 ∧ s.legs.length = 32 ∧ powered s = true ∧ pageEn s p = true ∧
      ps ≠ [] ∧ (carH s (dfMaster s i)).lastZero.map (· + 2) = some s.tick) := by decide

theorem test_meets_HoneybeeAndThePilotFollowTheirInputs :
    (let s : State := st [(0, 0x44, 2), (0x98, 0x40, 0xE000)]; let acc : Access := ⟨.internal, .queen⟩; s.legs.length = 32 ∧
      Reaches s acc pHB 0x08 true ∧ locked s pHB = false ∧ pageEn s pHB = false ∧ 13 < fld s pHB 0x40 12 4) ∧
    (let s : State := st [(0, 0x44, 2)]; let acc : Access := ⟨.stagA, .queen⟩; s.legs.length = 32 ∧ Reaches s acc pHB 0x08 true ∧
      locked s pHB = false ∧ pageEn s pHB = false ∧ fld s pHB 0x40 12 4 ≤ 13) ∧
    (let s : State := st [(0, 0x44, 2), (0x98, 8, 1)]; let acc : Access := ⟨.internal, .queen⟩; s.legs.length = 32 ∧
      Reaches s acc pHB 0x08 true ∧ locked s pHB = false ∧ pageEn s pHB = true) ∧
    (let s : State := st [(0, 0x44, 5)]; let acc : Access := ⟨.stagA, .queen⟩; let r := .value; s.legs.length = 32 ∧
      Reaches s acc pHB 0x08 true ∧ locked s pHB = false ∧ hbChk s 0x08 0x00020002 0 0 = some r) ∧
    (let s : State := st [(0, 0x44, 7), (pHB, 0x0C, hbSOURCE), (pDF 0, 0x840, 0x80000), (pHB, 0x9E0, 0x20000), (pHB, 0x9E4, 1),
        (pHB, 0x980, 1), (pHB, 0x990, 1), (pHB, 0x9A0, 1), (pHB, 0x9B0, 1), (pHB, 0x9C0, 1), (pHB, 0x988, 1), (pHB, 0x998, 1),
      (pHB, 0x9A8, 1), (pHB, 0x9B8, 1), (pHB, 0x9C8, 1)]; let acc : Access := ⟨.stagA, .queen⟩; s.legs.length = 32 ∧
      Reaches s acc pHB 0x08 true ∧ locked s pHB = false ∧ hbChk s 0x08 0x00020002 0 0 = none) := by decide

theorem test_meets_HoneybeeAndThePilotFollowTheirInputs_2 :
    (let s : State := st [(0, 0x44, 5), (pHB, 0x200, 1)]; let acc : Access := ⟨.stagA, .queen⟩; s.legs.length = 32 ∧
      Reaches s acc pHB 0x08 true ∧ locked s pHB = false ∧ chgRunning s = true) ∧
    (let s : State := st [(0, 0x44, 2)]; let acc : Access := ⟨.stagA, .queen⟩; s.legs.length = 32 ∧ Reaches s acc pHB 0x08 true ∧
      locked s pHB = false ∧ chgRunning s = false) ∧
    (let s : State := st [(0, 0x44, 5), (pHB, 0x200, 0x20000)]; let acc : Access := ⟨.stagA, .queen⟩; s.legs.length = 32 ∧
      Reaches s acc pHB 0x08 true ∧ locked s pHB = false ∧ rbit s pHB 0x200 17 = true ∧ chgRunning s = false) ∧
    (let s : State := st [(0, 0x44, 2)]; let acc : Access := ⟨.stagA, .queen⟩; s.legs.length = 32 ∧ Reaches s acc pHB 0x08 true ∧
      locked s pHB = false ∧ (rbit s pHB 0x200 17 = false ∨ chgRunning s = true)) ∧
    (let s : State := st []; s.legs.length = 32 ∧ (powered s = false ∨ pageEn s pHB = false)) ∧
    (let s : State := st [(0, 0x44, 5), (pHB, 0x08, 1)]; let d := none; s.legs.length = 32 ∧ powered s = true ∧ pageEn s pHB = true ∧
      d = (setH s (hbMset s)).doneAt ∧ (d = none ∨ d.map (· + 1) ≠ some s.tick ∨ s.hb.last = d)) := by decide

theorem test_meets_HoneybeeAndThePilotFollowTheirInputs_3 :
    (let s : State := { st [(0, 0x44, 5), (pHB, 0x08, 1), (pHB, 0x40, 0)] with
      tick := 6, hb := { last := some 0 }, sets := { doneAt := some 5 } :: List.replicate 7 {} }; let c := 5; let l := 0;
        s.legs.length = 32 ∧ powered s = true ∧ pageEn s pHB = true ∧ (setH s (hbMset s)).doneAt = some c ∧ c + 1 = s.tick ∧
        s.hb.last ≠ some c ∧ s.hb.last = some l ∧ c ≤ l + 7) ∧
    (let s : State := { st [(0, 0x44, 5), (pHB, 0x08, 1), (pHB, 0x40, 0), (pSETS, 0x424, 1)] with
      tick := 6, sets := { doneAt := some 5 } :: List.replicate 7 {} }; let c := 5; s.legs.length = 32 ∧ powered s = true ∧
        pageEn s pHB = true ∧ (setH s (hbMset s)).doneAt = some c ∧ c + 1 = s.tick ∧ s.hb.last ≠ some c ∧
        s.hb.last.all (fun l => decide (l + 7 < c)) = true ∧ rbit s pSETS (recOff (hbMset s) 9) 0 = true) ∧
    (let s : State := { st [(0, 0x44, 5), (pHB, 0x08, 1), (pHB, 0x40, 0)] with
      tick := 6, sets := { doneAt := some 5 } :: List.replicate 7 {} }; let c := 5; s.legs.length = 32 ∧ powered s = true ∧
        pageEn s pHB = true ∧ (setH s (hbMset s)).doneAt = some c ∧ c + 1 = s.tick ∧ s.hb.last ≠ some c ∧
        s.hb.last.all (fun l => decide (l + 7 < c)) = true ∧ rbit s pSETS (recOff (hbMset s) 9) 0 = false) ∧
    (let s : State := st [(0, 0x44, 2), (0x99, 8, 1)]; s.legs.length = 32 ∧ powered s = true ∧ pageEn s pPILOT = true) ∧
    (let s : State := st [(0, 0x44, 2)]; s.legs.length = 32 ∧ powered s = true ∧ pageEn s pPILOT = false) ∧
    (let s : State := st [(0, 0x44, 2)]; s.legs.length = 32 ∧ powered s = true ∧
      (s.hb.cpNew = none ∨ pageEn s pPILOT = false)) := by decide

theorem test_meets_HoneybeeAndThePilotFollowTheirInputs_4 :
    (let s : State := { st [(0, 0x44, 5), (pPILOT, 0x08, 1)] with tick := 51000000, hb := { cpNew := some 0 } }; let st := 0;
      s.legs.length = 32 ∧ powered s = true ∧ s.hb.cpNew = some st ∧ pageEn s pPILOT = true ∧
      s.hb.cpAt + fld s pPILOT 0x54 0 8 * msT ≤ s.tick) ∧
    (let s : State := { st [(0, 0x44, 2), (0x99, 8, 1)] with hb := { cpNew := (some 0) } }; let st := 0; s.legs.length = 32 ∧
      powered s = true ∧ s.hb.cpNew = some st ∧ pageEn s pPILOT = true ∧ s.tick < s.hb.cpAt + fld s pPILOT 0x54 0 8 * msT) := by decide

theorem test_meets_ActuatorUnitsFollowTheirStates :
    (let s : State := st [(0, 0x44, 2)]; let u : Fin 3 := 0; let p := pADU u; let acc : Access := ⟨.stagA, .queen⟩; s.legs.length = 32 ∧
      s.adu.length = 3 ∧ Reaches s acc p 0x08 true ∧ locked s p = false ∧ pageEn s p = false ∧ aduState s u ≠ aduFAULT ∧
      aduLeg s u + aduLegs u ≤ 32) ∧
    (let s : State := st [(0, 0x44, 2), (0xA2, 8, 1)]; let u : Fin 3 := 2; let p := pADU u; let acc : Access := ⟨.internal, .queen⟩;
      s.legs.length = 32 ∧ s.adu.length = 3 ∧ Reaches s acc p 0x08 true ∧ locked s p = false ∧ pageEn s p = true ∧
      aduState s u ≠ aduFAULT) ∧
    (let s : State := st [(0, 0x44, 5), (pADU 0, 0x08, 1), (pADU 0, 0x0C, aduFAULT)]; let u : Fin 3 := 0; let p := pADU u;
      let acc : Access := ⟨.stagA, .queen⟩; s.legs.length = 32 ∧ s.adu.length = 3 ∧ Reaches s acc p 0x08 true ∧ locked s p = false ∧
      pageEn s p = true ∧ aduState s u = aduFAULT) ∧
    (let s : State := st [(0, 0x44, 7), (pADU 0, 0x0C, aduIDLE), (pADU 0, 0x40, 0x100), (0x20, 0x0C, trVALID), (pLEG 0, 0x08, 1),
        (pLEG 1, 0x08, 1), (pLEG 2, 0x08, 1), (pLEG 0, 0x40, 0x400), (pLEG 1, 0x40, 0x400), (pLEG 2, 0x40, 0x400)]; let u : Fin 3 := 0;
      let p := pADU u; let acc : Access := ⟨.stagA, .queen⟩; s.legs.length = 32 ∧ s.adu.length = 3 ∧ Reaches s acc p 0x08 true ∧
      locked s p = false ∧ (devState s).running = true ∧ aduState s u = aduIDLE ∧ (u.val ≠ 2 → trackState s (aduTrk s u) = trVALID) ∧
      (∀ j, j < aduLegs u → pageEn s (pLEG (aduLeg s u + j)) = true ∧ legOwner s (aduLeg s u + j) = aduOwner s u) ∧
      (u.val ≠ 2 ∨ plPermitted s = true)) := by decide

theorem test_meets_ActuatorUnitsFollowTheirStates_2 :
    (let s : State := st [(0, 0x44, 7), (pADU 2, 0x0C, aduIDLE), (pADU 2, 0x40, 0x100), (pLEG 0, 0x08, 1), (pLEG 1, 0x08, 1),
        (pLEG 0, 0x40, 0x400), (pLEG 1, 0x40, 0x400)]; let u : Fin 3 := 2; let p := pADU u; let acc : Access := ⟨.stagA, .queen⟩;
      s.legs.length = 32 ∧ s.adu.length = 3 ∧ Reaches s acc p 0x08 true ∧ locked s p = false ∧ (devState s).running = true ∧
      aduState s u = aduIDLE ∧ (u.val ≠ 2 → trackState s (aduTrk s u) = trVALID) ∧
      (∀ j, j < aduLegs u → pageEn s (pLEG (aduLeg s u + j)) = true ∧ legOwner s (aduLeg s u + j) = aduOwner s u) ∧ u.val = 2 ∧
      plPermitted s = false) ∧
    (let s : State := st [(0, 0x44, 5), (pADU 0, 0x0C, aduRUN)]; let u : Fin 3 := 0; let p := pADU u;
      let acc : Access := ⟨.stagA, .queen⟩; s.legs.length = 32 ∧ s.adu.length = 3 ∧ Reaches s acc p 0x08 true ∧ locked s p = false ∧
      (aduState s u = aduRUN ∨ aduState s u = aduHICCUP) ∧ (u.val = 2 → speedOf s (aduTrk s 2) ≤ aduA s 2 0x70 0 32)) ∧
    (let s : State := { st [(0, 0x44, 2), (0xA0, 8, 1), (0xA0, 0x40, 0)] with
      sets := ((List.replicate 8 {}).set 0 { doneAt := (some 0) }) }; let u : Fin 3 := 0; let p := pADU u; let c := 0;
        s.legs.length = 32 ∧ s.adu.length = 3 ∧ powered s = true ∧ pageEn s p = true ∧ (setH s (aduSet s u)).doneAt = some c ∧
        (aduH s u).last ≠ some c ∧ c + 1 ≠ s.tick) ∧
    (let s : State := { st [(0, 0x44, 5), (pADU 0, 0x08, 1), (pADU 0, 0x40, 0)] with
      tick := 6, adu := { last := some 0 } :: List.replicate 2 {}, sets := { doneAt := some 5 } :: List.replicate 7 {} };
        let u : Fin 3 := 0; let p := pADU u; let c := 5; let l := 0; s.legs.length = 32 ∧ s.adu.length = 3 ∧ powered s = true ∧
        pageEn s p = true ∧ (setH s (aduSet s u)).doneAt = some c ∧ (aduH s u).last ≠ some c ∧ c + 1 = s.tick ∧
        (aduH s u).last = some l ∧ c ≤ l + 5) := by decide

theorem test_meets_ActuatorUnitsFollowTheirStates_3 :
    (let s : State := { st [(0, 0x44, 5), (pADU 0, 0x08, 1), (pADU 0, 0x40, 0), (pSETS, 0x424, 1)] with
      tick := 6, sets := { doneAt := some 5 } :: List.replicate 7 {} }; let u : Fin 3 := 0; let p := pADU u; let c := 5;
        s.legs.length = 32 ∧ s.adu.length = 3 ∧ powered s = true ∧ pageEn s p = true ∧ (setH s (aduSet s u)).doneAt = some c ∧
        (aduH s u).last ≠ some c ∧ c + 1 = s.tick ∧ (aduH s u).last = none ∧ rbit s pSETS (recOff (aduSet s u) 9) 0 = true) ∧
    (let s : State := { st [(0, 0x44, 5), (pADU 0, 0x08, 1), (pADU 0, 0x40, 0)] with
      tick := 6, sets := { doneAt := some 5 } :: List.replicate 7 {} }; let u : Fin 3 := 0; let p := pADU u; let c := 5;
        s.legs.length = 32 ∧ s.adu.length = 3 ∧ powered s = true ∧ pageEn s p = true ∧ (setH s (aduSet s u)).doneAt = some c ∧
        (aduH s u).last ≠ some c ∧ c + 1 = s.tick ∧ (aduH s u).last = none ∧ rbit s pSETS (recOff (aduSet s u) 9) 0 = false) ∧
    (let s : State := { st [(0xA0, 8, 1)] with adu := [{ lat := (some ⟨0, 0, [], 0, false, 0, 0, 0⟩) }, {}, {}] }; let u : Fin 3 := 0;
      let p := pADU u; let l := ⟨0, 0, [], 0, false, 0, 0, 0⟩; s.legs.length = 32 ∧ s.adu.length = 3 ∧ (aduH s u).lat = some l ∧
      l.due ≤ s.tick ∧ pageEn s p = true ∧ aduState s u ≠ aduRUN ∧ u.val ≠ 2) ∧
    (let s : State := { st [(0, 0x44, 5), (pADU 0, 0x0C, aduHICCUP)] with tick := 51000000 }; let u : Fin 3 := 0;
      let e := (aduH s u).hicAt + aduA s u 0x60 8 8 * msT; s.legs.length = 32 ∧ s.adu.length = 3 ∧ powered s = true ∧
      aduState s u = aduHICCUP ∧ e ≤ s.tick) ∧
    (let s : State := st [(0, 0x44, 5), (pADU 0, 0x0C, aduHICCUP), (pADU 0, 0x860, 0x100)]; let u : Fin 3 := 0;
      let e := (aduH s u).hicAt + aduA s u 0x60 8 8 * msT; s.legs.length = 32 ∧ s.adu.length = 3 ∧ powered s = true ∧
      aduState s u = aduHICCUP ∧ s.tick < e) := by decide

theorem test_meets_ActuatorUnitsFollowTheirStates_4 :
    (let s : State := st [(0, 0x44, 5), (pADU 2, 0x0C, aduRUN), (pADU 2, 0x208, 8), (pADU 2, 0x868, 0)];
      let e := (aduH s 2).startAt + aduA s 2 0x68 0 16 * msT; s.legs.length = 32 ∧ s.adu.length = 3 ∧ powered s = true ∧
      aduState s 2 = aduRUN ∧ plPeak s = true ∧ e ≤ s.tick) ∧
    (let s : State := st [(0, 0x44, 5), (pADU 2, 0x0C, aduRUN), (pADU 2, 0x208, 8), (pADU 2, 0x868, 1)];
      let e := (aduH s 2).startAt + aduA s 2 0x68 0 16 * msT; s.legs.length = 32 ∧ s.adu.length = 3 ∧ powered s = true ∧
      aduState s 2 = aduRUN ∧ plPeak s = true ∧ s.tick < e) ∧
    (let s : State := { st [(0, 0x44, 2), (0xA2, 0x868, 0)] with adu := [{}, {}, { eng := (some 0) }] }; let e := 0;
      s.legs.length = 32 ∧ s.adu.length = 3 ∧ powered s = true ∧ (aduH s 2).eng = some e ∧ e + aduA s 2 0x68 16 16 * msT ≤ s.tick) ∧
    (let s : State := { st [(0, 0x44, 2)] with adu := [{}, {}, { eng := (some 0) }] }; let e := 0; s.legs.length = 32 ∧
      s.adu.length = 3 ∧ powered s = true ∧ (aduH s 2).eng = some e ∧ s.tick < e + aduA s 2 0x68 16 16 * msT) ∧
    (let s : State := st [(0, 0x44, 2)]; s.legs.length = 32 ∧ s.adu.length = 3 ∧ powered s = true) := by decide

theorem test_meets_KatydidFollowsItsStates :
    (let s : State := st [(0, 0x44, 2), (0xB1, 0x44, 0x114)]; let k : Fin 4 := 1; let p := pKD k; let acc : Access := ⟨.stagA, .queen⟩;
      s.kd.length = 4 ∧ Reaches s acc p 0x08 true ∧ locked s p = false ∧ pageEn s p = false ∧ kdTimingBad s k = true) ∧
    (let s : State := st [(0, 0x44, 2)]; let k : Fin 4 := 0; let p := pKD k; let acc : Access := ⟨.stagA, .queen⟩; s.kd.length = 4 ∧
      Reaches s acc p 0x08 true ∧ locked s p = false ∧ pageEn s p = false ∧ kdState s k = kdOFF ∧ kdTimingBad s k = false) ∧
    (let s : State := st [(0, 0x44, 2), (0xB1, 8, 1)]; let k : Fin 4 := 1; let p := pKD k; let acc : Access := ⟨.stagA, .queen⟩;
      s.kd.length = 4 ∧ Reaches s acc p 0x08 true ∧ locked s p = false ∧ pageEn s p = true ∧ (kdH s k).tx = none) ∧
    (let s : State := { st [(0, 0x44, 5), (pKD 0, 0x08, 1)] with kd := { tx := some (0, 0) } :: List.replicate 3 {} };
      let k : Fin 4 := 0; let p := pKD k; let acc : Access := ⟨.stagA, .queen⟩; let x := (0, 0); s.kd.length = 4 ∧
      Reaches s acc p 0x08 true ∧ locked s p = false ∧ (kdH s k).tx = some x ∧ pageEn s p = true) := by decide

theorem test_meets_KatydidFollowsItsStates_2 :
    (let s : State := st [(0, 0x44, 5), (pKD 0, 0x0C, kdACTIVE)]; let k : Fin 4 := 0; let p := pKD k;
      let acc : Access := ⟨.stagA, .queen⟩; s.kd.length = 4 ∧ Reaches s acc p 0x08 true ∧ locked s p = false ∧ kdUp s k = true ∧
      (∀ b, b < 3 → txStat s k b ≠ 1 ∧ txStat s k b ≠ 2)) ∧
    (let s : State := st [(0, 0x44, 2)]; let k : Fin 4 := 0; let p := pKD k; let acc : Access := ⟨.stagA, .queen⟩; s.kd.length = 4 ∧
      Reaches s acc p 0x08 true ∧ locked s p = false ∧
      (kdUp s k = false ∨ txStat s k 0 = 1 ∨ txStat s k 0 = 2 ∨ txStat s k 1 = 1 ∨ txStat s k 1 = 2 ∨ txStat s k 2 = 1 ∨ txStat s k 2 =
      2)) ∧
    (let s : State := st [(0, 0x44, 5), (pKD 0, 0x0C, kdSLEEP)]; let k : Fin 4 := 0; let p := pKD k;
      let acc : Access := ⟨.stagA, .queen⟩; s.kd.length = 4 ∧ Reaches s acc p 0x08 true ∧ locked s p = false ∧ kdState s k = kdSLEEP) ∧
    (let s : State := st [(0, 0x44, 2)]; let k : Fin 4 := 0; let p := pKD k; let acc : Access := ⟨.stagA, .queen⟩; s.kd.length = 4 ∧
      Reaches s acc p 0x08 true ∧ locked s p = false ∧ kdState s k ≠ kdSLEEP) ∧
    (let s : State := st [(0, 0x44, 5), (pKD 0, 0x0C, kdBUSOFF)]; let k : Fin 4 := 0; let p := pKD k;
      let acc : Access := ⟨.stagA, .queen⟩; s.kd.length = 4 ∧ Reaches s acc p 0x08 true ∧ locked s p = false ∧
      kdState s k = kdBUSOFF) := by decide

theorem test_meets_KatydidFollowsItsStates_3 :
    (let s : State := st [(0, 0x44, 2)]; let k : Fin 4 := 0; let p := pKD k; let acc : Access := ⟨.stagA, .queen⟩; s.kd.length = 4 ∧
      Reaches s acc p 0x08 true ∧ locked s p = false ∧ kdState s k ≠ kdBUSOFF) ∧
    (let s : State := st [(0, 0x44, 5), (pKD 0, 0x0C, kdINTEGRATE)]; let k : Fin 4 := 0; s.kd.length = 4 ∧ powered s = true ∧
      kdState s k = kdINTEGRATE) ∧
    (let s : State := st [(0, 0x44, 5), (pKD 0, 0x0C, kdACTIVE)]; let k : Fin 4 := 0; s.kd.length = 4 ∧ powered s = true ∧
      kdUp s k = true) ∧
    (let s : State := st [(0, 0x44, 2)]; let k : Fin 4 := 0; s.kd.length = 4 ∧ powered s = true ∧ kdState s k ≠ kdINTEGRATE ∧
      kdUp s k = false) ∧
    (let s : State := st [(0, 0x44, 5), (pKD 0, 0x0C, kdRECOVER)]; let k : Fin 4 := 0; s.kd.length = 4 ∧ powered s = true ∧
      kdState s k = kdRECOVER) ∧
    (let s : State := st [(0, 0x44, 2)]; let k : Fin 4 := 0; s.kd.length = 4 ∧ powered s = true ∧ kdState s k ≠ kdRECOVER) ∧
    (let s : State := { st [(0, 0x44, 5), (pKD 0, 0x0C, kdACTIVE)] with kd := { sleepPend := true } :: List.replicate 3 {} };
      let k : Fin 4 := 0; s.kd.length = 4 ∧ powered s = true ∧ (kdH s k).sleepPend = true ∧ kdUp s k = true ∧ (kdH s k).tx = none) ∧
    (let s : State := st [(0, 0x44, 2)]; let k : Fin 4 := 0; s.kd.length = 4 ∧ powered s = true ∧
      ((kdH s k).sleepPend = false ∨ kdUp s k = false ∨ (kdH s k).tx.isSome = true)) ∧
    (let s : State := st [(0, 0x44, 2)]; let k : Fin 4 := 0; let p := pKD k; let w : CanWake := (.dominant 0); s.kd.length = 4 ∧
      powered s = true ∧ (kdState s k ≠ kdSLEEP ∨ wakeMet ((List.range 5).map (fun j => rg s p (0x50 + 4 * j))) w = false)) := by decide

theorem test_meets_KatydidFollowsItsStates_4 :
    (let s : State := st [(0, 0x44, 5), (pKD 0, 0x0C, kdSLEEP), (pKD 0, 0x50, 1)]; let k : Fin 4 := 0; let p := pKD k;
      let w : CanWake := .dominant 50; s.kd.length = 4 ∧ powered s = true ∧ kdState s k = kdSLEEP ∧
      wakeMet ((List.range 5).map (fun j => rg s p (0x50 + 4 * j))) w = true) ∧
    (let s : State := { st [(0, 0x44, 1)] with dev := { canArm := [some [1, 0, 0, 0, 0]], armedWake := 4 } }; let k : Fin 4 := 0;
      let w : CanWake := .dominant 50; let vin : Nat := 1150; let c := [1, 0, 0, 0, 0]; s.kd.length = 4 ∧ devState s = .standby ∧
      s.dev.canArm.getD k none = some c ∧ wakeMet c w = true ∧ 1150 ≤ vin ∧ bit s.dev.armedWake (2 + k) = true) := by decide

theorem test_meets_KatydidMovesFrames :
    (let s : State := st [(0, 0x44, 5)]; let k : Fin 4 := 0; let p := pKD k; let acc : Access := ⟨.stagA, .queen⟩; let m : Fin 8 := 1;
      let v := m.val * 0x10001; let r := .state; s.kd.length = 4 ∧ Reaches s acc p 0x80 true ∧ txCmdChk s k v = some r) ∧
    (let s : State := st [(0, 0x44, 2)]; let k : Fin 4 := 0; let p := pKD k; let acc : Access := ⟨.internal, .queen⟩;
      let m : Fin 8 := 0; let v := m.val * 0x10001; s.kd.length = 4 ∧ Reaches s acc p 0x80 true ∧ txCmdChk s k v = none) ∧
    (let s : State := st [(0, 0x44, 5)]; let k : Fin 4 := 0; let p := pKD k; let acc : Access := ⟨.stagA, .queen⟩; let m : Fin 8 := 1;
      let v := m.val * 0x100010; let r := .state; s.kd.length = 4 ∧ Reaches s acc p 0x80 true ∧ txCmdChk s k v = some r) ∧
    (let s : State := st [(0, 0x44, 2)]; let k : Fin 4 := 0; let p := pKD k; let acc : Access := ⟨.internal, .queen⟩;
      let m : Fin 8 := 0; let v := m.val * 0x100010; s.kd.length = 4 ∧ Reaches s acc p 0x80 true ∧ txCmdChk s k v = none) ∧
    (let s : State := st [(0, 0x44, 2)]; let k : Fin 4 := 0; let p := pKD k; let acc : Access := ⟨.stagA, .queen⟩; let f : Fin 2 := 0;
      s.kd.length = 4 ∧ Reaches s acc p 0x08 true ∧ locked s p = false ∧ kdFifo s k f = []) ∧
    (let s : State := { st [(0, 0x44, 2)] with kd := ((List.replicate 4 {}).set 0 { fifo1 := [⟨0, 0, 0, []⟩] }) }; let k : Fin 4 := 0;
      let p := pKD k; let acc : Access := ⟨.stagA, .queen⟩; let f : Fin 2 := 1; s.kd.length = 4 ∧ Reaches s acc p 0x08 true ∧
      locked s p = false ∧ kdFifo s k f ≠ []) := by decide

theorem test_meets_KatydidMovesFrames_2 :
    (let s : State := st [(0, 0x44, 5), (pKD 0, 0x0C, kdACTIVE), (pKD 0, 0x84, 1)]; let k : Fin 4 := 0; let b := 0; s.kd.length = 4 ∧
      powered s = true ∧ kdOn s k = true ∧ kdMode s k 3 = false ∧ (kdH s k).tx = none ∧ (kdH s k).offPend = false ∧
      txSelect s k = some b) ∧
    (let s : State := st [(0, 0x44, 5), (pKD 0, 0x0C, kdACTIVE)]; let k : Fin 4 := 0; s.kd.length = 4 ∧ powered s = true ∧
      kdOn s k = true ∧ kdMode s k 3 = false ∧ (kdH s k).tx = none ∧ (kdH s k).offPend = false ∧ txSelect s k = none) ∧
    (let s : State := st [(0, 0x44, 2)]; let k : Fin 4 := 0; s.kd.length = 4 ∧ powered s = true ∧ (kdH s k).tx = none) ∧
    (let s : State := { st [(0, 0x44, 2)] with kd := ((List.replicate 4 {}).set 2 { tx := (some (0, 0)) }) }; let k : Fin 4 := 2;
      let out : Fin 3 := 0; let eights : Nat := 0; let x := (0, 0); s.kd.length = 4 ∧ powered s = true ∧ (kdH s k).tx = some x ∧
      x.1 < 3 ∧ (kdH s k).offPend = false ∧ kdMode s k 2 = false ∧ out.val = 0 ∧ kdTec s k - 1 + 8 * eights < 256) ∧
    (let s : State := { st [(0, 0x44, 2)] with kd := ((List.replicate 4 {}).set 1 { tx := (some (0, 0)) }) }; let k : Fin 4 := 1;
      let out : Fin 3 := 1; let eights : Nat := 0; let x := (0, 0); s.kd.length = 4 ∧ powered s = true ∧ (kdH s k).tx = some x ∧
      x.1 < 3 ∧ (kdH s k).offPend = false ∧ kdMode s k 4 = false ∧ out.val = 1 ∧ eights = 0) ∧
    (let s : State := st [(0, 0x44, 5), (pKD 0, 0x0C, kdACTIVE)]; let k : Fin 4 := 0;
      let f : CanFrame := ⟨true, 0, false, false, false, false, 0, []⟩; s.kd.length = 4 ∧ powered s = true ∧ kdOn s k = true ∧
      (List.range 64).find? (kdMatch s k f) = none) := by decide

theorem test_meets_KatydidMovesFrames_3 :
    (let s : State := st [(0, 0x44, 5), (pKD 0, 0x0C, kdACTIVE), (pKD 0, 0x404, 0x40000000), (pKD 0, 0x400, 0x20000000)];
      let k : Fin 4 := 0; let p := pKD k; let f : CanFrame := ⟨true, 0, false, false, false, false, 0, []⟩; let x := 0;
      s.kd.length = 4 ∧ powered s = true ∧ kdOn s k = true ∧ (List.range 64).find? (kdMatch s k f) = some x ∧
      fld s p (0x404 + 8 * x) 30 2 = 1 ∧ rbit s p (0x400 + 8 * x) 30 = false ∧ (kdFifo s k 0).length < 32) ∧
    (let s : State := { st [(0, 0x44, 5), (pKD 0, 0x0C, kdACTIVE), (pKD 0, 0x404, 0x40000000), (pKD 0, 0x400, 0x20000000)] with
      kd := { fifo0 := List.replicate 32 ⟨0, 0, 0, []⟩ } :: List.replicate 3 {} }; let k : Fin 4 := 0; let p := pKD k;
        let f : CanFrame := ⟨true, 0, false, false, false, false, 0, []⟩; let x := 0; s.kd.length = 4 ∧ powered s = true ∧
        kdOn s k = true ∧ (List.range 64).find? (kdMatch s k f) = some x ∧ fld s p (0x404 + 8 * x) 30 2 = 1 ∧
        rbit s p (0x400 + 8 * x) 30 = false ∧ 32 ≤ (kdFifo s k 0).length) ∧
    (let s : State := st [(0, 0x44, 5), (pKD 0, 0x0C, kdACTIVE), (pKD 0, 0x4C, 0x40)]; let k : Fin 4 := 0; s.kd.length = 4 ∧
      powered s = true ∧ kdOn s k = true ∧ kdMode s k 6 = true) ∧
    (let s : State := st [(0, 0x44, 5), (pKD 0, 0x0C, kdACTIVE), (pKD 0, 0x4C, 0)]; let k : Fin 4 := 0; s.kd.length = 4 ∧
      powered s = true ∧ kdOn s k = true ∧ kdMode s k 6 = false) ∧
    (let s : State := st [(0, 0x44, 5), (pKD 0, 0x0C, kdACTIVE)]; let k : Fin 4 := 0; let code : Fin 7 := 1; s.kd.length = 4 ∧
      powered s = true ∧ kdOn s k = true ∧ code.val ≠ 0) := by decide

theorem test_meets_EthernetPortMovesFrames :
    (let s : State := st [(0, 0x44, 2)]; let link : Fin 3 := 0; powered s = true ∧
      (link.val = ethLink s ∨ (link.val ≠ 0 ∧ link.val ≠ phyRate s))) ∧
    (let s : State := st [(0, 0x44, 2), (0xB8, 0x74, 1)]; let link : Fin 3 := 0; powered s = true ∧ link.val ≠ ethLink s ∧
      link.val = 0) ∧
    (let s : State := { st [(0, 0x44, 2)] with eth := { phy100 := true } }; let link : Fin 3 := 1; powered s = true ∧
      link.val ≠ ethLink s ∧ link.val ≠ 0 ∧ link.val = phyRate s) ∧
    (let s : State := { st [(0, 0x44, 5), (pETH, 0x08, 1), (pETH, 0x40, 3)] with tick := 100000000 }; powered s = true ∧
      rbit s pETH 0x08 0 = true ∧ fld s pETH 0x40 0 2 = 3 ∧ ethLink s = 0 ∧ s.eth.phyAt + 500 * msT ≤ s.tick) ∧
    (let s : State := st [(0, 0x44, 2), (0xB8, 8, 1)]; powered s = true ∧ rbit s pETH 0x08 0 = true ∧ fld s pETH 0x40 0 2 = 3 ∧
      ethLink s = 0 ∧ s.tick < s.eth.phyAt + 500 * msT) ∧
    (let s : State := st [(0, 0x44, 2)]; powered s = true ∧ s.eth.tx = none) ∧
    (let s : State := { st [(0, 0x44, 2)] with eth := { tx := (some (0, none, [])) } }; let x := (0, none, []); powered s = true ∧
      s.eth.tx = some x ∧ x.1 ≠ 2) ∧
    (let s : State := { st [(0, 0x44, 2)] with eth := { tx := (some (2, none, [])) } }; let x := (2, none, []); powered s = true ∧
      s.eth.tx = some x ∧ x.1 = 2) ∧
    (let s : State := st [(0, 0x44, 2)]; powered s = true ∧ s.eth.strRecs = []) ∧
    (let s : State := { st [(0, 0x44, 5)] with tick := 20000, eth := { strRecs := [[]], tx := some (0, none, []) } }; powered s = true ∧
      s.eth.strRecs ≠ [] ∧ s.eth.strAt + 100 * usT ≤ s.tick ∧ s.eth.q3.length < 8 ∧ s.eth.tx.isSome = true) := by decide

theorem test_meets_EthernetPortMovesFrames_2 :
    (let s : State := st [(0, 0x44, 2), (0xB8, 8, 9)]; let payload : List (BitVec 8) := []; powered s = true ∧ ethEn s 3 = true ∧
      (slSplit 8 (payload.map BitVec.toNat) = none ∨ payload = [])) ∧
    (let s : State := st [(0, 0x44, 2), (0xB8, 8, 9)]; let payload : List (BitVec 8) := []; powered s = true ∧ ethEn s 3 = true ∧
      payload.length < 256) ∧
    (let s : State := st [(0, 0x44, 2)]; powered s = true ∧ ethLink s = 0) ∧
    (let s : State := st [(0, 0x44, 5), (pETH, 0x08, 1), (pETH, 0x74, 1)];
      let frame : List (BitVec 8) := (List.replicate 60 0).set 12 0x88 |>.set 13 0xF7; let fcs : Bool := true;
      let bs := frame.map BitVec.toNat; let a := ringEntry s 0x6C 24; powered s = true ∧ rbit s pETH 0x08 0 = true ∧ ethLink s ≠ 0 ∧
      fcs = true ∧ 60 ≤ frame.length ∧ frame.length ≤ 1518 ∧ beField bs 12 2 = 0x88F7 ∧ mget s.mem (a + 3) < 0x80) ∧
    (let s : State := { st [(0, 0x44, 5), (pETH, 0x08, 1), (pETH, 0x74, 1), (pETH, 0x6C, 0x20000000)] with
      mem := [(0x20000003, 0x80)] }; let frame : List (BitVec 8) := (List.replicate 60 0).set 12 0x88 |>.set 13 0xF7;
        let fcs : Bool := true; let bs := frame.map BitVec.toNat; let a := ringEntry s 0x6C 24; powered s = true ∧
        rbit s pETH 0x08 0 = true ∧ ethLink s ≠ 0 ∧ fcs = true ∧ 60 ≤ frame.length ∧ frame.length ≤ 1518 ∧ beField bs 12 2 = 0x88F7 ∧
        0x80 ≤ mget s.mem (a + 3)) := by decide

theorem test_meets_PtpFirmwareAndRemoteServiceAct :
    (let s : State := st [(0, 0x44, 2)]; let acc : Access := ⟨.stagA, .queen⟩; Reaches s acc pPTP 0x44 true) ∧
    (let s : State := st [(0, 0x44, 2)]; let acc : Access := ⟨.stagA, .queen⟩; Reaches s acc pPTP 0x48 false) ∧
    (let s : State := st [(0, 0x44, 2)]; let acc : Access := ⟨.internal, .queen⟩; Reaches s acc pPTP 0x08 true ∧ locked s pPTP = false ∧
      s.eth.ts = []) ∧
    (let s : State := { st [(0, 0x44, 2)] with eth := { ts := [(0, 0, 0)] } }; let acc : Access := ⟨.internal, .queen⟩;
      Reaches s acc pPTP 0x08 true ∧ locked s pPTP = false ∧ s.eth.ts ≠ []) ∧
    (let s : State := st [(0, 0x44, 7), (pETH, 0x7C, 8), (pETH, 0x78, 0x20000000)]; let acc : Access := ⟨.stagA, .queen⟩;
      Reaches s acc pETH 0x08 true ∧ locked s pETH = false ∧ rg s pETH 0x7C ≠ 0 ∧ rg s pETH 0x7C ≤ 0x400000 ∧ rg s pETH 0x7C % 8 = 0 ∧
      inSram (rg s pETH 0x78) 1 = true ∧ devState s ≠ .held ∧ devState s ≠ .ready) := by decide

theorem test_meets_PtpFirmwareAndRemoteServiceAct_2 :
    (let s : State := st [(0, 0x44, 5), (pETH, 0x7C, 8), (pETH, 0x78, 0x20000000), (pETH, 0x80, 1)];
      let acc : Access := ⟨.stagA, .queen⟩; let b := fld s pETH 0x80 0 1; Reaches s acc pETH 0x08 true ∧ locked s pETH = false ∧
      rg s pETH 0x7C ≠ 0 ∧ rg s pETH 0x7C ≤ 0x400000 ∧ rg s pETH 0x7C % 8 = 0 ∧ inSram (rg s pETH 0x78) 1 = true ∧
      (devState s = .held ∨ devState s = .ready) ∧ s.eth.fw = false ∧ b ≠ fld s pBOOT 0x44 0 1) ∧
    (let s : State := st [(0, 0x44, 2), (0xB8, 8, 1)]; powered s = true ∧ rbit s pETH 0x08 0 = true ∧ s.eth.ts.length < 4) ∧
    (let s : State := { st [(0, 0x44, 5), (pETH, 0x08, 1)] with eth := { ts := List.replicate 4 (0, 0, 0) } }; powered s = true ∧
      rbit s pETH 0x08 0 = true ∧ 4 ≤ s.eth.ts.length) ∧
    (let s : State := st [(0, 0x44, 2)]; powered s = true ∧ s.eth.fw = false) ∧
    (let s : State := { st [(0, 0x44, 2)] with eth := { fw := true } }; powered s = true ∧ s.eth.fw = true) ∧
    (let s : State := { st [(0, 0x44, 5)] with eth := { fw := true, fwSrc := 0x20000000 } }; powered s = true ∧ s.eth.fw = true ∧
      inSram s.eth.fwSrc s.eth.fwLen = true ∧ s.eth.fwBank < 2 ∧ s.eth.fwLen ≤ 0x400000) ∧
    (let s : State := { st [(0, 0x44, 4), (pETH, 0x08, 3)] with eth := { tx := some (0, none, []) } }; powered s = true ∧
      ethEn s 1 = true ∧ (devState s).code < 5 ∧ s.eth.q0.length < 8 ∧ s.eth.tx.isSome = true) := by decide

theorem test_meets_PtpFirmwareAndRemoteServiceAct_3 :
    (let s : State := { st [(0, 0x44, 5), (pETH, 0x08, 3)] with eth := { seq := some 0, tx := some (0, none, []) } };
      let payload : List (BitVec 8) := []; let bs := payload.map BitVec.toNat; let q := payWord bs 0 % 2 ^ 16; powered s = true ∧
      ethEn s 1 = true ∧ 5 ≤ (devState s).code ∧ s.eth.seq = some q ∧ s.eth.q0.length < 8 ∧ s.eth.tx.isSome = true) ∧
    (let s : State := { st [(0, 0x44, 5), (0xB8, 8, 3)] with eth := { tx := (some (0, none, [])) } };
      let payload : List (BitVec 8) := []; let bs := payload.map BitVec.toNat; let q := payWord bs 0 % 2 ^ 16; powered s = true ∧
      ethEn s 1 = true ∧ 5 ≤ (devState s).code ∧ s.eth.seq ≠ some q ∧ remoteBad bs = true ∧ s.eth.q0.length < 8 ∧
      s.eth.tx.isSome = true) ∧
    (let s : State := st [(0, 0x44, 5), (pETH, 0x08, 3)]; let payload : List (BitVec 8) := [0, 0, 1, 1, 0, 0, 0, 0];
      let bs := payload.map BitVec.toNat; let q := payWord bs 0 % 2 ^ 16; powered s = true ∧ ethEn s 1 = true ∧ 5 ≤ (devState s).code ∧
      s.eth.seq ≠ some q ∧ remoteBad bs = false) := by decide

theorem test_meets_ScarabFollowsItsStates :
    (let s : State := st [(0, 0x44, 2)]; powered s = true ∧ s.sc.bad = none ∧ scState s = scINIT) ∧
    (let s : State := st [(0, 0x44, 2), (0xC0, 0x40, 1)]; powered s = true ∧ s.sc.bad = none ∧ scState s ≠ scINIT) ∧
    (let s : State := st [(0, 0x44, 2)]; powered s = true ∧ s.sc.bad = none ∧ scState s ≠ scCHECK) ∧
    (let s : State := st [(0, 0x44, 5), (pSC 0, 0x40, scCHECK)]; powered s = true ∧ s.sc.bad = none ∧ scState s = scCHECK ∧
      s.nv.commCnt = 0) ∧
    (let s : State := { st [(0, 0x44, 2), (0xC0, 0x40, 1)] with nv := { commCnt := 1 } }; powered s = true ∧ s.sc.bad = none ∧
      scState s = scCHECK ∧ s.nv.commCnt ≠ 0 ∧ slotSet s 0 = none ∧ slotSet s 1 = none) ∧
    (let s : State := { st [(0, 0x44, 5), (pSC 0, 0x40, scCHECK)] with
      nv := { commCnt := 1, commCrc := crc32c [0] }, mem := setMem (slotBase 0) [0] }; let x := (0, [0]); powered s = true ∧
        s.sc.bad = none ∧ scState s = scCHECK ∧ slotSet s 0 = some x ∧ s.nv.commCnt ≠ 0 ∧ slotSet s 1 = none ∧
        x.2.getD 6 0 ≠ s.variant.code) ∧
    (let s : State := { st [(0, 0x44, 5), (pSC 0, 0x40, scCHECK)] with
      mem := setMem (slotBase 0) [0, 0, 0, 0, 0, 0, 1], nv := { commCnt := 1, commCrc := crc32c [0, 0, 0, 0, 0, 0, 1] } };
        let x := (0, [0, 0, 0, 0, 0, 0, 1]); powered s = true ∧ s.sc.bad = none ∧ scState s = scCHECK ∧ slotSet s 0 = some x ∧
        s.nv.commCnt ≠ 0 ∧ slotSet s 1 = none ∧ x.2.getD 6 0 = s.variant.code) := by decide

theorem test_meets_ScarabFollowsItsStates_2 :
    (let s : State := st [(0, 0x44, 2), (0xC0, 0x40, 3)]; powered s = true ∧ s.sc.bad = none ∧ scState s = scOPERATE ∧
      slotSet s s.sc.slot = none) ∧
    (let s : State := { st [(0, 0x44, 5), (pSC 0, 0x40, scOPERATE)] with
      nv := { commCnt := 1, commCrc := crc32c [0] }, mem := setMem (slotBase 0) [0] }; powered s = true ∧ s.sc.bad = none ∧
        scState s = scOPERATE ∧ slotSet s s.sc.slot ≠ none) ∧
    (let s : State := { st [(0, 0x44, 2)] with sc := { bad := (some 0) } }; let x := 0; powered s = true ∧ s.sc.bad = some x ∧
      s.tick < x + msT) ∧
    (let s : State := { st [(0, 0x44, 5)] with tick := 200000, sc := { bad := some 0 } }; let x := 0; powered s = true ∧
      s.sc.bad = some x ∧ x + msT ≤ s.tick) := by decide

theorem test_meets_ScarabRunsItsSafetyFunctions :
    (let s : State := st [(0, 0x44, 2)]; powered s = true ∧ scRuns s = false) ∧
    (let s : State := st [(0, 0x44, 5), (pSC 0, 0x40, scOPERATE)]; powered s = true ∧ scRuns s = true) ∧
    (let s : State := st [(0, 0x44, 5), (pSC 0, 0x40, scOPERATE), (pSC 4, 0x44, 1)]; let z : Fin 4 := 0;
      let due := nth s.sc.ss1At z 0 + 4 * scF s (0x5C + 16 * z) 0 32; powered s = true ∧ scRuns s = true ∧ ss1Code s z = 1 ∧
      due ≤ s.sc.cyc) ∧
    (let s : State := st [(0, 0x44, 2)]; let z : Fin 4 := 0; let due := nth s.sc.ss1At z 0 + 4 * scF s (0x5C + 16 * z) 0 32;
      powered s = true ∧ (ss1Code s z ≠ 1 ∨ s.sc.cyc < due)) ∧
    (let s : State := st [(0, 0x44, 2)]; powered s = true ∧ (s.sc.work = [] ∨ s.sc.bad.isSome = true)) ∧
    (let s : State := { st [(0, 0x44, 5)] with sc := { work := [0] } }; powered s = true ∧ s.sc.work ≠ [] ∧ s.sc.bad = none ∧
      s.sc.sin.length = 16) ∧
    (let s : State := { st [(0, 0x44, 5)] with sc := { work := [0] } }; powered s = true ∧ s.sc.work ≠ [] ∧ s.sc.bad = none ∧
      s.sc.tp.length = 8) ∧
    (let s : State := st [(0, 0x44, 2)]; let n : Fin 4 := 0; let fault : Fin 5 := 0; powered s = true ∧
      (s.sc.bad.isSome = true ∨ ((scRuns s = false ∨ rbit s (pSC 2) 0x40 n = false) ∧ fault.val ≠ 1 ∧ fault.val ≠ 2))) ∧
    (let s : State := st [(0, 0x44, 2)]; let fault : Fin 5 := 1; powered s = true ∧ s.sc.bad = none ∧ (fault.val = 1 ∨ fault.val = 2)) ∧
    (let s : State := st [(0, 0x44, 5), (pSC 0, 0x40, scOPERATE), (pSC 2, 0x40, 1)]; let n : Fin 4 := 0; powered s = true ∧
      scRuns s = true ∧ rbit s (pSC 2) 0x40 n = true) := by decide

theorem test_meets_ScarabLinkJudgesAndProduces :
    (let s : State := st [(0, 0x44, 2)]; let acc : Access := ⟨.internal, .queen⟩; let v : BitVec 32 := 0; Reaches s acc pSL 0x4C true ∧
      bits v.toNat 16 2 ≠ 1 ∧ bits v.toNat 16 2 ≠ 2) ∧
    (let s : State := st [(0, 0x44, 2)]; let acc : Access := ⟨.internal, .queen⟩; let v : BitVec 32 := 65536;
      Reaches s acc pSL 0x4C true ∧ (bits v.toNat 16 2 = 1 ∨ bits v.toNat 16 2 = 2) ∧ acc.master ≠ .stagA) ∧
    (let s : State := st [(0, 0x44, 2)]; let acc : Access := ⟨.stagA, .queen⟩; let v : BitVec 32 := 65536; let n := bits v.toNat 0 16;
      Reaches s acc pSL 0x4C true ∧ (bits v.toNat 16 2 = 1 ∨ bits v.toNat 16 2 = 2) ∧ acc.master = .stagA ∧
      s.sc.wait.find? (fun w => w.num == n) = none) ∧
    (let s : State := { st [(0, 0x44, 5)] with sc := { wait := [⟨0, 0, 0, 0, [], 0, 0⟩] } }; let acc : Access := ⟨.stagA, .queen⟩;
      let v : BitVec 32 := 65536; let n := bits v.toNat 0 16; let w := ⟨0, 0, 0, 0, [], 0, 0⟩; Reaches s acc pSL 0x4C true ∧
      (bits v.toNat 16 2 = 1 ∨ bits v.toNat 16 2 = 2) ∧ acc.master = .stagA ∧ s.sc.wait.find? (fun w => w.num == n) = some w ∧
      s.sc.bad = none ∧ s.tick ≤ w.at_ + msT ∧ fld s (pSTAG 0) 0x40 0 3 = 0 ∧ w.conn < 128) ∧
    (let s : State := st [(0, 0x44, 2)]; powered s = true ∧ s.sc.bad = none) ∧
    (let s : State := st [(0, 0x44, 5), (pSC 0, 0x40, scOPERATE), (pSC 5, 0x40, 2)]; let c : Fin 128 := 0; powered s = true ∧
      scRuns s = true ∧ connState s c = 2 ∧ connGet s.sc.accAt c + 4 * connF s c 4 0 10 ≤ s.sc.cyc) := by decide

theorem test_meets_ScarabLinkJudgesAndProduces_2 :
    (let s : State := st [(0, 0x44, 2), (0xC0, 0x40, 3)]; let c : Fin 128 := 0; powered s = true ∧ scRuns s = true ∧
      (connState s c ≠ 2 ∨ s.sc.cyc < connGet s.sc.accAt c + 4 * connF s c 4 0 10)) ∧
    (let s : State := st [(0, 0x44, 5), (pSC 0, 0x40, scOPERATE), (pSC 5, 0x40, 3)]; let c : Fin 128 := 0; powered s = true ∧
      scRuns s = true ∧ connState s c = 3 ∧ connGet s.sc.prodAt c ≤ s.sc.cyc) ∧
    (let s : State := st [(0, 0x44, 2), (0xC0, 0x40, 3)]; let c : Fin 128 := 0; powered s = true ∧ scRuns s = true ∧
      (connState s c ≠ 3 ∨ s.sc.cyc < connGet s.sc.prodAt c)) ∧
    (let s : State := st [(0, 0x44, 2)]; powered s = true ∧ candState s ≠ 1) ∧
    (let s : State := { st [(0, 0x44, 5), (pSC 7, 0x4C, 1)] with sc := { cand := goodSet } }; powered s = true ∧ candState s = 1 ∧
      s.sc.bad = none ∧ candFault s.variant s.sc.cand.length s.sc.cand = none) ∧
    (let s : State := st [(0, 0x44, 2), (0xC7, 0x4C, 1)]; let f := (2, 0); powered s = true ∧ candState s = 1 ∧ s.sc.bad = none ∧
      candFault s.variant s.sc.cand.length s.sc.cand = some f) ∧
    (let s : State := st [(0, 0x44, 2)]; powered s = true ∧ candState s ≠ 5) ∧
    (let s : State := { st [(0, 0x44, 5), (pSC 7, 0x4C, 5), (pSC 0, 0x40, scHOLD)] with sc := { cand := List.replicate 16 0 } };
      powered s = true ∧ candState s = 5 ∧ s.sc.bad = none ∧ scState s = scHOLD ∧ 16 ≤ s.sc.cand.length ∧ s.sc.cand.length ≤ 0x1000 ∧
      s.sc.cand.all (· < 256) = true) := by decide +kernel

theorem test_meets_ScarabLinkJudgesAndProduces_3 :
    (let s : State := st [(0, 0x44, 2), (0xC8, 0x40, 1), (0xC8, 0x44, 3)]; let acc : Access := ⟨.internal, .queen⟩; let len := 3;
      let a := 1; Reaches s acc pSL 0x08 true ∧ locked s pSL = false ∧ len = rg s pSL 0x44 ∧ a = rg s pSL 0x40 ∧
      (len < 0x900 ∨ 0x1000 < len ∨ len % 4 ≠ 0 ∨ a % 4 ≠ 0 ∨ inSram a len = false)) ∧
    (let s : State := st [(0, 0x44, 7), (pSL, 0x40, 0x20000000), (pSL, 0x44, 0x900)]; let acc : Access := ⟨.stagA, .queen⟩;
      let len := rg s pSL 0x44; let a := rg s pSL 0x40; Reaches s acc pSL 0x08 true ∧ locked s pSL = false ∧ 0x900 ≤ len ∧
      len ≤ 0x1000 ∧ len % 4 = 0 ∧ a % 4 = 0 ∧ inSram a len = true ∧ devState s ≠ .held) ∧
    (let s : State := st [(0, 0x44, 5), (pSL, 0x40, 0x20000000), (pSL, 0x44, 0x900), (pSC 7, 0x4C, 1)];
      let acc : Access := ⟨.stagA, .queen⟩; let len := rg s pSL 0x44; let a := rg s pSL 0x40; Reaches s acc pSL 0x08 true ∧
      locked s pSL = false ∧ 0x900 ≤ len ∧ len ≤ 0x1000 ∧ len % 4 = 0 ∧ a % 4 = 0 ∧ inSram a len = true ∧ devState s = .held ∧
      (candState s = 1 ∨ candState s = 5)) := by decide

theorem test_meets_ScarabLinkJudgesAndProduces_4 :
    let s : State := st [(0, 0x44, 5), (pSL, 0x40, 0x20000000), (pSL, 0x44, 0x900)]; let acc : Access := ⟨.stagA, .queen⟩;
      let len := rg s pSL 0x44; let a := rg s pSL 0x40; Reaches s acc pSL 0x08 true ∧ locked s pSL = false ∧ 0x900 ≤ len ∧
      len ≤ 0x1000 ∧ len % 4 = 0 ∧ a % 4 = 0 ∧ inSram a len = true ∧ devState s = .held ∧ candState s ≠ 1 ∧ candState s ≠ 5 := by decide

theorem test_meets_LedgerMeasuresHealth :
    (let s : State := st []; s.led.chans.length = 48 ∧ (ledOn s = false ∨ devState s ≠ .run)) ∧
    (let s : State := { st [(0, 0x44, 7), (pLEDGER, 0x08, 1), (pLEDGER, 0x40, 0x30001)] with
      pairs := { hi := { on := true, onAt := 1 } } :: List.replicate 31 {}, led := { chans := { mAt := some 1 } :: List.replicate 47 {}
        } }; let x : Fin 6 := 0; let j : Fin 4 := 0; let lo : Bool := false; let c := Fin.ofNat 48 (chanOf x j lo);
        let h := ledChan s c; s.led.chans.length = 48 ∧ ledOn s = true ∧ devState s = .run ∧ s.led.vDone.contains c.val = false ∧
        (chanH s c).on = true ∧ h.mAt = some (chanH s c).onAt ∧ h.vAt ≠ some (chanH s c).onAt ∧
        fld s (pIC (c / 8)) (0x180 + 4 * (c % 8)) 0 16 < fld s pLEDGER 0x40 0 16 ∧ h.vs.length + 1 < fld s pLEDGER 0x40 16 8) ∧
    (let s : State := { st [(0, 0x44, 7), (pLEDGER, 0x08, 1), (pLEDGER, 0x40, 0x10001)] with
      pairs := { hi := { on := true, onAt := 1 } } :: List.replicate 31 {}, led := { chans := { mAt := some 1 } :: List.replicate 47 {}
        }, mem := [(baseAddr 48, 1)] }; let x : Fin 6 := 0; let j : Fin 4 := 0; let lo : Bool := false;
        let c := Fin.ofNat 48 (chanOf x j lo); let h := ledChan s c; s.led.chans.length = 48 ∧ ledOn s = true ∧ devState s = .run ∧
        s.led.vDone.contains c.val = false ∧ (chanH s c).on = true ∧ h.mAt = some (chanH s c).onAt ∧ h.vAt ≠ some (chanH s c).onAt ∧
        fld s (pIC (c / 8)) (0x180 + 4 * (c % 8)) 0 16 < fld s pLEDGER 0x40 0 16 ∧ fld s pLEDGER 0x40 16 8 ≤ h.vs.length + 1 ∧
        fld s pLEDGER 0x40 16 8 % 2 = 1 ∧ baseline s (48 + c) ≠ 0) ∧
    (let s : State := st [(0, 0x44, 7), (pLEDGER, 0x08, 1)]; let x : Fin 6 := 0; let j : Fin 4 := 0; let lo : Bool := false;
      let c := Fin.ofNat 48 (chanOf x j lo); let h := ledChan s c; s.led.chans.length = 48 ∧ ledOn s = true ∧ devState s = .run ∧
      s.tick < h.ronAt + 1000 * msT) ∧
    (let s : State := { st [(0, 0x44, 7), (pLEDGER, 0x08, 1)] with tick := 200000000 }; let x : Fin 6 := 0; let j : Fin 4 := 0;
      let lo : Bool := false; let c := Fin.ofNat 48 (chanOf x j lo); let h := ledChan s c; s.led.chans.length = 48 ∧ ledOn s = true ∧
      devState s = .run ∧ h.ronAt + 1000 * msT ≤ s.tick ∧ h.ronN < 16) := by decide

theorem test_meets_LedgerMeasuresHealth_2 :
    (let s : State := { st [(0, 0x44, 7), (pLEDGER, 0x08, 1), (pLEDGER, 0x44, 0)] with
      tick := 200000000, led := { chans := { ronN := 16, ron := 16 } :: List.replicate 47 {} }, mem := [(baseAddr 0, 1)] };
        let x : Fin 6 := 0; let j : Fin 4 := 0; let lo : Bool := false; let c := Fin.ofNat 48 (chanOf x j lo); let h := ledChan s c;
        let up : Bool := false; let r := h.ron.toNat / h.ronN + b2n (up && h.ron.toNat % h.ronN != 0);
        let tref := sgn 16 (fld s pLEDGER 0x44 16 16); s.led.chans.length = 48 ∧ ledOn s = true ∧ devState s = .run ∧
        h.ronAt + 1000 * msT ≤ s.tick ∧ 16 ≤ h.ronN ∧ r ≠ 0 ∧ baseline s c ≠ 0 ∧ tref - 1280 ≤ ronTemp s c ∧
        ronTemp s c ≤ tref + 1280) ∧
    (let s : State := st [(0, 0x44, 7), (pLEDGER, 0x08, 1)]; let x : Fin 6 := 0; let j : Fin 4 := 0; let lo : Bool := false;
      let c := Fin.ofNat 48 (chanOf x j lo); let h := ledChan s c; s.led.chans.length = 48 ∧ ledOn s = true ∧ devState s = .run ∧
      s.tick < h.scrAt + 1000 * msT) ∧
    (let s : State := { st [(0, 0x44, 7), (pLEDGER, 0x08, 1)] with tick := 200000000 }; let x : Fin 6 := 0; let j : Fin 4 := 0;
      let lo : Bool := false; let c := Fin.ofNat 48 (chanOf x j lo); let h := ledChan s c; s.led.chans.length = 48 ∧ ledOn s = true ∧
      devState s = .run ∧ h.scrAt + 1000 * msT ≤ s.tick ∧ h.scrN < 16) ∧
    (let s : State := { st [(0, 0x44, 7), (pLEDGER, 0x08, 1), (pLEDGER, 0x90, 0), (pCAL, 0x400, 1), (pCAL, 0x580, 1)] with
      tick := 200000000, led := { chans := { scrN := 16, scrS := 1 } :: List.replicate 47 {} } }; let x : Fin 6 := 0;
        let j : Fin 4 := 0; let lo : Bool := false; let c := Fin.ofNat 48 (chanOf x j lo); let h := ledChan s c;
        s.led.chans.length = 48 ∧ ledOn s = true ∧ devState s = .run ∧ h.scrAt + 1000 * msT ≤ s.tick ∧ 16 ≤ h.scrN ∧ scrMap s c ≠ 0xFF ∧
        rg s pCAL (0x400 + 8 * c) ≠ 0 ∧ rg s pCAL (0x580 + 4 * c) ≠ 0 ∧ h.scrS ≠ 0) ∧
    (let s : State := st []; s.led.chans.length = 48 ∧ (s.led.zAt = none ∨ ledOn s = false)) ∧
    (let s : State := { st [(0, 0x44, 5)] with led := { zAt := some 0 } }; let x : Fin 6 := 0; let z := 0; s.led.chans.length = 48 ∧
      s.led.zAt = some z ∧ (s.tick < z + 1000 * msT ∨ s.led.zDone.contains x.val = true)) := by decide

theorem test_meets_LedgerMeasuresHealth_3 :
    (let s : State := { st [(0, 0x44, 5), (pLEDGER, 0x08, 1)] with
      tick := 200000000, led := { zAt := some 0, zT := [2560] }, mem := [(baseAddr 96, 1)] }; let x : Fin 6 := 0; let z := 0;
        let a := sgn 16 (nth s.led.zT x 0); let b := sgn 16 s.led.zB; s.led.chans.length = 48 ∧ s.led.zAt = some z ∧ ledOn s = true ∧
        z + 1000 * msT ≤ s.tick ∧ s.led.zDone.contains x.val = false ∧ baseline s (96 + x) ≠ 0 ∧ 10 * 256 ≤ a - b) ∧
    (let s : State := st []; s.led.chans.length = 48 ∧ s.led.pre.isNone = true) ∧
    (let s : State := { st [(0, 0x44, 5), (pLEDGER, 0x08, 1), (pLEDGER, 0x4C, 500)] with
      led := { pre := some { vs := 0, dt := some 8317800 } }, mem := [(baseAddr 102, 1)] }; let d20 : Fin 200 := 0;
        let d60 : Fin 200 := 0; let x := { vs := 0, dt := some 8317800 }; let d := 8317800;
        let c := capOf (5 * (d + d20 - d60)) (fld s pLEDGER 0x4C 0 16); s.led.chans.length = 48 ∧ s.led.pre = some x ∧ x.dt = some d ∧
        ledOn s = true ∧ fld s pLEDGER 0x4C 0 16 ≠ 0 ∧ c ≠ 0 ∧ baseline s 102 ≠ 0) ∧
    (let s : State := st []; s.led.chans.length = 48 ∧
      (ledOn s = false ∨ rbit s pLEDGER 0x88 0 = false ∨ s.tick < s.led.xAt + 1000 * msT)) ∧
    (let s : State := { st [(0, 0x44, 5), (pLEDGER, 0x08, 1), (pLEDGER, 0x88, 1)] with tick := 200000000 }; s.led.chans.length = 48 ∧
      ledOn s = true ∧ rbit s pLEDGER 0x88 0 = true ∧ s.led.xAt + 1000 * msT ≤ s.tick ∧ s.led.xN < 63) ∧
    (let s : State := { st [(0, 0x44, 5), (pLEDGER, 0x08, 1), (pLEDGER, 0x88, 1)] with tick := 200000000, led := { xN := 63 } };
      s.led.chans.length = 48 ∧ ledOn s = true ∧ rbit s pLEDGER 0x88 0 = true ∧ s.led.xAt + 1000 * msT ≤ s.tick ∧ 63 ≤ s.led.xN) ∧
    (let s : State := st [(0, 0x44, 2)]; let acc : Access := ⟨.stagA, .queen⟩; s.led.chans.length = 48 ∧
      Reaches s acc pLEDGER 0x08 true ∧ locked s pLEDGER = false ∧ devState s ≠ .held ∧ devState s ≠ .ready) := by decide

theorem test_meets_LedgerMeasuresHealth_4 :
    (let s : State := st [(0, 0x44, 5)]; let acc : Access := ⟨.stagA, .queen⟩; s.led.chans.length = 48 ∧
      Reaches s acc pLEDGER 0x08 true ∧ locked s pLEDGER = false ∧ (devState s = .held ∨ devState s = .ready)) ∧
    (let s : State := st [(0, 0x44, 2), (0xC, 0x44, 0xF)]; let acc : Access := ⟨.stagA, .queen⟩; let m := fld s pSPARE 0x44 0 5;
      s.led.chans.length = 48 ∧ Reaches s acc pSPARE 0x08 true ∧ locked s pSPARE = false ∧ 14 < m) ∧
    (let s : State := st [(0, 0x44, 2)]; let acc : Access := ⟨.stagA, .queen⟩; let m := fld s pSPARE 0x44 0 5; s.led.chans.length = 48 ∧
      Reaches s acc pSPARE 0x08 true ∧ locked s pSPARE = false ∧ m ≤ 14 ∧ (devState s).running = false) ∧
    (let s : State := st [(0, 0x44, 7), (pSPARE, 0x40, 1), (pSUPPLY, 0x50, 0x20)]; let acc : Access := ⟨.stagA, .queen⟩;
      let m := fld s pSPARE 0x44 0 5; s.led.chans.length = 48 ∧ Reaches s acc pSPARE 0x08 true ∧ locked s pSPARE = false ∧ m ≤ 14 ∧
      (devState s).running = true ∧ rbit s pSPARE 0x40 0 = true ∧ fld s pSPARE 0x4C 0 2 ≠ 1 ∧ rbit s pSUPPLY 0x50 5 = true ∧
      acc.master = .stagA ∧ (∀ k, k < 24 → k ≠ 23 → legPair s k ≠ 23)) ∧
    (let s : State := st []; s.led.chans.length = 48 ∧
      (fld s pSPARE 0x4C 0 2 ≠ 1 ∨ s.tick < s.led.spAt + rg s pSPARE 0x48 * msT)) := by decide

theorem test_meets_LedgerMeasuresHealth_5 :
    let s : State := st [(0, 0x44, 5), (pSPARE, 0x4C, 1), (pSPARE, 0x48, 0)]; s.led.chans.length = 48 ∧ powered s = true ∧
      fld s pSPARE 0x4C 0 2 = 1 ∧ s.led.spAt + rg s pSPARE 0x48 * msT ≤ s.tick := by decide

theorem test_meets_AntlineAndBandwidthCount :
    (let s : State := st [(0, 0x44, 2)]; let acc : Access := ⟨.stagA, .queen⟩; let x : PairId := .b;
      Reaches s acc (pANT (pairIx x)) 0x08 true ∧ locked s (pANT (pairIx x)) = false) ∧
    (let s : State := st [(0, 0x44, 2)]; let acc : Access := ⟨.stagA, .queen⟩; let x : PairId := .a; let n : Fin 9 := 0;
      Reaches s acc (pANT (pairIx x)) (antLowOff n) false) ∧
    (let s : State := { st [(0, 0x44, 5), (pANT 0, 0x40, 1), (pANT 0, 0x50, 0x730)] with
      ant := [{ pmc := [2^48-1, 0, 0, 0, 0, 0, 0, 0] }, {}] }; let x : PairId := .a; let n : Fin 8 := 0; let i := pairIx x;
        let evt := fld s (pANT i) (0x50 + 16 * n) 0 8;
        let ok := (pmcCounts s i evt n && pmcTiming evt && pairStat s i != 3 && nth (antH s i).pmc n 0 == 2 ^ 48 - 1 && !
          (antH s i).wrote.contains n.val); powered s = true ∧ ok = true ∧ i < s.ant.length) ∧
    (let s : State := st [(0, 0x44, 2)]; let x : PairId := .a; let n : Fin 8 := 0; let i := pairIx x;
      let evt := fld s (pANT i) (0x50 + 16 * n) 0 8;
      let ok := (pmcCounts s i evt n && pmcTiming evt && pairStat s i != 3 && nth (antH s i).pmc n 0 == 2 ^ 48 - 1 && !
        (antH s i).wrote.contains n.val); powered s = true ∧ ok = false) ∧
    (let s : State := st [(0, 0x44, 2)]; let e := s.bw.at_ + fld s pBWMON 0x40 0 20 * usT; powered s = true ∧
      (s.tick < e ∨ rbit s pBWMON 0x08 0 = false)) ∧
    (let s : State := { st [(0, 0x44, 5), (pBWMON, 0x08, 1)] with tick := 100000000 }; let e := s.bw.at_ + fld s pBWMON 0x40 0 20 * usT;
      powered s = true ∧ e ≤ s.tick ∧ rbit s pBWMON 0x08 0 = true) ∧
    (let s : State := { st [(0, 0x44, 2), (0xA, 8, 1)] with bw := { thr := [0, 0, 1] } }; let p : Fin 16 := 2; powered s = true ∧
      rbit s pBWMON 0x08 0 = true ∧ nth s.bw.thr p 0 ≠ 0 ∧ bit s.bw.done p = false) ∧
    (let s : State := st [(0, 0x44, 2)]; let p : Fin 16 := 0; powered s = true ∧
      (rbit s pBWMON 0x08 0 = false ∨ nth s.bw.thr p 0 = 0 ∨ bit s.bw.done p = true)) := by decide

theorem test_meets_DebugPortHaltsAndReads :
    (let s : State := { st [(0, 0x44, 2)] with variant := .h12d }; let acc : Access := ⟨.debug, .drone⟩; s.stag.length = 2 ∧
      s.mt.length = 4 ∧ Reaches s acc pDEBUG 0x08 true ∧ locked s pDEBUG = false ∧ devState s ≠ .held) ∧
    (let s : State := st [(0, 0x44, 5), (pDEBUG, 0x40, 1), (pPACT, 0x41C, 0xFFFFFFFF)]; let acc : Access := ⟨.stagA, .queen⟩;
      s.stag.length = 2 ∧ s.mt.length = 4 ∧ Reaches s acc pDEBUG 0x08 true ∧ locked s pDEBUG = false ∧ devState s = .held ∧
      (rbit s pDEBUG 0x40 0 = true ∨ fld s pDEBUG 0x40 2 2 = 3)) ∧
    (let s : State := st [(0, 0x44, 5)]; let acc : Access := ⟨.stagA, .queen⟩; s.stag.length = 2 ∧ s.mt.length = 4 ∧
      Reaches s acc pDEBUG 0x08 true ∧ locked s pDEBUG = false ∧ devState s = .held ∧ rbit s pDEBUG 0x40 0 = false ∧
      fld s pDEBUG 0x40 2 2 ≠ 3) ∧
    (let s : State := st [(0, 0x44, 2)]; let acc : Access := ⟨.internal, .queen⟩; let x : Fin 8 := 2; s.stag.length = 2 ∧
      s.mt.length = 4 ∧ Reaches s acc pDEBUG 0x44 true ∧ (x.val = 2 ∨ x.val = 3)) := by decide

theorem test_meets_DebugPortHaltsAndReads_2 :
    (let s : State := st [(0, 0x44, 2)]; let acc : Access := ⟨.internal, .queen⟩; let x : Fin 8 := 2; s.stag.length = 2 ∧
      s.mt.length = 4 ∧ Reaches s acc pDEBUG 0x44 true ∧ 2 ≤ x.val) ∧
    (let s : State := st [(0, 0x44, 2)]; let acc : Access := ⟨.stagA, .queen⟩; let x : Fin 8 := 0; s.stag.length = 2 ∧ s.mt.length = 4 ∧
      Reaches s acc pDEBUG 0x44 true ∧ x.val ≠ 2 ∧ x.val ≠ 3 ∧ s.variant ≠ .h12d ∧ devState s ≠ .held ∧ devState s ≠ .ready) ∧
    (let s : State := st [(0, 0x44, 5)]; let acc : Access := ⟨.stagA, .queen⟩; let x : Fin 8 := 0; s.stag.length = 2 ∧ s.mt.length = 4 ∧
      Reaches s acc pDEBUG 0x44 true ∧ x.val ≠ 2 ∧ x.val ≠ 3 ∧ (s.variant = .h12d ∨ devState s = .held ∨ devState s = .ready) ∧
      rbit s pDEBUG 0x40 0 = false) := by decide

theorem test_meets_DebugPortHaltsAndReads_3 :
    (let s : State := st [(0, 0x44, 5), (pDEBUG, 0x40, 1), (pPACT, 0x41C, 0xFFFFFFFF), (pSTAG 0, 0x40, 3)];
      let acc : Access := ⟨.debug, .queen⟩; let x : Fin 8 := 0; s.stag.length = 2 ∧ s.mt.length = 4 ∧ Reaches s acc pDEBUG 0x44 true ∧
      x.val ≠ 2 ∧ x.val ≠ 3 ∧ (s.variant = .h12d ∨ devState s = .held ∨ devState s = .ready) ∧ rbit s pDEBUG 0x40 0 = true ∧
      acc.master = .debug ∧ x.val < 2 ∧ fld s (pSTAG x) 0x40 0 3 ≠ 0) ∧
    (let s : State := st [(0, 0x44, 5), (pDEBUG, 0x40, 1), (pPACT, 0x41C, 0xFFFFFFFF)]; let acc : Access := ⟨.debug, .queen⟩;
      let x : Fin 8 := 0; s.stag.length = 2 ∧ s.mt.length = 4 ∧ Reaches s acc pDEBUG 0x44 true ∧ x.val ≠ 2 ∧ x.val ≠ 3 ∧
      (s.variant = .h12d ∨ devState s = .held ∨ devState s = .ready) ∧ rbit s pDEBUG 0x40 0 = true ∧ acc.master = .debug ∧ x.val < 2 ∧
      fld s (pSTAG x) 0x40 0 3 = 0) ∧
    (let s : State := st [(0, 0x44, 5), (pDEBUG, 0x40, 1), (pPACT, 0x41C, 0xFFFFFFFF), (pSTAG 0, 0x40, 3)];
      let acc : Access := ⟨.debug, .queen⟩; let x : Fin 8 := 0; s.stag.length = 2 ∧ s.mt.length = 4 ∧ Reaches s acc pDEBUG 0x44 true ∧
      x.val ≠ 2 ∧ x.val ≠ 3 ∧ (s.variant = .h12d ∨ devState s = .held ∨ devState s = .ready) ∧ rbit s pDEBUG 0x40 0 = true ∧
      acc.master = .debug ∧ x.val < 2 ∧ fld s (pSTAG x) 0x40 0 3 = 3) := by decide

theorem test_meets_DebugPortHaltsAndReads_4 :
    (let s : State := st [(0, 0x44, 5), (pDEBUG, 0x40, 1), (pPACT, 0x41C, 0xFFFFFFFF)]; let acc : Access := ⟨.debug, .queen⟩;
      let x : Fin 8 := 4; let e := x.val - 4; s.stag.length = 2 ∧ s.mt.length = 4 ∧ Reaches s acc pDEBUG 0x44 true ∧ x.val ≠ 2 ∧
      x.val ≠ 3 ∧ (s.variant = .h12d ∨ devState s = .held ∨ devState s = .ready) ∧ rbit s pDEBUG 0x40 0 = true ∧ acc.master = .debug ∧
      4 ≤ x.val ∧ mtState s e ≠ mtRUN ∧ mtState s e ≠ mtIDLE) ∧
    (let s : State := st [(0, 0x44, 5), (pDEBUG, 0x40, 1), (pPACT, 0x41C, 0xFFFFFFFF), (pMT 0, 0x0C, mtIDLE)];
      let acc : Access := ⟨.debug, .queen⟩; let x : Fin 8 := 4; let e := x.val - 4; s.stag.length = 2 ∧ s.mt.length = 4 ∧
      Reaches s acc pDEBUG 0x44 true ∧ x.val ≠ 2 ∧ x.val ≠ 3 ∧ (s.variant = .h12d ∨ devState s = .held ∨ devState s = .ready) ∧
      rbit s pDEBUG 0x40 0 = true ∧ acc.master = .debug ∧ 4 ≤ x.val ∧ (mtState s e = mtRUN ∨ mtState s e = mtIDLE)) ∧
    (let s : State := st [(0, 0x44, 5), (pDEBUG, 0x40, 1), (pPACT, 0x41C, 0xFFFFFFFF), (pMT 0, 0x0C, mtHALTED)];
      let acc : Access := ⟨.debug, .queen⟩; let x : Fin 8 := 4; let e := x.val - 4; s.stag.length = 2 ∧ s.mt.length = 4 ∧
      Reaches s acc pDEBUG 0x44 true ∧ x.val ≠ 2 ∧ x.val ≠ 3 ∧ (s.variant = .h12d ∨ devState s = .held ∨ devState s = .ready) ∧
      rbit s pDEBUG 0x40 0 = true ∧ acc.master = .debug ∧ 4 ≤ x.val ∧ mtState s e = mtHALTED) := by decide

theorem test_meets_DebugPortHaltsAndReads_5 :
    (let s : State := st [(0, 0x44, 2)]; let acc : Access := ⟨.internal, .drone⟩; let x := fld s pDEBUG 0x58 8 1; s.stag.length = 2 ∧
      s.mt.length = 4 ∧ Reaches s acc pDEBUG 0x5C true ∧ fld s (pSTAG x) 0x40 0 3 ≠ 3) ∧
    (let s : State := st [(0, 0x44, 2), (0x10, 0x40, 3)]; let acc : Access := ⟨.internal, .queen⟩; let x := fld s pDEBUG 0x58 8 1;
      s.stag.length = 2 ∧ s.mt.length = 4 ∧ Reaches s acc pDEBUG 0x5C true ∧ fld s (pSTAG x) 0x40 0 3 = 3) ∧
    (let s : State := { st [(0, 0x44, 2), (pDEBUG, 0x40, 1), (pPACT, 0x41C, 0xFFFFFFFF)] with variant := .h12d };
      let acc : Access := ⟨.stagA, .queen⟩; let x : Fin 8 := 0; s.stag.length = 2 ∧ s.mt.length = 4 ∧ Reaches s acc pDEBUG 0x44 true ∧
      acc.master ≠ .debug ∧ rbit s pDEBUG 0x40 0 = true ∧ (s.variant = .h12d ∨ devState s = .held ∨ devState s = .ready) ∧ x.val ≠ 2 ∧
      x.val ≠ 3 ∧ haltStateOk s 1 x = true) ∧
    (let s : State := { st [(0, 0x44, 2), (pDEBUG, 0x40, 1), (pPACT, 0x41C, 0xFFFFFFFF), (pSTAG 0, 0x40, 3)] with variant := .h12d };
      let acc : Access := ⟨.stagA, .queen⟩; let x : Fin 8 := 0; s.stag.length = 2 ∧ s.mt.length = 4 ∧ Reaches s acc pDEBUG 0x44 true ∧
      acc.master ≠ .debug ∧ rbit s pDEBUG 0x40 0 = true ∧ (s.variant = .h12d ∨ devState s = .held ∨ devState s = .ready) ∧ x.val ≠ 2 ∧
      x.val ≠ 3 ∧ haltStateOk s 2 x = true) := by decide

theorem test_meets_DebugPortHaltsAndReads_6 :
    let s : State := { st [(0, 0x44, 2), (pDEBUG, 0x40, 1), (pPACT, 0x41C, 0xFFFFFFFF), (pSTAG 0, 0x40, 3)] with variant := .h12d };
      let acc : Access := ⟨.stagA, .queen⟩; let x : Fin 8 := 0; s.stag.length = 2 ∧ s.mt.length = 4 ∧ Reaches s acc pDEBUG 0x44 true ∧
      acc.master ≠ .debug ∧ rbit s pDEBUG 0x40 0 = true ∧ (s.variant = .h12d ∨ devState s = .held ∨ devState s = .ready) ∧ x.val ≠ 2 ∧
      x.val ≠ 3 ∧ x.val < 2 ∧ haltStateOk s 3 x = true := by decide

end Sys2Proof.Tests
end

section
/-! PROOF. The write of `SYS:PROFILE` (R15): what a write that reaches its page does (R67, R85, R87), what a refusal and a store
leave as they were, and the obligation. -/
namespace Sys2Proof.Machine

/-! ## Frames of registers -/

theorem OnlyRegs.refl (ws : List (Nat × Nat)) (s : State) : OnlyRegs ws s s := fun _ _ _ _ => rfl

theorem OnlyRegs.trans {ws : List (Nat × Nat)} {s t u : State} (hst : OnlyRegs ws s t) (htu : OnlyRegs ws t u) : OnlyRegs ws s u :=
  fun p o ho hn => (htu p o ho hn).trans (hst p o ho hn)

theorem OnlyRegs.mono {ws ws' : List (Nat × Nat)} {s t : State} (h : OnlyRegs ws s t) (hsub : ws ⊆ ws') : OnlyRegs ws' s t :=
  fun p o ho hn => h p o ho (fun hm => hn (hsub hm))

theorem onlyRegs_of_regs {s t : State} (hv : t.variant = s.variant) (hr : t.regs = s.regs) (ws : List (Nat × Nat)) :
    OnlyRegs ws s t := fun p o _ _ => rg_congr hv hr p o

theorem onlyRegs_setRg (s : State) {p o : Nat} (v : Nat) (ho : o < 4096) : OnlyRegs [(p, o)] s (setRg p o v s) := by
  intro q k hk hn
  have hne : q * 4096 + k ≠ p * 4096 + o := by
    intro he
    exact hn (by simp; omega)
  exact rg_setRg_ne s v hne

theorem onlyRegs_setBit (s : State) {p o : Nat} (i : Nat) (b : Bool) (ho : o < 4096) : OnlyRegs [(p, o)] s (setBit p o i b s) :=
  onlyRegs_setRg s _ ho

theorem onlyRegs_flag (s : State) (p i : Nat) : OnlyRegs [(p, 0x10)] s (flag p i s) :=
  onlyRegs_setRg s _ (by decide)

theorem sameCore_of_core {s t : State} (h : t.core = s.core) : SameCore s t :=
  ⟨fun a => by rw [core_mem h], core_nv h, core_stag h, core_tick h, core_pending h, core_variant h⟩

/-! ## An access that reaches its page (R67, R85) -/

theorem tally_regs (acc : Access) (ps : List Nat) (n : Nat) (wr dev : Bool) (s : State) : (tally acc ps n wr dev s).regs = s.regs := by
  have hbw : ∀ qs, (bwSeen qs n wr s).regs = s.regs := by
    intro qs
    unfold bwSeen
    extract_lets
    split
    · rfl
    · split <;> rfl
  unfold tally stagSeen
  cases acc.master <;> exact hbw _

/-- The state in which the write of a page is answered, `u` being what the page made of it. -/
def answered (acc : Access) (u : State) : State := { tally acc [10] 4 true true u with reply := ⟨0, false⟩ }

@[simp] theorem answered_reply (acc : Access) (u : State) : (answered acc u).reply = ⟨0, false⟩ := (rfl)

theorem answered_core (acc : Access) (u : State) : (answered acc u).core = u.core := tally_core acc [10] 4 true true u

@[simp] theorem rg_answered (acc : Access) (u : State) (p o : Nat) : rg (answered acc u) p o = rg u p o :=
  rg_congr (core_variant (answered_core acc u)) (tally_regs acc [10] 4 true true u) p o

@[simp] theorem fld_answered (acc : Access) (u : State) (p o lo w : Nat) : fld (answered acc u) p o lo w = fld u p o lo w := by
  simp [fld]

@[simp] theorem rbit_answered (acc : Access) (u : State) (p o i : Nat) : rbit (answered acc u) p o i = rbit u p o i := by
  simp [rbit]

theorem OnlyRegs.answered {ws : List (Nat × Nat)} {s u : State} (h : OnlyRegs ws s u) (acc : Access) :
    OnlyRegs ws s (answered acc u) := fun p o ho hn => (rg_answered acc u p o).trans (h p o ho hn)

theorem onBus_of_reaches {s : State} {acc : Access} {p o : Nat} (h : Reaches s acc p o true) (f : State → State) :
    onBus acc p o f s = answered acc (f s) := by
  obtain ⟨hpow, hshut, hpage, hpact⟩ := h
  have hpage' : pageOf p ≠ none := Option.isSome_iff_ne_none.1 hpage
  simp [onBus, hpow, hshut, hpage', hpact, answered]

/-! ## A refused write (R85, R86) -/

theorem masterCode_lt (m : Master) : masterCode m < 8 := by cases m <;> decide

theorem Reason.code_lt (r : Reason) : r.code < 16 := by cases r <;> decide

theorem b2n_le_one (b : Bool) : b2n b ≤ 1 := by cases b <;> decide

theorem onlyRegs_refuse (acc : Access) (p o v : Nat) (r : Reason) (s : State) :
    OnlyRegs [(p, 0x20), (p, 0x10)] s (refuse acc p o v r s) := by
  unfold refuse
  refine OnlyRegs.trans ?_ ((onlyRegs_flag _ p 31).mono (by simp))
  refine OnlyRegs.trans ?_ ((onlyRegs_setRg _ _ (by decide)).mono (by simp))
  exact onlyRegs_of_regs (by rfl) (by rfl) _

/-- R86: the word a refusal leaves in `REJECT`. -/
theorem rg_refuse_reject (acc : Access) (p o v : Nat) (r : Reason) (s : State) :
    rg (refuse acc p o v r s) p 0x20 = 2 ^ 31 + masterCode acc.master * 2 ^ 28 + r.code * 2 ^ 24 + v % 256 * 2 ^ 16
      + b2n (rbit s p 0x20 31) * 2 ^ 12 + o % 4096 := by
  have hm := masterCode_lt acc.master
  have hr := r.code_lt
  have hb := b2n_le_one (rbit s p 0x20 31)
  unfold refuse
  rw [rg_flag_ne _ _ (by omega), rg_setRg_same, Nat.mod_eq_of_lt (by omega)]

theorem rbit_refuse_valid (acc : Access) (p o v : Nat) (r : Reason) (s : State) :
    rbit (refuse acc p o v r s) p 0x20 31 = true := by
  have hm := masterCode_lt acc.master
  have hr := r.code_lt
  have hb := b2n_le_one (rbit s p 0x20 31)
  rw [rbit, bit, rg_refuse_reject, beq_iff_eq]
  omega

theorem fld_refuse_offset (acc : Access) (p o v : Nat) (r : Reason) (s : State) :
    fld (refuse acc p o v r s) p 0x20 0 12 = o % 4096 := by
  simp only [fld, bits, rg_refuse_reject]
  omega

theorem fld_refuse_value (acc : Access) (p o v : Nat) (r : Reason) (s : State) :
    fld (refuse acc p o v r s) p 0x20 16 8 = v % 256 := by
  have hb := b2n_le_one (rbit s p 0x20 31)
  simp only [fld, bits, rg_refuse_reject]
  omega

theorem rbit_refuse_rej (acc : Access) (p o v : Nat) (r : Reason) (s : State) : rbit (refuse acc p o v r s) p 0x10 31 = true :=
  rbit_flag_same _ p 31 (by decide)

/-! ## A stored write (R79, R87, R101) -/

theorem onlyRegs_saveStale (s : State) : OnlyRegs [(pCOCOON, 0x40)] s (saveStale s) := by
  unfold saveStale
  split
  · exact onlyRegs_setBit s _ _ (by decide)
  · exact OnlyRegs.refl _ _

/-- On a page without a bit in `DET_STAT` a stored change brings `CHKB` and a stale save, and nothing else. -/
theorem onlyRegs_afterConfigChange {p : Nat} (hdet : detBit p = none) (epoch : Bool) (s : State) :
    OnlyRegs [(p, 0x0C), (pCOCOON, 0x40)] s (afterConfigChange p epoch s) := by
  have hmark : OnlyRegs [(p, 0x0C), (pCOCOON, 0x40)] s (if epoch then s else setBit p 0x0C 11 true s) := by
    split
    · exact OnlyRegs.refl _ _
    · exact (onlyRegs_setBit s _ _ (by decide)).mono (by simp)
  simp only [afterConfigChange, hdet, Option.isSome_none, Bool.false_eq_true, and_false, if_false]
  exact hmark.trans ((onlyRegs_saveStale _).mono (by simp))

/-- A store to a register that is not epoch-buffered writes it, and what follows from the change touches no register but
`PAGE_STATE` and `SAVE_STAT`. -/
theorem onlyRegs_setRg_storeReg {r : RegRow} (he : r.epoch = false) {p : Nat} (hdet : detBit p = none) (o new : Nat) (s : State) :
    OnlyRegs [(p, 0x0C), (pCOCOON, 0x40)] (setRg p o new s) (storeReg r p o new s) := by
  simp only [storeReg, he, Bool.false_eq_true, if_false]
  split
  · exact OnlyRegs.refl _ _
  · split
    · exact onlyRegs_afterConfigChange hdet false _
    · exact OnlyRegs.refl _ _

theorem onlyRegs_storeReg {r : RegRow} (he : r.epoch = false) {p o : Nat} (hdet : detBit p = none) (ho : o < 4096) (new : Nat)
    (s : State) : OnlyRegs [(p, o), (p, 0x0C), (pCOCOON, 0x40)] s (storeReg r p o new s) :=
  ((onlyRegs_setRg s new ho).mono (by simp)).trans ((onlyRegs_setRg_storeReg he hdet o new s).mono (by simp))

theorem rg_storeReg_same {r : RegRow} (he : r.epoch = false) {p o : Nat} (hdet : detBit p = none) (ho : o < 4096)
    (hn : (p, o) ∉ [(p, 0x0C), (pCOCOON, 0x40)]) (new : Nat) (s : State) : rg (storeReg r p o new s) p o = new % 2 ^ 32 :=
  (onlyRegs_setRg_storeReg he hdet o new s p o ho hn).trans (rg_setRg_same s p o new)

/-- R5, R70: a write of a register of access R/W whose writable bits are its low `w` replaces those bits. -/
theorem merge_rw_low {r : RegRow} {w : Nat} (ha : r.acc = .rw) (hm : r.mask = 2 ^ w - 1) (old v : Nat) :
    r.merge old v = putBits old 0 w v := by
  have hhigh : old - old % 2 ^ w = 2 ^ w * (old / 2 ^ w) := by
    have := Nat.mod_add_div old (2 ^ w)
    omega
  simp only [RegRow.merge, ha, hm, orN, clrN, putBits, bits, Nat.and_two_pow_sub_one_eq_mod, Nat.pow_zero, Nat.div_one, Nat.mul_one]
  rw [hhigh, Nat.two_pow_add_eq_or_of_lt (Nat.mod_lt v (Nat.two_pow_pos w))]

/-! ## The checks of a page write (R87) -/

section Row
variable {acc : Access} {p o v : Nat} {chk : Nat → Nat → Option Reason} {eff : State → State} {s : State} {k : PageKind} {i : Nat}
  {r : RegRow} (hp : pageOf p = some (k, i)) (hview : isView k i o = false) (hrow : rowAt k i o = some r) (hacc : r.acc ≠ .ro)
  (he : r.epoch = false)
include hp hview hrow hacc he

/-- A write that the page's checks pass, and that meets no lock, is stored. -/
theorem busStore_accepted (hl : locked s p = false) (hchk : chk (rg s p o) (r.merge (rg s p o) v) = none) :
    busStore acc p o v chk eff s = eff (storeReg r p o (r.merge (rg s p o) v) s) := by
  simp [busStore, hp, hview, hrow, hacc, he, hl, hchk]

/-- A write that fails a check of its page is refused, for that reason or for the page's lock. -/
theorem busStore_refused {rs : Reason} (hchk : chk (rg s p o) (r.merge (rg s p o) v) = some rs) :
    ∃ rs', busStore acc p o v chk eff s = refuse acc p o v rs' s := by
  simp only [busStore, hp, hview, hrow, hacc, he, hchk, Bool.false_eq_true, false_and, if_false]
  split
  · exact ⟨.locked, rfl⟩
  · exact ⟨rs, rfl⟩

end Row

/-! ## `SYS:PROFILE` (R15) -/

/-- The line of `PROFILE` in the register table of `SYS`. -/
def profileRow : RegRow := ⟨0x40, 4, 1, .rw, .k, false, 0x0, 0x3⟩

theorem rowAt_profile : rowAt .sys 0 0x40 = some profileRow := by decide

theorem merge_profile (old v : Nat) : profileRow.merge old v = putBits old 0 2 v := merge_rw_low rfl rfl old v

/-- R15: the checks of a write that leaves `new` in `PROFILE` pass it in HELD alone, with 0b00 or 0b01 in `PROF`. -/
theorem sysChk_profile_eq_none_iff (s : State) (v old new : Nat) :
    sysChk s 0x40 v old new = none ↔ bits new 0 2 < 2 ∧ devState s = .held := by
  by_cases hval : 2 ≤ bits new 0 2 <;> by_cases hheld : devState s = .held <;> simp [sysChk, firstReason, hval, hheld] <;> omega

theorem sysWrite_profile (acc : Access) (v : Nat) (s : State) :
    sysWrite acc 0x40 v s = busStore acc pSYS 0x40 v (sysChk s 0x40 v) id s := rfl

theorem bits_merge_profile (old v : Nat) : bits (profileRow.merge old v) 0 2 = bits v 0 2 := by
  rw [merge_profile, bits_putBits_same]
  simp [bits]

/-- R15: an accepted write of `PROFILE` is stored. -/
theorem sysWrite_profile_accepted (acc : Access) {v : Nat} {s : State} (hheld : devState s = .held) (hval : bits v 0 2 < 2)
    (hl : locked s pSYS = false) :
    sysWrite acc 0x40 v s = storeReg profileRow pSYS 0x40 (putBits (rg s pSYS 0x40) 0 2 v) s := by
  rw [sysWrite_profile, ← merge_profile]
  refine busStore_accepted (k := .sys) (i := 0) (by decide) (by decide) rowAt_profile (by decide) rfl hl ?_
  rw [sysChk_profile_eq_none_iff, bits_merge_profile]
  exact ⟨hval, hheld⟩

/-- R15: an accepted write leaves its `PROF` and the other fields of the register. -/
theorem rg_sysWrite_profile_accepted (acc : Access) {v : Nat} {s : State} (hheld : devState s = .held) (hval : bits v 0 2 < 2)
    (hl : locked s pSYS = false) : rg (sysWrite acc 0x40 v s) pSYS 0x40 = putBits (rg s pSYS 0x40) 0 2 v := by
  have hfit : putBits (rg s pSYS 0x40) 0 2 v < 2 ^ 32 := putBits_lt v (rg_lt s pSYS 0x40) (by decide)
  rw [sysWrite_profile_accepted acc hheld hval hl, rg_storeReg_same rfl (by decide) (by decide) (by decide),
    Nat.mod_eq_of_lt hfit]

/-- R15: outside HELD, and with 0b10 and 0b11, a write of `PROFILE` is refused. -/
theorem sysWrite_profile_refused (acc : Access) {v : Nat} {s : State} (h : devState s ≠ .held ∨ 2 ≤ bits v 0 2) :
    ∃ rs, sysWrite acc 0x40 v s = refuse acc pSYS 0x40 v rs s := by
  have hfail : sysChk s 0x40 v (rg s pSYS 0x40) (profileRow.merge (rg s pSYS 0x40) v) ≠ none := by
    rw [Ne, sysChk_profile_eq_none_iff, bits_merge_profile]
    rintro ⟨hval, hheld⟩
    exact h.elim (fun hn => hn hheld) (fun hge => by omega)
  obtain ⟨rs, hrs⟩ := Option.ne_none_iff_exists'.1 hfail
  rw [sysWrite_profile]
  exact busStore_refused (k := .sys) (i := 0) (by decide) (by decide) rowAt_profile (by decide) rfl hrs

theorem exec_profileWrite {s : State} {acc : Access} (h : Reaches s acc pSYS 0x40 true) (v : BitVec 32) :
    exec (.profileWrite acc v) s = .next (answered acc (sysWrite acc 0x40 v.toNat s)) := by
  have hexec : exec (.profileWrite acc v) s = .next (onBus acc pSYS 0x40 (sysWrite acc 0x40 v.toNat) s) := rfl
  rw [hexec, onBus_of_reaches h]

/-- Settles O1: the checks of `SYS` pass a write of `PROFILE` in HELD alone, which is then stored; every other is refused. -/
theorem profileIsWrittenOnlyInHeld : Obligations.ProfileIsWrittenOnlyInHeld := by
  intro s acc v hreach
  refine ⟨fun hheld hval hl => ⟨_, exec_profileWrite hreach v, ?_⟩, fun hbad => ⟨_, exec_profileWrite hreach v, ?_⟩⟩
  · have hword := rg_sysWrite_profile_accepted acc hheld hval hl
    have hstore := sysWrite_profile_accepted acc hheld hval hl
    refine ⟨?_, ?_, answered_reply _ _, ?_, sameCore_of_core ((answered_core _ _).trans ?_)⟩
    · rw [fld_answered, fld, hword, bits_putBits_same]
      simp [bits]
    · rw [fld_answered, fld, hword, bits_putBits_apart _ _ _ _ _ _ (by decide), fld]
    · rw [hstore]
      exact ((onlyRegs_storeReg rfl (by decide) (by decide) _ s).mono (by decide)).answered acc
    · rw [hstore, storeReg_core]
  · obtain ⟨rs, hrs⟩ := sysWrite_profile_refused acc hbad
    rw [hrs]
    have hframe := onlyRegs_refuse acc pSYS 0x40 v.toNat rs s
    refine ⟨?_, ?_, ?_, ?_, ?_, answered_reply _ _, hframe.answered acc,
      sameCore_of_core ((answered_core _ _).trans (refuse_core _ _ _ _ _ _))⟩
    · rw [rg_answered]; exact hframe pSYS 0x40 (by decide) (by decide)
    · rw [rbit_answered, rbit_refuse_valid]
    · rw [fld_answered, fld_refuse_offset]
    · rw [fld_answered, fld_refuse_value]
    · rw [rbit_answered, rbit_refuse_rej]

end Sys2Proof.Machine
end

section
/-! PROOF. Exception entry and `RETX` of a Stag pair (R107, R113 to R116): what an instruction that issues comes to, what an entry
and a return leave in the pair, and what is left of the obligation once that is known: one equation between free values. -/
namespace Sys2Proof.Machine

/-! ## Frames of pages -/

theorem OnlyPages.refl (ps : List Nat) (s : State) : OnlyPages ps s s := fun _ _ _ _ => rfl

theorem OnlyPages.trans {ps : List Nat} {s t u : State} (hst : OnlyPages ps s t) (htu : OnlyPages ps t u) : OnlyPages ps s u :=
  fun p o ho hn => (htu p o ho hn).trans (hst p o ho hn)

theorem OnlyPages.mono {ps qs : List Nat} {s t : State} (h : OnlyPages ps s t) (hsub : ps ⊆ qs) : OnlyPages qs s t :=
  fun p o ho hn => h p o ho (fun hm => hn (hsub hm))

theorem onlyPages_of_regs {s t : State} (hv : t.variant = s.variant) (hr : t.regs = s.regs) (ps : List Nat) : OnlyPages ps s t :=
  fun p o _ _ => rg_congr hv hr p o

theorem onlyPages_setRg (s : State) {p o : Nat} (v : Nat) (ho : o < 4096) : OnlyPages [p] s (setRg p o v s) :=
  fun _ _ hk hn => rg_setRg_page s v (by simpa using hn) ho hk

theorem onlyPages_setFld (s : State) {p o : Nat} (lo w x : Nat) (ho : o < 4096) : OnlyPages [p] s (setFld p o lo w x s) :=
  onlyPages_setRg s _ ho

theorem onlyPages_setBit (s : State) {p o : Nat} (i : Nat) (b : Bool) (ho : o < 4096) : OnlyPages [p] s (setBit p o i b s) :=
  onlyPages_setRg s _ ho

theorem onlyPages_flag (s : State) (p i : Nat) : OnlyPages [p] s (flag p i s) := fun _ _ hk hn =>
  rg_setRg_page _ _ (by simpa using hn) (by decide) hk

theorem onlyPages_setAntH (ps : List Nat) (x : Nat) (h : AntHid) (s : State) : OnlyPages ps s (setAntH x h s) :=
  onlyPages_of_regs rfl rfl ps

theorem onlyPages_setStagH (ps : List Nat) (x : Nat) (h : StagHid) (s : State) : OnlyPages ps s (setStagH x h s) :=
  onlyPages_of_regs rfl rfl ps

theorem onlyPages_freeStep (ps : List Nat) (s : State) : OnlyPages ps s (freeStep s) := onlyPages_of_regs rfl rfl ps

/-! ## Antline (R517, R519, R520): its counters and records stand on its own page, and a record draws two free values -/

theorem foldl_keeps {α : Type} {R : State → State → Prop} (hrefl : ∀ s, R s s) (htrans : ∀ {s t u}, R s t → R t u → R s u)
    {g : State → α → State} (hg : ∀ s a, R s (g s a)) (l : List α) (s : State) : R s (l.foldl g s) := by
  induction l generalizing s with
  | nil => exact hrefl s
  | cons a l ih => exact htrans (hg s a) (ih _)

theorem onlyPages_pmcWrap (x n : Nat) (s : State) : OnlyPages [pANT x] s (pmcWrap x n s) :=
  (onlyPages_setBit s n true (by decide)).trans (onlyPages_flag _ _ _)

theorem onlyPages_antAdd (x n k : Nat) (s : State) : OnlyPages [pANT x] s (antAdd x n k s) := by
  have hset := fun h => onlyPages_setAntH [pANT x] x h s
  unfold antAdd
  extract_lets h v s1
  split
  · exact OnlyPages.refl _ _
  · split
    · exact (hset _).trans (onlyPages_pmcWrap x n s1)
    · exact hset _

theorem freeCtr_antAdd (x n k : Nat) (s : State) : (antAdd x n k s).freeCtr = s.freeCtr := by
  unfold antAdd
  extract_lets h v s1
  split
  · rfl
  · split <;> rfl

theorem onlyPages_antCount (x evt k : Nat) (s : State) : OnlyPages [pANT x] s (antCount x evt k s) := by
  refine foldl_keeps (OnlyPages.refl _) OnlyPages.trans (fun s n => ?_) _ s
  dsimp only
  split
  · exact onlyPages_antAdd x n k s
  · exact OnlyPages.refl _ _

theorem freeCtr_antCount (x evt k : Nat) (s : State) : (antCount x evt k s).freeCtr = s.freeCtr := by
  refine foldl_keeps (R := fun s t => t.freeCtr = s.freeCtr) (fun _ => rfl) (fun hst htu => htu.trans hst) (fun s n => ?_) _ s
  dsimp only
  split
  · exact freeCtr_antAdd x n k s
  · rfl

theorem onlyPages_tagReload (x : Nat) (s : State) : OnlyPages [pANT x] s (tagReload x s) := onlyPages_setAntH _ _ _ _

theorem freeCtr_tagReload (x : Nat) (s : State) : (tagReload x s).freeCtr = s.freeCtr := rfl

theorem onlyPages_tagRecord (x pc cls : Nat) (raised gone : Bool) (s : State) :
    OnlyPages [pANT x] s (tagRecord x pc cls raised gone s) := by
  unfold tagRecord
  extract_lets p slot held o s1 d offs cause causes s2 s3 s4 h s5
  have ho : o < 4096 - 16 := by
    have : slot < 2 ^ 4 := bits_lt _ _ _
    omega
  have h2 : OnlyPages [pANT x] s s2 :=
    (onlyPages_freeStep _ s).trans ((onlyPages_freeStep _ s1).trans
      ((onlyPages_setRg _ _ (by omega)).trans (onlyPages_setRg _ _ (by omega))))
  have h3 : OnlyPages [pANT x] s s3 := h2.trans (onlyPages_setRg _ _ (by omega))
  have h4 : OnlyPages [pANT x] s s4 := h3.trans (onlyPages_setRg _ _ (by omega))
  have h5 : OnlyPages [pANT x] s s5 :=
    h4.trans ((onlyPages_setFld _ _ _ _ (by decide)).trans
      ((onlyPages_setFld _ _ _ _ (by decide)).trans (onlyPages_setAntH _ _ _ _)))
  split
  · exact h5.trans ((onlyPages_setBit _ _ _ (by decide)).trans (onlyPages_flag _ _ _))
  · exact h5

/-- R520: a record's stalls and causes are two free values. -/
theorem freeCtr_tagRecord (x pc cls : Nat) (raised gone : Bool) (s : State) :
    (tagRecord x pc cls raised gone s).freeCtr = s.freeCtr + 2 := by
  unfold tagRecord
  extract_lets
  split <;> rfl

/-- R519: the next instruction of pair `x` is tagged. -/
abbrev TagsNext (s : State) (x : Nat) : Prop := tagging s x = true ∧ (antH s x).ctr = 0

theorem onlyPages_tagIssue (x pc cls : Nat) (raised : Bool) (s : State) : OnlyPages [pANT x] s (tagIssue x pc cls raised s) := by
  unfold tagIssue
  extract_lets h
  split
  · exact OnlyPages.refl _ _
  · split
    · exact (onlyPages_tagRecord _ _ _ _ _ _).trans (onlyPages_tagReload _ _)
    · exact onlyPages_setAntH _ _ _ _

/-- R519, R520: an instruction draws free values where it is tagged, and none else. -/
theorem freeCtr_tagIssue (x pc cls : Nat) (raised : Bool) (s : State) :
    (tagIssue x pc cls raised s).freeCtr = s.freeCtr + if TagsNext s x then 2 else 0 := by
  unfold tagIssue
  extract_lets h
  by_cases htag : tagging s x = true
  · by_cases hctr : h.ctr = 0
    · rw [if_neg (not_not_intro htag), if_pos hctr, if_pos ⟨htag, hctr⟩, freeCtr_tagReload, freeCtr_tagRecord]
    · rw [if_neg (not_not_intro htag), if_neg hctr, if_neg (fun hn => hctr hn.2)]
      rfl
  · rw [if_pos htag, if_neg (fun hn => htag hn.1)]
    rfl

/-! ## The pair's own state -/

theorem stagH_congr {s t : State} (h : t.core = s.core) (x : Nat) : stagH t x = stagH s x := by
  rw [stagH, stagH, core_stag h]

theorem stagH_setStagH_same {x : Nat} {s : State} (hx : x < s.stag.length) (h : StagHid) : stagH (setStagH x h s) x = h := by
  simp [stagH, setStagH, nth, hx]

theorem stagH_setStagPc_same {x : Nat} {s : State} (hx : x < s.stag.length) (pc : Nat) :
    stagH (setStagPc x pc s) x = { stagH s x with pc := pc % 2 ^ 32 / 4 * 4 } := stagH_setStagH_same hx _

theorem stagH_setStagH_ne {x y : Nat} (hy : y ≠ x) (h : StagHid) (s : State) : stagH (setStagH x h s) y = stagH s y := by
  simp [stagH, setStagH, nth, List.getD_eq_getElem?_getD, Ne.symm hy]

theorem PairOnly.trans {x : Nat} {s t u : State} (hst : PairOnly x s t) (htu : PairOnly x t u) : PairOnly x s u := by
  obtain ⟨hy, hnv, htick, hpend, hvar⟩ := hst
  obtain ⟨hy', hnv', htick', hpend', hvar'⟩ := htu
  exact ⟨fun y hne => (hy' y hne).trans (hy y hne), hnv'.trans hnv, htick'.trans htick, hpend'.trans hpend, hvar'.trans hvar⟩

theorem pairOnly_of_core {s t : State} (h : t.core = s.core) (x : Nat) : PairOnly x s t :=
  ⟨fun y _ => stagH_congr h y, core_nv h, core_tick h, core_pending h, core_variant h⟩

theorem pairOnly_setStagH (x : Nat) (h : StagHid) (s : State) : PairOnly x s (setStagH x h s) :=
  ⟨fun _ hy => stagH_setStagH_ne hy h s, rfl, rfl, rfl, rfl⟩

theorem sameMem_of_mem {s t : State} (h : t.mem = s.mem) : SameMem s t := fun a => by rw [h]

/-! ## The end of a debug step (R527) -/

theorem stagH_stepMade_same (x : Nat) (s : State) : stagH (stepMade x s) x = { stagH s x with step := false } := by
  unfold stepMade
  split
  · next hstep =>
    have hx : x < s.stag.length := by
      by_contra hn
      simp [stagH, nth, List.getD_eq_getElem?_getD, List.getElem?_eq_none (Nat.le_of_not_lt hn)] at hstep
    rw [stagH_congr (flag_core _ _ _), stagH_setStagH_same hx]
  · next hstep => rw [← Bool.eq_false_iff.2 hstep]

theorem pairOnly_stepMade (x : Nat) (s : State) : PairOnly x s (stepMade x s) := by
  unfold stepMade
  split
  · exact (pairOnly_setStagH _ _ _).trans (pairOnly_of_core (flag_core _ _ _) _)
  · exact pairOnly_of_core rfl _

theorem onlyPages_stepMade (x : Nat) (s : State) : OnlyPages [pDEBUG] s (stepMade x s) := by
  unfold stepMade
  split
  · exact (onlyPages_setStagH _ _ _ _).trans (onlyPages_flag _ _ _)
  · exact OnlyPages.refl _ _

/-! ## Exception entry (R114) -/

theorem Entered.of_core {x code event epc : Nat} {pact wr fetch : Bool} {s u t : State} (hu : u.core = s.core)
    (h : Entered x code event pact wr fetch epc u t) : Entered x code event pact wr fetch epc s t := by
  obtain ⟨hpair, honly⟩ := h
  rw [stagH_congr hu] at hpair
  exact ⟨hpair, (pairOnly_of_core hu x).trans honly⟩

theorem Entered.then_core {x code event epc : Nat} {pact wr fetch : Bool} {s t u : State} (hu : u.core = t.core)
    (h : Entered x code event pact wr fetch epc s t) : Entered x code event pact wr fetch epc s u := by
  obtain ⟨hpair, honly⟩ := h
  refine ⟨?_, honly.trans (pairOnly_of_core hu x)⟩
  rw [stagH_congr hu]
  exact hpair

theorem Entered.then_stepMade {x code event epc : Nat} {pact wr fetch : Bool} {s t : State}
    (h : Entered x code event pact wr fetch epc s t) : Entered x code event pact wr fetch epc s (stepMade x t) := by
  obtain ⟨hpair, honly⟩ := h
  refine ⟨?_, honly.trans (pairOnly_stepMade x t)⟩
  rw [stagH_stepMade_same, hpair]

/-- R113: what an entry writes to `EADDR`: the address of the exception, or the free value that is next. -/
def Exc.eaddrIn (e : Exc) (s : State) : Nat :=
  match e.addr with
  | some a => a
  | none => freeNow s

theorem Exc.eaddrIn_none {e : Exc} (h : e.addr = none) (s : State) : e.eaddrIn s = freeNow s := by
  rw [Exc.eaddrIn, h]

/-- R114: the pair after an entry, register by register. -/
theorem stagH_excEntry {x : Nat} {s : State} (hx : x < s.stag.length) (e : Exc) (epc : Nat) :
    stagH (excEntry x e epc s) x = { stagH s x with
      estatus := (stagH s x).status, epc := epc % 2 ^ 32
      pc := ((stagH s x).vbase / 4096 * 4096 + 64 * e.code) % 2 ^ 32 / 4 * 4
      ecause := e.code + 2 ^ 8 * e.event + 2 ^ 16 * b2n e.pact + 2 ^ 17 * b2n e.wr + 2 ^ 18 * b2n e.fetch
      eaddr := e.eaddrIn s, status := putBits (putBits (stagH s x).status 0 2 0) 3 1 1 } := by
  have hdraw : (if e.addr.isNone then freeStep s else s).stag.length = s.stag.length := by split <;> rfl
  have hx1 := hdraw ▸ hx
  unfold excEntry
  extract_lets h s1
  rw [stagH_setStagPc_same (by rwa [setStagH, List.length_set]), stagH_setStagH_same hx1]
  rfl

theorem pairOnly_excEntry (x : Nat) (e : Exc) (epc : Nat) (s : State) : PairOnly x s (excEntry x e epc s) := by
  have hdraw : (if e.addr.isNone then freeStep s else s).core = s.core := by split <;> rfl
  exact (pairOnly_of_core hdraw x).trans ((pairOnly_setStagH _ _ _).trans (pairOnly_setStagH _ _ _))

theorem onlyPages_excEntry (ps : List Nat) (x : Nat) (e : Exc) (epc : Nat) (s : State) : OnlyPages ps s (excEntry x e epc s) := by
  have hdraw : OnlyPages ps s (if e.addr.isNone then freeStep s else s) := by
    split
    · exact onlyPages_freeStep _ _
    · exact OnlyPages.refl _ _
  exact hdraw.trans ((onlyPages_setStagH _ _ _ _).trans (onlyPages_setStagH _ _ _ _))

theorem entered_excEntry {x : Nat} {s : State} (hx : x < s.stag.length) (e : Exc) (epc : Nat) :
    Entered x e.code e.event e.pact e.wr e.fetch epc s (excEntry x e epc s) :=
  ⟨by rw [stagH_excEntry hx], pairOnly_excEntry x e epc s⟩

/-! ## Issue and retirement (R108, R113) -/

/-- R143: with no word upset, a good word changes nothing as it is fetched. -/
theorem stagEcc_good {x a : Nat} {wr : Bool} {s : State} (hu : s.upset = []) : stagEcc x a wr .good s = s := by
  have hmeet : ∀ b, eccMeet s b .good = .good := fun b => by simp [eccMeet, hu]
  have hstag : stagMeet s x a .good = .good := by simp [stagMeet, hmeet]
  unfold stagEcc
  cases eccMemory (stagAcc s x) a with
  | none => rfl
  | some m => cases wr <;> simp [hstag, eccRead, eccWrite, hmeet]

theorem fetchExc_of_issues {f : Fetch} {s : State} (h : Issues f s) :
    fetchExc (pairIx f.pair) (stagPc s (pairIx f.pair)) f.ecc s = (none, s) := by
  obtain ⟨hecc, hup, -, -, hmpu, hbus⟩ := h
  have hbad : stagEccBad s (pairIx f.pair) (stagPc s (pairIx f.pair)) .good = false := by
    simp [stagEccBad, stagMeet, eccMeet, hup, eccBad]
  simp [fetchExc, hecc, stagEcc_good hup, hbad, hmpu, hbus]

/-- R113: an instruction that issues and does not wait ends as its body says. -/
theorem issue_of_issues {f : Fetch} {s : State} (h : Issues f s) (cls : Nat) {body : Nat → Nat → State → Eff} {r : Eff}
    (hbody : body (pairIx f.pair) (stagPc s (pairIx f.pair)) s = r) (hwait : ∀ u, r ≠ .wait u) :
    issue f cls body s = .next (stepMade (pairIx f.pair) (settle (pairIx f.pair) cls (stagPc s (pairIx f.pair)) r)) := by
  have hfetch := fetchExc_of_issues h
  obtain ⟨-, -, -, hruns, -, -⟩ := h
  unfold issue
  extract_lets x pc
  rw [if_neg (not_not_intro hruns), hfetch]
  cases r with
  | wait u => exact absurd rfl (hwait u)
  | exc e resume u => simp only [x, pc, hbody]
  | done u next late => simp only [x, pc, hbody]

/-- R518, R519: an instruction of class `cls` at `pc` has issued: Antline has seen it. -/
def issuedAt (x pc cls : Nat) (raised : Bool) (s : State) : State :=
  tagIssue x pc cls raised (setAntH x { antH s x with issued := (antH s x).issued + 1 } s)

theorem issuedAt_core (x pc cls : Nat) (raised : Bool) (s : State) : (issuedAt x pc cls raised s).core = s.core :=
  (tagIssue_core _ _ _ _ _).trans (setAntH_core _ _ _)

theorem onlyPages_issuedAt (x pc cls : Nat) (raised : Bool) (s : State) : OnlyPages [pANT x] s (issuedAt x pc cls raised s) :=
  (onlyPages_setAntH _ _ _ _).trans (onlyPages_tagIssue _ _ _ _ _)

theorem antH_setAntH_ctr (x : Nat) (h : AntHid) (s : State) (hctr : h.ctr = (antH s x).ctr) :
    (antH (setAntH x h s) x).ctr = (antH s x).ctr := by
  by_cases hx : x < s.ant.length
  · simp [antH, setAntH, nth, hx, hctr]
  · rw [setAntH, List.set_eq_of_length_le (Nat.le_of_not_lt hx)]

theorem freeCtr_issuedAt (x pc cls : Nat) (raised : Bool) (s : State) :
    (issuedAt x pc cls raised s).freeCtr = s.freeCtr + if TagsNext s x then 2 else 0 := by
  have hctr := antH_setAntH_ctr x { antH s x with issued := (antH s x).issued + 1 } s rfl
  have htags : TagsNext (setAntH x { antH s x with issued := (antH s x).issued + 1 } s) x ↔ TagsNext s x := by
    rw [TagsNext, TagsNext, hctr]
    rfl
  rw [issuedAt, freeCtr_tagIssue, if_congr htags rfl rfl]
  rfl

/-- R114, R115: an instruction that issues while `EXL` is 0 and raises an exception enters it; the free value that `EADDR` then takes is
the next one after those of its Antline record. -/
theorem issue_enters {f : Fetch} {s : State} (h : Issues f s) (hexl : bit (stagH s (pairIx f.pair)).status 3 = false) (cls : Nat)
    {body : Nat → Nat → State → Eff} {e : Exc} {resume : Nat}
    (hbody : body (pairIx f.pair) (stagPc s (pairIx f.pair)) s = .exc e resume s) :
    ∃ t, issue f cls body s = .next t ∧ Entered (pairIx f.pair) e.code e.event e.pact e.wr e.fetch resume s t ∧
      (stagH t (pairIx f.pair)).eaddr = e.eaddrIn (issuedAt (pairIx f.pair) (stagPc s (pairIx f.pair)) cls true s) ∧
      SameMem s t ∧ OnlyPages [pANT (pairIx f.pair), pDEBUG] s t := by
  refine ⟨_, issue_of_issues h cls hbody (fun _ => nofun), ?_⟩
  obtain ⟨-, -, hx, -, -, -⟩ := h
  generalize pairIx f.pair = x at *
  generalize stagPc s x = pc at *
  have hcore := issuedAt_core x pc cls true s
  have hpages := onlyPages_issuedAt x pc cls true s
  have hend : settle x cls pc (.exc e resume s) = excRaise x e resume (issuedAt x pc cls true s) := rfl
  rw [hend, excRaise, stagH_congr hcore, hexl, if_neg Bool.false_ne_true]
  generalize issuedAt x pc cls true s = u at *
  have hxu : x < u.stag.length := core_stag hcore ▸ hx
  have hcount := antCount_core x 0x33 1 (excEntry x e resume u)
  refine ⟨(((entered_excEntry hxu e resume).then_core hcount).then_stepMade).of_core hcore, ?_, sameMem_of_mem ?_, ?_⟩
  · rw [stagH_stepMade_same, stagH_congr hcount, stagH_excEntry hxu]
  · rw [stepMade_mem, mem_of_core hcount, excEntry_mem, core_mem hcore]
  · exact ((hpages.trans ((onlyPages_excEntry _ _ _ _ _).trans (onlyPages_antCount _ _ _ _))).mono (by simp)).trans
      ((onlyPages_stepMade _ _).mono (by simp))

/-- R113, R518, R519: an instruction of class `cls` at `pc` has issued and retired: Antline has counted it. -/
def retiredAt (x pc cls : Nat) (s : State) : State :=
  antCount x (0x10 + cls) 1 (antCount x 2 1 (issuedAt x pc cls false s))

theorem retiredAt_core (x pc cls : Nat) (s : State) : (retiredAt x pc cls s).core = s.core :=
  (antCount_core _ _ _ _).trans ((antCount_core _ _ _ _).trans (issuedAt_core _ _ _ _ _))

theorem onlyPages_retiredAt (x pc cls : Nat) (s : State) : OnlyPages [pANT x] s (retiredAt x pc cls s) :=
  (onlyPages_issuedAt _ _ _ _ _).trans ((onlyPages_antCount _ _ _ _).trans (onlyPages_antCount _ _ _ _))

/-- R113: an instruction that issues, and whose one effect on the pair is to put `h` in it as it retires, retires. -/
theorem issue_retires {f : Fetch} {s : State} (hiss : Issues f s) (cls : Nat) {body : Nat → Nat → State → Eff} {next : Nat}
    {late : State → State} {h : StagHid}
    (hbody : body (pairIx f.pair) (stagPc s (pairIx f.pair)) s = .done s next late)
    (hlate : ∀ u, stagH u (pairIx f.pair) = { stagH s (pairIx f.pair) with pc := next % 2 ^ 32 / 4 * 4 } →
      late u = setStagH (pairIx f.pair) { h with pc := next % 2 ^ 32 / 4 * 4 } u) :
    ∃ t, issue f cls body s = .next t ∧ Retired (pairIx f.pair) next h s t := by
  refine ⟨_, issue_of_issues hiss cls hbody (fun _ => nofun), ?_⟩
  obtain ⟨-, -, hx, -, -, -⟩ := hiss
  generalize pairIx f.pair = x at *
  generalize stagPc s x = pc at *
  have hcore := retiredAt_core x pc cls s
  have hpages := onlyPages_retiredAt x pc cls s
  have hend : settle x cls pc (.done s next late) = late (setStagPc x next (retiredAt x pc cls s)) := rfl
  rw [hend]
  generalize retiredAt x pc cls s = u at *
  have hxu : x < u.stag.length := core_stag hcore ▸ hx
  have hpc : stagH (setStagPc x next u) x = { stagH s x with pc := next % 2 ^ 32 / 4 * 4 } := by
    rw [stagH_setStagPc_same hxu, stagH_congr hcore]
  have hpair : PairOnly x s (setStagPc x next u) := (pairOnly_of_core hcore x).trans (pairOnly_setStagH _ _ _)
  rw [hlate _ hpc]
  refine ⟨?_, sameMem_of_mem ?_, ?_, ?_⟩
  · rw [stagH_stepMade_same, stagH_setStagH_same (by rwa [setStagPc, setStagH, List.length_set])]
  · rw [stepMade_mem, setStagH_mem, setStagPc_mem, core_mem hcore]
  · exact ((hpages.trans ((onlyPages_setStagH _ _ _ _).trans (onlyPages_setStagH _ _ _ _))).mono (by simp)).trans
      ((onlyPages_stepMade _ _).mono (by simp))
  · exact hpair.trans ((pairOnly_setStagH _ _ _).trans (pairOnly_stepMade _ _))

/-! ## The instructions and the interrupt -/

theorem exec_trap (f : Fetch) (s : State) : exec (.trap f) s = execTrap f s := rfl
theorem exec_illegalInstruction (f : Fetch) (s : State) : exec (.illegalInstruction f) s = execIllegalInstruction f s := rfl
theorem exec_retx (f : Fetch) (s : State) : exec (.retx f) s = execRetx f s := rfl

section Pair
variable {s : State} {f : Fetch}

/-- R107, R113, R114: `TRAP` while `EXL` is 0 enters exception 0x7 and resumes behind itself. -/
theorem trap_enters (h : Issues f s) (hexl : bit (stagH s (pairIx f.pair)).status 3 = false) :
    Gives (.trap f) s fun t => Entered (pairIx f.pair) 7 0 false false false (stagPc s (pairIx f.pair) + 4) s t ∧
      (stagH t (pairIx f.pair)).eaddr = freeNow (issuedAt (pairIx f.pair) (stagPc s (pairIx f.pair)) 6 true s) ∧
      SameMem s t ∧ OnlyPages [pANT (pairIx f.pair), pDEBUG] s t := by
  have hent := issue_enters (e := { code := 7 }) (resume := stagPc s (pairIx f.pair) + 4) h hexl 6
    (body := fun _ pc s => .exc { code := 7 } (pc + 4) s) rfl
  rw [Exc.eaddrIn_none rfl] at hent
  rwa [Gives, exec_trap]

/-- R112 to R114: an illegal instruction while `EXL` is 0 enters exception 0x5 and resumes at itself. -/
theorem illegalInstruction_enters (h : Issues f s) (hexl : bit (stagH s (pairIx f.pair)).status 3 = false) :
    Gives (.illegalInstruction f) s fun t => Entered (pairIx f.pair) 5 0 false false false (stagPc s (pairIx f.pair)) s t ∧
      (stagH t (pairIx f.pair)).eaddr = freeNow (issuedAt (pairIx f.pair) (stagPc s (pairIx f.pair)) 7 true s) ∧
      SameMem s t ∧ OnlyPages [pANT (pairIx f.pair), pDEBUG] s t := by
  have hent := issue_enters (e := excIllegal) (resume := stagPc s (pairIx f.pair)) h hexl 7
    (body := fun _ pc s => .exc excIllegal pc s) rfl
  rw [Exc.eaddrIn_none rfl] at hent
  rwa [Gives, exec_illegalInstruction]

/-- R107, R114: `RETX` by Queen copies `ESTATUS` to `STATUS` and resumes at `EPC`. -/
theorem retx_retires (h : Issues f s) (hqueen : casteBit s (pairIx f.pair) = 0) (hcaste : (stagH s (pairIx f.pair)).estatus % 4 ≠ 3) :
    Gives (.retx f) s fun t => Retired (pairIx f.pair) (stagH s (pairIx f.pair)).epc
      { stagH s (pairIx f.pair) with status := (stagH s (pairIx f.pair)).estatus } s t := by
  have hlegal : ¬ (notQueen s (pairIx f.pair) = true ∨ (stagH s (pairIx f.pair)).estatus % 4 = 3) := by
    simp [notQueen, hqueen, hcaste]
  rw [Gives, exec_retx]
  refine issue_retires h 6 (if_neg hlegal) (fun u hu => ?_)
  simp only [hu]

end Pair

/-- R114, R128: the state in which an interrupt is entered: its edge taken, its pending bit cleared, its TICK latched, its entry counted. -/
def edgeTaken (x : Nat) (e : Edge) (s : State) : State :=
  antCount x 0x34 1 (setRg pHIVE (0xA0 + 4 * x) (e.2.1 % 2 ^ 32) (setPend x e.1 false { s with hive := { s.hive with
    edges := s.hive.edges.filter (fun c => ! (c.1 == x && c.2.1 == e.1)) } }))

theorem edgeTaken_core (x : Nat) (e : Edge) (s : State) : (edgeTaken x e s).core = s.core :=
  (antCount_core _ _ _ _).trans rfl

theorem freeCtr_edgeTaken (x : Nat) (e : Edge) (s : State) : (edgeTaken x e s).freeCtr = s.freeCtr :=
  (freeCtr_antCount _ _ _ _).trans rfl

section Edge
variable {x : Nat} (hx : x < 2) {e : Edge}
include hx

theorem onlyPages_edgeTaken (he : e.1 < 256) (s : State) : OnlyPages [pANT x, pHIVE] s (edgeTaken x e s) := by
  refine OnlyPages.trans ?_ ((onlyPages_antCount _ _ _ _).mono (by simp))
  refine OnlyPages.trans ?_ ((onlyPages_setRg _ _ (by omega)).mono (by simp))
  exact (onlyPages_of_regs rfl rfl _).trans ((onlyPages_setBit _ _ _ (by omega)).mono (by simp))

theorem rg_edgeTaken_hive {o : Nat} (ho : o < 4096) (s : State) :
    rg (edgeTaken x e s) pHIVE o = rg (setRg pHIVE (0xA0 + 4 * x) (e.2.1 % 2 ^ 32) (setPend x e.1 false s)) pHIVE o :=
  (onlyPages_antCount _ _ _ _ _ _ ho (by simp [pANT, pHIVE]; omega)).trans rfl

theorem rg_edgeTaken_tick (s : State) : rg (edgeTaken x e s) pHIVE (0xA0 + 4 * x) = e.2.1 % 2 ^ 32 := by
  rw [rg_edgeTaken_hive hx (by omega), rg_setRg_same, Nat.mod_mod]

theorem pendBit_edgeTaken (he : e.1 < 256) (s : State) : pendBit (edgeTaken x e s) x e.1 = false := by
  rw [pendBit, rbit, rg_edgeTaken_hive hx (by omega), rg_setRg_off _ _ (by omega)]
  exact rbit_setBit_same s _ _ _ _ (Nat.mod_lt _ (by decide))

end Edge

/-- R114, R128: interrupt entry is exception entry 0x8 from the state with the edge taken, and the priority of the edge put in `IPL`. -/
theorem interruptFor_eq (x : Nat) (e : Edge) (s : State) :
    interruptFor x e s =
      (let t := excEntry x { code := 8, event := e.1 } (stagPc s x) (edgeTaken x e s)
       setStagH x { stagH t x with status := putBits (stagH t x).status 4 4 e.2.2 } t) := rfl

theorem stagH_interruptFor {x : Nat} {s : State} (hx : x < s.stag.length) (e : Edge) :
    stagH (interruptFor x e s) x = { stagH s x with
      estatus := (stagH s x).status, epc := stagPc s x % 2 ^ 32
      pc := ((stagH s x).vbase / 4096 * 4096 + 0x200) % 2 ^ 32 / 4 * 4, ecause := 8 + 256 * e.1, eaddr := freeNow s
      status := putBits (putBits (putBits (stagH s x).status 0 2 0) 3 1 1) 4 4 e.2.2 } := by
  have hxe : x < (edgeTaken x e s).stag.length := core_stag (edgeTaken_core x e s) ▸ hx
  have hfree : freeNow (edgeTaken x e s) = freeNow s := by rw [freeNow, freeCtr_edgeTaken, freeNow]
  have hlen : x < (excEntry x { code := 8, event := e.1 } (stagPc s x) (edgeTaken x e s)).stag.length := by
    simpa [excEntry, setStagPc, setStagH] using hxe
  rw [interruptFor_eq]
  simp only [stagH_setStagH_same hlen, stagH_excEntry hxe, stagH_congr (edgeTaken_core x e s), Exc.eaddrIn, hfree]
  simp [b2n]

theorem pairOnly_interruptFor (x : Nat) (e : Edge) (s : State) : PairOnly x s (interruptFor x e s) := by
  rw [interruptFor_eq]
  exact (pairOnly_of_core (edgeTaken_core x e s) x).trans ((pairOnly_excEntry _ _ _ _).trans (pairOnly_setStagH _ _ _))

theorem mem_interruptFor (x : Nat) (e : Edge) (s : State) : (interruptFor x e s).mem = s.mem := by
  rw [interruptFor_eq]
  exact (setStagH_mem _ _ _).trans ((excEntry_mem _ _ _ _).trans (core_mem (edgeTaken_core x e s)))

theorem onlyPages_edgeTaken_interruptFor (ps : List Nat) (x : Nat) (e : Edge) (s : State) :
    OnlyPages ps (edgeTaken x e s) (interruptFor x e s) := by
  rw [interruptFor_eq]
  exact (onlyPages_excEntry _ _ _ _ _).trans (onlyPages_setStagH _ _ _ _)

theorem exec_interruptEntry {y : PairId} {s : State} {e : Edge} (hdue : interruptDue s (pairIx y) = some e) :
    exec (.interruptEntry y) s = .next (interruptFor (pairIx y) e s) := by
  have hexec : exec (.interruptEntry y) s = execInterruptEntry y s := rfl
  rw [hexec, execInterruptEntry, hdue]

theorem pairIx_lt (y : PairId) : pairIx y < 2 := by cases y <;> decide

/-- R114, R116, R128: an interrupt that is due enters exception 0x8, takes its edge and puts its priority in `IPL`. -/
theorem interruptEntry_enters {y : PairId} {s : State} {e : Edge} (hdue : interruptDue s (pairIx y) = some e)
    (hx : pairIx y < s.stag.length) (he : e.1 < 256) :
    Gives (.interruptEntry y) s fun t =>
      stagH t (pairIx y) = { stagH s (pairIx y) with
        estatus := (stagH s (pairIx y)).status, epc := stagPc s (pairIx y) % 2 ^ 32
        pc := ((stagH s (pairIx y)).vbase / 4096 * 4096 + 0x200) % 2 ^ 32 / 4 * 4, ecause := 8 + 256 * e.1, eaddr := freeNow s
        status := putBits (putBits (putBits (stagH s (pairIx y)).status 0 2 0) 3 1 1) 4 4 e.2.2 } ∧
      pendBit t (pairIx y) e.1 = false ∧ rg t pHIVE (0xA0 + 4 * pairIx y) = e.2.1 % 2 ^ 32 ∧ SameMem s t ∧
      OnlyPages [pANT (pairIx y), pHIVE] s t ∧ PairOnly (pairIx y) s t := by
  refine ⟨_, exec_interruptEntry hdue, stagH_interruptFor hx e, ?_⟩
  have hy := pairIx_lt y
  generalize pairIx y = x at *
  have hrest : ∀ o, o < 4096 → rg (interruptFor x e s) pHIVE o = rg (edgeTaken x e s) pHIVE o :=
    fun o ho => onlyPages_edgeTaken_interruptFor [] x e s pHIVE o ho (by simp)
  refine ⟨?_, ?_, sameMem_of_mem (mem_interruptFor x e s), ?_, pairOnly_interruptFor x e s⟩
  · rw [pendBit, rbit, hrest _ (by omega)]
    exact pendBit_edgeTaken hy he s
  · rw [hrest _ (by omega)]
    exact rg_edgeTaken_tick hy s
  · exact (onlyPages_edgeTaken hy he s).trans (onlyPages_edgeTaken_interruptFor _ x e s)

/-! ## What the obligation turns on

The obligation says that `EADDR` of `TRAP` and of an illegal instruction is the free value next at the command's start. An instruction
that Antline tags has drawn two free values for its record by then (R520), so that `EADDR` is the third. -/

theorem Gives.both {c : Instr} {s : State} {P Q : State → Prop} (hP : Gives c s P) (hQ : Gives c s Q) : ∃ t, P t ∧ Q t := by
  obtain ⟨t, ht, hPt⟩ := hP
  obtain ⟨u, hu, hQu⟩ := hQ
  obtain rfl : t = u := Host.Outcome.next.inj (ht.symm.trans hu)
  exact ⟨t, hPt, hQu⟩

theorem freeNow_issuedAt_tagged {x : Nat} {s : State} (h : TagsNext s x) (pc cls : Nat) (raised : Bool) :
    freeNow (issuedAt x pc cls raised s) = (Config.freeWord (s.freeCtr + 2)).toNat := by
  rw [freeNow, freeCtr_issuedAt, if_pos h]

theorem freeNow_issuedAt_untagged {x : Nat} {s : State} (h : ¬ TagsNext s x) (pc cls : Nat) (raised : Bool) :
    freeNow (issuedAt x pc cls raised s) = freeNow s := by
  rw [freeNow, freeCtr_issuedAt, if_neg h, Nat.add_zero, freeNow]

/-- The device in READY with pair A running in Queen at address 0, its next instruction to be tagged, and `n` free values drawn. -/
def taggedState (n : Nat) : State := { setRg (pANT 0) 0xE0 0x11 (setRg pSYS 0x44 2 State.reset) with freeCtr := n }

theorem taggedState_issues (n : Nat) : Issues ⟨.a, .good⟩ (taggedState n) :=
  (by decide : Issues ⟨.a, .good⟩ (taggedState 0))

theorem taggedState_exl (n : Nat) : bit (stagH (taggedState n) (pairIx .a)).status 3 = false :=
  (by decide : bit (stagH (taggedState 0) (pairIx .a)).status 3 = false)

theorem taggedState_tagsNext (n : Nat) : TagsNext (taggedState n) (pairIx .a) :=
  (by decide : TagsNext (taggedState 0) (pairIx .a))

/-- What O22 turns on, which leaves it open: all of it holds but for `EADDR` of a tagged `TRAP` or illegal instruction, where it
equates two free values. `Config.freeWord` is opaque (log entry 7), so the right-hand side has neither a proof nor a refutation. -/
theorem exceptionEntryAndReturn_iff :
    Obligations.ExceptionEntryAndReturn ↔ ∀ n, Config.freeWord (n + 2) = Config.freeWord n := by
  constructor
  · intro hO n
    have hiss := taggedState_issues n
    have hexl := taggedState_exl n
    obtain ⟨htrap, -⟩ := hO (taggedState n) ⟨.a, .good⟩ _ rfl _ rfl _ rfl
    obtain ⟨t, ⟨-, hclaim, -⟩, -, hmodel, -⟩ := (htrap hiss hexl).both (trap_enters hiss hexl)
    rw [freeNow_issuedAt_tagged (taggedState_tagsNext n), hclaim] at hmodel
    exact (BitVec.eq_of_toNat_eq hmodel).symm
  · intro hfree s f x hx h hh pc hpc
    subst hx hh hpc
    have hnow : ∀ cls, freeNow (issuedAt (pairIx f.pair) (stagPc s (pairIx f.pair)) cls true s) = freeNow s := by
      intro cls
      by_cases htag : TagsNext s (pairIx f.pair)
      · rw [freeNow_issuedAt_tagged htag, hfree, freeNow]
      · exact freeNow_issuedAt_untagged htag _ _ _
    refine ⟨fun hiss hexl => ?_, fun hiss hexl => ?_, fun e hdue hlen he => ?_, retx_retires⟩
    · have htrap := trap_enters hiss hexl
      rwa [hnow] at htrap
    · have hill := illegalInstruction_enters hiss hexl
      rwa [hnow] at hill
    · obtain ⟨t, ht, hpair, hpend, htick, hmem, hpages, honly⟩ := interruptEntry_enters hdue hlen he
      refine ⟨t, ht, ?_⟩
      simp only [stagPc, hpair, true_and]
      exact ⟨hpend, htick, hmem, hpages, honly⟩

end Sys2Proof.Machine
end
